-- ==== Sys2Proof/Word.lean ====
section
/-! DEFINITION. The words of the module (R5, R6): bytes, registers, lanes and bank words. -/

namespace Sys2Proof

/-- One byte of device memory. -/
abbrev Byte := BitVec 8
/-- A register of the register tables (R463: registers are 32 bits wide). -/
abbrev Reg := BitVec 32
/-- A lane of a bank word, an instruction word, an S-tile register. -/
abbrev Lane := BitVec 64
/-- A 512-bit bank word, which is also the payload of one flit (R45, R61). -/
abbrev Word := BitVec 512
/-- A VX register of a V-tile. -/
abbrev Vec := BitVec 8192

end Sys2Proof
end

