-- ==== Sys2Proof/Syntax.lean ====
section
/-! DEFINITION. The commands of the module: one constructor per row of spec/opcode_table.json, and what a command carries
from outside the module (log entry 2 says what each operand stands for). -/

namespace Sys2Proof

/-- The path of a register access (R464): the host, or a core of the management complex. -/
inductive Path where
  | host
  | mgmt (core : Nat)
  deriving DecidableEq, Repr

/-- What a register access addresses: a BAR0 offset, or a device address inside a register area (R42, R43, R462). -/
inductive RegAt where
  | bar0 (off : Nat)
  | dev (addr : Nat)
  deriving DecidableEq, Repr

/-- The shape of a PCI Express memory request (R463): doublewords, and byte enables, the first doubleword's in [3:0] and
the last one's in [7:4] (0 where there is only one doubleword). -/
structure BusReq where
  off : Nat
  dws : Nat
  be : Nat
  deriving DecidableEq, Repr

/-- A service request (R381): `via` is 0 for the mailbox, 1 + p for Ethernet port p; `rsvd` is the request's reserved
header bytes read as one number, 0 in a good request. -/
structure OdReq where
  via : Nat
  tag : Nat
  session : Nat
  index : Nat
  sub : Nat
  rsvd : Nat
  data : List Byte
  deriving DecidableEq, Repr

/-- A domain request: by a write of the register PWR_DOM_REQ on a path, or by a service write of DomainRequest (R491, R505, R506). -/
inductive DomReq where
  | reg (path : Path) (data : Reg)
  | od (req : OdReq)
  deriving DecidableEq, Repr

/-- One firmware slot of the carrier's flash (R503). -/
structure FwSlot where
  image : List Byte
  sig : List Byte
  major : Nat
  minor : Nat
  build : Nat
  deriving DecidableEq, Repr

/-- What start-up meets outside the module (R500 to R504): pins, supplies, references, the parts' self-test and training
results. `fails` lists the step that fails in the first and the second pass, 0 for none. -/
structure StartEnv where
  oscDly : Nat
  commission : Bool
  v48 : Bool
  refA : Bool
  refB : Bool
  fails : List Nat
  badTiles : List Nat
  colRate : List (Nat × Nat)
  slotA : FwSlot
  slotB : FwSlot
  perstReleased : Bool
  linkTrains : Bool
  times : List Nat
  deriving DecidableEq, Repr

/-- What the time base and the tiles' clock give at a frame boundary: nanoseconds and CK_TILE cycles since the boundary
before, the field network's instant less the module's own in tc (R21), and the safety connections on whose containers the two CRC
units of a port tile disagree (R374). -/
structure BoundaryEnv where
  ns : Nat
  tcs : Nat
  err : Int
  crc : List Nat
  deriving DecidableEq, Repr

/-- The configuration-space fields a configuration write sets (R460, R461, R478). -/
structure CfgWrite where
  busMaster : Bool
  msixEnable : Bool
  msixMask : Bool
  deriving DecidableEq, Repr

/-- The safety table of a sentinel launch (R396); its byte layout is not in the manual (log entry 10). Tiles are positions. -/
structure SafetyTable where
  setA : List Nat
  setB : List Nat
  setC : List Nat
  ht : List (Nat × Nat)
  port : Nat
  moved : List (Nat × Nat × Nat)
  carriedA : Nat
  carriedB : Nat
  mirrors : Bool
  deriving DecidableEq, Repr

/-- The re-execution table (R400). -/
structure ReexecTable where
  base : Nat
  every : Nat
  deriving DecidableEq, Repr

/-- A rescale that the learning code derives (R129): the tags of its activation and output tensors, and its m and s. -/
structure Rescale where
  act : Nat
  out : Nat
  m : Nat
  s : Nat
  deriving DecidableEq, Repr, Inhabited

/-- The data of one problem that the manual names without giving its bytes a place: couplings as stored (i, j, code), codebook (the
value of each code), biases in eu; the coupling tensor's tag; its field descriptor (R153); its rescales; the device address of a real-time
problem's frame output in the output bank that the image names (R170); the tier that the image names for its couplings, 0 the HBM, 1 the
capacity tier, none where they stay on die (R171). -/
structure ProblemData where
  couplings : List (Nat × Nat × Nat)
  codebook : List Int
  bias : List Int
  tag : Nat
  field : Nat
  rescales : List Rescale
  output : Option Nat
  tier : Option Nat
  deriving DecidableEq, Repr, Inhabited

/-- What the decoder of a link input finds in the flit that arrives there (R61, R75, R95): errors corrected, and the lanes (bit 8 the
header) whose errors are uncorrectable. -/
structure LinkErr where
  input : Nat
  fixed : Nat
  lanes : Nat
  deriving DecidableEq, Repr

/-- How far the program of a problem of a launch has come: steps completed (R165). -/
structure Stand where
  launch : Nat
  problem : Nat
  steps : Nat
  deriving DecidableEq, Repr

/-- What an image carries without a byte layout in the manual (log entry 10): the plan length L, the frame period it was built for,
whether a window of it holds a transmit object, the safety and re-execution tables, and whether the steps of its real-time problems fit
their windows as it plans them (R169). -/
structure LaunchAux where
  planLen : Nat
  period : Nat
  sends : Bool
  safety : Option SafetyTable
  reexec : Option ReexecTable
  stepsFit : Bool
  deriving DecidableEq, Repr


/-- The commands of the module: one constructor per row of spec/opcode_table.json. -/
inductive Instr where
  /-- POWER_ON (R501): The 3.3 V auxiliary supply comes up: the Helmet boots and runs start-up steps 1 to 10, with one retry from step 3 after a first halt. -/
  | powerOn (env : StartEnv)
  /-- RESET_N (R497): A valid RESET_n assertion switches domains off, and on release start-up reruns from step 3. -/
  | resetN (ns : Nat)
  /-- MAIN_SUPPLY_LOSS (R499): 48 V stays below 36 V for 100 µs: every domain but PD_AON is switched off without draining. -/
  | mainSupplyLoss
  /-- AUX_SUPPLY_LOSS (R513): Loss of 3V3_AUX drops both SAFE outputs and switches the compute die off without draining. -/
  | auxSupplyLoss
  /-- PERST_RELEASE (R504): The host releases PERST#, letting PCI Express link training of start-up step 10 proceed. -/
  | perstRelease
  /-- PERST_ASSERT (R504): An assertion of PERST# after start-up acts as a function-level reset and the link retrains. -/
  | perstAssert (held : Nat)
  /-- FLR (R471): A function-level reset drains or discards posted writes, resets the ring and restores host-side registers. -/
  | flr (held : Nat)
  /-- REF_LOSS (R480): A reference shows no edge for 200 ns or leaves ±2 %; the root PLL enters holdover and relocks to the other reference if valid. -/
  | refLoss (b : Bool)
  /-- REF_VALID (R480): A lost reference has measured good for 10 ms and becomes valid again. -/
  | refValid (b : Bool)
  /-- PLL_RELOCK (R480): The root PLL completes relocking to a valid reference and leaves holdover; suspended frames resume at the next boundary. -/
  | pllRelock
  /-- HOLDOVER_EXPIRY (R481): With both references lost, 100 ms of holdover expire and frame boundaries are skipped from then on. -/
  | holdoverExpiry
  /-- DIE_TEMP_READ (R484): Every 1 ms the Helmet reads the hottest die sensor and chooses the CK_TILE step. -/
  | dieTempRead (temp : Int)
  /-- FRAME_BOUNDARY (R13): At the first CK_TILE edge at or after a frame instant a frame begins: FrameCount, budgets, stretch, CK_TILE step, sync slewing and safety connections are updated and frame programs restart. -/
  | frameBoundary (env : BoundaryEnv)
  /-- FRAME_SOURCE_WRITE (R18): A write to FrameSource is refused or takes effect at the next frame boundary. -/
  | frameSourceWrite (req : OdReq)
  /-- FRAME_PERIOD_WRITE (R18): A write to FramePeriod is refused or takes effect at the next frame boundary. -/
  | framePeriodWrite (req : OdReq)
  /-- SYNC_MESSAGE (R363): A valid gPTP Sync message updates PtpOffset and may start slewing from holdover. -/
  | syncMessage (offset : Int)
  /-- SYNC_TIMEOUT (R363): No valid Sync arrives for four intervals and FrameSyncState becomes holdover. -/
  | syncTimeout
  /-- WINDOW_START (R224): A window reaches its START: bank declarations apply and, on a change of glove, the 64 tc register clear runs. -/
  | windowStart (pos win : Nat)
  /-- WINDOW_END (R231): A window reaches END: STATE_AFTER applies, and an unfinished program takes WINDOW_END or RECV_EMPTY. -/
  | windowEnd (pos : Nat)
  /-- BANK_WAKE (R51): A bank wake to ON begins 300 or 300 + W tc before the tc from which ON applies. -/
  | bankWake (bank : Nat)
  /-- BANK_SCRUB_VISIT (R54): The bank scrubber reads a word on a free port B tc and writes back any single-bit correction unless cancelled. -/
  | bankScrubVisit (bank word : Nat)
  /-- COMMONS_QUEUED_SERVICE (R57): A queued commons crossbar request is served in a later tc in the order of reads, writes and statistics adds. -/
  | commonsQueuedService (cluster bank : Nat)
  /-- SLOT_FWD (R72): A router output forwards or delivers one VC0 flit per its slot entry, checking it against the plan. -/
  | slotFwd (pos out tc : Nat) (errs : List LinkErr)
  /-- COMBINE_ADD (R82): A router adds the named input flits lane by lane modulo 2^64. -/
  | combineAdd (pos out tc : Nat) (errs : List LinkErr)
  /-- COMBINE_TOPK (R83): A router merges candidate lists by key and position. -/
  | combineTopk (pos out tc : Nat) (errs : List LinkErr)
  /-- COMBINE_BAR (R84): A router counts barrier arrivals and keeps the latest arrival stamp. -/
  | combineBar (pos out tc : Nat) (errs : List LinkErr)
  /-- COMBINE_FLAG (R85): A router ORs all 512 bits of its inputs. -/
  | combineFlag (pos out tc : Nat) (errs : List LinkErr)
  /-- VC_FLIT_FORWARD (R67): A VC1-VC3 flit waiting with a credit is sent in an open tc by the VC priority order. -/
  | vcFlitForward (pos out tc : Nat) (err : Option LinkErr)
  /-- VC3_RECORD_RELEASE (R87): A coalesced VC3 record held for at least 64 tc leaves toward the Helmet link tile. -/
  | vc3RecordRelease (pos tc : Nat) (err : Option LinkErr)
  /-- LEDGER_REQUEST (R78): A VC2 request flit reaches a port tile's share ledger. -/
  | ledgerRequest (pos op : Nat)
  /-- LEDGER_GRANT (R78): The ledger grants a pending request by deficit round robin and data moves. -/
  | ledgerGrant (pos : Nat)
  /-- COL_RETRAIN (R90): A Col link above its error limit retrains in the frame tail to full, half or quarter rate, or fails. -/
  | colRetrain (row rate : Nat)
  /-- NOP (R233): Holds issue for COUNT tc. -/
  | nop (pos tc : Nat)
  /-- WAITT (R233): Holds issue until a given plan tc. -/
  | waitt (pos tc : Nat)
  /-- LOOP (R228): Repeats the following body COUNT times. -/
  | loop (pos tc : Nat)
  /-- YIELD (R231): Ends the window's program. -/
  | yield (pos tc : Nat)
  /-- HALTF (R233): Starts a stopped dry run of the launch slot if the named FL bit is set. -/
  | haltf (pos tc : Nat)
  /-- SEND (R235): Hands NW words to the router on VC0. -/
  | send (pos tc : Nat)
  /-- RECV (R235): Takes the next NW flits delivered at the local output into a bank, FL or registers. -/
  | recv (pos tc : Nat)
  /-- SENDM (R239): Queues one VC1 or VC2 message with header and data words. -/
  | sendm (pos tc : Nat)
  /-- BAR (R233): Hands one barrier-marked flit with an arrival stamp. -/
  | bar (pos tc : Nat)
  /-- BARW (R233): Holds issue until a barrier flit with TAG is delivered, and consumes it. -/
  | barw (pos tc : Nat)
  /-- BARW_TIMEOUT (R233): A BARW reaches MAXW and takes BAR_TIMEOUT. -/
  | barwTimeout (pos tc : Nat)
  /-- FLAG (R233): Hands FL as one flit for the FLAG combine. -/
  | flag (pos tc : Nat)
  /-- LDP (R233): Loads parameter registers from bank or commons words. -/
  | ldp (pos tc : Nat)
  /-- LAC (R101): Streams N activation vectors through the code array and adds row sums into slots. -/
  | lac (pos tc : Nat)
  /-- LDC_A (R105): Loads 64 words into the code array. -/
  | ldcA (pos tc : Nat)
  /-- LDC_B (R99): Loads one word into a codebook quarter with residues. -/
  | ldcB (pos tc : Nat)
  /-- LDC_S (R109): Sets or adds 16 RAW64 words into one accumulator slot. -/
  | ldcS (pos tc : Nat)
  /-- RSC (R111): Rescales slot rows to an output format and writes or sends them. -/
  | rsc (pos tc : Nat)
  /-- TOPK (R116): Selects the K largest rescaled rows, optionally merged with a list. -/
  | topk (pos tc : Nat)
  /-- VLD (R244): Loads words into a VX register. -/
  | vld (pos tc : Nat)
  /-- VST (R244): Stores a VX register to bank or commons. -/
  | vst (pos tc : Nat)
  /-- VOP (R245): Performs a lane-wise integer function on VX registers. -/
  | vop (pos tc : Nat)
  /-- VLUT (R244): Evaluates exp_lut or logistic_lut per lane. -/
  | vlut (pos tc : Nat)
  /-- SAMP_UNIFORM (R246): Writes four uniform Steppe words per lane. -/
  | sampUniform (pos tc : Nat)
  /-- SAMP_BERNOULLI (R197): Forms a 1,024-bit Bernoulli mask. -/
  | sampBernoulli (pos tc : Nat)
  /-- SAMP_GAUSSIAN (R198): Forms a near-Gaussian draw per lane. -/
  | sampGaussian (pos tc : Nat)
  /-- SAMP_METROPOLIS (R162): Applies the Metropolis acceptance test to each lane's spin. -/
  | sampMetropolis (pos tc : Nat)
  /-- SAMP_HEAT_BATH (R162): Sets each lane's spin by the heat-bath test. -/
  | sampHeatBath (pos tc : Nat)
  /-- DYN_STEP (R154): Performs the continuous dynamics step with noise for each lane. -/
  | dynStep (pos tc : Nat)
  /-- DYN_GROUP_TRANSFER (R178): Applies the paired one-of-N transfers of a step. -/
  | dynGroupTransfer (pos tc : Nat)
  /-- DYN_GROUP_ROUND (R181): Rounds each group to its argmax member. -/
  | dynGroupRound (pos tc : Nat)
  /-- CATS (R203): Draws one candidate from a list by top-k, top-p and temperature. -/
  | cats (pos tc : Nat)
  /-- QLD (R134): Loads and checks the map table and grid step. -/
  | qld (pos tc : Nat)
  /-- QMAP (R135): Maps wide lane values to codebook codes. -/
  | qmap (pos tc : Nat)
  /-- DINC (R244): Adds an immediate to one field of a draw descriptor. -/
  | dinc (pos tc : Nat)
  /-- ALU (R250): Performs a 64-bit integer function on S-tile registers. -/
  | alu (pos tc : Nat)
  /-- ALUI (R250): Performs an integer function with an immediate operand. -/
  | alui (pos tc : Nat)
  /-- FPU (R250): Performs an IEEE 754 floating-point function. -/
  | fpu (pos tc : Nat)
  /-- LD (R251): Loads from own banks or commons into a register. -/
  | ld (pos tc : Nat)
  /-- ST (R251): Stores a register to own banks or commons. -/
  | st (pos tc : Nat)
  /-- BR (R252): Branches forward on a condition. -/
  | br (pos tc : Nat)
  /-- SYS (R254): Reads or writes a system register, or waits for an interrupt in the management complex. -/
  | sys (pos tc : Nat)
  /-- LI (R253): Loads an immediate into a register half. -/
  | li (pos tc : Nat)
  /-- FLS (R253): Sets an FL bit from a register or reads it. -/
  | fls (pos tc : Nat)
  /-- CHECKPOINT (R165): At a checkpoint step the problem rounds, computes energies and updates valleys, passes, best, plains and swaps. -/
  | checkpoint (stand : Stand)
  /-- SAMPLE_POINT (R210): At a sample-point sweep contributing replicas add to NSAMP, MARG and PAIR. -/
  | samplePoint (stand : Stand)
  /-- LEARNING_ITERATION (R214): At an iteration end the masters are updated from the counts, which are then zeroed. -/
  | learningIteration (launch problem steps : Nat)
  /-- LEARNING_CHECKPOINT (R215): Biases, scale codes, codes and rescale descriptors are rebuilt from the masters. -/
  | learningCheckpoint (launch problem steps : Nat)
  /-- DRIFT_CHECK (R144): Every DriftCheckPeriod frames the management complex reads each watch's row and tests MSE and saturation. -/
  | driftCheck
  /-- DRIFT_GLOVE_WRITE (R143): A write to DriftGlove returns the watch to waiting or unused and discards its baseline. -/
  | driftGloveWrite (req : OdReq)
  /-- DRIFT_TENSOR_WRITE (R143): A write to DriftTensor restarts the watch's baseline. -/
  | driftTensorWrite (req : OdReq)
  /-- DRIFT_ENABLE_WRITE (R143): A write to DriftEnable restarts the watch's baseline. -/
  | driftEnableWrite (req : OdReq)
  /-- HQ_TAIL_WRITE (R308): A doorbell write moves HQ_TAIL or is ignored and flagged. -/
  | hqTailWrite (data : Reg)
  /-- HQ_RESET (R312): A write of RESET stops reading entries, discards prefetched buffers and orphans ops in flight. -/
  | hqReset (data : Reg)
  /-- HQ_RESET_DONE (R312): The ring reset completes: head and tail zero, ENABLE cleared, source 4 raised. -/
  | hqResetDone
  /-- BUFFER_PREFETCH (R311): The front end reads an entry beyond the current one and its first descriptors into the prefetch store. -/
  | bufferPrefetch
  /-- BUFFER_CURRENT (R314): The next entry becomes current and all its descriptors are read and checked. -/
  | bufferCurrent
  /-- OP_DISPATCH (R316): An op of the current buffer enters the in-flight table when it has room. -/
  | opDispatch
  /-- NOP_OP (R319): A NOP op completes OK when it starts. -/
  | nopOp (op : Nat)
  /-- COPY (R320): A COPY op is checked whole and copies bytes between host and device or within device. -/
  | copy (op : Nat)
  /-- FILL (R320): A FILL op writes a repeated pattern to device memory. -/
  | fill (op : Nat)
  /-- DMA_BURST (R320): A DMA channel moves the next burst of up to 4 KiB of a COPY or FILL. -/
  | dmaBurst (op : Nat) (tc : Option Nat)
  /-- LAUNCH (R329): A LAUNCH op reads its constant buffer and enters admission. -/
  | launch (op : Nat) (aux : LaunchAux) (peers : List (List Byte))
  /-- SEED_DRAW (R195): The front end takes two DRBG words as the drawn seed once both are available. -/
  | seedDraw
  /-- LOADING_DONE (R329): Loading completes: stores written, banks set and leaves formed; the placement digest is compared. -/
  | loadingDone
  /-- LAUNCH_START (R23): An armed launch's frame programs start on all its tiles at its start boundary. -/
  | launchStart
  /-- LAUNCH_END (R330): At a boundary a launch whose slots all run dry is found ended with its status. -/
  | launchEnd
  /-- LAUNCH_RELEASE (R24): An ended or killed launch releases its windows at the next boundary. -/
  | launchRelease
  /-- TICKET_WRITE (R279): The ticket and annex are signed and written once the security functions run. -/
  | ticketWrite
  /-- WAIT_SEM (R322): A WAIT_SEM op reads its word and completes when it reaches the threshold. -/
  | waitSem (op : Nat) (tc : Option Nat)
  /-- WAIT_SEM_POLL (R322): A waiting WAIT_SEM re-reads its word every 256 or 4,096 tc. -/
  | waitSemPoll (op : Nat) (tc : Option Nat)
  /-- SIGNAL_SEM (R323): A SIGNAL_SEM op adds to or writes its semaphore word. -/
  | signalSem (op : Nat) (tc : Option Nat)
  /-- DRAIN (R331): A DRAIN op records a drain request for a named launch. -/
  | drain (op : Nat)
  /-- KILL (R331): A KILL op records a kill for a named launch. -/
  | kill (op : Nat)
  /-- DRAIN_DELIVERY (R332): At the next boundary a drain sets LAUNCHCTL on the launch's tiles and the program halts after its step. -/
  | drainDelivery (stands : List Stand)
  /-- KILL_DONE (R332): The last bank of a killed launch is zeroed and the op completes KILLED. -/
  | killDone
  /-- OP_TRIGGER (R318): A completed op starts its NEXT triggered op within 4 tc or skips it. -/
  | opTrigger
  /-- BUFFER_RETIRE (R310): A buffer whose ops all completed retires in order, with completion record and head write-back. -/
  | bufferRetire
  /-- NO_PROGRESS_LIMIT (R334): An op's no-progress timer reaches 2^LIMIT_EXP and the op is drained, killed or stopped. -/
  | noProgressLimit (op : Nat)
  /-- BUDGET_STALL_RETRY (R355): An action stalled on a spent allowance is retested at the next frame boundary. -/
  | budgetStallRetry (op : Nat)
  /-- MEM_READ (R294): A memory request READ at its home port tile delivers words to one or two destinations. -/
  | memRead (pos : Nat)
  /-- MEM_WRITE (R294): A memory request WRITE stores data words and may signal completion by an atomic add. -/
  | memWrite (pos : Nat)
  /-- ECC_WRITE_BACK (R300): A corrected tier word is written back in a free cycle unless written first. -/
  | eccWriteBack (addr : Nat)
  /-- STREAM_READ_AHEAD (R297): A memory port tile reads stream words ahead of their slots into its buffer. -/
  | streamReadAhead (pos tag : Nat)
  /-- HASH_PASS_START (R298): A free hash engine takes the lowest chunk stale and quiet for 1,024 tc. -/
  | hashPassStart (pos : Nat) (quiet : List Nat)
  /-- HASH_PASS_DONE (R298): A hash engine finishes reading a chunk and sets its leaf VALID. -/
  | hashPassDone (pos : Nat) (chunk : Nat)
  /-- PATROL_SCRUB_VISIT (R301): The patrol scrubber reads and corrects a tier word in a free cycle. -/
  | patrolScrubVisit (addr : Nat)
  /-- MEM_TEMP_READ (R302): In each frame tail a memory port tile reads its temperature and chooses its rate for the next boundary. -/
  | memTempRead (pos : Nat) (temp : Int)
  /-- MEM_ASSIGN_COMMIT (R290): A write of MemAssignCommit is refused or starts a chunk assignment. -/
  | memAssignCommit (req : OdReq)
  /-- MEM_ASSIGN_TRANSIT (R290): At the next boundary the named chunks become TRANSIT and scrubs start where required. -/
  | memAssignTransit
  /-- CHUNK_SCRUB_DONE (R290): A chunk scrub finishes with zeros and a valid zero leaf. -/
  | chunkScrubDone (chunk : Nat)
  /-- MEM_ASSIGN_DONE (R290): At a later boundary the chunks become OWNED or FREE and MemAssignState reads 3. -/
  | memAssignDone
  /-- BAR2_READ (R467): A host read through a BAR2 segment reaches device memory or registers for the segment's glove. -/
  | bar2Read (req : BusReq) (tc : Option Nat)
  /-- BAR2_WRITE (R467): A host write through a BAR2 segment reaches device memory or registers for the segment's glove. -/
  | bar2Write (req : BusReq) (data : List Byte) (tc : Option Nat)
  /-- REGISTER_WRITE (R463): A host or management write to a register without behaviour of its own, checked by width and alignment. -/
  | registerWrite (path : Path) (at_ : RegAt) (dws be : Nat) (data : Nat)
  /-- RC_READ (R463): A read of an RC field returns and clears it. -/
  | rcRead (path : Path) (at_ : RegAt) (dws be : Nat)
  /-- COUNTER_LO_READ (R464): A read of a _LO counter register snapshots the high half for the path. -/
  | counterLoRead (path : Path) (at_ : RegAt) (dws be : Nat)
  /-- GLOVE_OPEN_REQUEST (R339): A tag written to GloveOpenRequest opens the lowest FREE glove or is refused. -/
  | gloveOpenRequest (req : OdReq)
  /-- GLOVE_RESET (R340): A write to GloveReset kills the glove's work and scrubs its banks. -/
  | gloveReset (req : OdReq)
  /-- GLOVE_RESET_DONE (R340): The last scrub of a resetting glove ends and it becomes ACTIVE. -/
  | gloveResetDone (g : Nat)
  /-- GLOVE_CLOSE (R341): A write to GloveClose frees an idle glove or is refused. -/
  | gloveClose (req : OdReq)
  /-- GLOVE_RELAXED_WRITE (R275): A write to GloveRelaxed is refused while the glove has an admitted launch. -/
  | gloveRelaxedWrite (req : OdReq)
  /-- GLOVE_BUDGET_WRITE (R356): A write to a budget row is refused or takes effect at the next boundary. -/
  | gloveBudgetWrite (req : OdReq)
  /-- BANK_HANDOVER_REQUEST (R348): A GO write to a bank owner register is refused or accepted as a pending handover. -/
  | bankHandoverRequest (bank : Nat) (data : Reg)
  /-- BANK_OWNER_CHANGE (R349): At B + 2 the bank's owner becomes NEXT and any scrub begins. -/
  | bankOwnerChange (bank : Nat)
  /-- BANK_HANDOVER_SCRUB_DONE (R350): A handover scrub finishes; the bank is ON and zero and PENDING clears. -/
  | bankHandoverScrubDone (bank : Nat)
  /-- RX_FRAME (R364): A process-data frame arrives, is filtered and recovered, and is kept for its frame or discarded. -/
  | rxFrame (port : Nat) (late : Bool) (ns : Nat) (data : List Byte)
  /-- PORT_LINK_CHANGE (R389): An Ethernet port's link changes state and sessions on it end when it goes down. -/
  | portLinkChange (port : Nat) (up : Bool)
  /-- TX_FETCH (R369): At FetchTc the port tile reads every transmit object of a stream. -/
  | txFetch (stream tc : Nat)
  /-- REPLICA_COMPARISON (R398): The comparing port tile compares both copies and flags and chooses what is sent. -/
  | replicaComparison (launch : Nat) (agree : Bool)
  /-- TX_DATA_DEADLINE (R370): At TxOffset − 300 a stream lacking data is marked to go with NO_DATA. -/
  | txDataDeadline (stream : Nat)
  /-- TX_FRAME (R369): A transmit frame leaves the port at TxOffset or waits for its gate. -/
  | txFrame (stream : Nat) (crc : List Nat)
  /-- GCL_COMMIT (R362): A write of GclCommit schedules the gate control list for the next frame instant. -/
  | gclCommit (req : OdReq)
  /-- SAFETY_ACK (R375): A write of SafetyAck returns a FAILSAFE connection to SYNC at the next boundary. -/
  | safetyAck (req : OdReq)
  /-- STREAM_ENABLE_WRITE (R366): A write of RxEnable or TxEnable takes effect at the next frame boundary. -/
  | streamEnableWrite (req : OdReq)
  /-- ARP_REQUEST (R381): The module answers ARP for its service address. -/
  | arpRequest (port : Nat) (data : List Byte)
  /-- READ (R381): A service READ returns an object dictionary entry. -/
  | readEntry (req : OdReq)
  /-- WRITE (R383): A service WRITE to an entry without behaviour of its own is checked, logged and applied. -/
  | writeEntry (req : OdReq)
  /-- NONCE (R379): A NONCE request returns 16 bytes from a DRBG instance. -/
  | nonceRequest (req : OdReq)
  /-- OPEN (R379): An OPEN request verifies a credential signature and opens a session. -/
  | openSession (req : OdReq)
  /-- CLOSE (R379): A CLOSE request ends a session. -/
  | closeSession (req : OdReq)
  /-- SESSION_IDLE_TIMEOUT (R379): A session without a request for SessionIdle seconds ends. -/
  | sessionIdleTimeout (session : Nat)
  /-- CREDENTIAL_WRITE (R380): A write to a credential is checked against its roles and the commissioning strap. -/
  | credentialWrite (req : OdReq)
  /-- AUDIT_RECORD_STORED (R385): The Helmet stores an audit record, letting the logged write take effect. -/
  | auditRecordStored
  /-- AUDIT_SIGN_REQUEST (R386): A write to AuditSignRequest signs the chain head. -/
  | auditSignRequest (req : OdReq)
  /-- ODM_DOORBELL (R473): A GO write copies the mailbox request and serves it, then writes the response and raises source 334. -/
  | odmDoorbell (data : Reg)
  /-- HEALTH_FLIT (R397): At HT each sentinel tile hands its check latch and clears it. -/
  | healthFlit (launch pos : Nat)
  /-- REPLICA_FENCE (R399): At the next boundary the flagged set enters a faulted dry run and its tiles are fenced. -/
  | replicaFence (launch : Nat)
  /-- SPARE_RESTART (R399): The spare set C is restarted and becomes the healthy set's partner. -/
  | spareRestart (launch : Nat)
  /-- FAULT_RECORD (R403): A VC3 record reaches the Helmet and its code's reaction is taken. -/
  | faultRecord
  /-- REEXECUTION (R402): An offline launch is moved to its next alternate placement from its newest sound checkpoint. -/
  | reexecution (launch : Nat) (newest : Option Nat)
  /-- IC_CLAIM (R477): A read of IC_CLAIMn takes a pending source and clears it, or returns spurious. -/
  | icClaim (proc n : Nat)
  /-- MGMT_WAKE (R494): A wake event brings PD_MGMT on and the cores resume. -/
  | mgmtWake (frame : Bool)
  /-- MONITOR_SAMPLE (R393): Every 1 ms the Helmet samples its monitors and trips any out of range. -/
  | monitorSample (mv48 mv33 : Nat) (rails : List Int) (temp tileDev aonDev : Int) (helmet : Bool)
  /-- HLM_KICK (R394): A write of HLM_KICK services the management watchdog or counts as a missed kick. -/
  | hlmKick (data : Reg)
  /-- WATCHDOG_EXPIRY (R394): No valid kick within WatchdogPeriod: safe state WATCHDOG and the management complex is reset. -/
  | watchdogExpiry
  /-- FRAME_WATCHDOG_EXPIRY (R394): No frame boundary within twice FramePeriod puts the module in safe state. -/
  | frameWatchdogExpiry
  /-- SAFE_STATE_ACK (R395): A write to SafeStateAck clears cause bits whose conditions no longer hold. -/
  | safeStateAck (req : OdReq)
  /-- SAFE_TEST_TRIP (R393): A write to SafeTestTrip sets cause TEST within 1 ms. -/
  | safeTestTrip (req : OdReq)
  /-- SAFE_STATE_EXIT (R395): At a boundary with all causes cleared the SAFE outputs rise. -/
  | safeStateExit
  /-- SELF_TEST (R405): The Helmet tests an idle tile against known answers and injected errors. -/
  | selfTest (pos step secs : Nat) (wrong silent : Bool)
  /-- CELL_STARTUP_TEST_DONE (R412): An entropy cell's 4,096-sample start-up test ends and it becomes healthy or removed. -/
  | cellStartupTestDone (cell : Nat)
  /-- CELL_RETEST (R412): A removed cell repeats its start-up test once per second. -/
  | cellRetest (cell : Nat)
  /-- CONDITIONING_CALL (R413): The conditioner absorbs 1,024 raw bits and yields a block, completing seeds. -/
  | conditioningCall
  /-- SEC_STARTUP_TIMEOUT (R415): No first seed within 10 s of STARTUP sends the domain to FAILED. -/
  | secStartupTimeout
  /-- RECOVERY_TIMEOUT (R428): RECOVERY not ended within 1 s sends the domain to FAILED. -/
  | recoveryTimeout
  /-- KAT_REQUEST (R425): A write of KatRequest runs the selected known-answer tests in TEST. -/
  | katRequest (req : OdReq)
  /-- KAT_DONE (R425): A known-answer run completes; a failure puts the domain in FAILED. -/
  | katDone (wrong : Nat)
  /-- DRBG_GENERATE (R418): An instance with an empty buffer performs one 512-bit generate call. -/
  | drbgGenerate (inst : Nat)
  /-- DRBG_RESEED (R419): A due instance takes the next seed of the store and reseeds. -/
  | drbgReseed
  /-- DRBG_RESEED_REQUEST (R420): A write of DrbgReseedRequest reseeds a named instance. -/
  | drbgReseedRequest (req : OdReq)
  /-- DRBG_DATA_READ (R422): A read of DRBG_DATA consumes one buffer word or returns zero and sets ERR. -/
  | drbgDataRead (g be : Nat)
  /-- ATTEST_REQUEST (R431): A write of AttestRequest queues a signed attestation report. -/
  | attestRequest (req : OdReq)
  /-- ED25519_SIGN (R433): The public-key engine starts an Ed25519 signature with the identity key. -/
  | ed25519Sign (msg : List Byte)
  /-- ED25519_VERIFY (R435): The engine starts an Ed25519 verification. -/
  | ed25519Verify (key msg sig : List Byte)
  /-- ECDSA_SIGN (R434): The engine starts an ECDSA P-384 signature with a DRBG nonce. -/
  | ecdsaSign (hash : List Byte)
  /-- ECDSA_VERIFY (R435): The engine starts an ECDSA P-384 verification. -/
  | ecdsaVerify (key hash sig : List Byte)
  /-- PKE_COMPLETE (R433): A public-key operation completes after its fixed duration with a result or rejection code. -/
  | pkeComplete
  /-- PLX_ENABLE (R456): A write of PlxEnable starts or stops a Prolux link. -/
  | plxEnable (req : OdReq)
  /-- PLX_TRAINING_DONE (R444): Training ends and the link becomes UP or MISWIRED after the coordinate check. -/
  | plxTrainingDone (link lanes0 lanes1 serial coord peer : Nat)
  /-- PLX_CELL (R442): A Prolux cell is received, CRC-checked, acknowledged or replayed, and stored or credited. -/
  | plxCell (pos : Nat) (cell : List Byte) (corrected : Nat) (nak : Option Nat)
  /-- PLX_RETRAIN (R443): Too many replays or lost lock start retraining of a half-link. -/
  | plxRetrain (pos : Nat)
  /-- PLX_RETRAIN_DONE (R443): Retraining ends at 4, 2 or 1 lanes, or the link fails. -/
  | plxRetrainDone (pos lanes : Nat)
  /-- PLX_LINK_FAILED (R455): A failed link poisons awaited rounds and releases held windows. -/
  | plxLinkFailed (pos : Nat)
  /-- TIME_CELL_SEND (R445): Every 1 µs a time cell is sent on each UP link. -/
  | timeCellSend (now : Nat)
  /-- TIME_CELL (R446): A received time cell measures link delay and steers the system count. -/
  | timeCell (pos : Nat) (cell : List Byte) (now hops : Nat)
  /-- SYSTIME_HOLDOVER (R446): No time cell for 8 µs puts SysTimeState in holdover. -/
  | systimeHoldover
  /-- WINDOW_HOLD_TEST (R451): 64 tc before a MULTI window the launch tests for missing rounds and credits and may hold the window. -/
  | windowHoldTest (launch start stop : Nat)
  /-- EXCHANGE_COMBINE (R450): A Prolux exchange entry combines both contributions of a round once complete. -/
  | exchangeCombine (pos tag : Nat)
  /-- PLX_NOTICE (R452): A drain or kill notice cell is received, acted on and forwarded once. -/
  | plxNotice (pos : Nat) (cell : List Byte)
  /-- PLX_RECORD (R452): A forwarded fault record cell is passed to the Helmet and forwarded once. -/
  | plxRecord (pos : Nat) (cell : List Byte)
  /-- CLK_MUX_SWITCH (R485): A CLK_MUX GO requests a multiplexer switch or is refused while launches are admitted. -/
  | clkMuxSwitch (data : Reg)
  /-- CLK_MUX_DONE (R485): A switch completes after low phases of both clocks. -/
  | clkMuxDone
  /-- FREQ_MEASURE (R487): A CLK_FCNT GO starts or restarts a frequency measurement. -/
  | freqMeasure (data : Reg)
  /-- FREQ_MEASURE_DONE (R487): A measurement window ends and COUNT and DONE are set. -/
  | freqMeasureDone (edges : Nat)
  /-- CLK_GATE_REQUEST (R488): A CLK_GATE GO opens or closes a PLL gate or is refused with CLK_CHILD_BUSY. -/
  | clkGateRequest (data : Reg)
  /-- DOMAIN_OFF_REQUEST (R491): A request to switch a domain off is refused or moves it to DRAINING. -/
  | domainOffRequest (req : DomReq)
  /-- DOMAIN_ON_REQUEST (R493): A request to switch a domain on moves it to WAKING. -/
  | domainOnRequest (req : DomReq)
  /-- DOMAIN_OFF_DONE (R492): A draining domain empties its writes, closes its gate and switches off. -/
  | domainOffDone (d : Nat)
  /-- DOMAIN_ON_DONE (R493): A waking domain finishes its self-test or training and is ON. -/
  | domainOnDone (d : Nat) (failed : List Nat)
  /-- TILE_RESET (R498): A PWR_TILE_RESET GO resets one tile's register state or is refused. -/
  | tileReset (data : Reg)
  /-- PWR_WAKE_EXPIRY (R494): PWR_WAKE counts down to zero and wakes PD_MGMT. -/
  | pwrWakeExpiry
  /-- MAIN_SUPPLY_RETURN (R499): The 48 V input rises above 44 V, after a loss or after 3V3_AUX, and start-up runs from step 2. -/
  | mainSupplyReturn (env : StartEnv)
  /-- RESET_N_RELEASE (R497): RESET_n is released after a valid assertion and start-up reruns from step 3 through step 10. -/
  | resetNRelease (env : StartEnv)
  /-- ENTROPY_CELL_SAMPLE (R411): Every two CK_AON cycles each entropy cell is sampled and its repetition-count and adaptive-proportion tests run, removing a failing cell. -/
  | entropyCellSample (bits : Nat)
  /-- GRANDMASTER_CHANGE (R363): The gPTP best-master selection changes the grandmaster and FrameSyncState becomes slewing. -/
  | grandmasterChange (identity : List Byte)
  /-- PCIE_LINK_TRAINING_DONE (R504): PCI Express link training ends and the host link is up, completing start-up step 10 or a retrain after PERST#. -/
  | pcieLinkTrainingDone (us : Nat)
  /-- HOST_READ_COMPLETION (R461): A completion for a host read issued by the module arrives, or Completion Timeout expires, and an error completion ends the op with ACCESS_FAULT or retires the entry as invalid. -/
  | hostReadCompletion (tag : Nat) (ok : Bool) (data : List Byte) (tc : Option Nat)
  /-- BUS_MASTER_ENABLE_WRITE (R461): A configuration write changes Bus Master Enable, stopping or letting resume every host read and write the module issues. -/
  | busMasterEnableWrite (cfg : CfgWrite)
  deriving DecidableEq, Repr

end Sys2Proof
end

