-- ==== Sys2Proof/Decode.lean ====
section
/-! DEFINITION. The words that spell commands. No row of spec/opcode_table.json gives a command bits (log entry 1), so none does. -/

namespace Sys2Proof

/-- The command that a word spells by the table's bits. -/
def decodeTableWord (_nbits _w : Nat) : Option Instr := none

end Sys2Proof
end

