-- ==== Sys2Proof/Config.lean ====
section
/-! DEFINITION. What the manual leaves open: the free values (log entry 9). Nothing constrains them. -/

namespace Sys2Proof

/-- The n-th free value: a value that the manual does not state. It has no body, so nothing can be proved about it. -/
opaque Config.freeValue : Nat → BitVec 64

/-- The lane result of an operation whose value the manual does not state, as a function of a number that names the
operation and of its operands. -/
opaque Config.openResult : Nat → Nat → Nat → BitVec 64

/-- The data of problem j that an image set and a parameter set hold in a layout of Salxil's that the manual does not give. -/
opaque Config.problemData (image params : List Byte) (j : Nat) : ProblemData

/-- The bank and word in which Salxil places counters 8n to 8n + 7 of problem j for a set of a placement (R211). -/
opaque Config.counterPlace (image placement : List Byte) (set j n : Nat) : Nat × Nat

/-- What a learning checkpoint writes: the device addresses and bytes in which Salxil keeps the biases, codes and descriptors of problem j
for a set of a placement (R132, R215, R265). -/
opaque Config.learnedBytes (image placement : List Byte) (set j : Nat) (d : ProblemData) : List (Nat × List Byte)

end Sys2Proof
end

