-- ==== Sys2Proof/Machine/Bits.lean ====
section
/-! DEFINITION. Bit fields, signed values and little-endian byte order, written once (R5, R6). -/

namespace Sys2Proof.Machine

/-- The signed value of the low `w` bits of `x`, two's complement (R6). -/
def signed (w x : Nat) : Int :=
  let y := x % 2 ^ w
  if y < 2 ^ (w - 1) then (y : Int) else (y : Int) - 2 ^ w

/-- The low `w` bits of an integer, two's complement (R6). -/
def unsigned (w : Nat) (i : Int) : Nat := (i % (2 ^ w : Int)).toNat

/-- Bits [lo + w - 1 : lo] of a number. -/
def fld (x lo w : Nat) : Nat := (x >>> lo) % 2 ^ w

/-- Bit `i` of a number. -/
def bitOf (x i : Nat) : Bool := x.testBit i

/-- A number with bits [lo + w - 1 : lo] replaced. -/
def putFld (x lo w v : Nat) : Nat :=
  x - (fld x lo w) * 2 ^ lo + (v % 2 ^ w) * 2 ^ lo

/-- 1 for true, 0 for false. -/
def ofBool (b : Bool) : Nat := if b then 1 else 0

/-- The number whose little-endian bytes are `l` (R5). -/
def leNat : List Byte → Nat
  | [] => 0
  | b :: l => b.toNat + 256 * leNat l

/-- The `n` little-endian bytes of a number (R5). -/
def leBytes : Nat → Nat → List Byte
  | 0, _ => []
  | n + 1, x => BitVec.ofNat 8 x :: leBytes n (x / 256)

/-- The number whose big-endian bytes are `l`. -/
def beNat (l : List Byte) : Nat := leNat l.reverse

/-- The `n` big-endian bytes of a number. -/
def beBytes (n x : Nat) : List Byte := (leBytes n x).reverse

/-- An integer held between two bounds. -/
def clampInt (lo hi i : Int) : Int := if i < lo then lo else if hi < i then hi else i

/-- A count that stops at `top`. -/
def satAdd (top x d : Nat) : Nat := if top < x + d then top else x + d

/-- Cut a list into pieces of `n` (the last may be shorter); `fuel` bounds the pieces. -/
def chunksOf {α : Type} : Nat → Nat → List α → List (List α)
  | 0, _, _ => []
  | _ + 1, _, [] => []
  | fuel + 1, n, l => l.take n :: chunksOf fuel n (l.drop n)

/-- The numbers `a, a + 1, … , a + n - 1`. -/
def span (a n : Nat) : List Nat := (List.range n).map (a + ·)

/-- The least power of two exponent `k` with `x ≤ 2 ^ k`. -/
def clog2 (x : Nat) : Nat := if x ≤ 1 then 0 else Nat.log2 (x - 1) + 1

/-- The greatest `r` below `acc + 2 ^ k` with `r * r ≤ n`, bit by bit from 2 ^ (k - 1) down. -/
def isqrtFrom (n : Nat) : Nat → Nat → Nat
  | 0, acc => acc
  | k + 1, acc => isqrtFrom n k (if (acc + 2 ^ k) * (acc + 2 ^ k) ≤ n then acc + 2 ^ k else acc)

/-- The integer part of a square root. -/
def isqrt (n : Nat) : Nat := isqrtFrom n (Nat.log2 n / 2 + 1) 0

/-- Put an element before the first that it may precede. -/
def insertBy {α : Type} (le : α → α → Bool) (x : α) : List α → List α
  | [] => [x]
  | y :: l => if le x y then x :: y :: l else y :: insertBy le x l

/-- Sort; elements that may precede each other keep their order. -/
def sortBy {α : Type} (le : α → α → Bool) (l : List α) : List α := l.foldr (insertBy le) []

end Sys2Proof.Machine
end

