-- ==== Sys2Proof/Machine/Flags.lean ====
section
/-! DEFINITION. Floating point (R250): IEEE 754 binary32 and binary64 with round to nearest even, and the sticky flags that each
operation raises. -/

namespace Sys2Proof.Machine

/-! ## Flags: invalid, division by zero, overflow, underflow, inexact (R250, R254) -/

def fpInvalid : Nat := 1
def fpDivZero : Nat := 2
def fpOverflow : Nat := 4
def fpUnderflow : Nat := 8
def fpInexact : Nat := 16

/-- FPFLAGS after an operation: sticky. -/
def stickyFlags (old new : Nat) : Nat := Nat.lor old new % 32

/-- A format: fraction bits and exponent bits. -/
structure Fmt where
  m : Nat
  e : Nat
  deriving DecidableEq, Repr

def b32 : Fmt := ⟨23, 8⟩
def b64 : Fmt := ⟨52, 11⟩

def Fmt.bias (f : Fmt) : Int := 2 ^ (f.e - 1) - 1
def Fmt.emin (f : Fmt) : Int := 1 - f.bias
def Fmt.width (f : Fmt) : Nat := f.m + f.e + 1
/-- The canonical quiet NaN (R250). -/
def Fmt.nan (f : Fmt) : Nat := (2 ^ (f.e + 1) - 1) * 2 ^ (f.m - 1)
def Fmt.inf (f : Fmt) (neg : Bool) : Nat := ofBool neg * 2 ^ (f.m + f.e) + (2 ^ f.e - 1) * 2 ^ f.m
def Fmt.zero (f : Fmt) (neg : Bool) : Nat := ofBool neg * 2 ^ (f.m + f.e)

/-- A value: its sign, and for a finite one its significand and exponent. -/
inductive FVal where
  | nan (signaling : Bool)
  | inf (neg : Bool)
  | fin (neg : Bool) (sig : Nat) (ex : Int)
  deriving DecidableEq, Repr

/-- The value that bits stand for. -/
def Fmt.decode (f : Fmt) (x : Nat) : FVal :=
  let neg := bitOf x (f.m + f.e)
  let ex := fld x f.m f.e
  let fr := fld x 0 f.m
  if ex = 2 ^ f.e - 1 then (if fr = 0 then .inf neg else .nan (!bitOf x (f.m - 1)))
  else if ex = 0 then .fin neg fr (f.emin - f.m)
  else .fin neg (2 ^ f.m + fr) ((ex : Int) - f.bias - f.m)

/-- A result: its bits, the flags it raises, and whether underflow hangs on when tininess is judged, which IEEE 754 leaves open
(log entry 9). -/
structure FRes where
  bits : Nat
  flags : Nat
  tiny : Bool
  deriving DecidableEq, Repr

/-- Halve `k` times, rounding to nearest, ties to even; and whether anything was lost. -/
def roundShift (x k : Nat) : Nat × Bool :=
  let q := x / 2 ^ k
  let r := x % 2 ^ k
  let up := decide (2 ^ k < 2 * r) || (decide (2 * r = 2 ^ k) && q % 2 == 1)
  (if up then q + 1 else q, r != 0)

/-- Round a number sig · 2^ex with sig > 0 into a format. -/
def Fmt.round (f : Fmt) (neg : Bool) (sig : Nat) (ex : Int) : FRes :=
  let top : Int := (Nat.log2 sig : Int) + ex
  let qe : Int := max top f.emin - f.m
  let (r, inexact) := if qe ≤ ex then (sig * 2 ^ (ex - qe).toNat, false) else roundShift sig (qe - ex).toNat
  let (r1, qe1) := if 2 ^ (f.m + 1) ≤ r then (r / 2, qe + 1) else (r, qe)
  let biased : Int := if r1 < 2 ^ f.m then 0 else qe1 + f.m + f.bias
  let tinyBefore := decide (top < f.emin)
  let (ra, _) := if (f.m : Int) + ex ≤ top then roundShift sig (top - f.m - ex).toNat else (0, false)
  let tinyAfter := tinyBefore && !(decide (top + 1 = f.emin) && decide (2 ^ (f.m + 1) ≤ ra))
  if (2 ^ f.e - 1 : Int) ≤ biased then ⟨f.inf neg, fpOverflow + fpInexact, false⟩
  else
    ⟨f.zero neg + biased.toNat * 2 ^ f.m + r1 % 2 ^ f.m,
      (if inexact then fpInexact else 0) + (if tinyAfter && inexact then fpUnderflow else 0), tinyBefore && !tinyAfter && inexact⟩

/-- A NaN result. -/
def Fmt.nanRes (f : Fmt) (invalid : Bool) : FRes := ⟨f.nan, if invalid then fpInvalid else 0, false⟩

def FVal.snan : FVal → Bool
  | .nan sg => sg
  | _ => false

def FVal.isNan : FVal → Bool
  | .nan _ => true
  | _ => false

/-- Round an exact sum or product; an exact zero takes the sign given. -/
def Fmt.ofExact (f : Fmt) (zeroNeg : Bool) (v : Int) (ex : Int) : FRes :=
  if v = 0 then ⟨f.zero zeroNeg, 0, false⟩ else f.round (decide (v < 0)) v.natAbs ex

/-- a + b. -/
def Fmt.add (f : Fmt) (a b : FVal) : FRes :=
  match a, b with
  | .nan x, y => f.nanRes (x || y.snan)
  | x, .nan y => f.nanRes (y || x.snan)
  | .inf p, .inf q => if p = q then ⟨f.inf p, 0, false⟩ else f.nanRes true
  | .inf p, _ => ⟨f.inf p, 0, false⟩
  | _, .inf q => ⟨f.inf q, 0, false⟩
  | .fin p x ex, .fin q y ey =>
    let e := min ex ey
    let va : Int := x * 2 ^ (ex - e).toNat
    let vb : Int := y * 2 ^ (ey - e).toNat
    f.ofExact (p && q) ((if p then -va else va) + (if q then -vb else vb)) e

/-- Negate. -/
def FVal.neg : FVal → FVal
  | .nan x => .nan x
  | .inf p => .inf !p
  | .fin p x e => .fin (!p) x e

/-- a × b. -/
def Fmt.mul (f : Fmt) (a b : FVal) : FRes :=
  match a, b with
  | .nan x, y => f.nanRes (x || y.snan)
  | x, .nan y => f.nanRes (y || x.snan)
  | .inf p, .inf q => ⟨f.inf (p != q), 0, false⟩
  | .inf p, .fin q y _ => if y = 0 then f.nanRes true else ⟨f.inf (p != q), 0, false⟩
  | .fin p x _, .inf q => if x = 0 then f.nanRes true else ⟨f.inf (p != q), 0, false⟩
  | .fin p x ex, .fin q y ey =>
    if x = 0 ∨ y = 0 then ⟨f.zero (p != q), 0, false⟩ else f.round (p != q) (x * y) (ex + ey)

/-- a / b. -/
def Fmt.div (f : Fmt) (a b : FVal) : FRes :=
  match a, b with
  | .nan x, y => f.nanRes (x || y.snan)
  | x, .nan y => f.nanRes (y || x.snan)
  | .inf _, .inf _ => f.nanRes true
  | .inf p, .fin q _ _ => ⟨f.inf (p != q), 0, false⟩
  | .fin p _ _, .inf q => ⟨f.zero (p != q), 0, false⟩
  | .fin p x ex, .fin q y ey =>
    if y = 0 then (if x = 0 then f.nanRes true else ⟨f.inf (p != q), fpDivZero, false⟩)
    else if x = 0 then ⟨f.zero (p != q), 0, false⟩
    else
      let k := 2 * f.m + 8
      let n := x * 2 ^ k
      f.round (p != q) (2 * (n / y) + ofBool (n % y != 0)) (ex - ey - k - 1)

/-- √a. -/
def Fmt.sqrt (f : Fmt) (a : FVal) : FRes :=
  match a with
  | .nan x => f.nanRes x
  | .inf p => if p then f.nanRes true else ⟨f.inf false, 0, false⟩
  | .fin p x ex =>
    if x = 0 then ⟨f.zero p, 0, false⟩
    else if p then f.nanRes true
    else
      let k : Nat := 2 * f.m + 8 + (if (ex - ((2 * f.m + 8 : Nat) : Int)) % 2 = 0 then 0 else 1)
      let n := x * 2 ^ k
      let r := isqrt n
      f.round false (2 * r + ofBool (r * r != n)) ((ex - k) / 2 - 1)

/-- Order of two numbers: -1, 0, 1; none with a NaN. -/
def FVal.cmp (a b : FVal) : Option Int :=
  let key : FVal → Option (Int × Nat × Int)
    | .nan _ => none
    | .inf p => some (if p then -2 else 2, 0, 0)
    | .fin p x e => some (if x = 0 then 0 else if p then -1 else 1, x, e)
  match key a, key b with
  | some (ka, x, ex), some (kb, y, ey) =>
    if ka ≠ kb then some (if ka < kb then -1 else 1)
    else if ka = 1 ∨ ka = -1 then
      let e := min ex ey
      let va : Int := x * 2 ^ (ex - e).toNat
      let vb : Int := y * 2 ^ (ey - e).toNat
      some (if va = vb then 0 else if (va < vb) = (ka = 1) then -1 else 1)
    else some 0
  | _, _ => none

/-- FLT: an ordered comparison, so any NaN is invalid (IEEE 754 clause 5.11). -/
def fpLt (a b : FVal) : FRes := match a.cmp b with
  | none => ⟨0, fpInvalid, false⟩
  | some c => ⟨ofBool (c == -1), 0, false⟩

/-- FEQ: a quiet comparison. -/
def fpEq (a b : FVal) : FRes := match a.cmp b with
  | none => ⟨0, if a.snan || b.snan then fpInvalid else 0, false⟩
  | some c => ⟨ofBool (c == 0), 0, false⟩

/-- FMIN and FMAX: with one NaN operand the result is the other operand or the canonical NaN, with zeros of both signs it is one of
them; IEEE 754 and the manual leave open which: a free choice of the operation and its operands (log entry 9). -/
def Fmt.minMax (f : Fmt) (fn : Nat) (isMax : Bool) (x y : Nat) : FRes :=
  let a := f.decode x
  let b := f.decode y
  let bad := if a.snan || b.snan then fpInvalid else 0
  let pick := bitOf (Config.openResult fn x y).toNat 0
  match a.cmp b with
  | none =>
    if (a.isNan && b.isNan) || pick then ⟨f.nan, bad, false⟩
    else ⟨if a.isNan then y else x, bad, false⟩
  | some c =>
    if c = 0 then ⟨if pick then x else y, 0, false⟩
    else ⟨if (c == -1) != isMax then x else y, 0, false⟩

/-- To i64, toward zero; it saturates, and a NaN gives 0 (R250). Whether a lost fraction raises inexact is open (log entry 9): the
third part says so. -/
def toInt64 (a : FVal) : Nat × Nat × Bool :=
  let sat (neg : Bool) : Nat := if neg then 2 ^ 63 else 2 ^ 63 - 1
  match a with
  | .nan _ => (0, fpInvalid, false)
  | .inf p => (sat p, fpInvalid, false)
  | .fin p x ex =>
    let lost := decide (ex < 0) && x % 2 ^ (-ex).toNat != 0
    let mag := if 0 ≤ ex then x * 2 ^ ex.toNat else x / 2 ^ (-ex).toNat
    if (p && decide (2 ^ 63 < mag)) || (!p && decide (2 ^ 63 ≤ mag)) then (sat p, fpInvalid, false)
    else (unsigned 64 (if p then -(mag : Int) else mag), 0, lost)

/-- From one format to another. -/
def Fmt.convert (f : Fmt) (a : FVal) : FRes := match a with
  | .nan x => f.nanRes x
  | .inf p => ⟨f.inf p, 0, false⟩
  | .fin p x ex => if x = 0 then ⟨f.zero p, 0, false⟩ else f.round p x ex

/-- The FPU functions (R250); none where FN is not listed. -/
def fpuResult (fn x y : Nat) : Option FRes :=
  let f := if fn < 0x30 then b32 else b64
  let a := f.decode (fld x 0 f.width)
  let b := f.decode (fld y 0 f.width)
  let i := toInt64 a
  match fn with
  | 0x2B => some (b64.convert a)
  | 0x3B => some (b32.convert a)
  | _ => if fn < 0x20 ∨ 0x3F < fn then none else match fn % 16 with
    | 0 => some (f.add a b)
    | 1 => some (f.add a b.neg)
    | 2 => some (f.mul a b)
    | 3 => some (f.div a b)
    | 4 => some (f.sqrt a)
    | 5 => some (f.minMax fn false (fld x 0 f.width) (fld y 0 f.width))
    | 6 => some (f.minMax fn true (fld x 0 f.width) (fld y 0 f.width))
    | 7 => some (fpLt a b)
    | 8 => some (fpEq a b)
    | 9 => some ⟨i.1, i.2.1 + (if i.2.2 && bitOf (Config.openResult fn x 0).toNat 0 then fpInexact else 0), false⟩
    | 10 => some (f.ofExact false (signed 64 x) 0)
    | _ => none

end Sys2Proof.Machine
end

