-- ==== Sys2Proof/Machine/Crypto.lean ====
section
/-! DEFINITION. The cryptographic functions the manual cites by their standards: SHA-512 and SHA-384 (FIPS 180-4), CRC-32 and
CRC-32C, AES-256 (FIPS 197), Ed25519 (RFC 8032) and ECDSA P-384 (FIPS 186-5). -/

namespace Sys2Proof.Machine

/-! ## SHA-2 -/

/-- The first 80 primes: each number below 441 is prime where none from 2 to 20 but itself divides it. -/
def shaPrimes : List Nat := (List.range 410).filter fun n => decide (2 ≤ n) && (List.range 21).all fun d => decide (d < 2) || n % d != 0 || n == d

/-- The greatest number whose k-th power is at most n, of bits below i, from its high bits r. -/
def rootBits (k n : Nat) : Nat → Nat → Nat
  | 0, r => r
  | i + 1, r => rootBits k n i (if (r + 2 ^ i) ^ k ≤ n then r + 2 ^ i else r)

/-- The first 64 bits of the fractional part of the k-th root of a prime below 512 (FIPS 180-4, 4.2.3 and 5.3). -/
def shaFrac (k p : Nat) : BitVec 64 := BitVec.ofNat 64 (rootBits k (p * 2 ^ (64 * k)) 69 0)

/-- The 80 round constants of SHA-512: cube roots of the first 80 primes. -/
def shaK : List (BitVec 64) := shaPrimes.map (shaFrac 3)
/-- Where SHA-512 begins: square roots of the first eight primes. -/
def shaInit512 : List (BitVec 64) := (shaPrimes.take 8).map (shaFrac 2)
/-- Where SHA-384 begins: square roots of the ninth to the sixteenth prime. -/
def shaInit384 : List (BitVec 64) := ((shaPrimes.drop 8).take 8).map (shaFrac 2)

def rotr64 (x : BitVec 64) (n : Nat) : BitVec 64 := x.rotateRight n

/-- The message schedule, newest word first: from the last 16 words the next one. -/
def shaNext (w : List (BitVec 64)) : BitVec 64 :=
  let g := fun i => w.getD i 0
  let s0 := rotr64 (g 14) 1 ^^^ rotr64 (g 14) 8 ^^^ (g 14 >>> 7)
  let s1 := rotr64 (g 1) 19 ^^^ rotr64 (g 1) 61 ^^^ (g 1 >>> 6)
  g 15 + s0 + g 6 + s1

def shaSchedule : Nat → List (BitVec 64) → List (BitVec 64)
  | 0, w => w
  | n + 1, w => shaSchedule n (shaNext w :: w)

/-- One round. -/
def shaRound (h : List (BitVec 64)) (kw : BitVec 64) : List (BitVec 64) :=
  match h with
  | [a, b, c, d, e, f, g, hh] =>
    let s1 := rotr64 e 14 ^^^ rotr64 e 18 ^^^ rotr64 e 41
    let ch := (e &&& f) ^^^ (~~~e &&& g)
    let t1 := hh + s1 + ch + kw
    let s0 := rotr64 a 28 ^^^ rotr64 a 34 ^^^ rotr64 a 39
    let mj := (a &&& b) ^^^ (a &&& c) ^^^ (b &&& c)
    [t1 + (s0 + mj), a, b, c, d + t1, e, f, g]
  | _ => h

/-- One block of 128 bytes. -/
def shaBlock (h : List (BitVec 64)) (blk : List Byte) : List (BitVec 64) :=
  let w16 := (chunksOf 16 8 blk).map fun b => BitVec.ofNat 64 (beNat b)
  let w := (shaSchedule 64 w16.reverse).reverse
  let r := (List.zipWith (· + ·) shaK w).foldl shaRound h
  List.zipWith (· + ·) h r

/-- The padding of a message of `n` bytes. -/
def shaPad (n : Nat) : List Byte :=
  0x80 :: List.replicate ((239 - n % 128) % 128) 0 ++ beBytes 16 (8 * n)

def shaRun (init : List (BitVec 64)) (m : List Byte) : List Byte :=
  let p := m ++ shaPad m.length
  ((chunksOf (p.length / 128 + 1) 128 p).foldl shaBlock init).flatMap fun x => beBytes 8 x.toNat

def sha512 (m : List Byte) : List Byte := shaRun shaInit512 m
def sha384 (m : List Byte) : List Byte := (shaRun shaInit384 m).take 48

/-! ## CRCs, reflected, initial value and final inversion all ones -/

/-- The message's bits, one at a time, least significant bit of each byte first. -/
def crcBits (poly : BitVec 32) : List Bool → BitVec 32 → BitVec 32
  | [], c => c
  | b :: l, c => if c.getLsbD 0 != b then crcBits poly l ((c >>> 1) ^^^ poly) else crcBits poly l (c >>> 1)

def crcRun (poly : BitVec 32) (m : List Byte) : Nat :=
  (~~~(crcBits poly (m.flatMap fun b => (List.range 8).map b.getLsbD) (BitVec.ofNat 32 0xFFFFFFFF))).toNat

/-- CRC-32 (IEEE 802.3). -/
def crc32 (m : List Byte) : Nat := crcRun 0xEDB88320 m
/-- CRC-32C (Castagnoli), the parameters of R373. -/
def crc32c (m : List Byte) : Nat := crcRun 0x82F63B78 m

/-! ## AES-256 -/

/-- The substitution box of FIPS 197. -/
def aesSbox : List Byte := [
  0x63, 0x7c, 0x77, 0x7b, 0xf2, 0x6b, 0x6f, 0xc5, 0x30, 0x01, 0x67, 0x2b, 0xfe, 0xd7, 0xab, 0x76,
  0xca, 0x82, 0xc9, 0x7d, 0xfa, 0x59, 0x47, 0xf0, 0xad, 0xd4, 0xa2, 0xaf, 0x9c, 0xa4, 0x72, 0xc0,
  0xb7, 0xfd, 0x93, 0x26, 0x36, 0x3f, 0xf7, 0xcc, 0x34, 0xa5, 0xe5, 0xf1, 0x71, 0xd8, 0x31, 0x15,
  0x04, 0xc7, 0x23, 0xc3, 0x18, 0x96, 0x05, 0x9a, 0x07, 0x12, 0x80, 0xe2, 0xeb, 0x27, 0xb2, 0x75,
  0x09, 0x83, 0x2c, 0x1a, 0x1b, 0x6e, 0x5a, 0xa0, 0x52, 0x3b, 0xd6, 0xb3, 0x29, 0xe3, 0x2f, 0x84,
  0x53, 0xd1, 0x00, 0xed, 0x20, 0xfc, 0xb1, 0x5b, 0x6a, 0xcb, 0xbe, 0x39, 0x4a, 0x4c, 0x58, 0xcf,
  0xd0, 0xef, 0xaa, 0xfb, 0x43, 0x4d, 0x33, 0x85, 0x45, 0xf9, 0x02, 0x7f, 0x50, 0x3c, 0x9f, 0xa8,
  0x51, 0xa3, 0x40, 0x8f, 0x92, 0x9d, 0x38, 0xf5, 0xbc, 0xb6, 0xda, 0x21, 0x10, 0xff, 0xf3, 0xd2,
  0xcd, 0x0c, 0x13, 0xec, 0x5f, 0x97, 0x44, 0x17, 0xc4, 0xa7, 0x7e, 0x3d, 0x64, 0x5d, 0x19, 0x73,
  0x60, 0x81, 0x4f, 0xdc, 0x22, 0x2a, 0x90, 0x88, 0x46, 0xee, 0xb8, 0x14, 0xde, 0x5e, 0x0b, 0xdb,
  0xe0, 0x32, 0x3a, 0x0a, 0x49, 0x06, 0x24, 0x5c, 0xc2, 0xd3, 0xac, 0x62, 0x91, 0x95, 0xe4, 0x79,
  0xe7, 0xc8, 0x37, 0x6d, 0x8d, 0xd5, 0x4e, 0xa9, 0x6c, 0x56, 0xf4, 0xea, 0x65, 0x7a, 0xae, 0x08,
  0xba, 0x78, 0x25, 0x2e, 0x1c, 0xa6, 0xb4, 0xc6, 0xe8, 0xdd, 0x74, 0x1f, 0x4b, 0xbd, 0x8b, 0x8a,
  0x70, 0x3e, 0xb5, 0x66, 0x48, 0x03, 0xf6, 0x0e, 0x61, 0x35, 0x57, 0xb9, 0x86, 0xc1, 0x1d, 0x9e,
  0xe1, 0xf8, 0x98, 0x11, 0x69, 0xd9, 0x8e, 0x94, 0x9b, 0x1e, 0x87, 0xe9, 0xce, 0x55, 0x28, 0xdf,
  0x8c, 0xa1, 0x89, 0x0d, 0xbf, 0xe6, 0x42, 0x68, 0x41, 0x99, 0x2d, 0x0f, 0xb0, 0x54, 0xbb, 0x16]

def aesSub (b : Byte) : Byte := aesSbox.getD b.toNat 0
def aesX2 (b : Byte) : Byte := if b.getLsbD 7 then (b <<< 1) ^^^ 0x1b else b <<< 1

def xorBytes (a b : List Byte) : List Byte := List.zipWith (· ^^^ ·) a b

/-- Key expansion to 60 words of 4 bytes, newest first. -/
def aesExpand : Nat → Nat → Byte → List (List Byte) → List (List Byte)
  | 0, _, _, w => w
  | n + 1, i, rcon, w =>
    let t := w.getD 0 []
    let t1 := if i % 8 = 0 then
        match (t.drop 1 ++ t.take 1).map aesSub with
        | x :: r => (x ^^^ rcon) :: r
        | [] => []
      else if i % 8 = 4 then t.map aesSub else t
    aesExpand n (i + 1) (if i % 8 = 0 then aesX2 rcon else rcon) (xorBytes (w.getD 7 []) t1 :: w)

/-- The 15 round keys. -/
def aesKeys (key : List Byte) : List (List Byte) :=
  let w := (aesExpand 52 8 1 (chunksOf 8 4 key).reverse).reverse
  (chunksOf 15 4 w).map List.flatten

def aesShift (s : List Byte) : List Byte :=
  (List.range 16).map fun i => s.getD ((i + 4 * (i % 4)) % 16) 0

def aesMixCol (c : List Byte) : List Byte :=
  match c with
  | [a, b, d, e] =>
    let m := fun (w x y z : Byte) => aesX2 w ^^^ (aesX2 x ^^^ x) ^^^ y ^^^ z
    [m a b d e, m b d e a, m d e a b, m e a b d]
  | _ => c

def aesMix (s : List Byte) : List Byte := (chunksOf 4 4 s).flatMap aesMixCol

/-- AES-256 of one block under expanded keys. -/
def aesBlock (keys : List (List Byte)) (blk : List Byte) : List Byte :=
  match keys with
  | [] => blk
  | k0 :: ks =>
    let s := xorBytes blk k0
    let mid := (ks.take 13).foldl (fun t k => xorBytes (aesMix (aesShift (t.map aesSub))) k) s
    xorBytes (aesShift (mid.map aesSub)) (ks.getD 13 [])

def aes256 (key blk : List Byte) : List Byte := aesBlock (aesKeys key) blk

/-! ## Modular arithmetic -/

/-- a ^ e modulo m, with the bits of e taken from the top; `fuel` bounds the bits. -/
def powModAux (m a e : Nat) : Nat → Nat → Nat
  | 0, r => r
  | n + 1, r =>
    let r2 := r * r % m
    powModAux m a e n (if e.testBit n then r2 * a % m else r2)

def powMod (m a e : Nat) : Nat := powModAux m (a % m) e (Nat.log2 e + 1) 1
def invMod (m a : Nat) : Nat := powMod m a (m - 2)

/-! ## Ed25519 (RFC 8032) -/

def edP : Nat := 2 ^ 255 - 19
def edQ : Nat := 2 ^ 252 + 27742317777372353535851937790883648493
def edD : Nat := 0x52036cee2b6ffe738cc740797779e89800700a4d4141d8ab75eb4dca135978a3

/-- A point in extended coordinates. -/
structure EdPoint where
  x : Nat
  y : Nat
  z : Nat
  t : Nat
  deriving DecidableEq, Repr

def edBase : EdPoint :=
  let x := 0x216936d3cd6e53fec0a4e231fdd6dc5c692cc7609525a7b2c9562d608f25d51a
  let y := 0x6666666666666666666666666666666666666666666666666666666666666658
  ⟨x, y, 1, x * y % edP⟩

def edZero : EdPoint := ⟨0, 1, 1, 0⟩
def edSub (a b : Nat) : Nat := (a + edP - b % edP) % edP

def edAdd (p q : EdPoint) : EdPoint :=
  let a := edSub p.y p.x * edSub q.y q.x % edP
  let b := (p.y + p.x) * (q.y + q.x) % edP
  let c := 2 * p.t * q.t * edD % edP
  let d := 2 * p.z * q.z % edP
  let e := edSub b a
  let f := edSub d c
  let g := (d + c) % edP
  let h := (b + a) % edP
  ⟨e * f % edP, g * h % edP, f * g % edP, e * h % edP⟩

def edMulAux (p : EdPoint) (k : Nat) : Nat → EdPoint → EdPoint
  | 0, r => r
  | n + 1, r =>
    let r2 := edAdd r r
    edMulAux p k n (if k.testBit n then edAdd r2 p else r2)

def edMul (k : Nat) (p : EdPoint) : EdPoint := edMulAux p k (Nat.log2 k + 1) edZero

def edEqual (p q : EdPoint) : Bool :=
  edSub (p.x * q.z) (q.x * p.z) == 0 && edSub (p.y * q.z) (q.y * p.z) == 0

/-- The x of a point with this y and sign (RFC 8032, 5.1.3). -/
def edRecover (y sign : Nat) : Option Nat :=
  if edP ≤ y then none else
  let u := edSub (y * y) 1
  let v := (edD * y * y + 1) % edP
  let x2 := u * invMod edP v % edP
  if x2 = 0 then (if sign = 1 then none else some 0) else
  let x0 := powMod edP x2 ((edP + 3) / 8)
  let x1 := if edSub (x0 * x0) x2 = 0 then x0 else x0 * powMod edP 2 ((edP - 1) / 4) % edP
  if edSub (x1 * x1) x2 ≠ 0 then none
  else some (if x1 % 2 = sign then x1 else edP - x1)

def edCompress (p : EdPoint) : List Byte :=
  let zi := invMod edP p.z
  let x := p.x * zi % edP
  let y := p.y * zi % edP
  leBytes 32 (y + (x % 2) * 2 ^ 255)

def edDecompress (b : List Byte) : Option EdPoint :=
  if b.length ≠ 32 then none else
  let n := leNat b
  let y := n % 2 ^ 255
  match edRecover y (n / 2 ^ 255) with
  | some x => some ⟨x, y, 1, x * y % edP⟩
  | none => none

/-- The secret scalar and the prefix of a 32-byte secret. -/
def edExpand (secret : List Byte) : Nat × List Byte :=
  let h := sha512 secret
  let a := leNat (h.take 32)
  ((a % 2 ^ 254) / 8 * 8 + 2 ^ 254, h.drop 32)

def edPublic (secret : List Byte) : List Byte := edCompress (edMul (edExpand secret).1 edBase)

/-- An Ed25519 signature. -/
def edSign (secret msg : List Byte) : List Byte :=
  let (a, pre) := edExpand secret
  let pk := edCompress (edMul a edBase)
  let r := leNat (sha512 (pre ++ msg)) % edQ
  let rs := edCompress (edMul r edBase)
  let h := leNat (sha512 (rs ++ pk ++ msg)) % edQ
  rs ++ leBytes 32 ((r + h * a) % edQ)

/-- The outcome of a verification, in the order of R435. -/
inductive PkVerdict where
  | good | range | zero | notOnCurve | mismatch
  deriving DecidableEq, Repr

/-- The verification of RFC 8032, 5.1.7, with the checks in the order of R435. -/
def edCheck (pk msg sig : List Byte) : PkVerdict :=
  let s := leNat (sig.drop 32)
  let yOf := fun (b : List Byte) => leNat b % 2 ^ 255
  if edQ ≤ s ∨ edP ≤ yOf pk ∨ edP ≤ yOf (sig.take 32) then .range
  else match edDecompress pk, edDecompress (sig.take 32) with
    | some a, some r =>
      let h := leNat (sha512 (sig.take 32 ++ pk ++ msg)) % edQ
      if edEqual (edMul (8 * s) edBase) (edMul 8 (edAdd r (edMul h a))) then .good else .mismatch
    | _, _ => .notOnCurve

def edVerify (pk msg sig : List Byte) : Bool := sig.length == 64 && edCheck pk msg sig == .good

/-! ## ECDSA P-384 (FIPS 186-5) -/

def ecP : Nat := 2 ^ 384 - 2 ^ 128 - 2 ^ 96 + 2 ^ 32 - 1
def ecN : Nat := 0xffffffffffffffffffffffffffffffffffffffffffffffffc7634d81f4372ddf581a0db248b0a77aecec196accc52973
def ecB : Nat := 0xb3312fa7e23ee7e4988e056be3f82d19181d9c6efe8141120314088f5013875ac656398d8a2ed19d2a85c8edd3ec2aef
def ecGx : Nat := 0xaa87ca22be8b05378eb1c71ef320ad746e1d3b628ba79b9859f741e082542a385502f25dbf55296c3a545e3872760ab7
def ecGy : Nat := 0x3617de4a96262c6f5d9e98bf9292dc29f8f41dbd289a147ce9da3113b5f0b8c00a60b1ce1d7e819d7a431d7c90ea0e5f

/-- A point in Jacobian coordinates; z = 0 is the point at infinity. -/
structure EcPoint where
  x : Nat
  y : Nat
  z : Nat
  deriving DecidableEq, Repr

def ecBase : EcPoint := ⟨ecGx, ecGy, 1⟩
def ecSub (a b : Nat) : Nat := (a + ecP - b % ecP) % ecP

def ecDouble (p : EcPoint) : EcPoint :=
  if p.z = 0 ∨ p.y = 0 then ⟨1, 1, 0⟩ else
  let z2 := p.z * p.z % ecP
  let m := 3 * ecSub p.x z2 * (p.x + z2) % ecP
  let y2 := p.y * p.y % ecP
  let s := 4 * p.x * y2 % ecP
  let x3 := ecSub (m * m % ecP) (2 * s)
  ⟨x3, ecSub (m * ecSub s x3 % ecP) (8 * y2 * y2), 2 * p.y * p.z % ecP⟩

def ecAdd (p q : EcPoint) : EcPoint :=
  if p.z = 0 then q else if q.z = 0 then p else
  let z1 := p.z * p.z % ecP
  let z2 := q.z * q.z % ecP
  let u1 := p.x * z2 % ecP
  let u2 := q.x * z1 % ecP
  let s1 := p.y * z2 * q.z % ecP
  let s2 := q.y * z1 * p.z % ecP
  let h := ecSub u2 u1
  let r := ecSub s2 s1
  if h = 0 then (if r = 0 then ecDouble p else ⟨1, 1, 0⟩) else
  let h2 := h * h % ecP
  let h3 := h2 * h % ecP
  let v := u1 * h2 % ecP
  let x3 := ecSub (ecSub (r * r % ecP) h3) (2 * v)
  ⟨x3, ecSub (r * ecSub v x3 % ecP) (s1 * h3), h * p.z * q.z % ecP⟩

def ecMulAux (p : EcPoint) (k : Nat) : Nat → EcPoint → EcPoint
  | 0, r => r
  | n + 1, r =>
    let r2 := ecDouble r
    ecMulAux p k n (if k.testBit n then ecAdd r2 p else r2)

def ecMul (k : Nat) (p : EcPoint) : EcPoint := ecMulAux p k (Nat.log2 k + 1) ⟨1, 1, 0⟩

/-- The affine coordinates; none for the point at infinity. -/
def ecAffine (p : EcPoint) : Option (Nat × Nat) :=
  if p.z = 0 then none else
  let zi := invMod ecP p.z
  let zi2 := zi * zi % ecP
  some (p.x * zi2 % ecP, p.y * (zi2 * zi % ecP) % ecP)

def ecOnCurve (x y : Nat) : Bool :=
  decide (x < ecP) && decide (y < ecP) && (y * y % ecP == (x * x % ecP * x + ecB + 3 * (ecP - x)) % ecP)

/-- The public key 0x04, x, y of a secret scalar. -/
def ecPublic (d : Nat) : List Byte :=
  match ecAffine (ecMul d ecBase) with
  | some (x, y) => 0x04 :: (beBytes 48 x ++ beBytes 48 y)
  | none => List.replicate 97 0

/-- r and s for a hash, a secret scalar and a nonce. -/
def ecdsaSign (d k e : Nat) : Nat × Nat :=
  match ecAffine (ecMul k ecBase) with
  | some (x, _) =>
    let r := x % ecN
    (r, invMod ecN k * (e + r * d) % ecN)
  | none => (0, 0)

/-- The equation of a verification, for a key on the curve and r, s in range. -/
def ecdsaCheck (qx qy e r s : Nat) : Bool :=
  let w := invMod ecN s
  match ecAffine (ecAdd (ecMul (e * w % ecN) ecBase) (ecMul (r * w % ecN) ⟨qx, qy, 1⟩)) with
  | some (x, _) => x % ecN == r
  | none => false

end Sys2Proof.Machine
end

