-- ==== Sys2Proof/Machine/Map.lean ====
section
/-! DEFINITION. Sparse tables keyed by number, and byte-addressed memory, each in one canonical form: keys strictly
rising; in memory no listed byte is 0, which is what an unlisted address reads as. -/

namespace Sys2Proof.Machine

/-- A sparse table: keys strictly rising. -/
abbrev KMap (α : Type) := List (Nat × α)

/-- The keys rise strictly. -/
def keysRise {α : Type} : KMap α → Bool
  | [] => true
  | [_] => true
  | (a, _) :: (b, y) :: l => decide (a < b) && keysRise ((b, y) :: l)

/-- The entry at `k`. -/
def kget {α : Type} : KMap α → Nat → Option α
  | [], _ => none
  | (a, x) :: l, k => if a = k then some x else if k < a then none else kget l k

/-- The entry at `k`, or `d` where none is listed. -/
def kgetD {α : Type} (m : KMap α) (k : Nat) (d : α) : α := (kget m k).getD d

/-- Set the entry at `k`. -/
def kput {α : Type} : KMap α → Nat → α → KMap α
  | [], k, v => [(k, v)]
  | (a, x) :: l, k, v =>
    if a = k then (k, v) :: l else if k < a then (k, v) :: (a, x) :: l else (a, x) :: kput l k v

/-- Remove the entry at `k`. -/
def kdel {α : Type} (m : KMap α) (k : Nat) : KMap α := m.filter fun p => p.1 != k

/-- Replace the entry at `k` (read as `d` where none is listed). -/
def kmod {α : Type} (m : KMap α) (k : Nat) (d : α) (f : α → α) : KMap α := kput m k (f (kgetD m k d))

/-- Replace the entry at `k` where one is listed. -/
def kadj {α : Type} (m : KMap α) (k : Nat) (f : α → α) : KMap α :=
  m.map fun p => if p.1 = k then (p.1, f p.2) else p

/-- Keep the entries whose key is outside `lo ≤ k < hi`. -/
def kclear {α : Type} (m : KMap α) (lo hi : Nat) : KMap α := m.filter fun p => !(decide (lo ≤ p.1) && decide (p.1 < hi))

/-- The entries in key order. -/
def kvals {α : Type} (m : KMap α) : List α := m.map (·.2)

/-- Byte memory: the listed bytes, addresses strictly rising, none 0. -/
abbrev Memory := List Host.Cell

/-- What an address reads as that nothing has written (DESIGN CHOICE for the tiers, R53 for banks). -/
def memEmpty : Byte := 0

/-- The canonical form of memory. -/
def memWf (m : Memory) : Bool := keysRise m && m.all fun p => p.2 != memEmpty

/-- Read one byte. -/
def memRead (m : Memory) (a : Nat) : Byte := kgetD m a memEmpty

/-- Write one byte, keeping the canonical form. -/
def memWrite (m : Memory) (a : Nat) (b : Byte) : Memory := if b = memEmpty then kdel m a else kput m a b

/-- The `n` bytes from `a` on. -/
def memBytes (m : Memory) : Nat → Nat → List Byte
  | _, 0 => []
  | a, n + 1 => memRead m a :: memBytes m (a + 1) n

/-- Store bytes from `a` on. -/
def memStore (m : Memory) : Nat → List Byte → Memory
  | _, [] => m
  | a, b :: l => memStore (memWrite m a b) (a + 1) l

/-- Make the bytes `lo ≤ a < hi` read zero. -/
def memZero (m : Memory) (lo hi : Nat) : Memory := kclear m lo hi

end Sys2Proof.Machine
end

