-- ==== Sys2Proof/Machine/State.lean ====
section
/-! DEFINITION. The state of the module: plain data that holds what the spec gives it, and its value at reset. -/

namespace Sys2Proof.Machine

/-- Reasons for which a command stops the model: none. Every command has the effect that the manual gives it; one whose operand names
a unit that the module does not have cannot be given, and leaves everything as it is (log entry 69). -/
inductive Fault
  deriving DecidableEq, Repr

/-- Reasons for which a command has no meaning. -/
inductive Refusal where
  /-- Raised by an arm of the dispatch whose command has no meaning yet. Safe: the model stops. -/
  | notModelled (mnemonic : String)
  deriving DecidableEq, Repr

/-! ## Fuses, supplies, references, start-up (R31, R480 to R507) -/

/-- What manufacture fixes (R1, R31, R429). -/
structure Fuse where
  c6 : Bool
  bad : List Nat
  serial : Nat
  macs : List Nat
  secret : List Byte
  endorsement : List Byte
  vendorKey : List Byte
  firmwareKey : List Byte
  helmetDigest : List Byte
  deriving DecidableEq, Repr

/-- A switch of a clock multiplexer that waits (R485). -/
structure MuxWait where
  mux : Nat
  bypass : Bool
  hung : Bool
  deriving DecidableEq, Repr

/-- Supplies, pins, references and start-up: `step` is the last start-up step completed, `halts` counts its halts, `waiting` holds what it
meets while it waits for a reference (R501), `failRec` is the failure that the Helmet keeps (R502). -/
structure Plat where
  fuse : Fuse
  v48 : Bool
  aux : Bool
  rst : Bool
  perst : Bool
  commission : Bool
  step : Nat
  halts : Nat
  faultPins : Nat
  ready : Bool
  linkUp : Bool
  relock : Option Bool
  suspended : Bool
  muxWait : Option MuxWait
  measuring : Bool
  nextStep : Nat
  domReq : Nat
  fwDigest : List Byte
  fwVersion : Nat × Nat × Nat
  waiting : Option StartEnv
  failRec : Nat
  deriving DecidableEq, Repr

/-! ## Frames (R12 to R24) -/

/-- The frame machinery: boundaries at which a frame began, the tc since the last of them that skipped boundaries have seen, the system
count, the CK_TILE step in force, the consecutive good Sync messages and good time cells (R363, R446), and all tc up to the last
boundary at which a frame began. -/
structure FrameSt where
  boundaries : Nat
  gone : Nat
  sysNs : Nat
  tileStep : Nat
  goodSync : Nat
  goodCells : Nat
  base : Nat
  deriving DecidableEq, Repr

/-! ## Reports to the Helmet (R87, R88) -/

/-- A VC3 record (R88). -/
structure Vc3 where
  code : Nat
  unit : Nat
  sub : Nat
  count : Nat
  reporter : Nat
  time : Nat
  glove : Nat
  hop : Nat
  detail : List Byte
  deriving DecidableEq, Repr

/-- A VC3 record at a router: the way left to its Helmet link tile (none where it was raised here), the input and class at which it came
(R63, R68), and the tc, counted over all frames, in which it came (R87). -/
structure Vc3Ent where
  rec_ : Vc3
  way : Option (List Nat)
  input : Nat
  cls : Nat
  since : Nat
  deriving DecidableEq, Repr

/-! ## Banks (R45 to R54, R346 to R350) -/

/-- The error of a stored 64-bit lane (R45, R300): one wrong bit, corrected when read, or an uncorrectable lane. -/
inductive Ecc where
  | single | double
  deriving DecidableEq, Repr

/-- Where a bank handover stands (R348 to R350). -/
inductive Handover where
  /-- after the glove's launches have released their windows (R340) -/
  | afterLaunches
  /-- accepted in a tc of a frame: B is the first window boundary of the governing tile after it (R349) -/
  | asked (frame tc : Nat)
  /-- the scrub runs -/
  | scrubbing
  deriving DecidableEq, Repr

/-- What an access does to a word. -/
inductive BOp where
  | read
  /-- store bytes from a place in the word (R46) -/
  | write (off : Nat) (d : List Byte)
  /-- ATOMIC_ADD of lanes (R48) -/
  | add (mask data : Nat)
  /-- ATOMIC_SWAP of lanes (R48) -/
  | swap (mask data : Nat)
  deriving DecidableEq, Repr

/-- What port A of a bank did to a word in a plan tc of a frame (R47): the word before that tc and its uncorrectable lanes. -/
structure PortAcc where
  frame : Nat
  tc : Nat
  word : Nat
  write : Bool
  atomic : Bool
  old : Nat
  bad : Nat
  deriving DecidableEq, Repr

/-- What a bank holds beside its register: whether it came from OFF since it was last ON (R51), its handover, and what port A did in
the present tc. -/
structure BankAux where
  fromOff : Bool
  hand : Option Handover
  acc : List PortAcc
  deriving DecidableEq, Repr

/-! ## Memory tiers (R287 to R302) -/

/-- The state of a chunk (R288). -/
inductive ChunkSt where
  | free | owned (g : Nat) | transit
  deriving DecidableEq, Repr

/-- A chunk and its last owner. -/
structure Chunk where
  st : ChunkSt
  last : Option Nat
  deriving DecidableEq, Repr

/-- The state of a chunk's leaf where it is not VALID (R298). -/
inductive Leaf where
  | stale | hashing
  deriving DecidableEq, Repr

/-- A chunk assignment under way (R290): `boundary` counts the frame boundaries at which it last moved on. -/
structure Assign where
  first : Nat
  count : Nat
  glove : Nat
  scrub : Bool
  transit : Bool
  boundary : Nat
  todo : List Nat
  deriving DecidableEq, Repr

/-! ## The host link (R460 to R479) -/

/-- The PCI Express function and the interrupt controller. -/
structure HostSt where
  busMaster : Bool
  msixEnable : Bool
  msixMask : Bool
  pba : Nat
  irq : KMap Nat
  vpend : Nat
  held : List (Nat × List Byte)
  deriving DecidableEq, Repr

/-! ## Safety (R390 to R409) -/

/-- The Helmet. -/
structure SafetySt where
  causes : Nat
  outs : Bool
  holding : Nat
  inbox : List Vc3
  lastKick : Nat
  bistDone : List Nat
  deriving DecidableEq, Repr

/-! ## The front end and launches (R306 to R343) -/

/-- One op descriptor as read (R313), with whether R314 calls it invalid. -/
structure Desc where
  idx : Nat
  bytes : List Byte
  invalid : Bool
  deriving DecidableEq, Repr

/-- Where an op in flight stands. -/
inductive OpPhase where
  /-- dispatched, not started: it waits for predecessors or a trigger -/
  | held
  /-- its trigger has come; it may start (R318) -/
  | ready
  /-- started -/
  | started
  deriving DecidableEq, Repr

/-- An op in the in-flight table (R316). Its key is its buffer's number times 16,384 plus its index; a buffer's number is its
sequence number plus 2^32 for each ring reset since start (R312, R324). -/
structure Op where
  glove : Nat
  bytes : List Byte
  invalid : Bool
  phase : OpPhase
  orphan : Bool
  moved : Nat
  drainReq : Bool
  progress : Nat
  stalled : Option Nat
  bad : Nat
  eccSeen : Bool
  granted : Nat
  const : Option (List Byte)
  deriving DecidableEq, Repr

/-- A buffer that has not retired (R310, R311): `left` are the descriptors not yet dispatched, `got` counts the descriptors
read, `status` holds the statuses of ops that completed, `bad` marks an invalid entry, `read` an entry that has been read. -/
structure Buf where
  seq : Nat
  read : Bool
  bad : Bool
  addr : Nat
  glove : Nat
  eflags : Nat
  doneAddr : Nat
  cookie : Nat
  nops : Nat
  got : Nat
  left : List Desc
  status : KMap Nat
  orphan : Bool
  deriving DecidableEq, Repr

/-- What a host read was issued for (R309, R320, R322, R324). -/
inductive ReadFor where
  | entry (seq : Nat)
  | descs (seq : Nat)
  | const (op : Nat)
  | copy (op : Nat)
  | sem (op : Nat)
  deriving DecidableEq, Repr

/-- A host read that awaits its completion. -/
structure HostRead where
  what : ReadFor
  addr : Nat
  len : Nat
  deriving DecidableEq, Repr

/-- The front end: `pre` are the prefetched buffers, `bufs` those that became current and have not retired, `triggers` the
triggered ops named by completed ops, with whether they start. -/
structure FrontEnd where
  pre : List Buf
  bufs : List Buf
  ops : KMap Op
  resetting : Bool
  epoch : Nat
  nextSeq : Nat
  reads : KMap HostRead
  nextTag : Nat
  triggers : List (Nat × Bool)
  deriving DecidableEq, Repr

/-- The phases of a launch (R329); `killing` lasts until the last bank of a killed launch is zeroed (R332). -/
inductive Phase where
  | seed | loading | armed | running | release | ticket | killing
  deriving DecidableEq, Repr

/-- A window descriptor (R222). -/
structure WinDesc where
  start : Nat
  stop : Nat
  glove : Nat
  lslot : Nat
  entry : Nat
  decl : Nat
  stIn : Nat
  stAfter : Nat
  cdecl : Nat
  cin : Nat
  cafter : Nat
  deriving DecidableEq, Repr

/-- One section of a placement or image (R520). -/
structure Section where
  kind : Nat
  set : Nat
  unit : Nat
  off : Nat
  len : Nat
  deriving DecidableEq, Repr

/-- What a sentinel launch holds beside its tables (R396 to R399): sets are 0 A, 1 B, 2 C; `fenceDue` names sets to be fenced at the
next boundary, and tiles as 8 plus their position; `health` the health flits of the frame. -/
structure SentinelSt where
  fenced : List Nat
  fenceDue : List Nat
  fencedAt : Nat
  partnerC : Bool
  spareUsed : Bool
  health : List Nat
  stopped : Bool
  deriving DecidableEq, Repr

/-- A launch (R329); `order` is its place in the order of admission; `relaxed` whether its glove was relaxed then (R275); `placed` gives for each tile where its program words begin in the store; `peers` are
the identity keys of its modules (R282); `digests` IMAGE, PARAMS, INPUT, RESULT and PEERS; `count` is the system count of its first
frame boundary; `stretched` and `late` are flags of its ticket (R280); `hold` are the spans of windows of a MULTI launch as last tested, the newest first, an empty one where it is not held (R451);
`drainStep` is the step after which a drain of a
MULTI launch takes effect, `recordSent` whether its first fault record went to its peers (R452); `ending` whether a fault ends it from the next frame on (R401); `drained` counts the boundaries passed when a drain was delivered. -/
structure Launch where
  id : Nat
  order : Nat
  glove : Nat
  phase : Phase
  params : List Byte
  aux : LaunchAux
  set : Nat
  tiles : List (Nat × List WinDesc)
  sections : List Section
  placed : KMap Nat
  peers : List (List Byte)
  statCycles : Nat
  statSlots : Nat
  statBytes : Nat
  realtime : Bool
  relaxed : Bool
  seed : Nat
  tried : Option Nat
  since : Nat
  drainReq : Option Nat
  drainStep : Option Nat
  recordSent : Bool
  limitDrained : Bool
  drained : Option Nat
  killStatus : Nat
  faulted : Bool
  ending : Bool
  status : Nat
  nd : Nat
  digests : List (List Byte)
  count : Nat
  stretched : Bool
  late : Bool
  startFrame : Nat
  toZero : List Nat
  sentinel : SentinelSt
  reexecuted : Bool
  reexDue : Bool
  started : Bool
  released : Bool
  hold : List (Nat × Nat)
  deriving DecidableEq, Repr

/-! ## Sessions and the audit log (R379 to R386), attestation (R431) -/

/-- An open session (R379). -/
structure Session where
  via : Nat
  roles : Nat
  cred : Nat
  deriving DecidableEq, Repr

/-- A session's attestation entries (R431). -/
structure Attest where
  challenge : Nat
  alg : Nat
  state : Nat
  report : Nat
  deriving DecidableEq, Repr

/-- A logged write whose record the Helmet has yet to store (R383, R385). -/
structure AuditWait where
  req : OdReq
  time : Nat
  roles : Nat
  cred : Nat
  old : Nat
  abort : Nat
  deriving DecidableEq, Repr

/-- The service: sessions, per-session entries, nonces with the system count at which each was given, the audit log, logged writes that wait
for their record (oldest first), the mailbox's request that is being served with its OP, and the session that unlocked the RWL registers. -/
structure Serv where
  sessions : KMap Session
  cursor : KMap Nat
  attest : KMap Attest
  nonces : List (List Byte × Nat)
  audit : KMap (List Byte)
  auditCount : Nat
  chain : List Byte
  queue : List AuditWait
  signDue : Bool
  openCred : Bool
  odm : Option (Nat × OdReq)
  unlocker : Nat
  deriving DecidableEq, Repr

/-! ## The security domain (R410 to R438) -/

/-- The states of the security domain (R410). -/
inductive SecMode where
  | off | startup | single | normal | test | recovery | failed
  deriving DecidableEq, Repr

/-- Where an entropy cell stands (R412). -/
inductive CellSt where
  /-- in its start-up test, with the samples taken -/
  | testing (n : Nat)
  | healthy
  | removed
  deriving DecidableEq, Repr

/-- An entropy cell with its repetition-count and adaptive-proportion tests (R411, R412). -/
structure Cell where
  st : CellSt
  lastBit : Bool
  run : Nat
  apBit : Bool
  apSeen : Nat
  apCount : Nat
  fails : Nat
  deriving DecidableEq, Repr

/-- A DRBG instance (R416 to R419). `stale` while it waits for its reseed after RECOVERY. -/
structure Drbg where
  key : List Byte
  v : List Byte
  buf : List Nat
  calls : Nat
  due : Bool
  said17 : Bool
  stale : Bool
  deriving DecidableEq, Repr

/-- A request to the public-key engine (R433), and whom its result serves. -/
inductive PkeReq where
  | edSign (msg : List Byte)
  | edVerify (key msg sig : List Byte)
  | ecSign (hash : List Byte)
  | ecVerify (key hash sig : List Byte)
  /-- the attestation of a session (R431) -/
  | attest (session alg : Nat) (body : List Byte)
  deriving DecidableEq, Repr

/-- The security domain. Instances are keyed 0 for the single one, 1 + j for Sj, 256 + g for Gg. -/
structure SecSt where
  mode : SecMode
  back : SecMode
  cells : List Cell
  raw : List (Nat × Bool)
  blocks : List (List Byte)
  store : List (List Byte)
  inst : KMap Drbg
  want : List Nat
  dues : List Nat
  kat : Option Nat
  pkeQueue : List PkeReq
  pkeBusy : Option PkeReq
  pkeResult : Option (Nat × List Byte)
  deriving DecidableEq, Repr

/-! ## Tiles (R97, R133, R220 to R259) -/

/-- A VC0 flit (R61); `stat` marks a statistics record on its way to its bank (R140). -/
structure Flit where
  glove : Nat
  tag : Nat
  poison : Bool
  bar : Bool
  data : Nat
  stat : Bool := false
  deriving DecidableEq, Repr

/-- What an instruction runs in: its tile, the plan tc of its issue, its word, its window's glove, index and launch slot, the slot's
dry state, and its window's END. `free` marks the management complex (R261). -/
structure Ctx where
  pos : Nat
  tc : Nat
  word : Nat
  glove : Nat
  win : Nat
  lslot : Nat
  launch : Nat
  dry : Nat
  stop : Nat
  free : Bool
  deriving DecidableEq, Repr

/-- An active LOOP: the first and last instruction of its body, and the passes left after this one (R228). -/
structure LoopFr where
  first : Nat
  last : Nat
  left : Nat
  deriving DecidableEq, Repr

/-- A launch-table slot (R221): its launch, seed, statistics table, dry state (0 none, 1 stopped, 2 faulted) and the frame in which it
began, LAUNCHCTL bit 0 (R254), check latch (R397), and how many windows of the launch have started here. -/
structure SlotSt where
  launch : Nat
  seed : Nat
  statBank : Option Nat
  statRows : Nat
  dry : Nat
  dryIn : Nat
  ctl : Bool
  latch : Bool
  starts : Nat
  deriving DecidableEq, Repr

/-- A RECV with flits still to take (R235): how it was issued, the next word, how many are left, and whether one came poisoned. -/
structure RecvSt where
  c : Ctx
  next : Nat
  left : Nat
  bad : Bool
  deriving DecidableEq, Repr

/-- A mesh-sourced LAC that still reads the local output (R104): how it was issued, and the first word of a two-word vector. -/
structure MeshRd where
  c : Ctx
  half : Option Flit
  deriving DecidableEq, Repr

/-- Words with their poison marks. -/
abbrev Words2 := List (Nat × Bool)

/-- A memory request (R294); a destination is its position (1,536 where it is no window), its device address, and how many windows of the
launch had started there when the request was made; `adds` says that the first of them is DEST0, to be added to after a WRITE. A WRITE of `words` words
gets its data after its grant (R78). -/
structure MemReq where
  src : Nat
  glove : Nat
  launch : Nat
  write : Bool
  addr : Nat
  len : Nat
  words : Nat
  data : Words2
  dests : List (Nat × Nat × Nat)
  adds : Bool
  bad : Bool
  deriving DecidableEq, Repr

/-- What a VC1 or VC2 flit carries: a message's header, a data word for each destination's address, or a memory request. `due`
names the requesting launch and, per destination, its window starts when the request was made (R277 cause 3). -/
inductive Payload where
  | head
  | word (data : Nat) (due : Option (Nat × Nat))
  | add (data : Nat)
  | request (r : MemReq)
  /-- a data word of a WRITE of a tile, which waits there for a grant (R78) -/
  | store (src data : Nat)
  /-- a grant of so many words, or their refusal, on its way to the source (R78) -/
  | grant (words : Nat) (ok : Bool)
  /-- bytes for a place in a word: process data (R368) -/
  | piece (data : List Byte)
  /-- a health flit: the launch, the tile and its check latch (R397) -/
  | health (launch tile : Nat) (latch : Bool)
  deriving DecidableEq, Repr

/-- A flit of VC1 or VC2: its destinations, each the way left to it (R63), its position and the device address; whether its
injection is not to be counted (again) against a budget (R69, R397); and the tc, counted over all frames, from which it may leave (R62). -/
structure VcFlit where
  vc : Nat
  glove : Nat
  dests : List (List Nat × Nat × Nat)
  pay : Payload
  poison : Bool
  paid : Bool
  since : Nat
  deriving DecidableEq, Repr

/-- A word of a look-up ROM that is not as made: what it reads as, and whether its parity fails (R201). -/
structure RomWord where
  val : Nat
  fails : Bool
  deriving DecidableEq, Repr

/-- The checked map table of a V-tile (R133, R134). -/
structure MapTab where
  w8 : Bool
  g : Nat
  entries : List (Int × Nat)
  deriving DecidableEq, Repr

/-! ## What is under way on the tiles (R104, R105, R114, R117, R233 to R239, R244, R250) -/

/-- A register that takes its value in a tc. -/
inductive Landing where
  /-- a parameter register (a V-tile's DD0 to DD7 are 8 to 15) -/
  | pm (i v : Nat) (poison : Bool)
  /-- a field of a draw descriptor gains a value modulo its width (R244) -/
  | dd (i lo w : Nat) (by_ : Int)
  | g (i v : Nat) (poison : Bool)
  /-- lanes of a VX register, and what becomes of its poison bit -/
  | lanes (i : Nat) (l : List (Nat × Nat)) (mark : Option Bool)
  /-- the low halves of lanes of a VX register -/
  | halves (i : Nat) (l : List (Nat × Nat)) (mark : Option Bool)
  | fl (v : Nat)
  | flOr (v : Nat)
  | flBit (b : Nat) (v : Bool)
  /-- the enabled bits of GM -/
  | gm (mask v : Nat)
  | ev (i n : Nat)
  | evClear (i : Nat)
  | map (m : MapTab)
  | fp (v : Nat)
  | fpOr (v : Nat)
  deriving DecidableEq, Repr

/-- Where an RSC or TOPK stands in its row reads (R114, R117): its descriptor and the next parameter register as read at issue, the
group of rows read next, the outputs of the present word so far (all keys for TOPK), the rows clipped, and whether a residue mismatch
has been reported. -/
structure RowsSt where
  d0 : Nat
  d1 : Nat
  k : Nat
  outs : List Int
  sat : Nat
  said : Bool
  deriving DecidableEq, Repr

/-- What an instruction does in one tc after its issue. -/
inductive Act where
  /-- port A reads word j of the instruction, at a bank and word; the words read before it with their uncorrectable lanes, and an
  argument of the instruction -/
  | read (b w j : Nat) (got : List (Nat × Nat)) (arg : Nat)
  /-- port A stores a word -/
  | store (b w : Nat) (op : BOp)
  /-- a statistics record is added to a row through port A (R140) -/
  | stat (b row : Nat) (lanes : Nat)
  /-- port B stores a word (a RECV, or a statistics record of another cluster) -/
  | portB (b w : Nat) (op : BOp)
  /-- a word of an LDC takes effect (R105) -/
  | load (j word bad : Nat) (all : Bool)
  /-- vector b of a LAC enters the array (R104) -/
  | vector (b w0 w1 : Nat) (bad : Bool)
  /-- its row sums are applied; it entered in a tc -/
  | sums (b w0 w1 : Nat) (bad : Bool) (entered : Nat)
  /-- an RSC or TOPK reads rows -/
  | rows (r : RowsSt)
  /-- a CATS or QLD looks at what it has read -/
  | check (got : List (Nat × Nat)) (delay : Nat)
  /-- a register takes its value -/
  | land (r : Landing)
  /-- a word is handed to the router (R236) -/
  | hand (f : Flit)
  /-- an exception is detected (R256) -/
  | exc (cause : Nat)
  /-- a unit is free again from this tc on (R104, R518, R244) -/
  | free (unit : Nat)
  /-- word j of a burst of n bytes of a host DMA op moves (R320): the bytes that came with it or that have been read, the first status that
  is not OK, and whether a lane was uncorrectable -/
  | dma (op j n : Nat) (data : List Byte) (status : Nat) (bad : Bool)
  /-- what a flit brings to a device address is written through port B of a position (R44, R62): by a source of R305; `due` as a word has it -/
  | deliver (pos a : Nat) (data : List Byte) (source : Nat) (due : Option (Nat × Nat))
  /-- the atomic add of a number that completes a WRITE (R294) -/
  | complete (pos a n : Nat)
  deriving DecidableEq, Repr

/-- An act due in a plan tc of the frame. A request that waits at its commons bank reached it in `since` (R57). -/
structure Item where
  tc : Nat
  since : Nat
  c : Ctx
  act : Act
  deriving DecidableEq, Repr

/-- A code-array word (keys 0 to 63) or codebook quarter (64 to 67) as it stood before a load in a tc: its contents, its parity or
residues, and its poison. Vectors still on their way see it (R105). -/
structure OldCode where
  tc : Nat
  key : Nat
  val : Nat
  check : Nat
  poison : Bool
  deriving DecidableEq, Repr

/-- The M-tile datapath (R97). A codebook quarter is held as the word that LDC.B loaded, its residues as 64 fields of 3 bits; `parSaid`
is the tc after the issue of the LAC that last reported a parity error (R121). -/
structure MState where
  codes : KMap Nat
  parity : KMap Nat
  codePoison : List Nat
  book : KMap Nat
  bookRes : KMap Nat
  bookPoison : List Nat
  hist : List OldCode
  parSaid : Nat
  acc : KMap (List Nat)
  res : KMap (List Nat)
  slotPoison : List Nat
  meshRd : Option MeshRd
  deriving DecidableEq, Repr

/-- The V-tile registers (R243, R133). -/
structure VState where
  vx : KMap (List Nat)
  poison : List Nat
  gm : Nat
  ev : List Nat
  map : Option MapTab
  deriving DecidableEq, Repr

/-- The S-tile registers (R249, R254). -/
structure SState where
  g : KMap Nat
  poison : List Nat
  fp : Nat
  deriving DecidableEq, Repr

/-- An M-, V- or S-tile: its stores, the window that runs, its program counter, the earliest plan tc of its next issue, the tc in
which its registers and units last became ready (R226), its loops, FL and parameter registers with their poison (a V-tile's DD0 to DD7
are 8 to 15), the injection side, what waits at its router, by glove and VC (4 glove + VC) the words of WRITEs that have been granted and
not sent (R78), and the gloves and VCs whose stall of the frame has been counted (R355). -/
structure Tile where
  store : KMap Nat
  wins : List WinDesc
  slots : KMap SlotSt
  run : Option Nat
  lastWin : Nat
  clearing : Bool
  lastGlove : Option Nat
  pc : Nat
  tc : Nat
  ready : KMap Nat
  loops : List LoopFr
  ended : Bool
  fl : Nat
  pm : KMap Nat
  pmPoison : List Nat
  inj : List (Nat × Flit)
  recv : Option RecvSt
  barw : Option Nat
  msgq : List VcFlit
  grants : KMap Nat
  stalled : List Nat
  waiti : Bool
  m : MState
  v : VState
  s : SState
  deriving DecidableEq, Repr

/-! ## Routers and ports (R61 to R89, R294 to R297) -/

/-- A segment descriptor (R71). -/
structure Seg where
  start : Nat
  rep : Nat
  period : Nat
  base : Nat
  deriving DecidableEq, Repr

/-- A slot entry (R72). -/
structure SlotEnt where
  src : Nat
  op : Nat
  tag : Nat
  glove : Nat
  deriving DecidableEq, Repr

/-- A flit at a router input: the plan tc of the slot it left from (seen from this router), and the outputs still to use it. -/
structure Latch where
  input : Nat
  tc : Nat
  uses : Nat
  flit : Flit
  deriving DecidableEq, Repr

/-- A running merge of TOPK lists at one output (R83): the entries seen of each input, what each has read, poison. -/
structure TopkSt where
  ins : List (List Nat)
  pos : List Nat
  poison : Bool
  deriving DecidableEq, Repr

/-- A router: its slot plan with the launch that each part belongs to, the flits at its inputs, the own-tile word of the
present tc, merges, the VC1 and VC2 buffers, keyed 8 input + 2 (vc - 1) + class, with the round-robin places, and for each output the tc,
counted over all frames, from which it is next free for a flit of VC1 to VC3 (R61). -/
structure Router where
  segs : List (Nat × Seg)
  slots : KMap (Nat × SlotEnt)
  latch : List Latch
  own : Option (Nat × Option Flit)
  topk : KMap TopkSt
  q : KMap (List VcFlit)
  rr : KMap Nat
  linkFree : KMap Nat
  deriving DecidableEq, Repr

/-- A stream-table entry (R295). -/
structure Stream where
  launch : Nat
  addr : Nat
  nw : Nat
  op : Nat
  tag : Nat
  glove : Nat
  deriving DecidableEq, Repr

/-- A request at a share ledger (R78): a memory request, or a burst of the host DMA op of that key. -/
structure LedgerReq where
  glove : Nat
  size : Nat
  req : Option MemReq
  op : Nat
  stalled : Bool
  deriving DecidableEq, Repr

/-- A stream word read ahead (R297): its tag, stream and place in it, the word, and whether a lane of it was uncorrectable. -/
structure ReadAhead where
  tag : Nat
  stream : Stream
  place : Nat
  data : Nat
  bad : Bool
  deriving DecidableEq, Repr

/-- A port tile: its stream table and each tag's places in it (reads at 2 tag, writes at 2 tag + 1), each the entry among those of
its tag and the word; the words read ahead, the share ledger, and requests arrived and granted. -/
structure PortSt where
  streams : List Stream
  place : KMap (Nat × Nat)
  buffer : List ReadAhead
  arrived : List MemReq
  pend : List LedgerReq
  deficit : KMap Nat
  visit : Nat
  granted : List MemReq
  lanes : List (Nat × Nat × Option Flit)
  deriving DecidableEq, Repr

/-! ## Prolux (R441 to R453) -/

/-- An exchange-table entry (R448) and where its rounds stand (R449, R450): words taken from slots, handed to slots, received and
sent, rounds combined, freed and credited, the remote contribution that the present round uses (0 the initial block, v + 1 round
v), and the contributions and results by round. -/
structure XEnt where
  launch : Nat
  tag : Nat
  op : Nat
  rin : Bool
  lin : Bool
  rout : Bool
  lout : Bool
  record : Bool
  lag : Nat
  nw : Nat
  glove : Nat
  init : Nat
  took : Nat
  gave : Nat
  got : Nat
  comb : Nat
  sent : Nat
  freed : Nat
  credits : Nat
  pick : Option (Nat × Nat)
  mine : KMap Words2
  theirs : KMap Words2
  result : KMap Words2
  deriving DecidableEq, Repr

/-- A Prolux half-link's port tile: its exchange table, sequence numbers, the first 72 bytes of the cells kept for replay and of the
cells held while it trains, whether a negative acknowledgement is out, the last time cell received with the local count at its receipt, and notices forwarded. -/
structure PlxPort where
  ents : List XEnt
  seqOut : Nat
  seqIn : Nat
  replay : List (Nat × List Byte)
  held : List (List Byte)
  nak : Bool
  echo : Nat × Nat
  notices : List (Nat × Nat)
  deriving DecidableEq, Repr

/-! ## The field network (R361 to R376) -/

/-- A receive stream (R364 to R368): the frame (its CYCLE and payload) that belongs to the coming boundary and the one that came
after its capture point, the most recent frame delivered, the frames missed in a row, and 802.1CB recovery (its highest sequence number and
history; none while it takes any). -/
structure RxSt where
  due : Option (Nat × List Byte)
  next : Option (Nat × List Byte)
  last : Option (Nat × List Byte)
  missed : Nat
  recov : Option (Nat × Nat)
  deriving DecidableEq, Repr

/-- A transmit stream (R369, R370): the copies read of each object with whether each was read and whether it was marked uncorrectable,
what is to be sent of each, whether they have been fetched, whether the frame goes with NO_DATA once that is decided, whether it has
been sent, and the next R-tag sequence number. -/
structure TxSt where
  copies : KMap (List (List Byte × Bool × Bool))
  chosen : KMap (List Byte)
  fetched : Bool
  noData : Option Bool
  sent : Bool
  seq : Nat
  deriving DecidableEq, Repr

/-- A safety connection (R375, R376). -/
structure Conn where
  state : Nat
  last : Nat
  age : Nat
  ack : Bool
  data : List Byte
  cycle : Nat
  seq : Nat
  on : Bool
  deriving DecidableEq, Repr

/-- The field network; `meter` holds a stream filter's tokens (in millionths of a bit) and the time they stand for, `gcl` the gate
control lists in force (cycle and entries), `gclDue` the ports whose list has been committed (R362), `mute` whether the frame began in
safe state (R393). -/
structure FieldSt where
  rx : KMap RxSt
  tx : KMap TxSt
  conn : KMap Conn
  meter : KMap (Nat × Nat)
  gcl : KMap (Nat × List Nat)
  gclDue : List Nat
  mute : Bool
  deriving DecidableEq, Repr

/-! ## Problems (R163 to R168, R210 to R216) and drift watches (R143, R144) -/

/-- What a replica's trace holds (R165). -/
structure RepSt where
  last : Nat
  vdone : Bool
  up : Bool
  valley : Option Int
  deriving DecidableEq, Repr

/-- The best of a problem: its energy, replica, step, state, and whether its plain record has been written (R165). -/
structure Best where
  energy : Int
  replica : Nat
  step : Nat
  state : List Byte
  plain : Bool
  deriving DecidableEq, Repr

/-- A problem of a launch: its data and scale code as they now are, the steps completed, the frame's first step, the checkpoint number,
the permutation (and as it stood before the last swap round), the steps of the last checkpoint, sample point and iteration, the traces,
the best, the ring, the counts of the summary, the state sets and change bits, where the sampling counters stand in banks (bank and word,
eight to a word) and what they held at a re-execution checkpoint, and the counts of the sampling and group summaries. -/
structure ProbSt where
  data : ProblemData
  code : Nat
  steps : Nat
  first : Nat
  check : Nat
  perm : List Nat
  oldPerm : List Nat
  lastCheck : Nat
  lastSamp : Nat
  lastIter : Nat
  reps : List RepSt
  best : Option Best
  ring : Nat
  lost : Nat
  written : Nat
  valleys : Nat
  passes : Nat
  walls : Nat
  ysat : Nat
  sets : List (List Byte)
  chg : List (List Bool)
  stop : Option Nat
  counters : List (Nat × Nat)
  saved : List Nat
  samples : Nat
  iters : Nat
  lchecks : Nat
  sats : Nat
  clamps : Nat
  ties : Nat
  resets : Nat
  deriving DecidableEq, Repr

/-- The drift checks (R144): the frame in which the last one began, the watches that it has still to read, and the frame in which it last
stalled on glove 0's budget (R355). -/
structure DriftRun where
  began : Nat
  left : List Nat
  stalled : Option Nat
  deriving DecidableEq, Repr

/-- A drift watch that has found its launch: the launch, and the row of its last read. -/
structure Drift where
  launch : Nat
  row : Option (List Nat)
  deriving DecidableEq, Repr

/-! ## What leaves the module -/

/-- What the module sends out, newest first. -/
inductive Out where
  /-- an MSI-X message of a vector (R478) -/
  | msix (vector addr data : Nat)
  /-- data returned to a register or BAR2 read -/
  | readData (data : List Byte)
  /-- a Completer Abort (R463) -/
  | completerAbort
  /-- a posted host write of the module's (R461) -/
  | hostWrite (addr : Nat) (data : List Byte)
  /-- a host read of the module's: the requester's tag, the bus address and the length (R461) -/
  | hostRead (tag addr len : Nat)
  /-- a cell of a Prolux half-link, by its port tile (R441) -/
  | plxCell (pos : Nat) (cell : List Byte)
  /-- a negative acknowledgement of a cell of a half-link (R442) -/
  | plxNak (pos seq : Nat)
  /-- a frame sent on an Ethernet port, without its frame check sequence (R364) -/
  | frame (port : Nat) (data : List Byte)
  /-- a VC3 record passed on to the management complex (R87) -/
  | record (r : Vc3)
  /-- the answer to a service request (R381) -/
  | odResponse (via tag session index sub abort : Nat) (data : List Byte)
  deriving DecidableEq, Repr

/-! ## The whole module -/

/-- The state of the module; `vc3Held` are the records held at each router, `vc3Wait` those in its input buffers, keyed
16 position + 2 input + class (R68, R87); `now` is the plan tc that the frame has reached, `agenda` what is under way on the tiles, by tc (log entry
12); `sems` are the semaphore words that SIGNAL_SEM has changed in the present tc: frame, tc, address, the word before (R323); `rx`
keeps, by problem, the last two re-execution checkpoints with their numbers, the newest first (R400, R402). -/
structure State where
  plat : Plat
  rom : KMap RomWord
  frame : FrameSt
  od : KMap Nat
  force : KMap Nat
  bar0 : KMap Nat
  win : KMap Nat
  snap : KMap Nat
  mem : Memory
  ecc : KMap Ecc
  bank : KMap BankAux
  vc3Held : KMap (List Vc3Ent)
  vc3Wait : KMap (List Vc3Ent)
  chunks : KMap Chunk
  leaves : KMap Leaf
  assign : Option Assign
  fe : FrontEnd
  launches : KMap Launch
  tiles : KMap Tile
  routers : KMap Router
  ports : KMap PortSt
  plx : KMap PlxPort
  now : Nat
  agenda : List Item
  sems : List (Nat × Nat × Nat × Nat)
  stall : KMap Nat
  spent : KMap Nat
  serv : Serv
  sec : SecSt
  host : HostSt
  safety : SafetySt
  field : FieldSt
  probs : KMap ProbSt
  rx : KMap (List (Nat × ProbSt))
  drift : KMap Drift
  driftRun : DriftRun
  out : List Out
  freeCtr : Nat
  pending : List Instr
  deriving DecidableEq, Repr

/-- The outcome of a command. -/
abbrev Result := Host.Outcome State Fault Refusal

/-- A tile with empty stores and cleared registers (R16, R97, R243). -/
def Tile.blank : Tile where
  store := []
  wins := []
  slots := []
  run := none
  lastWin := 0
  clearing := false
  lastGlove := none
  pc := 0
  tc := 0
  ready := []
  loops := []
  ended := false
  fl := 0
  pm := []
  pmPoison := []
  inj := []
  recv := none
  barw := none
  msgq := []
  grants := []
  stalled := []
  waiti := false
  m := ⟨[], [], [], [], [], [], [], 0, [], [], [], none⟩
  v := ⟨[], [], 0, [0, 0, 0, 0], none⟩
  s := ⟨[], [], 0⟩

def PlxPort.blank : PlxPort := ⟨[], 0, 0, [], [], false, (0, 0), []⟩
def Router.blank : Router := ⟨[], [], [], none, [], [], [], []⟩
def PortSt.blank : PortSt := ⟨[], [], [], [], [], [], 0, [], []⟩

/-- The fuses of the module the model starts as (DESIGN CHOICE, log entry 3). -/
def Fuse.initial : Fuse where
  c6 := true
  bad := []
  serial := 1
  macs := List.replicate 8 0
  secret := List.replicate 32 0
  endorsement := List.replicate 64 0
  vendorKey := List.replicate 32 0
  firmwareKey := List.replicate 32 0
  helmetDigest := List.replicate 48 0

/-- Nothing supplied, no step of start-up done (R501). -/
def Plat.initial : Plat where
  fuse := Fuse.initial
  v48 := false
  aux := false
  rst := false
  perst := false
  commission := false
  step := 0
  halts := 0
  faultPins := 0
  ready := false
  linkUp := false
  relock := none
  suspended := false
  muxWait := none
  measuring := false
  nextStep := 0
  domReq := 0
  fwDigest := List.replicate 48 0
  fwVersion := (0, 0, 0)
  waiting := none
  failRec := 0

/-- The module right after power-on reset, before start-up: every register at its table's reset value (an unlisted register
or entry reads that value), in safe state with cause START (R391, R392, R496). -/
def State.reset : State where
  plat := Plat.initial
  frame := ⟨0, 0, 0, 0, 0, 0, 0⟩
  od := []
  force := []
  bar0 := []
  win := []
  snap := []
  mem := []
  ecc := []
  rom := []
  bank := []
  vc3Held := []
  vc3Wait := []
  chunks := []
  leaves := []
  assign := none
  fe := ⟨[], [], [], false, 0, 0, [], 0, []⟩
  launches := []
  tiles := []
  routers := []
  ports := []
  plx := []
  now := 0
  agenda := []
  sems := []
  stall := []
  spent := []
  serv := ⟨[], [], [], [], [], 0, List.replicate 16 0, [], false, false, none, 0⟩
  sec := ⟨.off, .off, List.replicate 8 ⟨.testing 0, false, 0, false, 0, 0, 0⟩, [], [], [], [], [], [], none, [], none, none⟩
  host := ⟨false, false, false, 0, [], 0, []⟩
  safety := ⟨1, false, 0, [], 0, []⟩
  field := ⟨[], [], [], [], [], [], true⟩
  probs := []
  rx := []
  drift := []
  driftRun := ⟨0, [], none⟩
  out := []
  freeCtr := 0
  pending := []

end Sys2Proof.Machine
end

