-- ==== Sys2Proof/Machine/Grid.lean ====
section
/-! DEFINITION. The grid: positions, kinds, clusters, port functions, logical numbers, and the address map (R7, R25 to R35,
R42, R43, R286, R287). -/

namespace Sys2Proof.Machine

/-- The kind of a position (R25, R26). -/
inductive Kind where
  | m | v | s | port
  deriving DecidableEq, Repr

/-- What a port tile serves (R28, R29). -/
inductive PortFn where
  | hbm (stack tile : Nat)
  | cap (cluster : Nat)
  | plx (link half : Nat)
  | pcie (half : Nat)
  | mgmt (n : Nat)
  | tsn (n : Nat)
  | sec (n : Nat)
  | helmet (n : Nat)
  | debug (n : Nat)
  deriving DecidableEq, Repr

def posCol (p : Nat) : Nat := p % 48
def posRow (p : Nat) : Nat := p / 48
/-- The position index of P[c,r] (R7). -/
def posAt (c r : Nat) : Nat := 48 * r + c
/-- The cluster of a position (R7). -/
def clusterOf (p : Nat) : Nat := 6 * (posRow p / 8) + posCol p / 8
def localX (p : Nat) : Nat := posCol p % 8
def localY (p : Nat) : Nat := posRow p % 8
/-- The position at a local place of a cluster (R26). -/
def posIn (cl x y : Nat) : Nat := posAt (8 * (cl % 6) + x) (8 * (cl / 6) + y)
/-- The half of the die: false west, true east (R27). -/
def eastHalf (p : Nat) : Bool := decide (24 ≤ posCol p)

/-- The kind of a position (R26). -/
def kindOf (p : Nat) : Kind :=
  match localX p with
  | 3 => .v
  | 4 => if localY p % 2 = 0 then .s else .port
  | _ => .m

/-- The special port tile of each cluster (R29). -/
def specialPort : Nat → PortFn
  | 0 => .plx 0 0 | 1 => .pcie 0 | 2 => .mgmt 0 | 3 => .mgmt 1 | 4 => .pcie 1 | 5 => .plx 1 0
  | 6 => .plx 0 1 | 7 => .tsn 0 | 8 => .sec 0 | 9 => .sec 1 | 10 => .tsn 1 | 11 => .plx 1 1
  | 12 => .plx 2 0 | 13 => .helmet 0 | 14 => .debug 0 | 15 => .debug 1 | 16 => .helmet 1 | 17 => .plx 3 0
  | 18 => .plx 2 1 | 19 => .plx 4 0 | 20 => .plx 4 1 | 21 => .plx 5 0 | 22 => .plx 5 1 | _ => .plx 3 1

/-- The function of a port position (R28). -/
def portFn (p : Nat) : PortFn :=
  let cl := clusterOf p
  let k := cl % 6
  let j := cl / 6
  match localY p with
  | 1 => .hbm (k + 6 * (j / 2)) (2 * (j % 2))
  | 5 => .hbm (k + 6 * (j / 2)) (2 * (j % 2) + 1)
  | 3 => .cap cl
  | _ => specialPort cl

/-- The scan-order number of a position among its kind in its cluster (R33). -/
def scanIndex (p : Nat) : Nat :=
  let x := localX p
  let y := localY p
  match kindOf p with
  | .m => 6 * y + (if x < 3 then x else x - 2)
  | .v => y
  | .s => y / 2
  | .port => y / 2

/-- The position with a scan-order number (R33). -/
def scanPos (cl : Nat) (k : Kind) (i : Nat) : Nat :=
  match k with
  | .m => posIn cl (i % 6 + (if 3 ≤ i % 6 then 2 else 0)) (i / 6)
  | .v => posIn cl 3 i
  | .s => posIn cl 4 (2 * i)
  | .port => posIn cl 4 (2 * i + 1)

/-- Positions of a kind in a cluster (R26). -/
def physPerCluster : Kind → Nat
  | .m => 48 | .v => 8 | .s => 4 | .port => 4

/-- Logical tiles of a kind in a cluster (R32). -/
def perCluster (c6 : Bool) : Kind → Nat
  | .m => if c6 then 44 else 32
  | .v => if c6 then 7 else 6
  | .s => 4
  | .port => 4

def isBad (f : Fuse) (p : Nat) : Bool := f.bad.contains p

/-- The healthy positions of a kind in a cluster, in scan order (R34). -/
def healthy (f : Fuse) (cl : Nat) (k : Kind) : List Nat :=
  ((List.range (physPerCluster k)).map (scanPos cl k)).filter fun p => !isBad f p

/-- The logical positions of a kind in a cluster, in order (R34). -/
def logicalIn (f : Fuse) (cl : Nat) (k : Kind) : List Nat := (healthy f cl k).take (perCluster f.c6 k)

/-- Whether a position is logical: neither defective nor reserve (R31). -/
def isLogical (f : Fuse) (p : Nat) : Bool :=
  decide (p < 1536) && (logicalIn f (clusterOf p) (kindOf p)).contains p

/-- The position of logical tile n of a kind (R34). -/
def logicalPos (f : Fuse) (k : Kind) (n : Nat) : Option Nat :=
  let q := perCluster f.c6 k
  if n < 24 * q then (logicalIn f (n / q) k)[n % q]? else none

/-- The logical number of a position (R34). -/
def logicalNo (f : Fuse) (p : Nat) : Nat :=
  let k := kindOf p
  perCluster f.c6 k * clusterOf p + (logicalIn f (clusterOf p) k).findIdx (· == p)

/-- Logical tiles of a kind in the grade (R1). -/
def gradeCount (c6 : Bool) (k : Kind) : Nat := 24 * perCluster c6 k

/-- The management complex (R30). -/
def mgmtTiles : List Nat := [posAt 20 0, posAt 20 2, posAt 28 0, posAt 28 2]
/-- The tile that governs a cluster's commons (R50, R349). -/
def commonsTile (cl : Nat) : Nat := posIn cl 4 4
/-- The Helmet link tile of a position's half (R29, R87). -/
def helmetTile (p : Nat) : Nat := if eastHalf p then posAt 36 23 else posAt 12 23
/-- The port tile that host requests are charged to (R305). -/
def pcieTile : Nat := 348

/-! ## Layouts of a cluster mask (R39) -/

/-- The bit of a position in its cluster's mask. -/
def maskBit (p : Nat) : Nat :=
  match kindOf p with
  | .m => scanIndex p
  | .v => 48 + scanIndex p
  | .s => 56 + scanIndex p
  | .port => 60 + scanIndex p

/-- The positions of a cluster. -/
def clusterPositions (cl : Nat) : List Nat :=
  (List.range 64).map fun i => posIn cl (i % 8) (i / 8)

/-- The mask of the positions of a cluster that pass a test (R39). -/
def clusterMask (cl : Nat) (f : Nat → Bool) : Nat :=
  (clusterPositions cl).foldl (fun m p => if f p then m + 2 ^ maskBit p else m) 0

/-- The logical tiles of a cluster, as such a mask. -/
def logicalMask (f : Fuse) (cl : Nat) : Nat :=
  ([Kind.m, .v, .s, .port].flatMap (logicalIn f cl)).foldl (fun m p => m + 2 ^ maskBit p) 0

/-! ## Power domains of tiles (R28 to R30, R490) -/

/-- The domain of a port function; 53 stands for PD_AON. -/
def portDomain : PortFn → Nat
  | .hbm s _ => 25 + s
  | .cap cl => 37 + cl % 6
  | .plx l _ => 43 + l
  | .pcie _ => 49
  | .tsn _ => 50
  | .sec _ => 51
  | .mgmt _ => 52
  | .debug _ => 52
  | .helmet _ => 53

/-- The domain of a position's tile. -/
def tileDomain (p : Nat) : Nat :=
  if mgmtTiles.contains p then 52
  else match kindOf p with
    | .port => portDomain (portFn p)
    | _ => clusterOf p

/-! ## Banks (R40, R42, R43) -/

/-- A bank's number: 4 p + b for tile bank b of position p, 6144 + 16 cl + k for commons bank k of a cluster. -/
def tileBank (p b : Nat) : Nat := 4 * p + b
def cmnBank (cl k : Nat) : Nat := 6144 + 16 * cl + k
def bankIsCmn (b : Nat) : Bool := decide (6144 ≤ b)
/-- The position whose tile holds the bank, or the commons' governing tile. -/
def bankPos (b : Nat) : Nat := if bankIsCmn b then commonsTile ((b - 6144) / 16) else b / 4
def bankCluster (b : Nat) : Nat := if bankIsCmn b then (b - 6144) / 16 else clusterOf (b / 4)
def bankNo (b : Nat) : Nat := if bankIsCmn b then (b - 6144) % 16 else b % 4

/-- Banks of a kind of tile (R40). -/
def bankCount : Kind → Nat
  | .m => 4 | .v => 4 | .s => 2 | .port => 0

/-- Words of a bank (R40). -/
def bankWords (b : Nat) : Nat :=
  if bankIsCmn b then 4096 else match kindOf (b / 4) with
    | .m => 1536
    | _ => 1024

/-- Whether the module has the bank: a bank of a tile, or a commons bank. -/
def bankExists (b : Nat) : Bool :=
  if bankIsCmn b then decide (b < 6144 + 16 * 24) else decide (b % 4 < bankCount (kindOf (b / 4)))

def tileBase (p : Nat) : Nat := 0xF00000000000 + p * 0x100000
def cmnBase (cl : Nat) : Nat := 0xF80000000000 + cl * 0x1000000
/-- The device address of a bank's first byte. -/
def bankBase (b : Nat) : Nat :=
  if bankIsCmn b then cmnBase ((b - 6144) / 16) + bankNo b * 0x40000 else tileBase (b / 4) + bankNo b * 0x20000
/-- The domain of a bank. -/
def bankDomain (b : Nat) : Nat := if bankIsCmn b then bankCluster b else tileDomain (b / 4)

/-- Every bank of the module (R40). -/
def allBanks : List Nat := (List.range (6144 + 384)).filter bankExists

/-! ## The address map (R286) -/

/-- The regions of the address map that an access can lie in (R292). -/
inductive Region where
  | hbm
  | cap
  /-- a bank -/
  | bank (b : Nat)
  /-- a register area: the window's first address -/
  | regs (base : Nat)
  /-- the window of a defective or reserve position, or an offset that R42 or R43 rejects, or unmapped space -/
  | unmapped
  deriving DecidableEq, Repr

def capTop (c6 : Bool) : Nat := if c6 then 0x160000000000 else 0x130000000000

/-- The region of an address inside a tile window (R31, R35, R42). The bank's and the datapath's registers are one region for an access
that spans them (DESIGN CHOICE, log entry 83). -/
def tileRegion (f : Fuse) (p off : Nat) : Region :=
  if !isLogical f p then .unmapped
  else if 0xF0000 ≤ off then .regs (tileBase p)
  else if off / 0x20000 < bankCount (kindOf p) ∧ off % 0x20000 < 64 * bankWords (tileBank p (off / 0x20000)) then
    .bank (tileBank p (off / 0x20000))
  else .unmapped

/-- The region of an address inside a commons window (R43). -/
def cmnRegion (cl off : Nat) : Region :=
  if off < 0x400000 then .bank (cmnBank cl (off / 0x40000))
  else if 0xFF0000 ≤ off ∧ off < 0xFF1000 then .regs (cmnBase cl)
  else .unmapped

/-- The region of a device address (R286). -/
def regionOf (f : Fuse) (a : Nat) : Region :=
  if a < 0x012000000000 then .hbm
  else if 0x100000000000 ≤ a ∧ a < capTop f.c6 then .cap
  else if 0xF00000000000 ≤ a ∧ a < 0xF00060000000 then
    tileRegion f ((a - 0xF00000000000) / 0x100000) ((a - 0xF00000000000) % 0x100000)
  else if 0xF80000000000 ≤ a ∧ a < 0xF80018000000 then
    cmnRegion ((a - 0xF80000000000) / 0x1000000) ((a - 0xF80000000000) % 0x1000000)
  else .unmapped

/-- Bytes of a chunk (R287). -/
def chunkBytes : Nat := 0x400000
def chunkOf (a : Nat) : Nat := a / chunkBytes
def chunkIsCap (k : Nat) : Bool := decide (0x400000 ≤ k)

/-- The stack's port tile at its position (R28, R287). -/
def hbmTile (s p : Nat) : Nat :=
  posIn (s % 6 + 6 * (2 * (s / 6) + p / 2)) 4 (if p % 2 = 0 then 1 else 5)

/-- The home port tile of a chunk (R287). -/
def chunkHome (k : Nat) : Nat :=
  if chunkIsCap k then posIn ((k - 0x400000) % 24) 4 3 else hbmTile (k % 12) (k / 12 % 4)

/-- The place of a chunk among the chunks of its port tile (R287). -/
def chunkLocal (k : Nat) : Nat := if chunkIsCap k then (k - 0x400000) / 24 else k / 48

/-- Chunks of the grade (R286). -/
def totalChunks (c6 : Bool) : Nat := 0x48000 + (if c6 then 0x180000 else 0xC0000)

/-- The port tile of a half of a Prolux link (R439). -/
def plxTile (l h : Nat) : Nat := [340, 724, 380, 764, 1108, 1492, 1148, 1532, 1500, 1508, 1516, 1524].getD (2 * l + h) 340

/-- Whether a port tile is a memory port tile (R28). -/
def isMemPort (p : Nat) : Bool := match kindOf p, portFn p with
  | .port, .hbm _ _ => true
  | .port, .cap _ => true
  | _, _ => false

end Sys2Proof.Machine
end

