-- ==== Sys2Proof/Machine/OdTable.lean ====
section
/-! DEFINITION. The object dictionary's entries as the tables of R17, R38, R94, R146, R285, R303, R359, R387, R407, R437,
R456 and R505 list them: indices, sub-indices, size, access, default, role, logging and the range the Type column states. A
default that the table gives in words (from fuses, from log, as measured) stands here as 0; such an entry is a view. -/

namespace Sys2Proof.Machine

/-- The access of an entry (R377). -/
inductive OdAccess where
  | ro | rw | wo
  deriving DecidableEq, Repr

/-- The role that a write needs (R378); `credential` follows R380. -/
inductive OdRole where
  | observer | operator | integrator | safety | vendor | credential
  deriving DecidableEq, Repr

/-- The range that the Type column states. -/
inductive OdRange where
  | any
  | upTo (hi : Nat)
  | range (lo hi : Nat)
  | irange (lo hi : Int)
  | framePeriod
  | gclCycle
  | portMask
  | mul64
  | mul64orNone
  | belowN
  | fetchTc
  | reseed
  | sysSource
  | domReq
  deriving DecidableEq, Repr

/-- One row: entries `lo … hi`, sub-indices `subLo … subHi`. -/
structure OdRow where
  lo : Nat
  hi : Nat
  subLo : Nat
  subHi : Nat
  bytes : Nat
  access : OdAccess
  dflt : Nat
  role : OdRole
  logged : Bool
  range : OdRange
  deriving DecidableEq, Repr

/-- Rows 0x1000 to 0x1310. -/
def odRows0 : List OdRow := [
  ⟨0x1000, 0x1000, 0, 0, 4, .ro, 0, .observer, false, .any⟩,
  ⟨0x1008, 0x1008, 0, 0, 7, .ro, 31095779991581250, .observer, false, .any⟩,
  ⟨0x1009, 0x1009, 0, 0, 2, .ro, 12610, .observer, false, .any⟩,
  ⟨0x100A, 0x100A, 0, 0, 32, .ro, 0, .observer, false, .any⟩,
  ⟨0x1018, 0x1018, 0, 0, 1, .ro, 4, .observer, false, .any⟩,
  ⟨0x1018, 0x1018, 1, 1, 4, .ro, 1413829206, .observer, false, .any⟩,
  ⟨0x1018, 0x1018, 2, 2, 4, .ro, 0, .observer, false, .any⟩,
  ⟨0x1018, 0x1018, 3, 3, 4, .ro, 0, .observer, false, .any⟩,
  ⟨0x1018, 0x1018, 4, 4, 4, .ro, 0, .observer, false, .any⟩,
  ⟨0x1101, 0x113F, 0, 0, 1, .ro, 2, .observer, false, .any⟩,
  ⟨0x1101, 0x113E, 1, 1, 1, .rw, 0, .credential, true, .any⟩,
  ⟨0x1101, 0x113F, 2, 2, 32, .rw, 0, .credential, true, .any⟩,
  ⟨0x113F, 0x113F, 1, 1, 1, .rw, 16, .credential, true, .any⟩,
  ⟨0x1180, 0x1180, 1, 1, 4, .rw, 600, .integrator, true, .range 10 86400⟩,
  ⟨0x1200, 0x1207, 0, 0, 1, .ro, 4, .observer, false, .any⟩,
  ⟨0x1200, 0x1207, 1, 1, 1, .rw, 0, .integrator, true, .upTo 3⟩,
  ⟨0x1200, 0x1207, 2, 2, 6, .ro, 0, .observer, false, .any⟩,
  ⟨0x1200, 0x1207, 3, 3, 1, .ro, 0, .observer, false, .any⟩,
  ⟨0x1200, 0x1207, 4, 4, 4, .rw, 0, .integrator, true, .any⟩,
  ⟨0x1280, 0x1280, 1, 1, 2, .rw, 49500, .integrator, true, .range 1024 65535⟩,
  ⟨0x1300, 0x1300, 1, 1, 2, .rw, 34997, .integrator, true, .range 0x600 0xFFFF⟩,
  ⟨0x1310, 0x1310, 0, 0, 1, .ro, 6, .observer, false, .any⟩,
  ⟨0x1310, 0x1310, 1, 1, 1, .rw, 0, .integrator, true, .upTo 127⟩,
  ⟨0x1310, 0x1310, 2, 3, 1, .rw, 248, .integrator, true, .any⟩]

/-- Rows 0x1310 to 0x2200. -/
def odRows1 : List OdRow := [
  ⟨0x1310, 0x1310, 4, 4, 1, .rw, 253, .integrator, true, .irange (-5) 0⟩,
  ⟨0x1310, 0x1310, 5, 5, 8, .ro, 0, .observer, false, .any⟩,
  ⟨0x1310, 0x1310, 6, 6, 8, .ro, 0, .observer, false, .any⟩,
  ⟨0x1400, 0x1407, 0, 0, 1, .ro, 3, .observer, false, .any⟩,
  ⟨0x1400, 0x1407, 1, 1, 1, .rw, 1, .integrator, true, .range 1 255⟩,
  ⟨0x1400, 0x1407, 2, 2, 4, .rw, 31250, .integrator, true, .gclCycle⟩,
  ⟨0x1400, 0x1407, 3, 3, 1, .wo, 0, .integrator, true, .range 1 1⟩,
  ⟨0x1500, 0x1507, 0, 0, 1, .ro, 255, .observer, false, .any⟩,
  ⟨0x1500, 0x1507, 1, 1, 4, .rw, 8000255, .integrator, true, .any⟩,
  ⟨0x1500, 0x1507, 2, 255, 4, .rw, 0, .integrator, true, .any⟩,
  ⟨0x1600, 0x16FF, 0, 0, 1, .ro, 4, .observer, false, .any⟩,
  ⟨0x1600, 0x16FF, 1, 1, 8, .rw, 0, .integrator, true, .any⟩,
  ⟨0x1600, 0x16FF, 2, 2, 2, .rw, 1522, .integrator, true, .any⟩,
  ⟨0x1600, 0x16FF, 3, 4, 4, .rw, 0, .integrator, true, .any⟩,
  ⟨0x2000, 0x2000, 1, 1, 1, .rw, 0, .integrator, true, .upTo 1⟩,
  ⟨0x2100, 0x2100, 0, 0, 1, .ro, 6, .observer, false, .any⟩,
  ⟨0x2100, 0x2100, 1, 1, 1, .rw, 0, .integrator, true, .upTo 1⟩,
  ⟨0x2100, 0x2100, 2, 2, 4, .rw, 31250, .integrator, true, .framePeriod⟩,
  ⟨0x2100, 0x2100, 3, 3, 8, .ro, 0, .observer, false, .any⟩,
  ⟨0x2100, 0x2100, 4, 4, 4, .ro, 0, .observer, false, .any⟩,
  ⟨0x2100, 0x2100, 5, 5, 1, .ro, 0, .observer, false, .any⟩,
  ⟨0x2100, 0x2100, 6, 6, 4, .ro, 0, .observer, false, .any⟩,
  ⟨0x2200, 0x2200, 0, 0, 1, .ro, 4, .observer, false, .any⟩,
  ⟨0x2200, 0x2200, 1, 1, 1, .ro, 0, .observer, false, .any⟩]

/-- Rows 0x2200 to 0x244F. -/
def odRows2 : List OdRow := [
  ⟨0x2200, 0x2200, 2, 2, 2, .ro, 0, .observer, false, .any⟩,
  ⟨0x2200, 0x2200, 3, 3, 2, .ro, 0, .observer, false, .any⟩,
  ⟨0x2200, 0x2200, 4, 4, 2, .ro, 0, .observer, false, .any⟩,
  ⟨0x2201, 0x2201, 0, 0, 1, .ro, 24, .observer, false, .any⟩,
  ⟨0x2201, 0x2201, 1, 24, 8, .ro, 0, .observer, false, .any⟩,
  ⟨0x2202, 0x2202, 0, 0, 1, .ro, 24, .observer, false, .any⟩,
  ⟨0x2202, 0x2202, 1, 24, 8, .ro, 0, .observer, false, .any⟩,
  ⟨0x2203, 0x2203, 0, 0, 1, .ro, 24, .observer, false, .any⟩,
  ⟨0x2203, 0x2203, 1, 24, 8, .ro, 0, .observer, false, .any⟩,
  ⟨0x2300, 0x2300, 0, 0, 1, .ro, 6, .observer, false, .any⟩,
  ⟨0x2300, 0x2300, 1, 1, 1, .ro, 0, .observer, false, .any⟩,
  ⟨0x2300, 0x2300, 2, 2, 1, .ro, 0, .observer, false, .any⟩,
  ⟨0x2300, 0x2300, 3, 3, 1, .ro, 16, .observer, false, .any⟩,
  ⟨0x2300, 0x2300, 4, 4, 1, .ro, 0, .observer, false, .any⟩,
  ⟨0x2300, 0x2300, 5, 5, 4, .ro, 0, .observer, false, .any⟩,
  ⟨0x2300, 0x2300, 6, 6, 8, .ro, 0, .observer, false, .any⟩,
  ⟨0x2301, 0x2301, 0, 0, 1, .ro, 32, .observer, false, .any⟩,
  ⟨0x2301, 0x2301, 1, 32, 1, .ro, 0, .observer, false, .any⟩,
  ⟨0x2400, 0x2400, 0, 0, 1, .ro, 2, .observer, false, .any⟩,
  ⟨0x2400, 0x2400, 1, 1, 2, .rw, 1024, .integrator, true, .range 1 65535⟩,
  ⟨0x2400, 0x2400, 2, 2, 1, .ro, 0, .observer, false, .any⟩,
  ⟨0x2410, 0x244F, 0, 0, 1, .ro, 11, .observer, false, .any⟩,
  ⟨0x2410, 0x244F, 1, 1, 1, .rw, 0, .operator, true, .any⟩,
  ⟨0x2410, 0x244F, 2, 2, 2, .rw, 0, .operator, true, .upTo 4095⟩]

/-- Rows 0x2410 to 0x2600. -/
def odRows3 : List OdRow := [
  ⟨0x2410, 0x244F, 3, 3, 1, .rw, 0, .operator, true, .upTo 3⟩,
  ⟨0x2410, 0x244F, 4, 4, 8, .rw, 18446744073709551615, .operator, true, .any⟩,
  ⟨0x2410, 0x244F, 5, 5, 4, .rw, 4294967295, .operator, true, .any⟩,
  ⟨0x2410, 0x244F, 6, 6, 8, .ro, 0, .observer, false, .any⟩,
  ⟨0x2410, 0x244F, 7, 7, 4, .ro, 0, .observer, false, .any⟩,
  ⟨0x2410, 0x244F, 8, 8, 4, .ro, 0, .observer, false, .any⟩,
  ⟨0x2410, 0x244F, 9, 9, 4, .ro, 0, .observer, false, .any⟩,
  ⟨0x2410, 0x244F, 10, 10, 1, .ro, 0, .observer, false, .any⟩,
  ⟨0x2410, 0x244F, 11, 11, 1, .ro, 0, .observer, false, .any⟩,
  ⟨0x2500, 0x2500, 0, 0, 1, .ro, 7, .observer, false, .any⟩,
  ⟨0x2500, 0x2500, 1, 1, 8, .rw, 0, .operator, true, .any⟩,
  ⟨0x2500, 0x2500, 2, 2, 4, .rw, 1, .operator, true, .range 1 1572864⟩,
  ⟨0x2500, 0x2500, 3, 3, 2, .rw, 256, .operator, true, .upTo 256⟩,
  ⟨0x2500, 0x2500, 4, 4, 1, .rw, 1, .operator, true, .upTo 1⟩,
  ⟨0x2500, 0x2500, 5, 5, 1, .wo, 0, .operator, true, .range 1 1⟩,
  ⟨0x2500, 0x2500, 6, 6, 1, .ro, 0, .observer, false, .any⟩,
  ⟨0x2500, 0x2500, 7, 7, 4, .ro, 0, .observer, false, .any⟩,
  ⟨0x2501, 0x2501, 0, 0, 1, .ro, 12, .observer, false, .any⟩,
  ⟨0x2501, 0x2501, 1, 12, 1, .ro, 1, .observer, false, .any⟩,
  ⟨0x2502, 0x2502, 0, 0, 1, .ro, 24, .observer, false, .any⟩,
  ⟨0x2502, 0x2502, 1, 24, 1, .ro, 1, .observer, false, .any⟩,
  ⟨0x2600, 0x2600, 0, 0, 1, .ro, 6, .observer, false, .any⟩,
  ⟨0x2600, 0x2600, 1, 1, 1, .rw, 0, .integrator, true, .sysSource⟩,
  ⟨0x2600, 0x2600, 2, 2, 1, .rw, 0, .integrator, true, .upTo 5⟩]

/-- Rows 0x2600 to 0x2900. -/
def odRows4 : List OdRow := [
  ⟨0x2600, 0x2600, 3, 3, 1, .ro, 0, .observer, false, .any⟩,
  ⟨0x2600, 0x2600, 4, 4, 4, .ro, 0, .observer, false, .any⟩,
  ⟨0x2600, 0x2600, 5, 5, 1, .ro, 0, .observer, false, .any⟩,
  ⟨0x2600, 0x2600, 6, 6, 4, .rw, 0, .integrator, true, .upTo 0xFFFFFF⟩,
  ⟨0x2700, 0x2705, 0, 0, 1, .ro, 6, .observer, false, .any⟩,
  ⟨0x2700, 0x2705, 1, 1, 1, .rw, 0, .integrator, true, .upTo 1⟩,
  ⟨0x2700, 0x2705, 2, 2, 1, .ro, 0, .observer, false, .any⟩,
  ⟨0x2700, 0x2705, 3, 3, 1, .ro, 0, .observer, false, .any⟩,
  ⟨0x2700, 0x2705, 4, 4, 4, .ro, 0, .observer, false, .any⟩,
  ⟨0x2700, 0x2705, 5, 5, 4, .ro, 0, .observer, false, .any⟩,
  ⟨0x2700, 0x2705, 6, 6, 4, .ro, 0, .observer, false, .any⟩,
  ⟨0x2780, 0x2780, 1, 1, 4, .rw, 10000, .operator, true, .range 100 1000000000⟩,
  ⟨0x2800, 0x2800, 0, 0, 1, .ro, 8, .observer, false, .any⟩,
  ⟨0x2800, 0x2800, 1, 1, 1, .rw, 0, .integrator, true, .upTo 1⟩,
  ⟨0x2800, 0x2800, 2, 2, 1, .ro, 0, .observer, false, .any⟩,
  ⟨0x2800, 0x2800, 3, 3, 4, .ro, 0, .observer, false, .any⟩,
  ⟨0x2800, 0x2800, 4, 4, 1, .ro, 0, .observer, false, .any⟩,
  ⟨0x2800, 0x2800, 5, 5, 2, .ro, 1500, .observer, false, .any⟩,
  ⟨0x2800, 0x2800, 6, 6, 1, .ro, 0, .observer, false, .any⟩,
  ⟨0x2800, 0x2800, 7, 7, 1, .ro, 0, .observer, false, .any⟩,
  ⟨0x2800, 0x2800, 8, 8, 4, .ro, 0, .observer, false, .any⟩,
  ⟨0x2900, 0x2900, 0, 0, 1, .ro, 3, .observer, false, .any⟩,
  ⟨0x2900, 0x2900, 1, 1, 2, .wo, 0, .integrator, true, .domReq⟩,
  ⟨0x2900, 0x2900, 2, 2, 2, .ro, 0, .observer, false, .any⟩]

/-- Rows 0x2900 to 0x31FF. -/
def odRows5 : List OdRow := [
  ⟨0x2900, 0x2900, 3, 3, 4, .ro, 0, .observer, false, .any⟩,
  ⟨0x2901, 0x2901, 0, 0, 1, .ro, 53, .observer, false, .any⟩,
  ⟨0x2901, 0x2901, 1, 53, 1, .ro, 0, .observer, false, .any⟩,
  ⟨0x2A00, 0x2A00, 0, 0, 1, .ro, 5, .observer, false, .any⟩,
  ⟨0x2A00, 0x2A00, 1, 1, 1, .ro, 0, .observer, false, .any⟩,
  ⟨0x2A00, 0x2A00, 2, 2, 40, .ro, 0, .observer, false, .any⟩,
  ⟨0x2A00, 0x2A00, 3, 3, 4, .ro, 0, .observer, false, .any⟩,
  ⟨0x2A00, 0x2A00, 4, 4, 2, .ro, 0, .observer, false, .any⟩,
  ⟨0x2A00, 0x2A00, 5, 5, 1, .ro, 0, .observer, false, .any⟩,
  ⟨0x3000, 0x3000, 0, 0, 1, .ro, 5, .observer, false, .any⟩,
  ⟨0x3000, 0x3000, 1, 1, 4, .wo, 0, .integrator, true, .any⟩,
  ⟨0x3000, 0x3000, 2, 2, 8, .ro, 0, .observer, false, .any⟩,
  ⟨0x3000, 0x3000, 3, 3, 1, .wo, 0, .integrator, true, .range 1 255⟩,
  ⟨0x3000, 0x3000, 4, 4, 1, .wo, 0, .integrator, true, .range 1 255⟩,
  ⟨0x3000, 0x3000, 5, 5, 1, .ro, 0, .observer, false, .any⟩,
  ⟨0x3001, 0x3001, 0, 0, 1, .ro, 255, .observer, false, .any⟩,
  ⟨0x3001, 0x3001, 1, 255, 1, .ro, 0, .observer, false, .any⟩,
  ⟨0x3002, 0x3002, 0, 0, 1, .ro, 255, .observer, false, .any⟩,
  ⟨0x3002, 0x3002, 1, 255, 4, .ro, 0, .observer, false, .any⟩,
  ⟨0x3003, 0x3003, 0, 0, 1, .ro, 255, .observer, false, .any⟩,
  ⟨0x3003, 0x3003, 1, 255, 1, .ro, 0, .observer, false, .any⟩,
  ⟨0x3100, 0x31FF, 0, 0, 1, .ro, 8, .observer, false, .any⟩,
  ⟨0x3100, 0x31FF, 1, 2, 8, .rw, 18446744073709551615, .integrator, true, .any⟩,
  ⟨0x3100, 0x31FF, 3, 4, 8, .rw, 18446744073709551615, .integrator, true, .any⟩]

/-- Rows 0x3100 to 0x44FF. -/
def odRows6 : List OdRow := [
  ⟨0x3100, 0x31FF, 5, 6, 8, .rw, 18446744073709551615, .integrator, true, .any⟩,
  ⟨0x3100, 0x31FF, 7, 7, 4, .rw, 4294967295, .integrator, true, .any⟩,
  ⟨0x3100, 0x31FF, 8, 8, 1, .rw, 1, .integrator, true, .any⟩,
  ⟨0x3400, 0x3400, 0, 0, 1, .ro, 255, .observer, false, .any⟩,
  ⟨0x3400, 0x3400, 1, 255, 1, .rw, 0, .integrator, true, .upTo 1⟩,
  ⟨0x4000, 0x4000, 0, 0, 1, .ro, 9, .observer, false, .any⟩,
  ⟨0x4000, 0x4000, 1, 1, 1, .ro, 1, .observer, false, .any⟩,
  ⟨0x4000, 0x4000, 2, 2, 2, .ro, 1, .observer, false, .any⟩,
  ⟨0x4000, 0x4000, 3, 3, 1, .wo, 0, .safety, true, .range 1 1⟩,
  ⟨0x4000, 0x4000, 4, 4, 1, .wo, 0, .safety, true, .range 1 1⟩,
  ⟨0x4000, 0x4000, 5, 5, 2, .rw, 1000, .safety, true, .range 100 5000⟩,
  ⟨0x4000, 0x4000, 6, 6, 4, .ro, 0, .observer, false, .any⟩,
  ⟨0x4000, 0x4000, 7, 7, 4, .ro, 0, .observer, false, .any⟩,
  ⟨0x4000, 0x4000, 8, 8, 4, .ro, 0, .observer, false, .any⟩,
  ⟨0x4000, 0x4000, 9, 9, 4, .ro, 0, .observer, false, .any⟩,
  ⟨0x4100, 0x44FF, 0, 0, 1, .ro, 11, .observer, false, .any⟩,
  ⟨0x4100, 0x44FF, 1, 1, 1, .rw, 0, .safety, true, .upTo 1⟩,
  ⟨0x4100, 0x44FF, 2, 2, 4, .rw, 0, .safety, true, .any⟩,
  ⟨0x4100, 0x44FF, 3, 3, 1, .rw, 1, .safety, true, .range 1 64⟩,
  ⟨0x4100, 0x44FF, 4, 4, 1, .rw, 3, .safety, true, .range 1 255⟩,
  ⟨0x4100, 0x44FF, 5, 5, 1, .rw, 0, .safety, true, .upTo 1⟩,
  ⟨0x4100, 0x44FF, 6, 6, 2, .rw, 0, .safety, true, .upTo 1023⟩,
  ⟨0x4100, 0x44FF, 7, 7, 1, .ro, 0, .observer, false, .any⟩,
  ⟨0x4100, 0x44FF, 8, 8, 1, .wo, 0, .safety, true, .range 1 1⟩]

/-- Rows 0x4100 to 0x5020. -/
def odRows7 : List OdRow := [
  ⟨0x4100, 0x44FF, 9, 10, 4, .ro, 0, .observer, false, .any⟩,
  ⟨0x4100, 0x44FF, 11, 11, 1, .rw, 0, .safety, true, .upTo 1⟩,
  ⟨0x4801, 0x48FF, 0, 0, 1, .ro, 8, .observer, false, .any⟩,
  ⟨0x4801, 0x48FF, 1, 1, 1, .rw, 1, .safety, true, .upTo 1⟩,
  ⟨0x4801, 0x48FF, 2, 2, 2, .rw, 4, .safety, true, .range 1 65535⟩,
  ⟨0x4801, 0x48FF, 3, 3, 2, .ro, 0, .observer, false, .any⟩,
  ⟨0x4801, 0x48FF, 4, 4, 4, .ro, 0, .observer, false, .any⟩,
  ⟨0x4801, 0x48FF, 5, 5, 4, .ro, 0, .observer, false, .any⟩,
  ⟨0x4801, 0x48FF, 6, 6, 4, .ro, 0, .observer, false, .any⟩,
  ⟨0x4801, 0x48FF, 7, 7, 4, .ro, 0, .observer, false, .any⟩,
  ⟨0x4801, 0x48FF, 8, 8, 2, .ro, 0, .observer, false, .any⟩,
  ⟨0x5000, 0x5000, 0, 0, 1, .ro, 7, .observer, false, .any⟩,
  ⟨0x5000, 0x5000, 1, 1, 1, .ro, 0, .observer, false, .any⟩,
  ⟨0x5000, 0x5000, 2, 2, 1, .ro, 0, .observer, false, .any⟩,
  ⟨0x5000, 0x5000, 3, 3, 4, .ro, 0, .observer, false, .any⟩,
  ⟨0x5000, 0x5000, 4, 4, 1, .wo, 0, .operator, true, .upTo 7⟩,
  ⟨0x5000, 0x5000, 5, 5, 1, .ro, 0, .observer, false, .any⟩,
  ⟨0x5000, 0x5000, 6, 6, 8, .ro, 0, .observer, false, .any⟩,
  ⟨0x5000, 0x5000, 7, 7, 2, .wo, 0, .operator, true, .reseed⟩,
  ⟨0x5010, 0x5010, 0, 0, 1, .ro, 255, .observer, false, .any⟩,
  ⟨0x5010, 0x5010, 1, 255, 4, .ro, 0, .observer, false, .any⟩,
  ⟨0x5011, 0x5011, 0, 0, 1, .ro, 8, .observer, false, .any⟩,
  ⟨0x5011, 0x5011, 1, 8, 4, .ro, 0, .observer, false, .any⟩,
  ⟨0x5020, 0x5020, 0, 0, 1, .ro, 3, .observer, false, .any⟩]

/-- Rows 0x5020 to 0x683F. -/
def odRows8 : List OdRow := [
  ⟨0x5020, 0x5020, 1, 1, 32, .ro, 0, .observer, false, .any⟩,
  ⟨0x5020, 0x5020, 2, 2, 97, .ro, 0, .observer, false, .any⟩,
  ⟨0x5020, 0x5020, 3, 3, 64, .ro, 0, .observer, false, .any⟩,
  ⟨0x5030, 0x5030, 0, 0, 1, .ro, 5, .observer, false, .any⟩,
  ⟨0x5030, 0x5030, 1, 1, 32, .rw, 0, .observer, false, .any⟩,
  ⟨0x5030, 0x5030, 2, 2, 1, .rw, 0, .observer, false, .upTo 1⟩,
  ⟨0x5030, 0x5030, 3, 3, 1, .wo, 0, .observer, false, .range 1 1⟩,
  ⟨0x5030, 0x5030, 4, 4, 1, .ro, 0, .observer, false, .any⟩,
  ⟨0x5030, 0x5030, 5, 5, 272, .ro, 0, .observer, false, .any⟩,
  ⟨0x5040, 0x5040, 0, 0, 1, .ro, 2, .observer, false, .any⟩,
  ⟨0x5040, 0x5040, 1, 1, 8, .ro, 0, .observer, false, .any⟩,
  ⟨0x5040, 0x5040, 2, 2, 4, .ro, 0, .observer, false, .any⟩,
  ⟨0x6000, 0x63FF, 0, 0, 1, .ro, 8, .observer, false, .any⟩,
  ⟨0x6000, 0x63FF, 1, 1, 1, .rw, 1, .integrator, true, .range 1 255⟩,
  ⟨0x6000, 0x63FF, 2, 2, 1, .rw, 0, .integrator, true, .upTo 1⟩,
  ⟨0x6000, 0x63FF, 3, 3, 2, .rw, 65535, .integrator, true, .any⟩,
  ⟨0x6000, 0x63FF, 4, 4, 4, .rw, 0, .integrator, true, .mul64⟩,
  ⟨0x6000, 0x63FF, 5, 5, 2, .rw, 65535, .integrator, true, .any⟩,
  ⟨0x6000, 0x63FF, 6, 6, 4, .rw, 0, .integrator, true, .mul64⟩,
  ⟨0x6000, 0x63FF, 7, 7, 2, .rw, 1, .integrator, true, .range 1 1024⟩,
  ⟨0x6000, 0x63FF, 8, 8, 4, .rw, 4294967295, .integrator, true, .mul64orNone⟩,
  ⟨0x6800, 0x683F, 0, 0, 1, .ro, 6, .observer, false, .any⟩,
  ⟨0x6800, 0x683F, 1, 1, 1, .rw, 0, .operator, true, .upTo 1⟩,
  ⟨0x6800, 0x683F, 2, 2, 1, .rw, 1, .integrator, true, .portMask⟩]

/-- Rows 0x6800 to 0x7302. -/
def odRows9 : List OdRow := [
  ⟨0x6800, 0x683F, 3, 3, 8, .rw, 0, .integrator, true, .any⟩,
  ⟨0x6800, 0x683F, 4, 4, 2, .rw, 64, .integrator, true, .range 1 1500⟩,
  ⟨0x6800, 0x683F, 5, 5, 1, .rw, 0, .integrator, true, .upTo 32⟩,
  ⟨0x6800, 0x683F, 6, 6, 4, .ro, 0, .observer, false, .any⟩,
  ⟨0x6840, 0x687F, 0, 0, 1, .ro, 9, .observer, false, .any⟩,
  ⟨0x6840, 0x687F, 1, 1, 1, .rw, 0, .operator, true, .upTo 1⟩,
  ⟨0x6840, 0x687F, 2, 2, 1, .rw, 1, .integrator, true, .portMask⟩,
  ⟨0x6840, 0x687F, 3, 3, 8, .rw, 0, .integrator, true, .any⟩,
  ⟨0x6840, 0x687F, 4, 4, 1, .rw, 7, .integrator, true, .upTo 7⟩,
  ⟨0x6840, 0x687F, 5, 5, 2, .rw, 64, .integrator, true, .range 1 1500⟩,
  ⟨0x6840, 0x687F, 6, 6, 4, .rw, 7200, .integrator, true, .belowN⟩,
  ⟨0x6840, 0x687F, 7, 7, 4, .rw, 6700, .integrator, true, .fetchTc⟩,
  ⟨0x6840, 0x687F, 8, 8, 1, .rw, 0, .integrator, true, .upTo 1⟩,
  ⟨0x6840, 0x687F, 9, 9, 4, .ro, 0, .observer, false, .any⟩,
  ⟨0x6A00, 0x6A7F, 0, 0, 1, .rw, 0, .integrator, true, .upTo 32⟩,
  ⟨0x6A00, 0x6A7F, 1, 32, 4, .rw, 0, .integrator, true, .any⟩,
  ⟨0x7100, 0x7107, 0, 0, 1, .ro, 3, .observer, false, .any⟩,
  ⟨0x7100, 0x7107, 1, 3, 8, .ro, 0, .observer, false, .any⟩,
  ⟨0x7300, 0x7300, 0, 0, 1, .ro, 255, .observer, false, .any⟩,
  ⟨0x7300, 0x7300, 1, 255, 4, .ro, 0, .observer, false, .any⟩,
  ⟨0x7301, 0x7301, 0, 0, 1, .ro, 255, .observer, false, .any⟩,
  ⟨0x7301, 0x7301, 1, 255, 4, .ro, 0, .observer, false, .any⟩,
  ⟨0x7302, 0x7302, 0, 0, 1, .ro, 2, .observer, false, .any⟩,
  ⟨0x7302, 0x7302, 1, 1, 4, .ro, 0, .observer, false, .any⟩]

/-- Rows 0x7302 to 0x8000. -/
def odRows10 : List OdRow := [
  ⟨0x7302, 0x7302, 2, 2, 4, .ro, 0, .observer, false, .any⟩,
  ⟨0x7400, 0x7400, 0, 0, 1, .ro, 255, .observer, false, .any⟩,
  ⟨0x7400, 0x7400, 1, 255, 8, .ro, 0, .observer, false, .any⟩,
  ⟨0x7401, 0x7401, 0, 0, 1, .ro, 5, .observer, false, .any⟩,
  ⟨0x7401, 0x7401, 1, 5, 8, .ro, 0, .observer, false, .any⟩,
  ⟨0x7500, 0x7500, 0, 0, 1, .ro, 4, .observer, false, .any⟩,
  ⟨0x7500, 0x7500, 1, 1, 8, .ro, 0, .observer, false, .any⟩,
  ⟨0x7500, 0x7500, 2, 2, 8, .ro, 0, .observer, false, .any⟩,
  ⟨0x7500, 0x7500, 3, 3, 8, .ro, 0, .observer, false, .any⟩,
  ⟨0x7500, 0x7500, 4, 4, 8, .ro, 0, .observer, false, .any⟩,
  ⟨0x7501, 0x7501, 1, 1, 16, .ro, 0, .observer, false, .any⟩,
  ⟨0x7600, 0x7600, 0, 0, 1, .ro, 5, .observer, false, .any⟩,
  ⟨0x7600, 0x7600, 1, 1, 2, .ro, 0, .observer, false, .any⟩,
  ⟨0x7600, 0x7600, 2, 2, 4, .ro, 0, .observer, false, .any⟩,
  ⟨0x7600, 0x7600, 3, 3, 4, .ro, 0, .observer, false, .any⟩,
  ⟨0x7600, 0x7600, 4, 4, 8, .ro, 0, .observer, false, .any⟩,
  ⟨0x7600, 0x7600, 5, 5, 8, .ro, 0, .observer, false, .any⟩,
  ⟨0x8000, 0x8000, 0, 0, 1, .ro, 9, .observer, false, .any⟩,
  ⟨0x8000, 0x8000, 1, 1, 4, .ro, 0, .observer, false, .any⟩,
  ⟨0x8000, 0x8000, 2, 2, 16, .ro, 0, .observer, false, .any⟩,
  ⟨0x8000, 0x8000, 3, 3, 4, .ro, 0, .observer, false, .any⟩,
  ⟨0x8000, 0x8000, 4, 4, 1, .wo, 0, .operator, true, .range 1 1⟩,
  ⟨0x8000, 0x8000, 5, 5, 4, .ro, 0, .observer, false, .any⟩,
  ⟨0x8000, 0x8000, 6, 6, 16, .ro, 0, .observer, false, .any⟩]

/-- Rows 0x8000 to 0x8100. -/
def odRows11 : List OdRow := [
  ⟨0x8000, 0x8000, 7, 7, 8, .ro, 0, .observer, false, .any⟩,
  ⟨0x8000, 0x8000, 8, 8, 64, .ro, 0, .observer, false, .any⟩,
  ⟨0x8000, 0x8000, 9, 9, 1, .ro, 1, .observer, false, .any⟩,
  ⟨0x8100, 0x8100, 0, 0, 1, .ro, 2, .observer, false, .any⟩,
  ⟨0x8100, 0x8100, 1, 1, 4, .rw, 0, .observer, false, .any⟩,
  ⟨0x8100, 0x8100, 2, 2, 64, .ro, 0, .observer, false, .any⟩]

/-- Every row of the dictionary. -/
def odRows : List OdRow :=
  odRows0 ++ odRows1 ++ odRows2 ++ odRows3 ++ odRows4 ++ odRows5 ++ odRows6 ++ odRows7 ++ odRows8 ++ odRows9 ++ odRows10 ++ odRows11

/-- The row of an entry. -/
def odRow (index sub : Nat) : Option OdRow :=
  odRows.find? fun r => decide (r.lo ≤ index) && decide (index ≤ r.hi) && decide (r.subLo ≤ sub) && decide (sub ≤ r.subHi)

/-- Whether the index exists at all. -/
def odIndexExists (index : Nat) : Bool := odRows.any fun r => decide (r.lo ≤ index) && decide (index ≤ r.hi)

/-- The key of an entry in the table of stored values. -/
def odKey (index sub : Nat) : Nat := index * 256 + sub

/-- The default of an entry. -/
def odDefault (index sub : Nat) : Nat := match odRow index sub with
  | some r => r.dflt
  | none => 0

end Sys2Proof.Machine
end

