-- ==== Sys2Proof/Machine/RegTable.lean ====
section
/-! DEFINITION. The register tables: for every register its offset, its reset value and the bits of each access code of R8,
as the tables of R60, R95, R124, R219, R263, R304, R336, R347, R388, R408, R457, R472, R473, R474, R479 and R506 give them. -/

namespace Sys2Proof.Machine

/-- One register, or `count` registers `stride` bytes apart. Bits in none of the masks are RO (R8, R9). -/
structure RegSpec where
  off : Nat
  stride : Nat
  count : Nat
  reset : Nat
  rw : Nat
  w1c : Nat
  rc : Nat
  wo : Nat
  rwl : Nat
  deriving DecidableEq, Repr

/-- Bank registers of a tile window (R60, R347): BNK_CONFLICT, BNK_STATE, BNK_FAULT_INFO, BNK_FAULT_ADDR, BNK_OWNER. -/
def bankRegs : List RegSpec := [
  ⟨0xF0000, 0, 1, 0x0, 0x0, 0x0, 0xFFFFFFFF, 0x0, 0x0⟩,
  ⟨0xF0004, 0, 1, 0x0, 0x0, 0x0, 0x0, 0x0, 0x0⟩,
  ⟨0xF0008, 0, 1, 0x0, 0x0, 0x0, 0xFFFF, 0x0, 0x0⟩,
  ⟨0xF000C, 0, 1, 0x0, 0x0, 0x0, 0x0, 0x0, 0x0⟩,
  ⟨0xF0010, 4, 4, 0x0, 0x1FF00, 0x80000, 0x0, 0x100000, 0x0⟩]

/-- Bank registers of a commons window (R60, R347): BNK_CMN_STATE, BNK_CMN_CONFLICT, BNK_CMN_FAULT_INFO, BNK_CMN_MERGED_LO, BNK_CMN_MERGED_HI, BNK_CMN_QUEUED, BNK_CMN_OWNER. -/
def cmnRegs : List RegSpec := [
  ⟨0xFF0000, 0, 1, 0x0, 0x0, 0x0, 0x0, 0x0, 0x0⟩,
  ⟨0xFF0004, 0, 1, 0x0, 0x0, 0x0, 0xFFFFFFFF, 0x0, 0x0⟩,
  ⟨0xFF0008, 0, 1, 0x0, 0x0, 0x0, 0xFFFF, 0x0, 0x0⟩,
  ⟨0xFF0010, 0, 1, 0x0, 0x0, 0x0, 0x0, 0x0, 0x0⟩,
  ⟨0xFF0014, 0, 1, 0x0, 0x0, 0x0, 0x0, 0x0, 0x0⟩,
  ⟨0xFF0018, 0, 1, 0x0, 0x0, 0x0, 0xFFFFFFFF, 0x0, 0x0⟩,
  ⟨0xFF0040, 4, 16, 0x0, 0x1FF00, 0x80000, 0x0, 0x100000, 0x0⟩]

/-- Router registers (R95): NOC_LINK_STATE, NOC_PLAN_FAULT, NOC_LINK_ECC, NOC_VC_MAXWAIT, CMB_COALESCE, NOC_SEGMENT, NOC_CLASS_B, NOC_ROUTE_CRC. -/
def nocRegs : List RegSpec := [
  ⟨0xFE000, 0, 1, 0x0, 0x0, 0x0, 0x0, 0x0, 0x0⟩,
  ⟨0xFE004, 0, 1, 0x0, 0x0, 0x0, 0xFFFFFFFF, 0x0, 0x0⟩,
  ⟨0xFE008, 0, 1, 0x0, 0x0, 0x0, 0xFFFFFFFF, 0x0, 0x0⟩,
  ⟨0xFE00C, 0, 1, 0x0, 0x0, 0x0, 0xFFFFFFFF, 0x0, 0x0⟩,
  ⟨0xFE010, 0, 1, 0x0, 0x0, 0x0, 0xFFFFF, 0x0, 0x0⟩,
  ⟨0xFE014, 0, 1, 0x0, 0x0, 0x0, 0x0, 0x0, 0x0⟩,
  ⟨0xFE018, 0, 1, 0x0, 0x0, 0x0, 0xFFFFFFFF, 0x0, 0x0⟩,
  ⟨0xFE01C, 0, 1, 0x0, 0x0, 0x0, 0x0, 0x0, 0x0⟩]

/-- M-tile registers (R124): MT_FAULT, MT_RESIDUE_INFO, MT_PARITY_INFO, MT_SAT, MT_VEC_LO, MT_VEC_HI. -/
def mtRegs : List RegSpec := [
  ⟨0xF1000, 0, 1, 0x0, 0x0, 0x7, 0x0, 0x0, 0x0⟩,
  ⟨0xF1004, 0, 1, 0x0, 0x0, 0x0, 0xFFFF, 0x0, 0x0⟩,
  ⟨0xF1008, 0, 1, 0x0, 0x0, 0x0, 0xFFFF, 0x0, 0x0⟩,
  ⟨0xF100C, 0, 1, 0x0, 0x0, 0x0, 0xFFFFFFFF, 0x0, 0x0⟩,
  ⟨0xF1010, 0, 1, 0x0, 0x0, 0x0, 0x0, 0x0, 0x0⟩,
  ⟨0xF1014, 0, 1, 0x0, 0x0, 0x0, 0x0, 0x0, 0x0⟩]

/-- V-tile registers (R219): VT_SFAULT, VT_DRAW_LO, VT_DRAW_HI, VT_CATS, VT_KEYS. -/
def vtRegs : List RegSpec := [
  ⟨0xF1000, 0, 1, 0x0, 0x0, 0x7, 0x0, 0x0, 0x0⟩,
  ⟨0xF1004, 0, 1, 0x0, 0x0, 0x0, 0x0, 0x0, 0x0⟩,
  ⟨0xF1008, 0, 1, 0x0, 0x0, 0x0, 0x0, 0x0, 0x0⟩,
  ⟨0xF100C, 0, 1, 0x0, 0x0, 0x0, 0xFFFF, 0x0, 0x0⟩,
  ⟨0xF1010, 0, 1, 0x0, 0x0, 0x0, 0x0, 0x0, 0x0⟩]

/-- Sequencer registers of M-, V- and S-tiles (R263): EXC_INFO, EXC_PC, EXC_TC, RUN, ISSUE_LO, ISSUE_HI, MESH_EV. -/
def excRegs : List RegSpec := [
  ⟨0xF2000, 0, 1, 0x0, 0x0, 0x80000000, 0x0, 0x0, 0x0⟩,
  ⟨0xF2004, 0, 1, 0x0, 0x0, 0x0, 0x0, 0x0, 0x0⟩,
  ⟨0xF2008, 0, 1, 0x0, 0x0, 0x0, 0x0, 0x0, 0x0⟩,
  ⟨0xF200C, 0, 1, 0x0, 0x0, 0x0, 0x0, 0x0, 0x0⟩,
  ⟨0xF2010, 0, 1, 0x0, 0x0, 0x0, 0x0, 0x0, 0x0⟩,
  ⟨0xF2014, 0, 1, 0x0, 0x0, 0x0, 0x0, 0x0, 0x0⟩,
  ⟨0xF2018, 0, 1, 0x0, 0x0, 0x0, 0xFFFFFFFF, 0x0, 0x0⟩]

/-- Memory port tile registers (R304): BNK_MEM_ECC, BNK_MEM_RATE, BNK_MEM_HASH. -/
def memRegs : List RegSpec := [
  ⟨0xF1000, 0, 1, 0x0, 0x0, 0x0, 0xFFFFFFFF, 0x0, 0x0⟩,
  ⟨0xF1004, 0, 1, 0x1, 0x0, 0x0, 0x0, 0x0, 0x0⟩,
  ⟨0xF1008, 0, 1, 0x0, 0x0, 0x0, 0x0, 0x0, 0x0⟩]

/-- BAR0 (R462): HQ_BASE_LO, HQ_BASE_HI, HQ_CTRL, HQ_TAIL, HQ_HEAD, HQ_STATUS, HQ_ERR, HQ_HEADWB_LO, HQ_HEADWB_HI, HQ_CURRENT, HQ_ORPHAN, PWR_ID, PWR_FW, PWR_STATUS, PWR_ACCERR_INFO, PWR_ACCERR_ADDR, PWR_FLR, BNK_HW_SEG_LO, BNK_HW_SEG_HI, IC_PEND, IC_WATCH, IC_VPEND_LO, IC_VPEND_HI, IC_COUNT, IC_ROUTE, IC_CLAIM, MSIX_ADDR_LO, MSIX_ADDR_HI, MSIX_DATA, MSIX_CTL, MSIX_PBA, ODM_DOORBELL, ODM_STATUS, ODM_REQ, ODM_RSP, PKE_TICKET, PKE_ANNEX, PKE_TICKET_SEQ. -/
def bar0Regs : List RegSpec := [
  ⟨0x1000, 0, 1, 0x0, 0xFFFFF000, 0x0, 0x0, 0x0, 0x0⟩,
  ⟨0x1004, 0, 1, 0x0, 0xFFFFFFFF, 0x0, 0x0, 0x0, 0x0⟩,
  ⟨0x1008, 0, 1, 0x0, 0x3, 0x0, 0x0, 0x4, 0x0⟩,
  ⟨0x100C, 0, 1, 0x0, 0xFFFFFFFF, 0x0, 0x0, 0x0, 0x0⟩,
  ⟨0x1010, 0, 1, 0x0, 0x0, 0x0, 0x0, 0x0, 0x0⟩,
  ⟨0x1014, 0, 1, 0x0, 0x0, 0x0, 0x0, 0x0, 0x0⟩,
  ⟨0x1018, 0, 1, 0x0, 0x0, 0xF, 0x0, 0x0, 0x0⟩,
  ⟨0x101C, 0, 1, 0x0, 0xFFFFFFF8, 0x0, 0x0, 0x0, 0x0⟩,
  ⟨0x1020, 0, 1, 0x0, 0xFFFFFFFF, 0x0, 0x0, 0x0, 0x0⟩,
  ⟨0x1024, 0, 1, 0x0, 0x0, 0x0, 0x0, 0x0, 0x0⟩,
  ⟨0x1028, 0, 1, 0x0, 0x0, 0x0, 0xFFFFFFFF, 0x0, 0x0⟩,
  ⟨0x0, 0, 1, 0xB10000, 0x0, 0x0, 0x0, 0x0, 0x0⟩,
  ⟨0x4, 0, 1, 0x0, 0x0, 0x0, 0x0, 0x0, 0x0⟩,
  ⟨0x8, 0, 1, 0x10, 0x0, 0x0, 0x0, 0x0, 0x0⟩,
  ⟨0x10, 0, 1, 0x0, 0x0, 0x0, 0xFF, 0x0, 0x0⟩,
  ⟨0x14, 0, 1, 0x0, 0x0, 0x0, 0x0, 0x0, 0x0⟩,
  ⟨0x18, 0, 1, 0x0, 0x0, 0x0, 0xFFFF, 0x0, 0x0⟩,
  ⟨0x100, 8, 16, 0x0, 0xFFC0FF01, 0x0, 0x0, 0x0, 0x0⟩,
  ⟨0x104, 8, 16, 0x0, 0xFFFF, 0x0, 0x0, 0x0, 0x0⟩,
  ⟨0x2000, 4, 16, 0x0, 0x0, 0x0, 0x0, 0x0, 0x0⟩,
  ⟨0x2040, 4, 32, 0x0, 0x0, 0x0, 0x0, 0x0, 0x800003FF⟩,
  ⟨0x20C0, 0, 1, 0x0, 0x0, 0x0, 0x0, 0x0, 0x0⟩,
  ⟨0x20C4, 0, 1, 0x0, 0x0, 0x0, 0x0, 0x0, 0x0⟩,
  ⟨0x2100, 4, 128, 0x0, 0x0, 0x0, 0x0, 0x0, 0x0⟩,
  ⟨0x2400, 4, 256, 0x7800780, 0x7F007F, 0x0, 0x0, 0x0, 0x7800780⟩,
  ⟨0x2800, 4, 512, 0x3FF, 0x0, 0x0, 0x0, 0x0, 0x0⟩,
  ⟨0x800, 16, 64, 0x0, 0xFFFFFFFC, 0x0, 0x0, 0x0, 0x0⟩,
  ⟨0x804, 16, 64, 0x0, 0xFFFFFFFF, 0x0, 0x0, 0x0, 0x0⟩,
  ⟨0x808, 16, 64, 0x0, 0xFFFFFFFF, 0x0, 0x0, 0x0, 0x0⟩,
  ⟨0x80C, 16, 64, 0x1, 0x1, 0x0, 0x0, 0x0, 0x0⟩,
  ⟨0xC00, 4, 2, 0x0, 0x0, 0x0, 0x0, 0x0, 0x0⟩,
  ⟨0x3000, 0, 1, 0x0, 0x0, 0x0, 0x0, 0x1, 0x0⟩,
  ⟨0x3004, 0, 1, 0x0, 0x0, 0x6, 0x0, 0x0, 0x0⟩,
  ⟨0x3200, 4, 260, 0x0, 0xFFFFFFFF, 0x0, 0x0, 0x0, 0x0⟩,
  ⟨0x3800, 4, 260, 0x0, 0x0, 0x0, 0x0, 0x0, 0x0⟩,
  ⟨0x5000, 4, 64, 0x0, 0x0, 0x0, 0x0, 0x0, 0x0⟩,
  ⟨0x5100, 4, 24, 0x0, 0x0, 0x0, 0x0, 0x0, 0x0⟩,
  ⟨0x5200, 4, 3, 0x0, 0x0, 0x0, 0x0, 0x0, 0x0⟩]

/-- TSN port tile registers (R388): TSN_LINK, TSN_PD_EV. -/
def tsnRegs : List RegSpec := [
  ⟨0xF1000, 0, 1, 0x0, 0x0, 0x0, 0x0, 0x0, 0x0⟩,
  ⟨0xF1004, 0, 1, 0x0, 0x0, 0x0, 0xFFFFFFFF, 0x0, 0x0⟩]

/-- Helmet registers (R408): HLM_SAFE, HLM_KICK, HLM_DANGER, HLM_BIST. -/
def hlmRegs : List RegSpec := [
  ⟨0xF1000, 0, 1, 0x11, 0x0, 0x0, 0x0, 0x0, 0x0⟩,
  ⟨0xF1004, 0, 1, 0x0, 0x0, 0x0, 0x0, 0xFFFFFFFF, 0x0⟩,
  ⟨0xF1008, 0, 1, 0x0, 0x0, 0x0, 0xFFFF, 0x0, 0x0⟩,
  ⟨0xF100C, 0, 1, 0x0, 0x0, 0x0, 0xFFFF0000, 0x0, 0x0⟩]

/-- Prolux port tile registers (R457): PLX_LINK, PLX_ERR, PLX_XCH, PLX_TIME. -/
def plxRegs : List RegSpec := [
  ⟨0xF1000, 0, 1, 0x0, 0x0, 0x0, 0xFF00, 0x0, 0x0⟩,
  ⟨0xF1004, 0, 1, 0x0, 0x0, 0x0, 0xFFFFFFFF, 0x0, 0x0⟩,
  ⟨0xF1008, 0, 1, 0x0, 0x0, 0x0, 0xFFFFFF, 0x0, 0x0⟩,
  ⟨0xF100C, 0, 1, 0x0, 0x0, 0x0, 0x0, 0x0, 0x0⟩]

/-- Clock and power registers (R506): CLK_REF, CLK_MUX, CLK_FCNT_CTRL, CLK_FCNT, CLK_GATE, PWR_DOM_REQ, PWR_TILE_RESET, PWR_WAKE. -/
def clkRegs : List RegSpec := [
  ⟨0xF1000, 0, 1, 0x0, 0x0, 0x0, 0x0, 0x0, 0x0⟩,
  ⟨0xF1004, 0, 1, 0x0, 0xF, 0x40, 0x0, 0x10, 0x0⟩,
  ⟨0xF1008, 0, 1, 0x3E80000, 0xFFFF0007, 0x10, 0x0, 0x8, 0x0⟩,
  ⟨0xF100C, 0, 1, 0x0, 0x0, 0x0, 0x0, 0x0, 0x0⟩,
  ⟨0xF1010, 0, 1, 0x3E0, 0xF, 0x0, 0x0, 0x10, 0x0⟩,
  ⟨0xF1014, 0, 1, 0x0, 0x7F, 0x0, 0x0, 0x80, 0x0⟩,
  ⟨0xF1018, 0, 1, 0x0, 0x7FF, 0x1000, 0x0, 0x800, 0x0⟩,
  ⟨0xF101C, 0, 1, 0x0, 0xFFFFFFFF, 0x0, 0x0, 0x0, 0x0⟩]

/-- The spec of the register at an offset, with its place in its row. -/
def regFind (l : List RegSpec) (off : Nat) : Option (RegSpec × Nat) :=
  match l.find? fun r => decide (r.off ≤ off) && decide (off ≤ r.off + r.stride * (r.count - 1)) &&
      (if r.stride = 0 then off == r.off else (off - r.off) % r.stride == 0) with
  | some r => some (r, if r.stride = 0 then 0 else (off - r.off) / r.stride)
  | none => none

end Sys2Proof.Machine
end

