-- ==== Sys2Proof/Machine/Ops.lean ====
section
/-! DEFINITION. The named operations over registers, dictionary entries, interrupts, reports to the Helmet, safe state,
memory and banks, each written once. -/

namespace Sys2Proof.Machine

/-! ## Registers (R8, R9, R60) -/

/-- Two tiles show the same registers: their one home (R408, R506). -/
def regHome (a : Nat) : Nat :=
  if tileBase 1140 + 0xF1000 ≤ a ∧ a < tileBase 1140 + 0xF1010 then a - tileBase 1140 + tileBase 1116
  else if tileBase 364 + 0xF1000 ≤ a ∧ a < tileBase 364 + 0xF1020 then a - tileBase 364 + tileBase 356
  else a

/-- The registers at 0xF_1000 of a port tile (R304, R388, R408, R457, R506). -/
def portRegs (p : Nat) : List RegSpec :=
  match portFn p with
  | .hbm _ _ => memRegs
  | .cap _ => memRegs
  | .tsn _ => tsnRegs
  | .helmet _ => hlmRegs
  | .plx _ _ => plxRegs
  | .mgmt _ => clkRegs
  | _ => []

/-- The register table that serves an offset of a tile window (R42, R95); the owner registers of banks 2 and 3 of an S-tile
read zero (R347). -/
def tileRegs (p off : Nat) : List RegSpec :=
  if off < 0xF1000 then
    if kindOf p = .port ∨ (kindOf p = .s ∧ (off = 0xF0018 ∨ off = 0xF001C)) then [] else bankRegs
  else if 0xFE000 ≤ off ∧ off < 0xFF000 then nocRegs
  else if off < 0xF2000 then
    match kindOf p with
    | .m => mtRegs
    | .v => vtRegs
    | .s => []
    | .port => portRegs p
  else if kindOf p = .port then [] else excRegs

/-- The spec of the register at a device address. -/
def winSpec (a : Nat) : Option (RegSpec × Nat) :=
  if a < 0xF80000000000 then
    let o := (a - 0xF00000000000) % 0x100000
    regFind (tileRegs ((a - 0xF00000000000) / 0x100000) o) o
  else regFind cmnRegs ((a - 0xF80000000000) % 0x1000000)

/-- The reset value of a window register. -/
def winReset (a : Nat) : Nat := match winSpec a with
  | some (r, _) => r.reset
  | none => 0

/-- The stored value of a window register. -/
def winGet (s : State) (a : Nat) : Nat := match kget s.win (regHome a) with
  | some v => v
  | none => winReset (regHome a)

def winSet (s : State) (a v : Nat) : State := { s with win := kput s.win (regHome a) (v % 2 ^ 32) }

/-- Add to a counter field, stopping at its all-ones value (R60). -/
def winBump (s : State) (a lo w d : Nat) : State :=
  let v := winGet s a
  winSet s a (putFld v lo w (satAdd (2 ^ w - 1) (fld v lo w) d))

def winPut (s : State) (a lo w x : Nat) : State := winSet s a (putFld (winGet s a) lo w x)

/-- Raise a high-water or longest-wait field. -/
def winMax (s : State) (a lo w x : Nat) : State :=
  let v := winGet s a
  winSet s a (putFld v lo w (max (fld v lo w) (min x (2 ^ w - 1))))

/-- Add to a 64-bit counter pair whose low half is at `a`; the high half keeps its count at `a + 4` (R464). -/
def winCount64 (s : State) (a d : Nat) : State :=
  let v := satAdd (2 ^ 64 - 1) (winGet s a + 2 ^ 32 * winGet s (a + 4)) d
  winSet (winSet s a (v % 2 ^ 32)) (a + 4) (v / 2 ^ 32)

/-- The reset value of a BAR0 register; the vector of IC_ROUTE is its source's number over 8 (R479). -/
def barReset (off : Nat) : Nat :=
  if 0x2400 ≤ off ∧ off < 0x2800 then
    let k := (off - 0x2400) / 4
    (2 * k / 8 + 0x780) + 2 ^ 16 * ((2 * k + 1) / 8 + 0x780)
  else match regFind bar0Regs off with
    | some (r, _) => r.reset
    | none => 0

def barGet (s : State) (off : Nat) : Nat := match kget s.bar0 off with
  | some v => v
  | none => barReset off

def barSet (s : State) (off v : Nat) : State := { s with bar0 := kput s.bar0 off (v % 2 ^ 32) }
def barPut (s : State) (off lo w x : Nat) : State := barSet s off (putFld (barGet s off) lo w x)
def barBump (s : State) (off lo w d : Nat) : State :=
  let v := barGet s off
  barSet s off (putFld v lo w (satAdd (2 ^ w - 1) (fld v lo w) d))

/-- What a write leaves in a register: RW bits (and RWL bits where unlocked) take the data, a 1 clears a W1C bit, every other
bit stays (R8, R9). -/
def regWritten (r : RegSpec) (unlocked : Bool) (old data : Nat) : Nat :=
  let rw := if unlocked then r.rw ||| r.rwl else r.rw
  let x := BitVec.ofNat 32 old
  let d := BitVec.ofNat 32 data
  let m := BitVec.ofNat 32 rw
  (((x &&& ~~~m) ||| (d &&& m)) &&& ~~~(d &&& BitVec.ofNat 32 r.w1c)).toNat

/-- What a read leaves in a register: its RC fields clear (R8). -/
def regCleared (r : RegSpec) (old : Nat) : Nat := (BitVec.ofNat 32 old &&& ~~~(BitVec.ofNat 32 r.rc)).toNat

/-! ## Dictionary entries (R377) -/

/-- The stored value of an entry: the value last accepted (R383). -/
def odGet (s : State) (index sub : Nat) : Nat := match kget s.od (odKey index sub) with
  | some v => v
  | none => odDefault index sub

def odSet (s : State) (index sub v : Nat) : State := { s with od := kput s.od (odKey index sub) v }

/-! ## The system count inside a frame (R12, R91, R445, R484) -/

/-- CK_TILE in MHz at a step (R484). -/
def tileMhz (step : Nat) : Nat := 1500 - 150 * step

/-- The tc of the frame in which the plan has a plan tc, under the stretch in force (R91). -/
def realTc (s : State) (tc : Nat) : Nat := ((tc + 1) * odGet s 0x2300 3 + 15) / 16 - 1

/-- The system count in a plan tc: that of the frame boundary and the whole ns since (DEDUCED, log entry 31). -/
def sysAt (s : State) (tc : Nat) : Nat := (s.frame.sysNs + realTc s tc * 1000 / tileMhz s.frame.tileStep) % 2 ^ 64

def sysNow (s : State) : Nat := sysAt s s.now

/-- Add to a saturating counter entry of `w` bits. -/
def odBump (s : State) (index sub w d : Nat) : State :=
  odSet s index sub (satAdd (2 ^ w - 1) (odGet s index sub) d)

/-- The value in force of an entry whose writes take effect at a frame boundary. -/
def odForce (s : State) (index sub : Nat) : Nat := match kget s.force (odKey index sub) with
  | some v => v
  | none => odDefault index sub

/-- At a frame boundary every accepted value comes into force. -/
def forceAll (s : State) : State := { s with force := s.od }

/-! ## Interrupts (R475 to R479) -/

/-- The routing half of a source: vector in [5:0], HOST in [6], MGMT in [10:7]. -/
def routeOf (s : State) (n : Nat) : Nat := fld (barGet s (0x2400 + 4 * (n / 2))) (16 * (n % 2)) 16
def routeVec (r : Nat) : Nat := fld r 0 6
def routeHost (r : Nat) : Bool := bitOf r 6
def routeMgmt (r : Nat) : Nat := fld r 7 4

/-- Whether a source is pending. -/
def irqPending (s : State) (n : Nat) : Bool := (kget s.host.irq n).isSome

/-- IC_VPEND as the pending sources and their routes give it (R478). -/
def vpendNow (s : State) : Nat :=
  s.host.irq.foldl (fun v p =>
    let r := routeOf s p.1
    if routeHost r then v ||| 2 ^ routeVec r else v) 0

/-- Whether the Base Specification lets vector v's message go now (R461, R478). -/
def msixOpen (s : State) (v : Nat) : Bool :=
  s.host.busMaster && s.host.msixEnable && !s.host.msixMask && !bitOf (barGet s (0x80C + 16 * v)) 0

/-- Send vector v's message, or hold it in the pending bit array while masked (R478). -/
def msixSend (s : State) (v : Nat) : State :=
  if msixOpen s v then
    { s with
      host := { s.host with pba := if bitOf s.host.pba v then s.host.pba - 2 ^ v else s.host.pba }
      out := .msix v (barGet s (0x800 + 16 * v) + 2 ^ 32 * barGet s (0x804 + 16 * v)) (barGet s (0x808 + 16 * v)) :: s.out }
  else { s with host := { s.host with pba := s.host.pba ||| 2 ^ v } }

/-- The end of a controller step (R476, R478): each vector bit that rose sends its message; one that fell drops a held one. -/
def vectorStep (s : State) : State :=
  let new := vpendNow s
  let old := s.host.vpend
  let s1 := { s with host := { s.host with vpend := new, pba := s.host.pba &&& new } }
  (List.range 64).foldl (fun t v => if bitOf new v && !bitOf old v then msixSend t v else t) s1

/-- Messages held in the pending bit array go once nothing masks them (R478). -/
def msixFlush (s : State) : State :=
  (List.range 64).foldl (fun t v => if bitOf t.host.pba v && msixOpen t v then msixSend t v else t) s

/-- One arrival of a source (R476). -/
def raise (n : Nat) (s : State) : State :=
  vectorStep { s with host := { s.host with irq := kput s.host.irq n (satAdd 255 (kgetD s.host.irq n 0) 1) } }

/-- Whether the watch set holds a pending source that some management core is a target of (R479). -/
def watchHit (s : State) : Bool :=
  (List.range 32).any fun w =>
    let r := barGet s (0x2040 + 4 * w)
    bitOf r 31 && irqPending s (fld r 0 10) && routeMgmt (routeOf s (fld r 0 10)) != 0

/-! ## Free values -/

/-- Take the next free value (log entry 9). -/
def drawFree (s : State) : BitVec 64 × State := (Config.freeValue s.freeCtr, { s with freeCtr := s.freeCtr + 1 })

/-! ## Reports to the Helmet (R87, R88) -/

/-- Merge an arriving record into a held one (R87). -/
def vc3Merge (h r : Vc3) : Vc3 :=
  let e := if r.time < h.time ∨ (r.time = h.time ∧ r.reporter < h.reporter) then r else h
  { e with count := satAdd 0xFFFF h.count r.count }

/-- Whether two records report the same fault of the same unit (R87). -/
def vc3Same (a b : Vc3) : Bool := a.code == b.code && a.unit == b.unit && a.sub == b.sub

/-- Whether a router's coalescing buffer takes a record: it merges there or finds a free place (R87). -/
def vc3Fits (s : State) (pos : Nat) (e : Vc3Ent) : Bool :=
  let held := kgetD s.vc3Held pos []
  decide (held.length < 8) || held.any fun h => vc3Same e.rec_ h.rec_

/-- A record that fits enters the coalescing buffer (R87, R95). -/
def vc3Take (pos : Nat) (e : Vc3Ent) (s : State) : State :=
  let held := kgetD s.vc3Held pos []
  if held.any fun h => vc3Same e.rec_ h.rec_ then
    let s1 := { s with vc3Held := kput s.vc3Held pos (held.map fun h =>
      if vc3Same e.rec_ h.rec_ then { h with rec_ := vc3Merge h.rec_ e.rec_ } else h) }
    odBump (winBump s1 (tileBase pos + 0xFE010) 0 16 1) 0x2300 6 64 1
  else winMax { s with vc3Held := kput s.vc3Held pos (held ++ [e]) } (tileBase pos + 0xFE010) 16 4 (held.length + 1)

/-- The buffer in which a record waits: that of its input and class, or at its own tile (R68). -/
def vc3Key (pos : Nat) (e : Vc3Ent) : Nat := 16 * pos + 2 * e.input + e.cls

/-- A record reaches a router: it enters the coalescing buffer where it fits and none waits before it, and waits otherwise (R68, R87). -/
def vc3Arrive (pos : Nat) (e : Vc3Ent) (s : State) : State :=
  let k := vc3Key pos e
  if kgetD s.vc3Wait k [] = [] ∧ vc3Fits s pos e then vc3Take pos e s
  else { s with vc3Wait := kput s.vc3Wait k (kgetD s.vc3Wait k [] ++ [e]) }

/-- The tc that the frame has reached, counted over all frames. -/
def absNow (s : State) : Nat := s.frame.base + realTc s s.now

/-- A record enters the mesh at a position. -/
def vc3Raise (pos : Nat) (r : Vc3) (s : State) : State := vc3Arrive pos ⟨r, none, 4, 0, absNow s⟩ s

/-- A unit reports a fault: one record of count 1 enters the router of the reporting position (R88). -/
def report (pos code unit sub glove : Nat) (detail : List Byte) (s : State) : State :=
  vc3Raise pos ⟨code, unit, sub, 1, pos, sysNow s, glove, 0, detail⟩ s

/-! ## Safe state (R391 to R395) -/

/-- Whether the module is in safe state: the outputs are low exactly then (R391). -/
def isSafe (s : State) : Bool := !s.safety.outs

/-- A cause of R392 is detected: its bit is set, both outputs are low, and an entry is recorded (R393, R408, R409). -/
def enterSafe (bit : Nat) (s : State) : State :=
  let s1 := { s with safety := { s.safety with causes := s.safety.causes ||| 2 ^ bit, outs := false } }
  if s.safety.outs then raise 135 (winPut s1 (tileBase 1116 + 0xF1008) 16 8 bit) else s1

/-- A condition of a cause begins to hold, or ceases (R395). -/
def holdCause (bit : Nat) (on : Bool) (s : State) : State :=
  { s with safety := { s.safety with
      holding := if on then s.safety.holding ||| 2 ^ bit
        else if bitOf s.safety.holding bit then s.safety.holding - 2 ^ bit else s.safety.holding } }

/-- A dangerous fault is counted (R403, R407, R408). -/
def dangerous (s : State) : State :=
  odBump (winBump s (tileBase 1116 + 0xF1008) 0 16 1) 0x4000 6 32 1

/-! ## Domains (R490) -/

/-- The state of a domain as DomainState codes it; PD_AON (53) is on while the 3.3 V supply is. -/
def domainState (s : State) (d : Nat) : Nat := if d = 53 then 2 else odGet s 0x2901 (d + 1)
def domainOn (s : State) (d : Nat) : Bool := domainState s d == 2
def setDomain (s : State) (d code : Nat) : State := odSet s 0x2901 (d + 1) code

/-! ## Banks (R45 to R53, R346 to R351) -/

def bankStateAddr (b : Nat) : Nat := if bankIsCmn b then cmnBase (bankCluster b) + 0xFF0000 else tileBase (b / 4) + 0xF0004
def bankOwnerAddr (b : Nat) : Nat :=
  if bankIsCmn b then cmnBase (bankCluster b) + 0xFF0040 + 4 * bankNo b else tileBase (b / 4) + 0xF0010 + 4 * bankNo b

/-- The power state of a bank, coded as in R49; every bank of a domain that is not ON is OFF (R53, R492). -/
def bankState (s : State) (b : Nat) : Nat :=
  if domainOn s (bankDomain b) then fld (winGet s (bankStateAddr b)) (2 * bankNo b) 2 else 0

def setBankState (b code : Nat) (s : State) : State := winPut s (bankStateAddr b) (2 * bankNo b) 2 code

def bankAux (s : State) (b : Nat) : BankAux := kgetD s.bank b ⟨true, none, []⟩
def setBankAux (b : Nat) (x : BankAux) (s : State) : State := { s with bank := kput s.bank b x }

/-- The owner glove of a bank (R346, R347). -/
def bankOwner (s : State) (b : Nat) : Nat := fld (winGet s (bankOwnerAddr b)) 0 8
def bankPendingHandover (s : State) (b : Nat) : Bool := bitOf (winGet s (bankOwnerAddr b)) 17

/-- The window of the bank reads zero and every lane is sound (R51, R53, R350). -/
def zeroBank (b : Nat) (s : State) : State :=
  let lo := bankBase b
  let hi := lo + 64 * bankWords b
  { s with mem := memZero s.mem lo hi, ecc := kclear s.ecc (lo / 8) (hi / 8) }

/-- An access refused because its glove does not own the bank is counted and reported (R351). -/
def ownerReject (g port b addr : Nat) (s : State) : State :=
  let s1 := if g = 0 then odBump s 0x7302 2 32 1 else odBump s 0x7301 g 32 1
  report (bankPos b) 0x0211 (bankPos b) (if bankIsCmn b then 16 + bankNo b else bankNo b) g
    (leBytes 4 ((addr - bankBase b) / 64) ++ leBytes 1 g ++ leBytes 1 port) s1

/-- An access to a bank that is not ON is counted and raises source 256 (R52, R60). -/
def stateFault (g port : Nat) (write : Bool) (b addr : Nat) (s : State) : State :=
  let s1 :=
    if bankIsCmn b then
      let a := cmnBase (bankCluster b) + 0xFF0008
      winPut (winPut (winPut (winPut (winBump s a 0 16 1) a 16 4 (bankNo b)) a 20 1 port) a 21 1 (ofBool write)) a 22 8 g
    else
      let a := tileBase (b / 4) + 0xF0008
      let t := winPut (winPut (winPut (winPut (winBump s a 0 16 1) a 16 2 (bankNo b)) a 18 1 port) a 19 1 (ofBool write)) a 20 8 g
      winSet t (a + 4) (addr - tileBase (b / 4))
  raise 256 s1

/-- Status codes of R10. -/
def stOk : Nat := 0x0000
def stDrained : Nat := 0x0001
def stKilledNoProgress : Nat := 0x0002
def stAccessFault : Nat := 0x0010
def stBankStateFault : Nat := 0x0012
def stBankConflict : Nat := 0x0013
def stEcc : Nat := 0x0020
def stAdmissionRefused : Nat := 0x0030
def stChildBusy : Nat := 0x0040

/-- The check of an access that lies in one bank: ownership before power state (R351, R52). The status and what it reports. -/
def bankCheck (g port : Nat) (write : Bool) (b addr : Nat) (s : State) : Nat × State :=
  if bankOwner s b ≠ g then (stAccessFault, ownerReject g port b addr s)
  else if bankState s b ≠ 3 then (stBankStateFault, stateFault g port write b addr s)
  else (stOk, s)

/-- A same-word clash discards the port B access (R47, R52, R89). -/
def bankConflict (g b addr : Nat) (s : State) : State :=
  let a := if bankIsCmn b then cmnBase (bankCluster b) + 0xFF0004 else tileBase (b / 4) + 0xF0000
  report (bankPos b) 0x0210 (bankPos b) (if bankIsCmn b then 16 + bankNo b else bankNo b) g
    (leBytes 4 ((addr - bankBase b) / 64) ++ leBytes 1 g) (raise 257 (winBump s a 0 32 1))

/-! ## Stored bytes (R5, R45, R298, R300) -/

/-- The lanes that a byte range touches. -/
def lanesOf (a n : Nat) : List Nat := if n = 0 then [] else span (a / 8) ((a + n - 1) / 8 - a / 8 + 1)

/-- What a store leaves of the marks: a lane written whole is sound; a partial write corrects a single-bit error and leaves an
uncorrectable lane so (R45). -/
def storeMarks (e : KMap Ecc) (a n : Nat) : KMap Ecc :=
  e.filter fun p => !((decide (a ≤ 8 * p.1) && decide (8 * p.1 + 8 ≤ a + n)) ||
    (p.2 == .single && decide (8 * p.1 < a + n) && decide (a < 8 * p.1 + 8)))

/-- A write to a chunk makes its leaf STALE and abandons a pass (R298). -/
def staleLeaves (l : KMap Leaf) (a n : Nat) : KMap Leaf :=
  if n = 0 ∨ 0x160000000000 ≤ a then l
  else (span (chunkOf a) (chunkOf (a + n - 1) - chunkOf a + 1)).foldl (fun m k => kput m k .stale) l

/-- Store bytes at a device address that an access was allowed to. -/
def store (a : Nat) (d : List Byte) (s : State) : State :=
  { s with mem := memStore s.mem a d, ecc := storeMarks s.ecc a d.length, leaves := staleLeaves s.leaves a d.length }

/-- The bytes at a device address. -/
def load (s : State) (a n : Nat) : List Byte := memBytes s.mem a n

/-- The number stored little-endian at a device address. -/
def loadNat (s : State) (a n : Nat) : Nat := leNat (load s a n)

/-- Whether a byte range touches an uncorrectable lane. -/
def eccBad (s : State) (a n : Nat) : Bool := (lanesOf a n).any fun l => kget s.ecc l == some .double

/-- The lane mask of a word's uncorrectable lanes. -/
def eccMask (s : State) (a : Nat) : Nat :=
  (List.range 8).foldl (fun m i => if kget s.ecc (a / 8 + i) == some .double then m + 2 ^ i else m) 0

/-- The mask of the uncorrectable lanes that a read finds in the word of lane l. -/
def readMask (s : State) (a n l : Nat) : Nat :=
  (lanesOf a n).foldl (fun m i => if i / 8 = l / 8 ∧ kget s.ecc i = some .double then m + 2 ^ (i % 8) else m) 0

/-- What a tier read finds (R300, R304): corrected and uncorrectable lanes are counted, and each word with uncorrectable lanes is
reported once, at the first of them. -/
def tierReadChecks (g a n : Nat) (s : State) : State :=
  (lanesOf a n).foldl (fun t l =>
    let home := chunkHome (chunkOf (8 * l))
    match kget t.ecc l with
    | none => t
    | some .single => odBump (winBump t (tileBase home + 0xF1000) 0 16 1) 0x7500 2 64 1
    | some .double =>
      let sub := if chunkIsCap (chunkOf (8 * l)) then (chunkLocal (chunkOf (8 * l))) % 2 else (8 * l % chunkBytes / 256) % 8
      let t1 := odBump (winBump t (tileBase home + 0xF1000) 16 16 1) 0x7500 3 64 1
      if readMask s a n l % 2 ^ (l % 8) ≠ 0 then t1
      else raise 259 (report home 0x0702 home sub g (leBytes 8 (8 * l / 64 * 64) ++ leBytes 1 (readMask s a n l)) t1)) s

/-- What the module's own read of a range of a tier finds, for no glove: words without errors change nothing (R300). -/
def ownReads (a n : Nat) (s : State) : State :=
  (((kclear s.ecc 0 (a / 8)).filter fun p => decide (p.1 < (a + n) / 8)).map (·.1 / 8)).eraseDups.foldl
    (fun t w => tierReadChecks 0 (64 * w) 64 t) s

/-! ## Refusals of R293 -/

/-- The chunk states an access needs. -/
def chunkSt (s : State) (k : Nat) : ChunkSt := (kgetD s.chunks k ⟨.free, none⟩).st
def chunkOwnedBy (s : State) (g k : Nat) : Bool := chunkSt s k == .owned g

/-- The chunks of a byte range. -/
def chunksIn (a n : Nat) : List Nat := if n = 0 then [] else span (chunkOf a) (chunkOf (a + n - 1) - chunkOf a + 1)

/-- An access that is not allowed: counted, recorded, reported and raised (R293, R305). -/
def reject (g a len source reason unit : Nat) (s : State) : State :=
  let d := leBytes 8 a ++ leBytes 4 len
  raise 258 (report unit 0x0701 unit source g (d ++ leBytes 1 reason)
    (odSet (odBump s 0x7500 1 64 1) 0x7501 1
      (leNat (d ++ leBytes 1 g ++ leBytes 1 source ++ leBytes 1 reason ++ [0]))))

/-- What R292 makes of a byte range. -/
inductive Verdict where
  /-- a run of chunks of one tier, every one owned -/
  | tier
  /-- inside one bank -/
  | bank (b : Nat)
  /-- inside one register area -/
  | regs (base : Nat)
  /-- refused under R293 with a reason and the unit that detects it -/
  | refused (reason unit : Nat)
  deriving DecidableEq, Repr

/-- The unit that detects a refusal (R305): tiers by their home tile, the rest as the source says. -/
def rejectUnit (f : Fuse) (a other : Nat) : Nat :=
  match regionOf f a with
  | .hbm => chunkHome (chunkOf a)
  | .cap => chunkHome (chunkOf a)
  | _ => other

/-- The verdict on the byte range [a, a + n) of glove g; `many` where a run of several chunks is allowed (host DMA). -/
def verdict (s : State) (g a n : Nat) (many : Bool) (other : Nat) : Verdict :=
  let f := s.plat.fuse
  let last := a + n - 1
  match regionOf f a, regionOf f last with
  | .hbm, .hbm => tierCase f last
  | .cap, .cap => tierCase f last
  | .bank b, .bank c => if b = c then .bank b else .refused 1 other
  | .regs x, .regs y => if x = y then (if g = 0 then .regs x else .refused 0 other) else .refused 1 other
  | .unmapped, _ => .refused 0 other
  | _, _ => .refused 1 (rejectUnit f a other)
where
  /-- Both ends in one tier. -/
  tierCase (f : Fuse) (last : Nat) : Verdict :=
    if !many && chunkOf a != chunkOf last then .refused 1 (rejectUnit f a other)
    else match (chunksIn a n).find? fun k => !(chunkOwnedBy s g k && domainOn s (tileDomain (chunkHome k))) with
      | some k => .refused 0 (chunkHome k)
      | none => .tier

/-- A posted write of the module's to host memory; while Bus Master Enable is 0 it is held (R461). -/
def hostWrite (a : Nat) (d : List Byte) (s : State) : State :=
  if s.host.busMaster then { s with out := .hostWrite a d :: s.out }
  else { s with host := { s.host with held := s.host.held ++ [(a, d)] } }

/-! ## Frame budgets (R352 to R355) -/

/-- Whether a launch is admitted: it holds its windows and static budget until it releases them (R345). -/
def admitted (l : Launch) : Bool := !l.released

def admittedLaunches (s : State) : List Launch := (kvals s.launches).filter admitted

/-- The static use of a glove: window cycles, VC0 slots, stream bytes (R353). -/
def staticUse (s : State) (g : Nat) : Nat × Nat × Nat :=
  (admittedLaunches s).foldl (fun a l =>
    if l.glove = g then (a.1 + l.statCycles, a.2.1 + l.statSlots, a.2.2 + l.statBytes) else a) (0, 0, 0)

/-- The allowance of a dynamic quantity; none where it is unlimited (R353, R354). -/
def allowance (s : State) (g sub : Nat) : Option Nat :=
  let b := odForce s (0x3100 + g) sub
  if (sub = 7 ∧ b = 0xFFFFFFFF) ∨ (sub ≠ 7 ∧ b = 0xFFFFFFFFFFFFFFFF) then none
  else some (if sub = 5 then b - (staticUse s g).2.2 else b)

/-- What a glove has spent of a quantity in the frame: the counter S of R354. -/
def spentOf (s : State) (g sub : Nat) : Nat := kgetD s.spent (16 * g + sub) 0

/-- Whether an action of the glove may proceed: S < B (R354). -/
def budgetOpen (s : State) (g sub : Nat) : Bool := match allowance s g sub with
  | none => true
  | some b => decide (spentOf s g sub < b)

def budgetAdd (g sub n : Nat) (s : State) : State := { s with spent := kput s.spent (16 * g + sub) (spentOf s g sub + n) }

/-- A stall is counted, and the glove's first of a frame raises source 65 (R355). -/
def budgetStall (g : Nat) (s : State) : State :=
  let s1 := if g = 0 then odBump s 0x7302 1 32 1 else odBump s 0x7300 g 32 1
  if (kget s.stall g).isSome then s1 else raise 65 { s1 with stall := kput s.stall g 1 }

/-- At a frame boundary each counter is repaid: S becomes S - B where it is larger, 0 otherwise (R354). -/
def budgetRepay (s : State) : State :=
  { s with
    spent := (s.spent.map fun p => (p.1, match allowance s (p.1 / 16) (p.1 % 16) with
      | none => 0
      | some b => p.2 - b)).filter fun p => p.2 != 0
    stall := [] }

/-! ## The security domain's state (R410) -/

/-- SecurityState as the manual codes it. -/
def secCode (m : SecMode) : Nat := match m with
  | .off => 0 | .startup => 1 | .single => 2 | .normal => 3 | .test => 4 | .recovery => 5 | .failed => 6

/-- "The security functions run" (R410). -/
def secRuns (s : State) : Bool := match s.sec.mode with
  | .single => true
  | .normal => true
  | .test => true
  | _ => false

/-! ## Clocks (R480, R485, R488) -/

def clkRef : Nat := tileBase 356 + 0xF1000
/-- Bits of CLK_REF: 0 REFA, 1 REFB, 2 USE_B, 3 HOLDOVER, 4 LOCK, 5 AON_HELMET. -/
def refBit (s : State) (i : Nat) : Bool := bitOf (winGet s clkRef) i

def clkMux : Nat := tileBase 356 + 0xF1004
def clkGate : Nat := tileBase 356 + 0xF1010

/-- Whether a PLL's gate is open. -/
def pllOpen (s : State) (n : Nat) : Bool := bitOf (winGet s clkGate) (4 + n)

/-- The PLL behind a multiplexer. -/
def muxPll (m : Nat) : Nat := 1 + m

/-- Whether the output of a multiplexer has stopped: a hung switch, or its source has. -/
def muxStopped (s : State) (m : Nat) : Bool :=
  (match s.plat.muxWait with
    | some w => w.hung && w.mux == m
    | none => false) ||
  (if bitOf (winGet s clkMux) (7 + m) then !refBit s (ofBool (refBit s 2)) else !pllOpen s (muxPll m))

end Sys2Proof.Machine
end

