-- ==== Sys2Proof/Machine/Operands.lean ====
section
/-! DEFINITION. The forms in which commands carry their operands: service requests and their checks (R377 to R386), bus requests
(R463), and the records a logged write leaves. -/

namespace Sys2Proof.Machine

/-! ## Abort codes (R382) -/

def abOp : Nat := 0x05040001
def abAuth : Nat := 0x06010000
def abWriteOnly : Nat := 0x06010001
def abReadOnly : Nat := 0x06010002
def abIndex : Nat := 0x06020000
def abSub : Nat := 0x06090011
def abLength : Nat := 0x06070010
def abRange : Nat := 0x06090030
def abAudit : Nat := 0x08000020
def abState : Nat := 0x08000022

/-! ## Sessions (R378, R379) -/

/-- The key under which a session's own entries are kept; session 0 exists on every transport. -/
def sessionKey (req : OdReq) : Nat := 32 * req.via + req.session

/-- The role mask of the requesting session, none where it does not exist (R379). -/
def sessionRoles (s : State) (req : OdReq) : Option Nat :=
  if req.session = 0 then some 1
  else match kget s.serv.sessions req.session with
    | some x => if x.via = req.via then some x.roles else none
    | none => none

def sessionCred (s : State) (req : OdReq) : Nat :=
  match kget s.serv.sessions req.session with
  | some x => x.cred
  | none => 0

/-- Whether a role mask may write entries of a role (R378). -/
def roleOk (mask : Nat) : OdRole → Bool
  | .observer => true
  | .operator => bitOf mask 1 || bitOf mask 2
  | .integrator => bitOf mask 2
  | .safety => bitOf mask 3
  | .vendor => bitOf mask 4
  | .credential => true

/-- The right to write a credential (R380): 63 refuses every write; a mask that holds Safety needs Safety, one of Observer,
Operator and Integrator alone needs Integrator; before the first OPEN under the commissioning strap session 0 of the mailbox
may write. The mask is the one written for the roles entry, the stored one for the key. -/
def credOk (s : State) (req : OdReq) (roles : Nat) : Bool :=
  let m := if req.sub = 1 then leNat req.data else odGet s req.index 1
  if req.index = 0x113F then false
  else if s.serv.openCred && req.via == 0 && req.session == 0 then true
  else if bitOf m 3 then bitOf roles 3
  else if bitOf m 4 then false
  else bitOf roles 2

/-- The tc of a frame at 1.5 GHz: N of R14 for a period in ns. -/
def frameTc (ns : Nat) : Nat := ns * 3 / 2
/-- The largest plan length of R14 for N. -/
def maxPlan (n : Nat) : Nat := n - (n + 63) / 64

/-- The frame period of R12 that follows from FrameSource and FramePeriod. -/
def periodOf (source period : Nat) : Nat := if source = 0 then 31250 else period

/-- The value v, as the Type column's range admits it (R382). -/
def rangeOk (s : State) (index : Nat) (bytes v : Nat) : OdRange → Bool
  | .any => true
  | .upTo hi => decide (v ≤ hi)
  | .range lo hi => decide (lo ≤ v) && decide (v ≤ hi)
  | .irange lo hi => decide (lo ≤ signed (8 * bytes) v) && decide (signed (8 * bytes) v ≤ hi)
  | .framePeriod => (List.range 9).any fun n => v == 15625 * 2 ^ n
  | .gclCycle => decide (0 < v) && odGet s 0x2100 2 % v == 0
  | .portMask => decide (0 < v) && decide (v < 256) &&
      decide (((List.range 8).filter fun i => bitOf v i).length ≤ 2)
  | .mul64 => v % 64 == 0
  | .mul64orNone => v % 64 == 0 || v == 0xFFFFFFFF
  | .belowN => decide (v < frameTc (periodOf (odForce s 0x2100 1) (odForce s 0x2100 2)))
  | .fetchTc => decide (v + 300 < odGet s index 6)
  | .reseed => decide (v ≤ 7) || (decide (0x101 ≤ v) && decide (v ≤ 0x1FF))
  | .sysSource => v == 0 || v == 2
  | .domReq => decide (v % 256 ≤ 52) && decide (v / 512 = 0)

/-- The checks of a read, in the order of R382. -/
def odReadAbort (s : State) (req : OdReq) : Nat :=
  if req.rsvd ≠ 0 then abOp
  else match sessionRoles s req with
    | none => abAuth
    | some _ => match odRow req.index req.sub with
      | none => if odIndexExists req.index then abSub else abIndex
      | some r => if r.access = .wo then abWriteOnly else if req.data ≠ [] then abLength else 0

/-- The checks of a write, in the order of R382, up to the entry's own rule. -/
def odWriteAbort (s : State) (req : OdReq) : Nat :=
  if req.rsvd ≠ 0 then abOp
  else match sessionRoles s req with
    | none => abAuth
    | some roles => match odRow req.index req.sub with
      | none => if odIndexExists req.index then abSub else abIndex
      | some r =>
        if !roleOk roles r.role || (r.role == .credential && !credOk s req roles) then abAuth
        else if r.access = .ro then abReadOnly
        else if req.data.length ≠ r.bytes then abLength
        else if !rangeOk s req.index r.bytes (leNat req.data) r.range then abRange
        else if r.logged && odGet s 0x8000 9 == 0 then abAudit
        else 0

/-- The bytes of a string go to consecutive BAR0 registers; a last word it fills in part keeps its other bytes. -/
def barBytes (off : Nat) (b : List Byte) (s : State) : State :=
  (List.range ((b.length + 3) / 4)).foldl (fun t i =>
    let w := (b.drop (4 * i)).take 4
    let old := leBytes 4 (barGet t (off + 4 * i))
    barSet t (off + 4 * i) (leNat (w ++ old.drop w.length))) s

/-- The answer to the request that the mailbox holds, at ODM_RSP (R381, R473). -/
def mailboxAnswer (op : Nat) (req : OdReq) (session abort : Nat) (data : List Byte) (s : State) : State :=
  let rsp := leBytes 2 ((op + 0x80) % 256) ++ leBytes 2 req.tag ++ leBytes 2 session ++ leBytes 2 req.index ++ leBytes 2 req.sub ++
    leBytes 2 data.length ++ leBytes 4 abort ++ data
  let s1 := barPut (barPut (barBytes 0x3800 rsp s) 0x3004 0 1 0) 0x3004 1 1 1
  raise 334 { s1 with serv := { s1.serv with odm := none } }

/-- Answer a service request; one that came through the mailbox's registers is answered there as well. -/
def respond (req : OdReq) (session abort : Nat) (data : List Byte) (s : State) : State :=
  let s1 := { s with out := .odResponse req.via req.tag session req.index req.sub abort data :: s.out }
  match s.serv.odm with
  | some (op, r) => if r = req then mailboxAnswer op req session abort data s1 else s1
  | none => s1

/-! ## The audit log (R384 to R386) -/

/-- A value of up to 8 bytes, or the digest that stands for a longer one (R384). -/
def auditValue (bytes v : Nat) : List Byte :=
  if bytes ≤ 8 then leBytes 8 v else (sha384 (0x08 :: leBytes bytes v)).take 8

/-- The glove served by an entry's index or sub-index, for per-glove arrays (R384). -/
def entryGlove (index sub : Nat) : Nat :=
  if 0x3100 ≤ index ∧ index ≤ 0x31FF then index - 0x3100
  else if 0x4801 ≤ index ∧ index ≤ 0x48FF then index - 0x4800
  else if index = 0x3400 then sub else 0

/-- Bytes 0 to 47 of a record (R384). -/
def auditBytes (seq : Nat) (w : AuditWait) : List Byte :=
  let n := match odRow w.req.index w.req.sub with
    | some r => r.bytes
    | none => w.req.data.length
  let long := decide (8 < n)
  let new := if long ∨ 8 < w.req.data.length then (sha384 (0x08 :: w.req.data)).take 8 else leBytes 8 (leNat w.req.data)
  leBytes 8 w.time ++ leBytes 4 seq ++ leBytes 1 w.req.via ++ leBytes 1 w.roles ++
    leBytes 1 (entryGlove w.req.index w.req.sub) ++ leBytes 1 (ofBool long + 2 * ofBool (long || decide (8 < w.req.data.length))) ++
    leBytes 2 w.cred ++ leBytes 2 w.req.index ++ leBytes 1 w.req.sub ++ [0, 0, 0] ++ leBytes 4 w.abort ++
    auditValue n w.old ++ new ++ [0, 0, 0, 0]

/-- The Ed25519 secret of the module identity key (R429). -/
def identitySecret (f : Fuse) : List Byte := (sha384 (0x09 :: f.secret ++ [0])).take 32
/-- The P-384 scalar of the module identity key (R429). -/
def identityScalar (f : Fuse) : Nat := beNat (sha384 (0x09 :: f.secret ++ [1])) % (ecN - 1) + 1

/-- The Helmet signs the chain head where the security functions run; otherwise the signing waits (R386). -/
def auditSign (s : State) : State :=
  if secRuns s ∧ s.serv.auditCount ≠ 0 then
    let seq := (s.serv.auditCount - 1) % 2 ^ 32
    let count := leNat ((kgetD s.serv.audit seq []).take 8)
    let msg := 0x06 :: leBytes 4 seq ++ s.serv.chain ++ leBytes 8 count
    let s1 := odSet (odSet (odSet (odSet s 0x8000 5 seq) 0x8000 6 (leNat s.serv.chain)) 0x8000 7 count) 0x8000 8
      (leNat (edSign (identitySecret s.plat.fuse) msg))
    raise 327 (odBump { s1 with serv := { s1.serv with signDue := false } } 0x5040 1 64 1)
  else { s with serv := { s.serv with signDue := true } }

/-- The Helmet stores one record: its place in the chain, the newest 65,536 kept, and the signing that falls due (R384 to R386). -/
def auditStore (w : AuditWait) (s : State) : State :=
  let seq := s.serv.auditCount % 2 ^ 32
  let b := auditBytes seq w
  let chain := (sha384 (0x05 :: s.serv.chain ++ b)).take 16
  let count := s.serv.auditCount + 1
  let kept := kput (if 65536 < count then kdel s.serv.audit ((count - 65537) % 2 ^ 32) else s.serv.audit) seq (b ++ chain)
  let s1 := { s with serv := { s.serv with audit := kept, auditCount := count, chain := chain } }
  if (seq + 1) % 2 ^ 20 = 0 then auditSign s1 else s1

/-- The record of a write that is being decided now. -/
def auditOf (s : State) (req : OdReq) (abort : Nat) : AuditWait where
  req := req
  time := sysNow s
  roles := (sessionRoles s req).getD 0
  cred := if 0x1101 ≤ req.index ∧ req.index ≤ 0x113F ∧ s.serv.openCred ∧ req.via = 0 ∧ req.session = 0 then 0xFFFF else sessionCred s req
  old := odGet s req.index req.sub
  abort := abort

/-- Whether a write needs a record: an entry with Logged = Yes, accepted or refused (R384). A write refused because the log
cannot store leaves none (R385). -/
def needsRecord (req : OdReq) (abort : Nat) : Bool :=
  abort != abAudit && match odRow req.index req.sub with
    | some r => r.logged
    | none => false

/-- The value of a write. -/
def reqVal (req : OdReq) : Nat := leNat req.data

/-- Whether a request names an entry. -/
def reqAt (req : OdReq) (index sub : Nat) : Bool := req.index == index && req.sub == sub

/-- The entry takes the value written: reads return it from now on, whatever delays its effect (R383). -/
def odAccept (index sub v : Nat) (s : State) : State := odSet s index sub v

/-! ## The system count's source (R445, R446) -/

def syncState (s : State) : Nat := odGet s 0x2100 5
def sysTimeState (s : State) : Nat := odGet s 0x2600 3
/-- A change of SysTimeState raises source 329 (R446). -/
def setSysTime (v : Nat) (s : State) : State := if sysTimeState s = v then s else raise 329 (odSet s 0x2600 3 v)

/-- Whether the system count follows time cells (R445). -/
def followsCells (s : State) : Bool := odGet s 0x2100 1 == 0 && odGet s 0x2600 1 == 2

/-- SysTimeState of a module that is a root or follows gPTP (R445, R446): a root reads 1 while its reference is healthy. -/
def refreshSysTime (s : State) : State :=
  if followsCells s then s
  else if odGet s 0x2100 1 = 1 then setSysTime (syncState s) s
  else setSysTime (if refBit s 4 && !refBit s 3 then 1 else 0) s

/-- The run of good time cells starts again, and the state becomes v if the module follows cells (R446). -/
def restartCells (v : Nat) (s : State) : State :=
  let s1 := { s with frame := { s.frame with goodCells := 0 } }
  if followsCells s1 then setSysTime v s1 else refreshSysTime s1

/-! ## The effect of a write to an entry without a command of its own (R380, R383, R431, R446, R9) -/

/-- What an accepted write does. -/
def applyWrite (req : OdReq) (s : State) : State :=
  let v := reqVal req
  if reqAt req 0x8100 1 then { s with serv := { s.serv with cursor := kput s.serv.cursor (sessionKey req) v } }
  else if req.index = 0x5030 then
    let a := kgetD s.serv.attest (sessionKey req) ⟨0, 0, 0, 0⟩
    let a1 := if req.sub = 1 then { a with challenge := v } else { a with alg := v }
    { s with serv := { s.serv with attest := kput s.serv.attest (sessionKey req) a1 } }
  else
    let s1 := odAccept req.index req.sub v s
    if reqAt req 0x2000 1 then { s1 with serv := { s1.serv with unlocker := if v = 1 then req.session else 0 } }
    else if reqAt req 0x2600 1 ∧ odGet s 0x2600 1 ≠ v then restartCells 2 s1
    else if reqAt req 0x2600 2 ∧ odGet s 0x2600 2 ≠ v then restartCells 3 s1
    else s1

/-- The oldest logged write that waits: its record is stored, then it takes effect and is answered (R383, R385). -/
def auditNext (s : State) : State := match s.serv.queue with
  | [] => s
  | w :: rest =>
    let s1 := auditStore w { s with serv := { s.serv with queue := rest } }
    respond w.req w.req.session w.abort [] (if w.abort = 0 then applyWrite w.req s1 else s1)

/-- Requests are served one at a time, in order: whatever waits for its record is finished first (R383). -/
def auditFlush (s : State) : State := s.serv.queue.foldl (fun t _ => auditNext t) s

/-! ## The sleep of PD_MGMT (R494) -/

/-- Whether the management complex sleeps. -/
def mgmtAsleep (s : State) : Bool := domainState s 52 == 0 && s.plat.ready

/-- PD_MGMT comes back on and its cores resume (R494). -/
def mgmtWake (s : State) : State := if mgmtAsleep s then raise 486 (odBump (setDomain s 52 2) 0x2900 3 32 1) else s

/-- The management complex turns to a request: it wakes if it slept, and finishes what it was doing (R383, R494). -/
def serveNext (s : State) : State := auditFlush (mgmtWake s)

/-- An entry with behaviour of its own: the requests that name it, its rule (an abort code or 0), what an accepted write does,
and what one that the rule refuses does. -/
structure OwnEntry where
  covers : OdReq → Bool
  rule : OdReq → State → Nat
  effect : OdReq → State → State
  refused : OdReq → State → State

/-- Whether a transport carries the service now: the mailbox, or a port with an address and a link (R381). -/
def carries (s : State) (via : Nat) : Bool :=
  s.plat.ready && (via == 0 || (decide (via ≤ 8) && odGet s (0x1200 + (via - 1)) 4 != 0 && odGet s (0x1200 + (via - 1)) 3 == 1))

/-- A write to an entry with behaviour of its own, as one whole step, once the dictionary is available (R501): the checks of R382, then the
entry's rule; the record stored; then the effect; then the answer (R382 to R385). -/
def odWriteOwn (e : OwnEntry) (req : OdReq) (s : State) : State :=
  if e.covers req ∧ carries s req.via then
    let s0 := serveNext s
    let a0 := odWriteAbort s0 req
    let a := if a0 = 0 then e.rule req s0 else a0
    let s1 := if needsRecord req a then auditStore (auditOf s0 req a) s0 else s0
    respond req req.session a [] (if a = 0 then e.effect req s1 else if a0 = 0 then e.refused req s1 else s1)
  else s

/-! ## Bus requests (R463) -/

/-- The class of a request by its length and byte enables. -/
inductive AccessClass where
  | full | narrow | wide | unaligned
  deriving DecidableEq, Repr

/-- Contiguous, non-empty byte enables, not all four (R463). -/
def narrowBe (be : Nat) : Bool := [1, 2, 4, 8, 3, 6, 12, 7, 14].contains be

/-- The class of a request at an offset (R463). -/
def accessClass (off dws be : Nat) : AccessClass :=
  if dws = 1 ∧ be = 0xF then .full
  else if dws = 1 ∧ be / 16 = 0 ∧ narrowBe be then .narrow
  else if dws = 2 ∧ be = 0xFF ∧ off % 8 = 0 then .wide
  else .unaligned

/-- The bytes of a register that a narrow read returns; other byte lanes return zero (R463). -/
def beMask (v be : Nat) : Nat :=
  (List.range 4).foldl (fun a i => if bitOf be i then a + fld v (8 * i) 8 * 256 ^ i else a) 0

/-- A logged access (R466): reason 1 narrow write, 2 unaligned read, 3 unaligned write. -/
def accessLog (bar2 : Bool) (off be reason : Nat) (s : State) : State :=
  let s1 := barBump s 0x10 0 8 1
  let s2 := barPut (barPut (barPut s1 0x10 8 3 reason) 0x10 11 1 (ofBool bar2)) 0x10 16 8 be
  raise 332 (barSet s2 0x14 off)

end Sys2Proof.Machine
end

