-- ==== Sys2Proof/Machine/Params.lean ====
section
/-! DEFINITION. The launch parameter block (R324 to R327) and the region sets of a launch (R264, R326): which bytes a running
launch keeps from the host (R262, R276, R299). -/

namespace Sys2Proof.Machine

/-- A little-endian field of a byte string. -/
def bytesNat (b : List Byte) (i n : Nat) : Nat := leNat ((b.drop i).take n)

/-- A region entry (R326). -/
structure LRegion where
  base : Nat
  kind : Nat
  pad : Nat
  len : Nat
  deriving DecidableEq, Repr

def pNreg (p : List Byte) : Nat := bytesNat p 0 2
def pNprob (p : List Byte) : Nat := bytesNat p 2 2
def pSeedSrc (p : List Byte) : Nat := bytesNat p 4 1
def pFlags (p : List Byte) : Nat := bytesNat p 5 1
def pTicket (p : List Byte) : Bool := bitOf (pFlags p) 0
def pDrainAt (p : List Byte) : Bool := bitOf (pFlags p) 1
def pMulti (p : List Byte) : Bool := bitOf (pFlags p) 2
def pStatRows (p : List Byte) : Nat := bytesNat p 6 2
def pStatCluster (p : List Byte) : Nat := bytesNat p 8 1
def pStatBank (p : List Byte) : Nat := bytesNat p 9 1
def pModules (p : List Byte) : Nat := bytesNat p 10 2
def pModule (p : List Byte) : Nat := bytesNat p 12 2
def pSeed (p : List Byte) : Nat := bytesNat p 16 8
def pDrainStep (p : List Byte) : Nat := bytesNat p 24 8
def pCount (p : List Byte) : Nat := bytesNat p 32 8
def pTicketAddr (p : List Byte) : Nat := bytesNat p 40 8

/-- The statistics bank of a launch, where it names one (R325). -/
def pStatBankNo (p : List Byte) : Option Nat := if pStatRows p = 0 then none else some (cmnBank (pStatCluster p) (pStatBank p))

/-- The region entries in order. -/
def pRegions (p : List Byte) : List LRegion :=
  (List.range (pNreg p)).map fun j =>
    ⟨bytesNat p (64 + 16 * j) 6, bytesNat p (70 + 16 * j) 1, bytesNat p (71 + 16 * j) 1, bytesNat p (72 + 16 * j) 8⟩

/-- Address k of problem entry j (R327). -/
def pProb (p : List Byte) (j k : Nat) : Nat := bytesNat p (64 + 16 * pNreg p + 64 * j + 8 * k) 8

/-- The kinds of region that each set draws on (R326). -/
def setKinds : List (List Nat) := [[0], [1, 4], [2, 5], [3, 4, 5], [6]]

/-- The regions of a set: 0 image, 1 parameter, 2 input, 3 result, 4 the placement. -/
def setRegions (p : List Byte) (set : Nat) : List LRegion :=
  (pRegions p).filter fun r => (setKinds.getD set []).contains r.kind

/-- Whether two byte ranges share a byte. -/
def overlap (a n b m : Nat) : Bool := decide (a < b + m) && decide (b < a + n) && decide (0 < n) && decide (0 < m)

/-- The first region of a list that a byte range meets. -/
def hitRegion (rs : List LRegion) (a n : Nat) : Option LRegion := rs.find? fun r => overlap a n r.base r.len

/-- The four digested sets together. -/
def setsOf (p : List Byte) : List LRegion := (pRegions p).filter fun r => r.kind != 6

/-- A launch is running from its first frame until it releases its windows (R276); its Running phase goes on while it moves to
another placement (R402). -/
def isRunning (l : Launch) : Bool := (l.started || l.reexecuted) && !l.released

/-- The result set is held from completion until the ticket is written (R299). -/
def holdsResult (l : Launch) : Bool := pTicket l.params && (l.phase == .release || l.phase == .ticket)

/-- Whether a launch's glove was relaxed when it was admitted (R275). -/
def isRelaxed (_ : State) (l : Launch) : Bool := l.relaxed

/-- What keeps a host write from an address: where it first meets a held result set (reason 3), a running launch's placement,
or, in a glove that is not relaxed, a running launch's sets (reasons that the manual does not number). -/
def writeHold (s : State) (g a n : Nat) : Option (Option Nat × Nat) :=
  let ls := kvals s.launches
  match ls.findSome? fun l => if holdsResult l then hitRegion (setRegions l.params 3) a n else none with
  | some r => some (some 3, max a r.base)
  | none => match ls.findSome? fun l =>
      if !isRunning l then none
      else match hitRegion (setRegions l.params 4) a n with
        | some r => some r
        | none => if l.glove == g && !isRelaxed s l then hitRegion (setsOf l.params) a n else none with
    | some r => some (none, max a r.base)
    | none => none

/-- 64-byte words of a byte range inside the sets of a launch. -/
def setWords (l : Launch) (a n : Nat) : Nat :=
  ((span (a / 64) ((a + n - 1) / 64 - a / 64 + 1)).filter fun w =>
    (hitRegion (setsOf l.params) (max a (64 * w)) (min (a + n) (64 * w + 64) - max a (64 * w))).isSome).length

/-- Add to a launch's non-determinism count, GloveNdCount and NdCountByCause (R277). -/
def ndCount (key cause n : Nat) (s : State) : State :=
  match kget s.launches key with
  | none => s
  | some l =>
    let l1 := { l with nd := satAdd (2 ^ 64 - 1) l.nd n }
    odBump (odBump { s with launches := kput s.launches key l1 } 0x7400 l.glove 64 n) 0x7401 cause 64 n

/-- A host write or atomic of a relaxed glove landed (R277, cause 2). -/
def ndHostWrite (g a n : Nat) (s : State) : State :=
  s.launches.foldl (fun t p =>
    if isRunning p.2 && p.2.glove == g && isRelaxed s p.2 then
      let w := setWords p.2 a n
      if w = 0 then t else ndCount p.1 2 w t
    else t) s

/-- A port B access of a glove was discarded (R277, cause 4): counted for its running relaxed launch. -/
def ndDiscard (g : Nat) (s : State) : State :=
  match s.launches.find? fun p => isRunning p.2 && p.2.glove == g && isRelaxed s p.2 with
  | some p => ndCount p.1 4 1 s
  | none => s

/-- The banks that a launch's windows declare (R222, R332). -/
def declaredBanks (l : Launch) : List Nat :=
  (l.tiles.flatMap fun t => t.2.flatMap fun w =>
    ((List.range 4).filter fun b => bitOf w.decl b).map (tileBank t.1) ++
    ((List.range 16).filter fun k => bitOf w.cdecl k).map (cmnBank (clusterOf t.1))).eraseDups

end Sys2Proof.Machine
end

