-- ==== Sys2Proof/Machine/Queue.lean ====
section
/-! DEFINITION. The front end (R306 to R337): the ring, buffers, dispatch, completion and triggers, ring reset, kills of
launches, DRAIN, KILL and NOP. -/

namespace Sys2Proof.Machine

/-! ## Keys and statuses -/

def opKey (seq idx : Nat) : Nat := seq * 16384 + idx
def keySeq (k : Nat) : Nat := k / 16384
def keyIdx (k : Nat) : Nat := k % 16384
/-- The identifier that software uses for a launch (R324). -/
def launchIdOf (key : Nat) : Nat := key % 2 ^ 46

def stSkipped : Nat := 0x0003
def stDescriptorInvalid : Nat := 0x0004
def stLaunchFaulted : Nat := 0x0005
def stKilled : Nat := 0x0006

/-- OK or DRAINED (R317). -/
def goodStatus (st : Nat) : Bool := st == stOk || st == stDrained

/-- Glove 0, or a tenant glove that is ACTIVE (R338, R342). -/
def gloveActive (s : State) (g : Nat) : Bool := g == 0 || odGet s 0x3001 g == 1

/-! ## Registers (R336) -/

def hqBase (s : State) : Nat := barGet s 0x1000 + 2 ^ 32 * barGet s 0x1004
def hqEnable (s : State) : Bool := bitOf (barGet s 0x1008) 0
def hqHeadWb (s : State) : Bool := bitOf (barGet s 0x1008) 1
def hqTail (s : State) : Nat := barGet s 0x100C
def hqHead (s : State) : Nat := barGet s 0x1010
def hqHeadWbAddr (s : State) : Nat := barGet s 0x101C + 2 ^ 32 * barGet s 0x1020

/-- The difference of two free-running counters (R308). -/
def ringDiff (a b : Nat) : Nat := (a + 2 ^ 32 - b) % 2 ^ 32

/-- An HQ_ERR bit is set and source 3 raised (R337). -/
def hqError (bit : Nat) (s : State) : State := raise 3 (barPut s 0x1018 bit 1 1)

/-- A buffer is current while it has descriptors to dispatch (R311, R316). -/
def currentBuf (s : State) : Option Buf := s.fe.bufs.find? fun b => !b.orphan && !b.left.isEmpty

/-- HQ_STATUS (R336). -/
def hqStatus (s : State) : Nat :=
  min s.fe.ops.length 4096 + 2 ^ 13 * ofBool s.fe.resetting + 2 ^ 14 * min s.fe.pre.length 3 + 2 ^ 16 * ofBool (currentBuf s).isSome

/-! ## Descriptors (R313, R314) -/

def dKind (b : List Byte) : Nat := bytesNat b 0 1
def dFlags (b : List Byte) : Nat := bytesNat b 1 1
def dLimit (b : List Byte) : Nat := bytesNat b 2 1
def dPred (b : List Byte) (k : Nat) : Nat := bytesNat b (4 + 2 * k) 2
def dNext (b : List Byte) : Nat := bytesNat b 12 2
def dTriggered (b : List Byte) : Bool := bitOf (dFlags b) 1
def dKillOnLimit (b : List Byte) : Bool := bitOf (dFlags b) 2
def dPreds (b : List Byte) : List Nat := ((List.range 4).map (dPred b)).filter (· != 0xFFFF)

/-- Copies and fills (R320): addresses, length and control. -/
def dSrc (b : List Byte) : Nat := bytesNat b 16 8
def dDst (b : List Byte) : Nat := if dKind b = 2 then bytesNat b 16 8 else bytesNat b 24 8
def dPattern (b : List Byte) : Nat := bytesNat b 24 8
def dLen (b : List Byte) : Nat := bytesNat b 32 8
def dSrcHost (b : List Byte) : Bool := dKind b == 1 && bitOf (bytesNat b 40 1) 0
def dDstHost (b : List Byte) : Bool := dKind b == 1 && bitOf (bytesNat b 40 1) 1
/-- Semaphores (R321). -/
def dAddr (b : List Byte) : Nat := bytesNat b 16 8
def dValue (b : List Byte) : Nat := bytesNat b 24 8
def dSemHost (b : List Byte) : Bool := bitOf (bytesNat b 32 1) 0
def dSemWrite (b : List Byte) : Bool := bitOf (bytesNat b 32 1) 1
/-- Launches (R324). -/
def dConstLen (b : List Byte) : Nat := bytesNat b 24 2
def dConstHost (b : List Byte) : Bool := bitOf (bytesNat b 26 1) 0

/-- The bytes of the body that a KIND uses; the others are reserved (R314 item 1). -/
def bodyUsed (kind : Nat) : Nat :=
  match kind with
  | 1 => 41 | 2 => 41 | 3 => 27 | 4 => 33 | 5 => 33 | 6 => 24 | 7 => 24 | _ => 16

/-- The rules of the body (R314 item 7). -/
def bodyBad (b : List Byte) : Bool :=
  match dKind b with
  | 1 => decide (3 ≤ bytesNat b 40 1) || dSrc b % 64 != 0 || dDst b % 64 != 0 || badLen b ||
      (!dSrcHost b && decide (2 ^ 48 ≤ dSrc b)) || (!dDstHost b && decide (2 ^ 48 ≤ dDst b))
  | 2 => bytesNat b 40 1 != 0 || dDst b % 64 != 0 || badLen b || decide (2 ^ 48 ≤ dDst b)
  | 3 => dAddr b % 64 != 0 || dConstLen b % 64 != 0 || dConstLen b == 0 || decide (4096 < dConstLen b) ||
      decide (2 ≤ bytesNat b 26 1) || (!dConstHost b && decide (2 ^ 48 ≤ dAddr b))
  | 4 => dAddr b % 8 != 0 || decide (2 ≤ bytesNat b 32 1) || (!dSemHost b && decide (2 ^ 48 ≤ dAddr b))
  | 5 => dAddr b % 8 != 0 || decide (4 ≤ bytesNat b 32 1) || (dSemHost b && !dSemWrite b) || (!dSemHost b && decide (2 ^ 48 ≤ dAddr b))
  | _ => false
where
  badLen (b : List Byte) : Bool := dLen b % 64 != 0 || dLen b == 0 || decide (2 ^ 32 < dLen b)

/-- Whether descriptor `i` of a buffer is invalid (R314). -/
def descInvalid (all : List (List Byte)) (i : Nat) (b : List Byte) : Bool :=
  decide (7 < dKind b) || decide (8 ≤ dFlags b) || bytesNat b 3 1 != 0 ||
  (b.drop (bodyUsed (dKind b))).any (· != 0) ||
  decide (dLimit b < 16) || decide (40 < dLimit b) ||
  (dPreds b).any (fun p => decide (i ≤ p)) ||
  (dNext b != 0xFFFF && (decide (dNext b ≤ i) || !dTriggered (all.getD (dNext b) []))) ||
  (dTriggered b && (dPreds b != [] || (all.filter fun d => dNext d == i).length != 1)) ||
  bodyBad b

/-- All descriptors of a buffer, checked (R314). -/
def checkDescs (all : List (List Byte)) : List Desc :=
  (List.range all.length).map fun i => ⟨i, all.getD i [], descInvalid all i (all.getD i [])⟩

/-! ## Updates -/

def feWith (f : FrontEnd → FrontEnd) (s : State) : State := { s with fe := f s.fe }

def setOp (k : Nat) (o : Op) (s : State) : State := feWith (fun e => { e with ops := kput e.ops k o }) s

def bufAdj (seq : Nat) (f : Buf → Buf) (s : State) : State :=
  feWith (fun e => { e with bufs := e.bufs.map fun b => if b.seq = seq then f b else b }) s

/-- Issue a host read (R461). -/
def hostRead (w : ReadFor) (addr len : Nat) (s : State) : State :=
  let t := s.fe.nextTag
  { feWith (fun e => { e with reads := kput e.reads t ⟨w, addr, len⟩, nextTag := t + 1 }) s with
    out := .hostRead t addr len :: s.out }

/-- The key of the op that a host read serves. -/
def readOp : ReadFor → Option Nat
  | .const k => some k
  | .copy k => some k
  | .sem k => some k
  | _ => none

/-- Whether a host read for an op is outstanding. -/
def reading (s : State) (k : Nat) : Bool := s.fe.reads.any fun p => readOp p.2.what == some k

/-! ## Completion (R315 to R318) -/

/-- The ops that a failed op leaves to be skipped: held dependants (R317). -/
def dependants (s : State) (k : Nat) : List Nat :=
  (s.fe.ops.filter fun p => keySeq p.1 == keySeq k && p.2.phase == .held && !p.2.invalid && !dTriggered p.2.bytes &&
    (dPreds p.2.bytes).contains (keyIdx k)).map (·.1)

/-- A buffer left by a ring reset goes with its last op. -/
def dropOrphans (s : State) : State :=
  feWith (fun e => { e with bufs := e.bufs.filter fun b => !b.orphan || e.ops.any fun p => keySeq p.1 == b.seq }) s

/-- One op leaves the table with its status (R315, R318, R337); an orphan's write-backs are suppressed and counted (R312). -/
def completeOne (k : Nat) (o : Op) (st : Nat) (s : State) : State :=
  let s1 := feWith (fun e => { e with
    ops := kdel e.ops k
    reads := e.reads.filter fun p => readOp p.2.what != some k }) s
  let s2 := bufAdj (keySeq k) (fun b => { b with status := kput b.status (keyIdx k) st }) s1
  let s3 :=
    if o.orphan then barBump s2 0x1028 0 32 1
    else match s.fe.bufs.find? fun b => b.seq == keySeq k with
      | none => s2
      | some b =>
        let t := hostWrite (b.addr + 64 * keyIdx k + 14) (leBytes 2 st) s2
        let t1 := if bitOf (dFlags o.bytes) 0 then raise 0 t else t
        if goodStatus st then t1 else raise 5 t1
  let n := dNext o.bytes
  if n ≠ 0xFFFF then
    feWith (fun e => { e with triggers := e.triggers ++ [(opKey (keySeq k) n, goodStatus st)] }) s3
  else s3

/-- Complete ops, and skip what depends on one that failed (R317). Every op completes once, so `fuel` is the table's size plus
the list's. -/
def completeAll : Nat → List (Nat × Nat) → State → State
  | 0, _, s => s
  | _ + 1, [], s => s
  | fuel + 1, (k, st) :: l, s => match kget s.fe.ops k with
    | none => completeAll fuel l s
    | some o =>
      let more := if goodStatus st then [] else (dependants s k).filter fun d => d != k && !l.any fun p => p.1 == d
      completeAll fuel (l ++ more.map fun d => (d, stSkipped)) (completeOne k o st s)

def completeOps (l : List (Nat × Nat)) (s : State) : State :=
  dropOrphans (completeAll (2 * s.fe.ops.length + l.length + 1) l s)

/-- An op completes with a status. -/
def completeOp (k st : Nat) (s : State) : State := completeOps [(k, st)] s

/-- The statuses of an op's predecessors, none while one is in flight or undispatched (R317). -/
def predStatuses (s : State) (k : Nat) (b : List Byte) : List (Option Nat) :=
  match s.fe.bufs.find? fun x => x.seq == keySeq k with
  | none => []
  | some x => (dPreds b).map fun p => kget x.status p

/-- Whether an op may start (R317, R318). -/
def startable (s : State) (k : Nat) (o : Op) : Bool :=
  match o.phase with
  | .ready => true
  | .started => false
  | .held => !dTriggered o.bytes && (predStatuses s k o.bytes).all fun st => st.any goodStatus

/-- Whether an op is the first of its engine's ops of its buffer that may start (R317). -/
def firstReady (s : State) (k : Nat) (kinds : List Nat) : Bool :=
  match s.fe.ops.find? fun p => keySeq p.1 == keySeq k && kinds.contains (dKind p.2.bytes) && startable s p.1 p.2 with
  | some p => p.1 == k
  | none => false

/-- Start an op of a kind, where it may start now. -/
def startOp (s : State) (k : Nat) (kind : Nat) (engine : List Nat) : Option (Op × State) :=
  match kget s.fe.ops k with
  | none => none
  | some o =>
    if dKind o.bytes = kind ∧ startable s k o ∧ firstReady s k engine then
      let o1 := { o with phase := .started }
      some (o1, setOp k o1 s)
    else none

/-! ## Kills of launches (R331, R332) -/

/-- The launch's windows end at the next boundary and its banks are zeroed after it; nothing more of it runs (R332). -/
def killLaunch (key st : Nat) (s : State) : State :=
  match kget s.launches key with
  | none => s
  | some l =>
    if l.phase == .killing then s
    else { s with launches := kput s.launches key { l with
        phase := .killing, killStatus := st, since := s.frame.boundaries, toZero := if l.released then [] else declaredBanks l } }

/-- The newest launch that an identifier names (R324). -/
def findLaunch (s : State) (id : Nat) : Option (Nat × Launch) :=
  (s.launches.filter fun p => launchIdOf p.1 == id).getLast?

/-- The glove of a LAUNCH op in flight that has no launch yet: it is held, or in Admission (R329, R331). -/
def admitting (s : State) (id : Nat) : Option Nat :=
  ((s.fe.ops.filter fun p => dKind p.2.bytes == 3 && launchIdOf p.1 == id).getLast?).map (·.2.glove)

/-- A phase in which a launch can be drained or killed (R331). -/
def endable (l : Launch) : Bool :=
  l.phase == .seed || l.phase == .loading || l.phase == .armed || l.phase == .running

/-- The outcome of a DRAIN or KILL, which then does its work (R331). -/
def endLaunch (k : Nat) (o : Op) (kill : Bool) (s : State) : State :=
  match findLaunch s (dAddr o.bytes) with
  | none => completeOp k (if o.glove ≠ 0 ∧ (admitting s (dAddr o.bytes)).any (· != o.glove) then stAccessFault else stSkipped) s
  | some (lk, l) =>
    if o.glove ≠ 0 ∧ l.glove ≠ o.glove then completeOp k stAccessFault s
    else if !endable l then completeOp k stSkipped s
    else completeOp k stOk (if kill then killLaunch lk stKilled s
      else { s with launches := kput s.launches lk { l with drainReq := some (l.drainReq.getD s.frame.boundaries) } })

/-! ## The commands -/

/-- HQ_TAIL_WRITE (R308): the doorbell moves, or is ignored and flagged. -/
def execHqTailWrite (data : Reg) (s : State) : Result :=
  let v := data.toNat
  if s.fe.resetting ∨ !hqEnable s ∨ 4096 < ringDiff v (hqHead s) ∨ 4096 < ringDiff v (hqTail s) then .next (hqError 0 s)
  else .next (barSet s 0x100C v)

/-- What a ring reset does to the ops in flight (R312 step 3): the keys that end KILLED. -/
def resetKills (e : FrontEnd) : List (Nat × Nat) :=
  (e.ops.filter fun p =>
    let b := p.2.bytes
    !p.2.invalid && ((dKind b == 1 && (p.2.phase != .started || dSrcHost b || dDstHost b)) || (dKind b == 4 && dSemHost b) ||
      (dKind b == 3 && dConstHost b && p.2.const.isNone))).map fun p => (p.1, stKilled)

/-- Steps 1 to 3 of a ring reset (R312). -/
def ringReset (s : State) : State :=
  let s1 := feWith (fun e => { e with
    pre := []
    bufs := e.bufs.map fun b => { b with left := [], orphan := true }
    ops := e.ops.map fun p => (p.1, { p.2 with orphan := true })
    resetting := true
    epoch := e.epoch + 1
    nextSeq := 0
    reads := e.reads.filter fun p => (readOp p.2.what).isSome
    triggers := e.triggers.filter fun t => (kget e.ops t.1).isSome }) s
  completeOps (resetKills s1.fe) s1

/-- HQ_RESET (R312): a write of HQ_CTRL with RESET set. -/
def execHqReset (data : Reg) (s : State) : Result :=
  let s1 := barPut s 0x1008 0 2 (data.toNat % 4)
  if !bitOf data.toNat 2 ∨ s.fe.resetting then .next s1 else .next (ringReset s1)

/-- Steps 4 and 5 of a ring reset (R312). -/
def ringResetDone (s : State) : State :=
  let s1 := barPut (barSet (barSet s 0x100C 0) 0x1010 0) 0x1008 0 1 0
  raise 4 (feWith (fun e => { e with resetting := false, nextSeq := 0 }) s1)

/-- HQ_RESET_DONE (R312). -/
def execHqResetDone (s : State) : Result := if s.fe.resetting then .next (ringResetDone s) else .next s

/-- The number of the buffer of sequence number q since the last ring reset. -/
def bufNo (s : State) (q : Nat) : Nat := s.fe.epoch * 2 ^ 32 + q

/-- Begin to read the next entry (R309, R311). -/
def readEntry (s : State) : State :=
  let q := s.fe.nextSeq
  let b : Buf := ⟨bufNo s q, false, false, 0, 0, 0, 0, 0, 0, 0, [], [], false⟩
  hostRead (.entry (bufNo s q)) (hqBase s + 32 * (q % 4096)) 32
    (feWith (fun e => { e with pre := e.pre ++ [b], nextSeq := (q + 1) % 2 ^ 32 }) s)

/-- Whether the front end may read a further entry now (R309, R312, R461). -/
def mayRead (s : State) : Bool :=
  hqEnable s && !s.fe.resetting && s.host.busMaster && s.fe.nextSeq != hqTail s

/-- BUFFER_PREFETCH (R311): a read of the next entry begins; its first descriptors follow it. -/
def execBufferPrefetch (s : State) : Result :=
  if mayRead s ∧ s.fe.pre.length < 2 then .next (readEntry s) else .next s

/-- Whether an entry breaks R307 (R309). -/
def entryBad (b : List Byte) : Bool :=
  let n := bytesNat b 8 4
  bytesNat b 0 8 % 64 != 0 || n % 64 != 0 || n == 0 || decide (0x100000 < n) || decide (4 ≤ bytesNat b 13 1) ||
    bytesNat b 14 2 != 0 || bytesNat b 28 4 != 0

/-- The buffer that an entry names (R307). -/
def entryBuf (seq : Nat) (b : List Byte) : Buf where
  seq := seq
  read := true
  bad := entryBad b
  addr := bytesNat b 0 8
  glove := bytesNat b 12 1
  eflags := bytesNat b 13 1
  doneAddr := bytesNat b 16 8
  cookie := bytesNat b 24 4
  nops := if entryBad b then 0 else bytesNat b 8 4 / 64
  got := 0
  left := []
  status := []
  orphan := false

def preAdj (seq : Nat) (f : Buf → Buf) (s : State) : State :=
  feWith (fun e => { e with pre := e.pre.map fun b => if b.seq = seq then f b else b }) s

/-- The descriptors of a prefetched buffer from `got` up to `n` are read (R311, R314). -/
def readDescs (b : Buf) (n : Nat) (s : State) : State :=
  if b.got < n then hostRead (.descs b.seq) (b.addr + 64 * b.got) (64 * (n - b.got)) s else s

/-- The bytes of an entry or of descriptors arrive (R309, R311); none where the read failed (R461). -/
def bufferData (w : ReadFor) (data : Option (List Byte)) (s : State) : State :=
  match w, data with
  | .entry q, some d =>
    let b := entryBuf q d
    let s1 := preAdj q (fun _ => b) s
    if b.bad then s1 else readDescs b (min b.nops 2048) s1
  | .entry q, none => preAdj q (fun b => { b with read := true, bad := true }) s
  | .descs q, some d =>
    let l := chunksOf 16384 64 d
    preAdj q (fun b => { b with
      got := b.got + l.length
      left := b.left ++ l.map fun x => ⟨0, x, false⟩ }) s
  | .descs q, none => preAdj q (fun b => { b with bad := true, nops := 0, left := [] }) s
  | _, _ => s

/-- Whether a buffer's reads are outstanding. -/
def bufReading (s : State) (seq : Nat) : Bool :=
  s.fe.reads.any fun p => p.2.what == .entry seq || p.2.what == .descs seq

/-- A prefetched buffer becomes current: its descriptors are checked, or it is found invalid (R309, R311, R314). -/
def becomeCurrent (b : Buf) (s : State) : State :=
  let b1 := if b.bad then { b with left := [], nops := 0 } else { b with left := checkDescs (b.left.map (·.bytes)) }
  let s1 := barSet (feWith (fun e => { e with pre := e.pre.drop 1, bufs := e.bufs ++ [b1] }) s) 0x1024 (b.seq % 2 ^ 32)
  if b.bad then hqError 1 (barPut s1 0x1018 16 12 (b.seq % 4096)) else s1

/-- BUFFER_CURRENT (R311, R314): what the next buffer still needs is read, then it becomes current. -/
def execBufferCurrent (s : State) : Result :=
  if (currentBuf s).isSome ∨ s.fe.resetting then .next s
  else match s.fe.pre with
    | [] => if mayRead s then .next (readEntry s) else .next s
    | b :: _ =>
      if !b.read ∨ bufReading s b.seq then .next s
      else if b.bad ∨ b.got = b.nops then .next (becomeCurrent b s)
      else if s.host.busMaster then .next (readDescs b b.nops s)
      else .next s

/-- OP_DISPATCH (R316): the next op enters the table; an invalid one, or one with a failed predecessor, completes at once. -/
def execOpDispatch (s : State) : Result :=
  match currentBuf s with
  | none => .next s
  | some b =>
    if 4096 ≤ s.fe.ops.length then .next s
    else match b.left with
      | [] => .next s
      | d :: rest =>
        let k := opKey b.seq d.idx
        let o : Op := ⟨b.glove, d.bytes, d.invalid, .held, false, 0, false, 0, none, stOk, false, 0, none⟩
        let s1 := setOp k o (bufAdj b.seq (fun x => { x with left := rest }) s)
        if d.invalid then .next (completeOp k stDescriptorInvalid s1)
        else if !dTriggered d.bytes ∧ (predStatuses s1 k d.bytes).any (fun st => st.any fun x => !goodStatus x) then
          .next (completeOp k stSkipped s1)
        else .next s1

/-- NOP_OP (R319). -/
def execNopOp (op : Nat) (s : State) : Result :=
  match startOp s op 0 [0] with
  | none => .next s
  | some (_, s1) => .next (completeOp op stOk s1)

/-- DRAIN (R331). -/
def execDrain (op : Nat) (s : State) : Result :=
  match startOp s op 6 [4, 5, 6, 7] with
  | none => .next s
  | some (o, s1) => .next (endLaunch op o false s1)

/-- KILL (R331). -/
def execKill (op : Nat) (s : State) : Result :=
  match startOp s op 7 [4, 5, 6, 7] with
  | none => .next s
  | some (o, s1) => .next (endLaunch op o true s1)

/-- OP_TRIGGER (R318): the first named op that is in the table starts, or is skipped. -/
def execOpTrigger (s : State) : Result :=
  match s.fe.triggers.find? fun t => (kget s.fe.ops t.1).isSome with
  | none => .next s
  | some (k, ok) =>
    let s1 := feWith (fun e => { e with triggers := e.triggers.erase (k, ok) }) s
    match kget s.fe.ops k with
    | none => .next s1
    | some o =>
      if !dTriggered o.bytes ∨ o.invalid ∨ o.phase ≠ .held then .next s1
      else if ok then .next (setOp k { o with phase := .ready } s1)
      else .next (completeOp k stSkipped s1)

/-- FIRST_BAD and NBAD of a buffer (R310). -/
def bufferBad (b : Buf) : List (Nat × Nat) := b.status.filter fun p => !goodStatus p.2

/-- The completion record (R310); an invalid entry's carries DESCRIPTOR_INVALID (R309). -/
def completionRecord (b : Buf) : List Byte :=
  let l := bufferBad b
  let first := if b.bad then stDescriptorInvalid else match l with
    | [] => stOk
    | p :: _ => p.2
  leBytes 4 (b.seq % 2 ^ 32) ++ leBytes 4 b.cookie ++ leBytes 2 first ++ leBytes 2 (min l.length 0xFFFF) ++
    leBytes 2 b.nops ++ [0, 0]

/-- BUFFER_RETIRE (R309, R310): the oldest buffer retires once every op of it has completed. Its record goes to DONE_ADDR as it stands:
R309 names no refusal of one that is no multiple of 16 (DEDUCED, log entry 93). -/
def execBufferRetire (s : State) : Result :=
  match s.fe.bufs.find? fun b => !b.orphan with
  | none => .next s
  | some b =>
    if !b.left.isEmpty ∨ s.fe.ops.any (fun p => keySeq p.1 == b.seq) ∨ s.fe.resetting then .next s
    else
      let s1 := feWith (fun e => { e with
        bufs := e.bufs.filter fun x => x.seq != b.seq
        triggers := e.triggers.filter fun t => keySeq t.1 != b.seq }) s
      let s2 := if bitOf b.eflags 1 then hostWrite b.doneAddr (completionRecord b) s1 else s1
      let head := (b.seq + 1) % 2 ^ 32
      let s3 := barSet s2 0x1010 head
      let s4 := if hqHeadWb s3 then hostWrite (hqHeadWbAddr s3) (leBytes 4 head) s3 else s3
      .next (if bitOf b.eflags 0 then raise 1 s4 else s4)

/-- NO_PROGRESS_LIMIT (R334): an op in flight has made no progress for its limit; the timer of one held by BUDGET_STALL stands (R333). -/
def execNoProgressLimit (op : Nat) (s : State) : Result :=
  match kget s.fe.ops op with
  | none => .next s
  | some o => if o.stalled.isSome then .next s else
    let s1 := raise 2 (barPut s 0x1018 3 1 1)
    let kill := dKillOnLimit o.bytes
    match kget s.launches op with
    | some l =>
      if (l.phase == .running || (l.reexecuted && (l.phase == .loading || l.phase == .armed))) && !kill && !l.limitDrained then
        .next { s1 with launches := kput s1.launches op { l with drainReq := some (l.drainReq.getD s.frame.boundaries), limitDrained := true } }
      else .next (killLaunch op stKilledNoProgress s1)
    | none =>
      if dKind o.bytes = 1 ∨ dKind o.bytes = 2 then
        if !kill && reading s op then .next (setOp op { o with drainReq := true } s1)
        else .next (completeOp op (if kill then stKilledNoProgress else stDrained) s1)
      else .next (completeOp op stKilledNoProgress s1)

end Sys2Proof.Machine
end

