-- ==== Sys2Proof/Machine/Security.lean ====
section
/-! DEFINITION. The security domain: entropy cells, conditioner, seed store, DRBG instances, known-answer tests, attestation and
the public-key engine (R410 to R438). -/

namespace Sys2Proof.Machine

def setSec (x : SecSt) (s : State) : State := { s with sec := x }

/-- Bytes 0 to 175 of an attestation report (R432). -/
def attestBody (s : State) (challenge alg : Nat) : List Byte :=
  let (ma, mi, bu) := s.plat.fwVersion
  leBytes 4 0x41545354 ++ [0x01] ++ leBytes 1 alg ++ [0, 0] ++ leBytes 4 s.plat.fuse.serial ++ leBytes 1 ma ++ leBytes 1 mi ++
    leBytes 2 bu ++ leBytes 1 (if s.plat.fuse.c6 then 0 else 1) ++ leBytes 1 (secCode s.sec.mode) ++ [0, 0] ++
    leBytes 8 (sysNow s) ++ leBytes 32 challenge ++ s.plat.fwDigest ++ s.plat.fuse.helmetDigest ++ s.serv.chain ++
    leBytes 4 (if s.serv.auditCount = 0 then 0 else (s.serv.auditCount - 1) % 2 ^ 32)

/-- An attestation's report is formed when the engine takes it; until then the request holds the challenge alone (R431, R432). -/
def pkeForm (s : State) (r : PkeReq) : PkeReq := match r with
  | .attest k alg b => .attest k alg (if b.length = 32 then attestBody s (leNat b) alg else b)
  | x => x

/-- The engine takes the next request while the security functions run (R410, R433). -/
def pkeStart (s : State) : State :=
  match s.sec.pkeBusy, s.sec.pkeQueue with
  | none, r :: rest => if secRuns s then setSec { s.sec with pkeBusy := some (pkeForm s r), pkeQueue := rest } s else s
  | _, _ => s

/-- A change of SecurityState raises source 448 (R428); where the security functions begin to run, the engine takes what waits (R410),
and a signing of the audit log that waited for the functions is made (R386). -/
def secEnter (m : SecMode) (s : State) : State :=
  if s.sec.mode = m then s else
    let s1 := raise 448 (setSec { s.sec with mode := m } s)
    let s2 := if secRuns s then s1 else pkeStart s1
    if s2.serv.signDue then auditSign s2 else s2

/-! ## CTR_DRBG with AES-256, no derivation function (R416 to R420) -/

/-- `n` output blocks from V on, and V after them. -/
def ctrBlocks (keys : List (List Byte)) : Nat → List Byte → List Byte × List Byte
  | 0, v => ([], v)
  | n + 1, v =>
    let v1 := beBytes 16 ((beNat v + 1) % 2 ^ 128)
    let (r, v2) := ctrBlocks keys n v1
    (aesBlock keys v1 ++ r, v2)

/-- The update function: Key and V from 48 bytes of provided data. -/
def ctrUpdate (key v data : List Byte) : List Byte × List Byte :=
  let (t, _) := ctrBlocks (aesKeys key) 3 v
  let x := xorBytes t data
  (x.take 32, x.drop 32)

def drbgOff : Drbg := ⟨List.replicate 32 0, List.replicate 16 0, [], 0, false, false, false⟩

/-- The personalisation string of an instance (R417). -/
def drbgPers (s : State) (i : Nat) : List Byte :=
  let kind := if i = 0 then 0 else if i < 256 then 1 else 2
  let idx := if i = 0 then 0 else if i < 256 then i - 1 else i - 256
  let tag := if 256 ≤ i then odGet s 0x3002 (i - 256) else 0
  [0x0A] ++ leBytes 1 kind ++ leBytes 1 idx ++ [0] ++ leBytes 4 tag ++ leBytes 4 s.plat.fuse.serial ++
    leBytes 8 (sysNow s) ++ List.replicate 28 0

/-- Instantiate from a seed (R417). -/
def drbgInstantiate (i : Nat) (seed : List Byte) (s : State) : State :=
  let (k, v) := ctrUpdate (List.replicate 32 0) (List.replicate 16 0) (xorBytes seed (drbgPers s i))
  setSec { s.sec with inst := kput s.sec.inst i ⟨k, v, [], 0, false, false, false⟩ } s

/-- Reseed from the next seed of the store; words already in the buffer are kept (R417, R419). -/
def drbgReseedWith (i : Nat) (seed : List Byte) (s : State) : State :=
  match kget s.sec.inst i with
  | none => s
  | some d =>
    let idx := if i = 0 then 0 else if i < 256 then i - 1 else i - 256
    let add := [0x0B] ++ leBytes 1 idx ++ [0, 0] ++ leBytes 8 (sysNow s) ++ List.replicate 36 0
    let (k, v) := ctrUpdate d.key d.v (xorBytes seed add)
    setSec { s.sec with
      inst := kput s.sec.inst i { d with key := k, v := v, calls := 0, due := false, said17 := false, stale := false }
      dues := s.sec.dues.filter (· != i) } s

/-- Uninstantiate: Key, V and buffer are overwritten with zeros (R417). -/
def drbgDrop (i : Nat) (s : State) : State :=
  setSec { s.sec with
    inst := kdel s.sec.inst i
    dues := s.sec.dues.filter (· != i)
    want := s.sec.want.filter (· != i) } s

/-- An instance becomes due for reseeding, in order (R419, R420). -/
def drbgDue (i : Nat) (s : State) : State :=
  match kget s.sec.inst i with
  | none => s
  | some d => if s.sec.dues.contains i then s
    else setSec { s.sec with inst := kput s.sec.inst i { d with due := true }, dues := s.sec.dues ++ [i] } s

/-- Whether the security state lets an instance deliver (R410, R416, R421). A glove has an instance in SINGLE only after RECOVERY, and it
delivers again after its own reseed (R428; DEDUCED, log entry 96). -/
def modeDelivers (m : SecMode) (i : Nat) : Bool :=
  match m with
  | .single => i == 0 || decide (256 ≤ i)
  | .test => i == 0
  | .normal => i != 0
  | .recovery => false
  | _ => false

/-- The glove whose allowance an instance draws on: 256 stands for none. -/
def drbgGlove (i : Nat) : Nat := if i = 0 ∨ i = 1 then 0 else if 256 ≤ i then i - 256 else 256

/-- Whether the glove of an instance has spent sub 07 (R423). -/
def drbgSpent (s : State) (i : Nat) : Bool := drbgGlove i != 256 && !budgetOpen s (drbgGlove i) 7

/-- Whether an instance may deliver (R418). -/
def drbgMayDeliver (s : State) (i : Nat) : Bool :=
  match kget s.sec.inst i with
  | none => false
  | some d => modeDelivers s.sec.mode i && !d.stale && decide (d.calls < 2 ^ 32) && !drbgSpent s i

/-- One generate call of 512 bits: the buffer's 16 words, and the sources of a reseed that is late (R418, R419). -/
def drbgGenerate (i : Nat) (s : State) : State :=
  match kget s.sec.inst i with
  | none => s
  | some d =>
    let (t, v) := ctrBlocks (aesKeys d.key) 4 d.v
    let (k2, v2) := ctrUpdate d.key v (List.replicate 48 0)
    let calls := d.calls + 1
    let d2 := { d with
      key := k2, v := v2, calls := calls
      buf := (chunksOf 16 4 t).map leNat
      said17 := d.said17 || decide (2 ^ 17 ≤ calls) }
    let s1 := setSec { s.sec with inst := kput s.sec.inst i d2 } s
    let s2 := if calls = 2 ^ 16 then drbgDue i s1 else s1
    let s3 := if calls = 2 ^ 17 then raise 452 s2 else s2
    if calls = 2 ^ 32 then raise 453 s3 else s3

/-- A 512-bit draw of a system instance: a generate call of its own (R434). -/
def drbgDraw (i : Nat) (s : State) : List Byte × State :=
  match kget s.sec.inst i with
  | none => ([], s)
  | some d =>
    let s1 := drbgGenerate i s
    match kget s1.sec.inst i with
    | none => ([], s1)
    | some d1 => (d1.buf.flatMap (leBytes 4), setSec { s1.sec with inst := kput s1.sec.inst i { d1 with buf := d.buf } } s1)

/-- The system instance that serves a purpose: Sj in NORMAL, the single instance otherwise (R416, R434). -/
def systemInst (s : State) (j : Nat) : Nat := if s.sec.mode = .normal then 1 + j else 0

/-- The instance behind a page (R421). -/
def pageInst (s : State) (g : Nat) : Nat := if g = 0 then systemInst s 0 else 256 + g

/-! ## Seeds (R413 to R417, R425 to R428) -/

/-- Whether the conditioner runs: at least four healthy cells, a store that is not full, a state that forms seeds (R414, R415). -/
def healthyCells (s : State) : Nat := (s.sec.cells.filter fun c => c.st == .healthy).length
def conditionerRuns (s : State) : Bool :=
  decide (4 ≤ healthyCells s) && decide (s.sec.store.length < 4) && match s.sec.mode with
    | .off => false
    | .failed => false
    | _ => true

/-- What the next seed of the store serves: the system instances in SINGLE, each stale instance's reseed after RECOVERY, then
the gloves whose instance waits to be instantiated (R416, R428). -/
def nextWanted (s : State) : Option (Nat × Bool) :=
  match s.sec.mode with
  | .single =>
    match ((List.range 8).map (1 + ·)).find? fun i => (kget s.sec.inst i).isNone with
    | some i => some (i, true)
    | none => match s.sec.inst.find? fun p => p.2.stale with
      | some p => some (p.1, false)
      | none => none
  | .normal => match s.sec.want.head? with
    | some i => some (i, true)
    | none => none
  | _ => none

/-- SINGLE ends when S7 is instantiated and no instance awaits its reseed (R416, R428). -/
def singleDone (s : State) : Bool :=
  s.sec.mode == .single && ((List.range 8).all fun j => (kget s.sec.inst (1 + j)).isSome) && !s.sec.inst.any fun p => p.2.stale

/-- Seeds of the store go to what waits for them. -/
def serveSeeds : Nat → State → State
  | 0, s => s
  | n + 1, s =>
    match s.sec.store, nextWanted s with
    | seed :: rest, some (i, new) =>
      let s1 := setSec { s.sec with store := rest, want := s.sec.want.filter (· != i) } s
      let s2 := if new then drbgInstantiate i seed s1 else drbgReseedWith i seed s1
      serveSeeds n (if singleDone s2 then secEnter .normal s2 else s2)
    | _, _ => s

/-- A glove's instance is wanted from the opening of the glove on (R339, R416). -/
def wantGlove (g : Nat) (s : State) : State :=
  serveSeeds 5 (setSec { s.sec with want := s.sec.want ++ [256 + g] } s)

/-- FAILED: a failed test, or a limit passed (R415, R426, R428). -/
def secFail (s : State) : State := secEnter .failed (setSec { s.sec with kat := none } s)

/-- The domain powers up: STARTUP with every cell in its start-up test (R410, R411). -/
def secPowerUp (s : State) : State :=
  raise 448 (setSec ⟨.startup, .startup, List.replicate 8 ⟨.testing 0, false, 0, false, 0, 0, 0⟩, [], [], [], [], [], [],
    none, [], none, none⟩ s)

/-- Too few healthy cells: RECOVERY, the store emptied, every cell tested again, every instance stopped until its reseed (R414,
R427, R428). -/
def secRecover (s : State) : State :=
  let leave := match s.sec.mode with
    | .single => true
    | .normal => true
    | .test => true
    | _ => false
  if leave && decide (healthyCells s < 4) then
    secEnter .recovery (setSec { s.sec with
      store := [], raw := [], blocks := [], kat := none
      cells := s.sec.cells.map fun c => if 8 ≤ c.fails then c else { c with st := .testing 0, run := 0, apSeen := 0, apCount := 0 }
      inst := s.sec.inst.map fun p => (p.1, { p.2 with stale := true }) } s)
  else s

/-- EntropyCellMask (R412). -/
def cellMask (s : State) : Nat :=
  (List.range 8).foldl (fun m i => match s.sec.cells[i]? with
    | some c => if c.st == .healthy then m + 2 ^ i else m
    | none => m) 0

def publishCells (s : State) : State := odSet s 0x5000 2 (cellMask s)

/-- The bits of a cell without its last `n` samples; the newest stands last. -/
def dropLast (i n : Nat) (l : List (Nat × Bool)) : List (Nat × Bool) :=
  (l.foldr (fun p (a : List (Nat × Bool) × Nat) => if p.1 = i ∧ 0 < a.2 then (a.1, a.2 - 1) else (p :: a.1, a.2)) ([], n)).1

/-- The samples of a cell's current window (R411). -/
def windowSeen (c : Cell) : Nat := if c.apSeen = 0 then 1024 else c.apSeen

/-- A cell fails: removed, the samples of its current window discarded, counted, source 449, and RECOVERY where too few are left (R412,
R414). -/
def cellFail (i : Nat) (s : State) : State :=
  let seen := (s.sec.cells[i]?).elim 0 windowSeen
  let cells := s.sec.cells.mapIdx fun j c =>
    if j = i then { c with st := .removed, fails := c.fails + 1, run := 0, apSeen := 0, apCount := 0 } else c
  let s1 := setSec { s.sec with cells := cells, raw := dropLast i seen s.sec.raw } s
  secRecover (publishCells (raise 449 (odBump s1 0x5000 3 32 1)))

/-- One sample of a cell under its two health tests: the cell after it, and whether it fails (R411). -/
def cellSample (c : Cell) (bit : Bool) : Cell × Bool :=
  let run := if c.run ≠ 0 ∧ c.lastBit = bit then c.run + 1 else 1
  let first := decide (c.apSeen = 0)
  let apBit := if first then bit else c.apBit
  let apCount := if first then 1 else if c.apBit = bit then c.apCount + 1 else c.apCount
  let apSeen := if c.apSeen = 1023 then 0 else c.apSeen + 1
  let st := match c.st with
    | .testing n => .testing (n + 1)
    | x => x
  (⟨st, bit, run, apBit, apSeen, apCount, c.fails⟩, decide (41 ≤ run) || decide (624 ≤ apCount))

/-- Every cell is sampled once; the bits of healthy cells go to the conditioner while it runs (R411 to R414). -/
def sampleCells (bits : Nat) (s : State) : State :=
  let run := conditionerRuns s
  let step := fun (t : State) (i : Nat) =>
    match t.sec.cells[i]? with
    | none => t
    | some c => if c.st == .removed then t else
      let (c2, bad) := cellSample c (bitOf bits i)
      let t1 := setSec { t.sec with
        cells := t.sec.cells.set i c2
        raw := if run && c.st == .healthy then t.sec.raw ++ [(i, bitOf bits i)] else t.sec.raw } t
      if bad then cellFail i t1 else t1
  (List.range 8).foldl step s

/-- Bits packed most significant first into a number (R413). -/
def packBits (l : List (Nat × Bool)) : Nat := l.foldl (fun a p => 2 * a + ofBool p.2) 0

/-- The CBC-MAC of eight blocks under the zero key (R413). -/
def cbcMac (blocks : List (List Byte)) : List Byte :=
  let keys := aesKeys (List.replicate 32 0)
  blocks.foldl (fun x b => aesBlock keys (xorBytes x b)) (List.replicate 16 0)

/-- Three blocks make a seed; the first of STARTUP or RECOVERY starts the known-answer tests (R413, R415, R425, R428). -/
def takeBlock (b : List Byte) (s : State) : State :=
  let blocks := s.sec.blocks ++ [b]
  if blocks.length < 3 then setSec { s.sec with blocks := blocks } s
  else
    let s1 := odBump (setSec { s.sec with blocks := [], store := s.sec.store ++ [blocks.flatten] } s) 0x5000 6 64 1
    match s1.sec.mode, s1.sec.kat with
    | .startup, none => setSec { s1.sec with kat := some 7, back := .single } s1
    | .recovery, none => setSec { s1.sec with kat := some 7, back := .single } s1
    | _, _ => serveSeeds 5 s1

/-- A conditioning call (R413). -/
def conditioningCall (s : State) : State :=
  if conditionerRuns s && decide (1024 ≤ s.sec.raw.length) then
    let b := cbcMac (chunksOf 8 16 (beBytes 128 (packBits (s.sec.raw.take 1024))))
    takeBlock b (setSec { s.sec with raw := s.sec.raw.drop 1024 } s)
  else s

/-- A known-answer run ends: the pass bits, source 450; a failure means FAILED; a pass of STARTUP instantiates the single
instance and of RECOVERY reseeds it; from TEST the domain returns to the state it left (R425, R426, R428). -/
def katDone (wrong : Nat) (s : State) : State :=
  match s.sec.kat with
  | none => s
  | some mask =>
    let pass := (List.range 3).foldl (fun a i => if bitOf mask i && !bitOf wrong i then a + 2 ^ i else a) 0
    let s1 := raise 450 (odSet (setSec { s.sec with kat := none } s) 0x5000 5 (0x80 + pass))
    if pass ≠ mask then secFail (raise 451 s1)
    else match s1.sec.mode, s1.sec.store with
      | .startup, seed :: rest =>
        secRecover <| serveSeeds 5 (secEnter .single (drbgInstantiate 0 seed (setSec { s1.sec with store := rest } s1)))
      | .recovery, seed :: rest =>
        secRecover <| serveSeeds 5 (secEnter .single (drbgReseedWith 0 seed (setSec { s1.sec with store := rest } s1)))
      | .test, _ => serveSeeds 5 (secEnter s1.sec.back s1)
      | _, _ => s1

/-! ## The public-key engine (R433 to R435) -/

/-- P-384 verification with the checks in the order of R435; the key is 0x04 ‖ x ‖ y, the signature r ‖ s. -/
def ecCheck (key hash sig : List Byte) : PkVerdict :=
  let x := beNat ((key.drop 1).take 48)
  let y := beNat (key.drop 49)
  let r := beNat (sig.take 48)
  let sv := beNat (sig.drop 48)
  if ecP ≤ x ∨ ecP ≤ y ∨ ecN ≤ r ∨ ecN ≤ sv then .range
  else if r = 0 ∨ sv = 0 then .zero
  else if key.length ≠ 97 ∨ key.head? ≠ some 0x04 ∨ !ecOnCurve x y then .notOnCurve
  else if ecdsaCheck x y (beNat hash) r sv then .good else .mismatch

/-- The completion code of a verification (R436). -/
def pkCode : PkVerdict → Nat
  | .good => 0x0000
  | .zero => 0x0050
  | .range => 0x0051
  | .notOnCurve => 0x0052
  | .mismatch => 0x0053

/-- A P-384 signature with a nonce from a 512-bit draw: code and r ‖ s (R434). -/
def ecSignNow (hash : List Byte) (s : State) : (Nat × List Byte) × State :=
  let (draw, s1) := drbgDraw (systemInst s 2) s
  let k := beNat draw % (ecN - 1) + 1
  let (r, sv) := ecdsaSign (identityScalar s.plat.fuse) k (beNat hash)
  if r = 0 ∨ sv = 0 then ((0x0050, []), s1) else ((0, beBytes 48 r ++ beBytes 48 sv), s1)

/-- What a request comes to: code and result bytes. -/
def pkeRun (r : PkeReq) (s : State) : (Nat × List Byte) × State :=
  match r with
  | .edSign m => ((0, edSign (identitySecret s.plat.fuse) m), s)
  | .edVerify k m sg => ((pkCode (edCheck k m sg), []), s)
  | .ecSign h => ecSignNow h s
  | .ecVerify k h sg => ((pkCode (ecCheck k h sg), []), s)
  | .attest _ alg body =>
    if alg = 0 then ((0, edSign (identitySecret s.plat.fuse) (0x0C :: body) ++ List.replicate 32 0), s)
    else ecSignNow (sha384 (0x0C :: body)) s

/-- A request joins the queue of 32; behind the first 32 stand those that wait with their requesters, in the order they came (R433). -/
def pkeAsk (r : PkeReq) (s : State) : State := pkeStart (setSec { s.sec with pkeQueue := s.sec.pkeQueue ++ [r] } s)

/-- The operation of the engine completes: counted, a rejection raises source 456, an attestation becomes ready with source 455;
an ECDSA signature that came out zero is asked for again by the attestation (R431, R434, R435). -/
def pkeComplete (s : State) : State :=
  match s.sec.pkeBusy with
  | none => s
  | some r =>
    let (res, s1) := pkeRun r s
    let s2 := odBump (setSec { s1.sec with pkeBusy := none, pkeResult := some res } s1) 0x5040 1 64 1
    let s3 := if res.1 = 0 then s2 else raise 456 (odBump s2 0x5040 2 32 1)
    match r with
    | .attest k _ body =>
      if res.1 = 0 then
        let a := kgetD s3.serv.attest k ⟨0, 0, 0, 0⟩
        let s4 := { s3 with serv := { s3.serv with
          attest := kput s3.serv.attest k { a with state := 2, report := leNat (body ++ res.2) } } }
        pkeStart (raise 455 s4)
      else pkeStart (setSec { s3.sec with pkeQueue := s3.sec.pkeQueue ++ [r] } s3)
    | _ => pkeStart s3

/-- The rule of AttestRequest: refused while a request of the session waits (R431). -/
def attestRule (k : Nat) (s : State) : Nat := if (kgetD s.serv.attest k ⟨0, 0, 0, 0⟩).state = 1 then abState else 0

/-- A write of AttestRequest (R431). -/
def attestEffect (k : Nat) (s : State) : State :=
  let a := kgetD s.serv.attest k ⟨0, 0, 0, 0⟩
  let s1 := { s with serv := { s.serv with attest := kput s.serv.attest k { a with state := 1 } } }
  pkeAsk (.attest k a.alg (leBytes 32 a.challenge)) s1

/-- The rule of KatRequest (R425). -/
def katRule (_ : Nat) (s : State) : Nat := if s.sec.mode = .single ∨ s.sec.mode = .normal then 0 else abState

/-- A write of KatRequest: TEST until the run completes (R425). -/
def katEffect (mask : Nat) (s : State) : State :=
  secEnter .test (setSec { s.sec with kat := some mask, back := s.sec.mode } s)

/-- The instance a DrbgReseedRequest names (R420). -/
def reseedInst (v : Nat) : Nat := if v < 8 then 1 + v else 256 + v % 256

/-! ## Reading an instance (R421 to R424) -/

def pageStatus (g : Nat) : Nat := 0x4000 + 16 * g

/-- Whether a page belongs to a glove that is not FREE. -/
def pageLive (s : State) (g : Nat) : Bool := g == 0 || odGet s 0x3001 g != 0

/-- DRBG_STATUS as it reads (R424). -/
def drbgStatus (s : State) (g : Nat) : Nat :=
  if !pageLive s g then 0 else
  let i := pageInst s g
  match kget s.sec.inst i with
  | none => 2 * ofBool (bitOf (barGet s (pageStatus g)) 1) + 16 * ofBool (!budgetOpen s g 7) + 32 * secCode s.sec.mode
  | some d => ofBool (drbgMayDeliver s i && d.buf != []) + 2 * ofBool (bitOf (barGet s (pageStatus g)) 1) + 4 + 8 * ofBool d.due +
      16 * ofBool (!budgetOpen s g 7) + 32 * secCode s.sec.mode

/-- DRBG_CALLS as it reads (R424). -/
def drbgCalls (s : State) (i : Nat) : Nat := match kget s.sec.inst i with
  | none => 0
  | some d => min d.calls 0xFFFFFFFF

/-- A read of DRBG_DATA: the word that it returns (R422, R423). -/
def drbgRead (g : Nat) (s : State) : Nat × State :=
  let i := pageInst s g
  let noWord := fun (t : State) =>
    let t1 := if pageLive t g && !budgetOpen t g 7 then budgetStall g t else t
    let had := bitOf (barGet t1 (pageStatus g)) 1
    let t2 := barSet t1 (pageStatus g) 2
    (0, if had then t2 else raise 454 t2)
  match kget s.sec.inst i with
  | some d => match d.buf with
    | w :: rest =>
      if pageLive s g && drbgMayDeliver s i then
        (w, budgetAdd g 7 1 (setSec { s.sec with inst := kput s.sec.inst i { d with buf := rest } } s))
      else noWord s
    | [] => noWord s
  | none => noWord s

/-! ## Meanings -/

/-- ENTROPY_CELL_SAMPLE (R411, R412): `bits` holds cell i's sample in bit i. -/
def execEntropyCellSample (bits : Nat) (s : State) : Result :=
  .next (match s.sec.mode with
    | .off => s
    | .failed => s
    | _ => sampleCells bits s)

/-- CELL_STARTUP_TEST_DONE (R412): the cell's 4,096 samples have passed and it is healthy. -/
def execCellStartupTestDone (cell : Nat) (s : State) : Result :=
  match s.sec.cells[cell]? with
  | none => .next s
  | some c => .next (match c.st with
    | .testing n => if 4096 ≤ n then
        publishCells (setSec { s.sec with cells := s.sec.cells.set cell { c with st := .healthy } } s) else s
    | _ => s)

/-- CELL_RETEST (R412): a removed cell repeats its start-up test, unless it has failed eight times. -/
def execCellRetest (cell : Nat) (s : State) : Result :=
  match s.sec.cells[cell]? with
  | none => .next s
  | some c => .next (if c.st == .removed && decide (c.fails < 8) then
      setSec { s.sec with cells := s.sec.cells.set cell { c with st := .testing 0, run := 0, apSeen := 0, apCount := 0 } } s
    else s)

/-- CONDITIONING_CALL (R413). -/
def execConditioningCall (s : State) : Result := .next (conditioningCall s)

/-- SEC_STARTUP_TIMEOUT (R415): no seed has been formed since STARTUP was entered. -/
def execSecStartupTimeout (s : State) : Result := .next (if s.sec.mode = .startup ∧ s.sec.store = [] then secFail s else s)

/-- RECOVERY_TIMEOUT (R428): RECOVERY has not ended within one second. -/
def execRecoveryTimeout (s : State) : Result := .next (if s.sec.mode = .recovery then secFail s else s)

/-- The entry KatRequest (R425). -/
def katEntry : OwnEntry where
  covers := fun r => reqAt r 0x5000 4
  rule := fun r t => katRule (reqVal r) t
  effect := fun r t => katEffect (reqVal r) t
  refused := fun _ t => t

/-- KAT_REQUEST (R425). -/
def execKatRequest (req : OdReq) (s : State) : Result := .next (odWriteOwn katEntry req s)

/-- KAT_DONE (R425, R426): `wrong` marks the tests whose engine gave a wrong answer. -/
def execKatDone (wrong : Nat) (s : State) : Result := .next (katDone wrong s)

/-- DRBG_GENERATE (R418). -/
def execDrbgGenerate (inst : Nat) (s : State) : Result :=
  .next (match kget s.sec.inst inst with
    | none => s
    | some d => if drbgMayDeliver s inst && d.buf == [] then drbgGenerate inst s else s)

/-- DRBG_RESEED (R419): the first due instance, system instances before glove instances, takes the next seed. -/
def execDrbgReseed (s : State) : Result :=
  let order := (s.sec.dues.filter (· < 256)) ++ (s.sec.dues.filter fun i => 256 ≤ i)
  .next (match s.sec.store, order with
    | seed :: rest, i :: _ => drbgReseedWith i seed (setSec { s.sec with store := rest } s)
    | _, _ => s)

/-- The entry DrbgReseedRequest (R420). -/
def reseedEntry : OwnEntry where
  covers := fun r => reqAt r 0x5000 7
  rule := fun _ _ => 0
  effect := fun r t => drbgDue (reseedInst (reqVal r)) t
  refused := fun _ t => t

/-- DRBG_RESEED_REQUEST (R420). -/
def execDrbgReseedRequest (req : OdReq) (s : State) : Result := .next (odWriteOwn reseedEntry req s)

/-- DRBG_DATA_READ (R422): a narrow read returns the addressed bytes, and the word is consumed whole. -/
def execDrbgDataRead (g be : Nat) (s : State) : Result :=
  if 255 < g then .next s
  else
    let (w, s1) := drbgRead g s
    .next { s1 with out := .readData (leBytes 4 (beMask w be)) :: s1.out }

/-- The entry AttestRequest (R431). -/
def attestEntry : OwnEntry where
  covers := fun r => reqAt r 0x5030 3
  rule := fun r t => attestRule (sessionKey r) t
  effect := fun r t => attestEffect (sessionKey r) t
  refused := fun _ t => t

/-- ATTEST_REQUEST (R431). -/
def execAttestRequest (req : OdReq) (s : State) : Result := .next (odWriteOwn attestEntry req s)

/-- ED25519_SIGN (R433). -/
def execEd25519Sign (msg : List Byte) (s : State) : Result := .next (pkeAsk (.edSign msg) s)

/-- ED25519_VERIFY (R435). -/
def execEd25519Verify (key msg sig : List Byte) (s : State) : Result := .next (pkeAsk (.edVerify key msg sig) s)

/-- ECDSA_SIGN (R434). -/
def execEcdsaSign (hash : List Byte) (s : State) : Result := .next (pkeAsk (.ecSign hash) s)

/-- ECDSA_VERIFY (R435). -/
def execEcdsaVerify (key hash sig : List Byte) (s : State) : Result := .next (pkeAsk (.ecVerify key hash sig) s)

/-- PKE_COMPLETE (R433). -/
def execPkeComplete (s : State) : Result := .next (pkeComplete s)

end Sys2Proof.Machine
end

