-- ==== Sys2Proof/Machine/Bank.lean ====
section
/-! DEFINITION. One access to one bank word (R44 to R48, R52, R55 to R59, R351): the check, the clash of the two ports in one tc,
the commons crossbar, ECC, and what the access returns. -/

namespace Sys2Proof.Machine

/-- What an access returns: a status of R10, the word as found, and its uncorrectable lanes (R45). -/
structure BRes where
  status : Nat
  data : Nat
  bad : Nat
  deriving DecidableEq, Repr

def BOp.stores : BOp → Bool
  | .read => false
  | _ => true

def BOp.atomic : BOp → Bool
  | .add _ _ => true
  | .swap _ _ => true
  | _ => false

def wordAddr (b w : Nat) : Nat := bankBase b + 64 * w
def lane (x i : Nat) : Nat := fld x (64 * i) 64

/-- A 512-bit word from lanes. -/
def ofLanes (f : Nat → Nat) : Nat := (List.range 8).foldl (fun a i => a + (f i % 2 ^ 64) * 2 ^ (64 * i)) 0

/-- Apply an operation to the word as it stands (R46, R48); an atomic leaves an uncorrectable lane as it is (R45). -/
def applyOp (a : Nat) (op : BOp) (s : State) : State :=
  match op with
  | .read => s
  | .write off d => store (a + off) d s
  | .add mask data => (List.range 8).foldl (fun t i =>
      if bitOf mask i && !bitOf (eccMask t a) i then
        store (a + 8 * i) (leBytes 8 (loadNat t (a + 8 * i) 8 + lane data i)) t
      else t) s
  | .swap mask data => (List.range 8).foldl (fun t i =>
      if bitOf mask i && !bitOf (eccMask t a) i then store (a + 8 * i) (leBytes 8 (lane data i)) t else t) s

/-- The order of requesters in which R57 and R141 serve one word: kinds M, V, S, port, then logical numbers. -/
def rank (f : Fuse) (p : Nat) : Nat :=
  (match kindOf p with
    | .m => 0
    | .v => 1
    | .s => 2
    | .port => 3) * 2048 + logicalNo f p

/-- What port A did to a bank in the present tc. -/
def accsNow (s : State) (b : Nat) : List PortAcc :=
  (bankAux s b).acc.filter fun a => a.frame == s.frame.boundaries && a.tc == s.now

/-- Port A acts on a word, and leaves what port B has to meet in this tc (R47). -/
def portAAct (b w : Nat) (op : BOp) (s : State) : BRes × State :=
  let a := wordAddr b w
  let old := loadNat s a 64
  let bad := eccMask s a
  let me : PortAcc := ⟨s.frame.boundaries, s.now, w, op.stores && !op.atomic, op.atomic, old, bad⟩
  (⟨stOk, old, bad⟩, applyOp a op (setBankAux b { bankAux s b with acc := accsNow s b ++ [me] } s))

/-- A port B access of a glove is discarded (R47, R277). -/
def clash (g b a : Nat) (s : State) : State := ndDiscard g (bankConflict g b a s)

/-- Port B acts on a word after port A of this tc (R47). An access that no rule places in a tc is met as one of the tc that the frame has
reached (DESIGN CHOICE, log entry 52). -/
def portBAct (g b w : Nat) (op : BOp) (s : State) : BRes × State :=
  let a := wordAddr b w
  let accs := (accsNow s b).filter fun x => x.word == w
  let wrote := accs.any (·.write)
  let (old, bad) := match accs.find? fun x => x.write || x.atomic with
    | some x => (x.old, x.bad)
    | none => (loadNat s a 64, eccMask s a)
  match op with
  | .read => (⟨stOk, old, bad⟩, s)
  | .write _ _ => if wrote || accs.any (·.atomic) then (⟨stBankConflict, 0, 0⟩, clash g b a s) else (⟨stOk, old, bad⟩, applyOp a op s)
  | _ =>
    if wrote then (⟨stBankConflict, old, bad⟩, clash g b a s)
    else (⟨stOk, loadNat s a 64, eccMask s a⟩, applyOp a op s)

/-- One access to one bank word: the owner, the power state, then the access itself (R44, R52, R351). What BNK_FAULT_ADDR records
of an access to part of a word is open: here it is the word's first byte (DESIGN CHOICE, log entry 70). -/
def bankAccess (port g b w : Nat) (op : BOp) (s : State) : BRes × State :=
  let (st, s1) := bankCheck g port op.stores b (wordAddr b w) s
  if st ≠ stOk then (⟨st, 0, 0⟩, s1) else if port = 0 then portAAct b w op s1 else portBAct g b w op s1

end Sys2Proof.Machine
end

