-- ==== Sys2Proof/Machine/Tile.lean ====
section
/-! DEFINITION. What the instructions of M-, V- and S-tiles share (R220 to R239, R256 to R260): contexts, the agenda of what they do
after their issue (log entry 12), exceptions and dry runs, registers, hand-off to the router, windows. -/

namespace Sys2Proof.Machine

/-- An empty launch-table slot. -/
def SlotSt.blank : SlotSt := ⟨0, 0, none, 0, 0, 0, false, false, 0⟩

def tileOf (s : State) (pos : Nat) : Tile := kgetD s.tiles pos Tile.blank
def setTile (pos : Nat) (t : Tile) (s : State) : State := { s with tiles := kput s.tiles pos t }
def adjTile (pos : Nat) (f : Tile → Tile) (s : State) : State := setTile pos (f (tileOf s pos)) s

/-- Words of the program store (R220). -/
def storeWords (k : Kind) : Nat := match k with
  | .s => 8192
  | _ => 2048

/-! ## Issue (R226 to R232) -/

/-- What a fetch finds. -/
inductive Fetch where
  /-- nothing issues, or another instruction stands here -/
  | idle
  /-- a word that takes ILLEGAL (R232) -/
  | illegal (c : Ctx)
  | go (c : Ctx)
  deriving DecidableEq, Repr

/-- The instructions of each kind (R232). -/
def opcLegal (k : Kind) (opc : Nat) : Bool :=
  (decide (opc ≤ 0x0A) && (opc != 7 || k != .m)) || match k with
    | .m => opc == 0x0B || (decide (0x10 ≤ opc) && decide (opc ≤ 0x13))
    | .v => opc == 0x0B || (decide (0x20 ≤ opc) && decide (opc ≤ 0x29))
    | .s => decide (0x30 ≤ opc) && decide (opc ≤ 0x38)
    | .port => false

/-- Instructions that the management complex does not run (R261). -/
def mgmtLegal (opc : Nat) : Bool := opcLegal .s opc && !([1, 4, 5, 6, 8, 9].contains opc)

/-- A field of an instruction word. -/
def Ctx.f (c : Ctx) (lo w : Nat) : Nat := fld c.word lo w

/-- The window that runs on a tile. -/
def curWin (t : Tile) : Option WinDesc := t.run.bind fun i => t.wins[i]?

/-- The dry state of a launch slot at a plan tc (R259); a held window is a stopped dry run (R451). -/
def dryAt (s : State) (sl : SlotSt) (tc : Nat) : Nat :=
  match kget s.launches sl.launch with
  | some l => if l.hold.any fun x => decide (x.1 ≤ tc) && decide (tc < x.2) then max 1 sl.dry else sl.dry
  | none => sl.dry

/-- The launch slot of a context, and its dry state now. -/
def lslotOf (s : State) (c : Ctx) : SlotSt := kgetD (tileOf s c.pos).slots c.lslot SlotSt.blank
def dryNow (s : State) (c : Ctx) : Nat := if c.free then 0 else dryAt s (lslotOf s c) s.now

/-! ## The agenda (log entry 12) -/

/-- An item takes its place by its tc, after those of the same tc. -/
def insItem (x : Item) : List Item → List Item
  | [] => [x]
  | y :: l => if x.tc < y.tc then x :: y :: l else y :: insItem x l

def putItem (x : Item) (s : State) : State := { s with agenda := insItem x s.agenda }

/-- An act of an instruction in a plan tc; what the management complex does follows at once (R261). -/
def schedAt (c : Ctx) (tc : Nat) (a : Act) (s : State) : State :=
  let t := if c.free then s.now else tc
  putItem ⟨t, t, c, a⟩ s

/-- An act `d` tc after its issue. -/
def sched (c : Ctx) (d : Nat) (a : Act) (s : State) : State := schedAt c (c.tc + d) a s

/-- An act `d` tc from now. -/
def schedIn (c : Ctx) (d : Nat) (a : Act) (s : State) : State := schedAt c (s.now + d) a s

/-- Whether an item belongs to an instruction: its tile and the tc of its issue. -/
def Item.of (x : Item) (c : Ctx) : Bool := x.c.pos == c.pos && x.c.tc == c.tc && x.c.free == c.free

/-- The rest of an instruction does not happen (R257). -/
def cancel (c : Ctx) (s : State) : State := { s with agenda := s.agenda.filter fun x => !x.of c }

/-- Every later event of an instruction moves by one tc (R104, R106). What it does in the present tc stands. -/
def shift (c : Ctx) (s : State) : State :=
  let later (x : Item) : Bool := x.of c && decide (s.now < x.tc)
  let mine := s.agenda.filter later
  let rest := s.agenda.filter fun x => !later x
  { s with agenda := mine.foldl (fun l x => insItem { x with tc := x.tc + 1, since := x.since + 1 } l) rest }

/-! ## Issue (R226 to R232) -/

/-- The context of the next issue of a tile at a plan tc, where its window lets one be (R224 to R226) and its clock runs (R261,
R485). -/
def ctxOf (s : State) (pos tc : Nat) : Option Ctx :=
  let t := tileOf s pos
  if mgmtTiles.contains pos then
    if s.plat.ready ∧ domainOn s 52 ∧ !muxStopped s 1 ∧ !t.ended then some ⟨pos, s.now, kgetD t.store t.pc 0, 0, 0, 0, 0, 0, 0, true⟩ else none
  else match curWin t, t.run with
    | some w, some i =>
      let sl := kgetD t.slots w.lslot SlotSt.blank
      let runs : Bool := match kget s.launches sl.launch with
        | some l => l.phase == .running
        | none => false
      if runs = true ∧ !muxStopped s 0 ∧ !t.ended ∧ t.barw.isNone ∧ t.tc ≤ tc ∧ w.start ≤ tc ∧ tc < w.stop then
        some ⟨pos, tc, kgetD t.store t.pc 0, w.glove, i, w.lslot, sl.launch, dryAt s sl tc, w.stop, false⟩
      else none
    | _, _ => none

/-- Fetch at a tile for the command of an instruction: its OPC, and its reserved bits as a mask. -/
def fetch (s : State) (pos tc opc reserved : Nat) : Fetch :=
  match ctxOf s pos tc with
  | none => .idle
  | some c =>
    let o := c.f 58 6
    if !(if c.free then mgmtLegal o else opcLegal (kindOf pos) o) then .illegal c
    else if o ≠ opc then .idle
    else if (BitVec.ofNat 64 c.word &&& BitVec.ofNat 64 reserved) ≠ 0 then .illegal c
    else .go c

/-- The next instruction after one at `pc`, and the loops that remain (R228). -/
def nextPc (pc : Nat) : List LoopFr → Nat × List LoopFr
  | [] => (pc + 1, [])
  | f :: r =>
    if pc = f.last then
      if 0 < f.left then (f.first, { f with left := f.left - 1 } :: r) else nextPc pc r
    else (pc + 1, f :: r)

/-- An issue is counted (R263), and is progress of its launch outside a dry run (R329). -/
def countIssue (c : Ctx) (s : State) : State :=
  let s1 := winCount64 s (tileBase c.pos + 0xF2010) 1
  if c.free ∨ c.dry ≠ 0 then s1
  else { s1 with fe := { s1.fe with ops := kadj s1.fe.ops c.launch fun o => { o with progress := satAdd (2 ^ 64 - 1) o.progress 1 } } }

/-- The instruction has issued: the next one stands after it, and issues `cost` tc later at the earliest. -/
def stepOn (c : Ctx) (cost : Nat) (s : State) : State :=
  adjTile c.pos (fun t =>
    let (p, l) := nextPc t.pc t.loops
    { t with pc := p, loops := l, tc := c.tc + cost, clearing := false }) (countIssue c s)

/-! ## Exceptions (R256 to R258, R260) -/

/-- Record an exception in the registers (R263) and report it (R260). -/
def excRecord (c : Ctx) (cause : Nat) (s : State) : State :=
  let a := tileBase c.pos + 0xF2000
  let pc := (tileOf s c.pos).pc
  let s1 := if bitOf (winGet s a) 31 then s
    else winSet (winSet (winSet s a (cause + 2 ^ 8 * c.glove + 2 ^ 16 * c.win + 2 ^ 22 * c.lslot + 2 ^ 31)) (a + 4) (pc % 2 ^ 13)) (a + 8) s.now
  report c.pos 0x0601 c.pos cause c.glove (leBytes 2 pc ++ leBytes 1 c.win ++ leBytes 1 c.lslot ++ leBytes 4 s.now) s1

/-- Set the check latch of a launch slot (R397). -/
def setLatch (pos lslot : Nat) (s : State) : State :=
  adjTile pos (fun t => { t with slots := kadj t.slots lslot fun x => { x with latch := true } }) s

/-- A launch slot is in a dry run that began in a frame: 1 stopped, 2 faulted; a faulted one overrides a stopped one (R259). -/
def dryFrom (pos lslot dry frame : Nat) (s : State) : State :=
  adjTile pos (fun t => { t with slots := kadj t.slots lslot fun x =>
    { x with dry := max x.dry dry, dryIn := if x.dry = 0 then frame else x.dryIn } }) s

/-- A launch slot begins a dry run now. -/
def setDry (pos lslot dry : Nat) (s : State) : State := dryFrom pos lslot dry s.frame.boundaries s

/-- What a launch remembers of a fault that re-execution does not mend: its own exceptions but POISON (R401). -/
def noteFault (c : Ctx) (cause : Nat) (s : State) : State :=
  if cause = 5 then s else { s with launches := kadj s.launches c.launch fun l => { l with faulted := true } }

/-- The exception itself, detected now: the instruction does nothing more, and the launch slot runs dry (R257, R258). None is taken
in a dry run (R259). EXC_PC is the pc as it stands: the faulting instruction where it has not issued, else the first that has not. -/
def takeExc (c : Ctx) (cause : Nat) (s : State) : State :=
  if dryNow s c ≠ 0 then s
  else
    let s1 := cancel c (excRecord c cause s)
    if c.free then s1 else setLatch c.pos c.lslot (setDry c.pos c.lslot 2 (noteFault c cause s1))

/-- An early detection: the instruction has no effect (R257). -/
def early (c : Ctx) (cause : Nat) (s : State) : State := stepOn c 1 (takeExc c cause s)

/-- The lowest code among the causes found at issue (R256); a dry run goes on past POISON and TAG (R259). -/
def issueCause (c : Ctx) (l : List (Bool × Nat)) : Option Nat :=
  (l.filter fun p => p.1 && !(c.dry != 0 && (p.2 == 5 || p.2 == 6))).foldl (fun a p => match a with
    | none => some p.2
    | some x => some (min x p.2)) none

def excIllegal : Nat := 1
def excOperand : Nat := 2
def excBankState : Nat := 3
def excAccess : Nat := 4
def excPoison : Nat := 5
def excTag : Nat := 6

/-! ## Banks through port A (R100, R106, R256) -/

/-- The bank and word of an ADDR field in a space: false the tile's banks, true its cluster's commons (R100, R232). -/
def addrBank (pos : Nat) (cmn : Bool) (addr : Nat) : Nat × Nat :=
  if cmn then (cmnBank (clusterOf pos) (fld addr 12 4), fld addr 0 12) else (tileBank pos (fld addr 11 2), fld addr 0 11)

/-- The tc after issue in which word j of a transfer reaches its bank (R105, R55). -/
def bankLag (cmn : Bool) (j : Nat) : Nat := if cmn then j + 2 else j + 1

/-- The exception that a refused port A access takes (R52, R351); a word past the bank is refused as an access (log entry 13). -/
def causeOf (status : Nat) : Nat := if status = stBankStateFault then excBankState else excAccess

/-- A transfer from a bank begins: its first word is read in its tc, and each next one a tc later. `got` and `arg` are what the
instruction keeps from its issue. -/
def startRead (c : Ctx) (cmn : Bool) (addr : Nat) (got : List (Nat × Nat)) (arg : Nat) (s : State) : State :=
  let (b, w) := addrBank c.pos cmn addr
  sched c (bankLag cmn 0) (.read b w 0 got arg) s

/-! ## Hand-off to the router (R235, R236, R259) -/

/-- A flit of the window: poisoned where its data is, or in a faulted dry run. -/
def mkFlit (c : Ctx) (tag : Nat) (bar poison : Bool) (data : Nat) : Flit := ⟨c.glove, tag, poison || c.dry == 2, bar, data, false⟩

/-- Words are handed from the tc `d` after issue on, one a tc. -/
def handWords (c : Ctx) (d : Nat) (l : List Flit) (s : State) : State :=
  (List.range l.length).foldl (fun t j => match l[j]? with
    | some f => sched c (d + j) (.hand f) t
    | none => t) s

/-- A word is handed to the router now: the injection side holds 8, each with the tc from which a slot may take it, and one handed
into a full side is lost, counted and reported (R236, R263). In a tc in which a slot takes a word, that tc's hand-offs come first
(DESIGN CHOICE, log entry 71). -/
def handNow (pos : Nat) (f : Flit) (s : State) : State :=
  let t := tileOf s pos
  let a := tileBase pos + 0xF2018
  if t.inj.length < 8 then
    winMax (setTile pos { t with inj := t.inj ++ [(s.now + 2, f)] } s) a 16 4 (t.inj.length + 1)
  else report pos 0x0604 pos 0 f.glove (leBytes 4 s.now) (winBump s a 20 4 1)

/-! ## Messages (R62, R239) -/

/-- A flit of VC1 or VC2 before it is queued. -/
def vcFlit (vc glove : Nat) (dests : List (List Nat × Nat × Nat)) (pay : Payload) (poison paid : Bool) : VcFlit :=
  ⟨vc, glove, dests, pay, poison, paid, 0⟩

/-- Flits join a tile's queue: they may leave its router from 2 tc later on (R62). -/
def queueFlits (pos : Nat) (l : List VcFlit) (s : State) : State :=
  adjTile pos (fun t => { t with msgq := t.msgq ++ l.map fun f => { f with since := absNow s + 2 } }) s

/-! ## Registers (R233, R249) -/

/-- A parameter register, and its poison (R224, R256). -/
def pmGet (t : Tile) (i : Nat) : Nat := kgetD t.pm i 0
def pmBad (t : Tile) (i : Nat) : Bool := t.pmPoison.contains i
def pmSet (i v : Nat) (poison : Bool) (t : Tile) : Tile :=
  { t with
    pm := kput t.pm i (v % 2 ^ 128)
    pmPoison := if poison then i :: t.pmPoison.filter (· != i) else t.pmPoison.filter (· != i) }

/-- An S-tile register; g0 reads zero (R249). -/
def gGet (t : Tile) (i : Nat) : Nat := if i = 0 then 0 else kgetD t.s.g i 0
def gPoison (t : Tile) (i : Nat) : Bool := i != 0 && t.s.poison.contains i
/-- Write an S-tile register and its poison bit; g0 ignores it. -/
def gSet (i v : Nat) (poison : Bool) (t : Tile) : Tile :=
  if i = 0 then t
  else { t with s := { t.s with
    g := kput t.s.g i (v % 2 ^ 64)
    poison := if poison then i :: t.s.poison.filter (· != i) else t.s.poison.filter (· != i) } }

/-- A VX register: 256 lanes (R243). -/
def vxGet (t : Tile) (i : Nat) : List Nat :=
  let l := kgetD t.v.vx i []
  l.take 256 ++ List.replicate (256 - l.length) 0
def vxPoison (t : Tile) (i : Nat) : Bool := t.v.poison.contains i
def vxMark (i : Nat) (poison : Bool) (t : Tile) : Tile :=
  { t with v := { t.v with poison := if poison then i :: t.v.poison.filter (· != i) else t.v.poison.filter (· != i) } }
def vxPut (i : Nat) (l : List Nat) (t : Tile) : Tile := { t with v := { t.v with vx := kput t.v.vx i l } }

/-- The sixteen 32-bit lanes of a word, and the word of sixteen lanes (R244). -/
def wordLanes (x : Nat) : List Nat := (List.range 16).map fun i => fld x (32 * i) 32
def lanesWord (l : List Nat) : Nat := leNat (l.flatMap (leBytes 4))

/-- Put word w of a VX register. -/
def vxWord (i w x : Nat) (t : Tile) : Tile :=
  let l := vxGet t i
  vxPut i (l.take (16 * w) ++ wordLanes x ++ l.drop (16 * w + 16)) t

/-- Word w of a VX register. -/
def vxRead (t : Tile) (i w : Nat) : Nat := lanesWord (((vxGet t i).drop (16 * w)).take 16)

/-- g24 to g31 as one word (R235). -/
def gBlock (t : Tile) : Nat := ofLanes fun i => gGet t (24 + i)

/-! ## Windows (R222 to R225, R231, R238) -/

/-- A bank takes a declared state (R50, R51): one that comes to ON from OFF holds zeros. -/
def declareBank (b code : Nat) (s : State) : State :=
  let now := bankState s b
  let x := bankAux s b
  if code = 3 then
    let s1 := if now = 3 ∨ !x.fromOff then s else zeroBank b s
    setBankState b 3 (setBankAux b { x with fromOff := false } s1)
  else if code = 1 then
    setBankState b 1 (setBankAux b { x with fromOff := x.fromOff || now == 0 } s)
  else setBankState b 0 (setBankAux b { x with fromOff := true } s)

/-- The declarations of a window: its own banks, and the commons' on the governing S-tile (R222). -/
def declare (pos : Nat) (w : WinDesc) (after : Bool) (s : State) : State :=
  let tb := (List.range 4).filter fun b => bitOf w.decl b && bankExists (tileBank pos b)
  let cb := if pos = commonsTile (clusterOf pos) then (List.range 16).filter fun k => bitOf w.cdecl k else []
  let s1 := tb.foldl (fun t b => declareBank (tileBank pos b) (fld (if after then w.stAfter else w.stIn) (2 * b) 2) t) s
  cb.foldl (fun t k => declareBank (cmnBank (clusterOf pos) k) (fld (if after then w.cafter else w.cin) (2 * k) 2) t) s1

/-- The clear at a change of glove (R224). -/
def clearRegs (k : Kind) (t : Tile) : Tile :=
  let t1 := { t with fl := 0, loops := [] }
  match k with
  | .m => { t1 with m := Tile.blank.m, pm := [], pmPoison := [] }
  | .v => { t1 with v := Tile.blank.v, pm := [], pmPoison := [] }
  | .s => { t1 with s := Tile.blank.s }
  | .port => t1

/-- Whether a launch lets its windows begin: it has started and has not released them. -/
def winLive (s : State) (t : Tile) (w : WinDesc) : Bool :=
  match kget t.slots w.lslot with
  | none => false
  | some sl => match kget s.launches sl.launch with
    | some l => l.started && !l.released
    | none => false

/-! ## Health of the local output (R237, R397) -/

/-- A flit that nothing takes (R237). -/
def unclaimed (pos tc : Nat) (f : Flit) (s : State) : State :=
  report pos 0x0602 pos 0 f.glove (leBytes 4 tc ++ leBytes 2 f.tag) (winBump s (tileBase pos + 0xF2018) 0 8 1)

/-- The launch slot and context of the window that runs, for what arrives at the local output. -/
def arrivalCtx (s : State) (pos tc : Nat) : Option Ctx :=
  let t := tileOf s pos
  match curWin t, t.run with
  | some w, some i =>
    let sl := kgetD t.slots w.lslot SlotSt.blank
    some ⟨pos, tc, 0, w.glove, i, w.lslot, sl.launch, dryAt s sl tc, w.stop, false⟩
  | _, _ => none

end Sys2Proof.Machine
end

