-- ==== Sys2Proof/Machine/Glove.lean ====
section
/-! DEFINITION. Gloves, bank handovers and budget rows (R338 to R360). -/

namespace Sys2Proof.Machine

/-! ## Bank handovers (R346 to R350) -/

/-- Banks that glove 0 keeps for ever: those of reserve and defective positions and of the management complex (R346). -/
def bankFixed (f : Fuse) (b : Nat) : Bool :=
  !bankIsCmn b && (!isLogical f (b / 4) || mgmtTiles.contains (b / 4))

/-- Whether a launch declares a bank or names it as its statistics bank (R348). -/
def launchNames (l : Launch) (b : Nat) : Bool := (declaredBanks l).contains b || pStatBankNo l.params == some b

/-- Why a handover request is refused (R348). -/
def handoverRefused (s : State) (b next : Nat) : Bool :=
  bankFixed s.plat.fuse b || !gloveActive s next || bankPendingHandover s b ||
    (admittedLaunches s).any fun l => launchNames l b

/-- Where a bank's handover stands. -/
def setHand (b : Nat) (h : Option Handover) (s : State) : State := setBankAux b { bankAux s b with hand := h } s

/-- A handover is pending (R348). -/
def beginHandover (b : Nat) (h : Handover) (s : State) : State := setHand b (some h) (winPut s (bankOwnerAddr b) 17 1 1)

/-- A handover has ended: PENDING and SCRUBBING clear and source 66 is raised (R350). -/
def endHandover (b : Nat) (s : State) : State :=
  raise 66 (setHand b none (winPut s (bankOwnerAddr b) 17 2 0))

/-- A handover accepted now. -/
def askedNow (s : State) : Handover := .asked s.frame.boundaries s.now

/-- B of R349 for a request accepted in a tc of a frame: the first START or END of a window descriptor of the governing tile after it, none
where that is the frame's own end. -/
def boundaryAfter (s : State) (b tc : Nat) : Option Nat :=
  (sortBy (fun x y => decide (x ≤ y)) (((tileOf s (bankPos b)).wins.flatMap fun w => [w.start, w.stop]).filter fun t => decide (tc < t))).head?

/-- The frame and the tc B + 2 of a bank's owner change (R349). -/
def changeAt (s : State) (b : Nat) : Option (Nat × Nat) := match (bankAux s b).hand with
  | some (.asked frame tc) => some (match boundaryAfter s b tc with
    | some t => (frame, t + 2)
    | none => (frame + 1, 2))
  | _ => none

/-- Glove resets whose launches have all released their windows wait for their B from now on (R340 step 3). -/
def resetsProceed (s : State) : State :=
  { s with bank := s.bank.map fun p =>
      if p.2.hand == some .afterLaunches && !(admittedLaunches s).any fun l => l.glove == bankOwner s p.1 then
        (p.1, { p.2 with hand := some (askedNow s) })
      else p }

/-- BANK_HANDOVER_REQUEST (R347, R348): a write to a bank's owner register; a refused request changes neither NEXT nor SCRUB. -/
def execBankHandoverRequest (bank : Nat) (data : Reg) (s : State) : Result :=
  if !bankExists bank then .next s
  else
    let a := bankOwnerAddr bank
    let d := data.toNat
    let s1 := if bitOf d 19 then winPut s a 19 1 0 else s
    let s2 := if bankPendingHandover s bank then s1 else winPut s1 a 8 9 (fld d 8 9)
    if !bitOf d 20 then .next s2
    else if handoverRefused s bank (fld d 8 8) then .next (raise 67 (winPut s1 a 19 1 1))
    else .next (beginHandover bank (askedNow s) s2)

/-! ## Gloves (R338 to R342) -/

def gloveState (s : State) (g : Nat) : Nat := if g = 0 then 1 else odGet s 0x3001 g

/-- The lowest FREE glove (R339). -/
def freeGlove (s : State) : Option Nat := (span 1 255).find? fun g => gloveState s g == 0

/-- A budget row at its defaults (R356). -/
def defaultRow (g : Nat) (s : State) : State :=
  { s with
    od := kclear s.od (odKey (0x3100 + g) 1) (odKey (0x3100 + g) 9)
    force := kclear s.force (odKey (0x3100 + g) 1) (odKey (0x3100 + g) 9) }

/-- A glove opens under a tag (R339). -/
def openGlove (g tag : Nat) (s : State) : State :=
  let s1 := odSet (odSet (odSet (defaultRow g s) 0x3400 g 0) 0x3002 g tag) 0x3001 g 1
  wantGlove g (odSet s1 0x3000 2 (tag + 2 ^ 32 * g + 2 ^ 40 * stOk))

/-- The entry GloveOpenRequest (R339). -/
def gloveOpenEntry : OwnEntry where
  covers := fun r => reqAt r 0x3000 1
  rule := fun _ t => if (freeGlove t).isSome then 0 else abState
  effect := fun r t => match freeGlove t with
    | none => t
    | some g => openGlove g (reqVal r) t
  refused := fun r t => raise 64 (odSet t 0x3000 2 (reqVal r + 2 ^ 40 * stAdmissionRefused))

/-- GLOVE_OPEN_REQUEST (R339). -/
def execGloveOpenRequest (req : OdReq) (s : State) : Result := .next (odWriteOwn gloveOpenEntry req s)

/-- The banks that a glove owns. -/
def banksOf (s : State) (g : Nat) : List Nat :=
  allBanks.filter fun b => bankOwner s b == g

/-- A reset glove's instance: its buffer is emptied before its words are delivered, and it is due for reseeding (R420). -/
def resetInst (g : Nat) (s : State) : State :=
  match kget s.sec.inst (256 + g) with
  | none => s
  | some d => drbgDue (256 + g) (setSec { s.sec with inst := kput s.sec.inst (256 + g) { d with buf := [] } } s)

/-- The steps of a glove reset that happen at once (R340, R420): the kills, a handover of every bank that the glove owns to itself, in place of
one that is pending (DEDUCED, log entry 50), the counters zero, the instance. -/
def resetGlove (g : Nat) (s : State) : State :=
  let s1 := odSet s 0x3001 g 2
  let mine := (s1.launches.filter fun p => p.2.glove == g).map (·.1)
  let s2 := mine.foldl (fun t k => killLaunch k stKilled t) s1
  let s3 := completeOps ((s2.fe.ops.filter fun p => p.2.glove == g && !mine.contains p.1).map fun p => (p.1, stKilled)) s2
  let h := if (admittedLaunches s3).any fun l => l.glove == g then Handover.afterLaunches else askedNow s3
  let s4 := (banksOf s3 g).foldl (fun t b => beginHandover b h (winPut (winPut t (bankOwnerAddr b) 8 9 (g + 256)) (bankOwnerAddr b) 18 1 0)) s3
  resetInst g { s4 with spent := kclear s4.spent (16 * g) (16 * g + 16) }

/-- The entry GloveReset (R340). -/
def gloveResetEntry : OwnEntry where
  covers := fun r => reqAt r 0x3000 3
  rule := fun r t => if gloveState t (reqVal r) = 1 then 0 else abState
  effect := fun r t => resetGlove (reqVal r) t
  refused := fun _ t => t

/-- GLOVE_RESET (R340). -/
def execGloveReset (req : OdReq) (s : State) : Result := .next (odWriteOwn gloveResetEntry req s)

/-- GLOVE_RESET_DONE (R340): the last scrub of a resetting glove has ended. -/
def execGloveResetDone (g : Nat) (s : State) : Result :=
  if g = 0 ∨ 255 < g ∨ gloveState s g ≠ 2 ∨ (banksOf s g).any (fun b => bankPendingHandover s b) then .next s
  else .next (raise 68 (odSet s 0x3001 g 1))

/-- Whether a glove may be closed (R341). -/
def closable (s : State) (g : Nat) : Bool :=
  gloveState s g == 1 && !(admittedLaunches s).any (fun l => l.glove == g) && !s.fe.ops.any (fun p => p.2.glove == g) &&
    (banksOf s g).isEmpty && !s.chunks.any fun p => p.2.st == .owned g

/-- A glove is closed (R341). -/
def closeGlove (g : Nat) (s : State) : State :=
  drbgDrop (256 + g) (odSet (odSet (odSet (defaultRow g s) 0x3400 g 0) 0x3002 g 0) 0x3001 g 0)

/-- The entry GloveClose (R341). -/
def gloveCloseEntry : OwnEntry where
  covers := fun r => reqAt r 0x3000 4
  rule := fun r t => if closable t (reqVal r) then 0 else abState
  effect := fun r t => closeGlove (reqVal r) t
  refused := fun _ t => t

/-- GLOVE_CLOSE (R341). -/
def execGloveClose (req : OdReq) (s : State) : Result := .next (odWriteOwn gloveCloseEntry req s)

/-- The entries GloveRelaxed (R275). -/
def relaxedEntry : OwnEntry where
  covers := fun r => r.index == 0x3400 && r.sub != 0
  rule := fun r t => if (admittedLaunches t).any (fun l => l.glove == r.sub) then abState else 0
  effect := fun r t => odSet t r.index r.sub (reqVal r)
  refused := fun _ t => t

/-- GLOVE_RELAXED_WRITE (R275). -/
def execGloveRelaxedWrite (req : OdReq) (s : State) : Result := .next (odWriteOwn relaxedEntry req s)

/-- The static use that bounds a budget from below (R356). -/
def budgetFloor (s : State) (g sub : Nat) : Nat :=
  let u := staticUse s g
  match sub with
  | 1 => u.1
  | 2 => u.2.1
  | 5 => u.2.2
  | _ => 0

/-- The rows of GloveBudgetTable (R356): a write is kept now and in force from the next boundary. -/
def budgetEntry : OwnEntry where
  covers := fun r => decide (0x3100 ≤ r.index) && decide (r.index ≤ 0x31FF) && r.sub != 0
  rule := fun r t => if reqVal r < budgetFloor t (r.index - 0x3100) r.sub then abState else 0
  effect := fun r t => odSet t r.index r.sub (reqVal r)
  refused := fun _ t => t

/-- GLOVE_BUDGET_WRITE (R356). -/
def execGloveBudgetWrite (req : OdReq) (s : State) : Result := .next (odWriteOwn budgetEntry req s)

end Sys2Proof.Machine
end

