-- ==== Sys2Proof/Machine/Power.lean ====
section
/-! DEFINITION. References, clocks, gates and power domains (R480 to R495), the reset of one tile (R498), fences (R36), and the
watchdog kick (R394). -/

namespace Sys2Proof.Machine

/-! ## References (R480, R481) -/

def clkFcnt : Nat := tileBase 356 + 0xF1008
def pwrDom : Nat := tileBase 356 + 0xF1014
def pwrTile : Nat := tileBase 356 + 0xF1018
def pwrWake : Nat := tileBase 356 + 0xF101C

def setRefBit (i : Nat) (on : Bool) (s : State) : State := winPut s clkRef i 1 (ofBool on)

/-- RefState (R505). -/
def refState (s : State) : Nat := fld (winGet s clkRef) 0 4 + 16 * ofBool s.plat.suspended

/-- The root PLL enters or leaves holdover (R480). -/
def setHoldover (on : Bool) (s : State) : State :=
  if refBit s 3 = on then s else raise 482 (setRefBit 3 on s)

/-- REF_LOSS (R480, R481): a reference, false REFA and true REFB, is lost. -/
def refLoss (b : Bool) (s : State) : State :=
  if !refBit s (ofBool b) then s
  else
    let s1 := raise 481 (odBump (setRefBit (ofBool b) false s) 0x2800 3 32 1)
    let other := refBit s1 (ofBool !b)
    let inUse := refBit s1 2 == b
    let s2 := if inUse && !refBit s1 3 then setRefBit 4 false (setHoldover true s1) else s1
    let s3 := { s2 with plat := { s2.plat with relock :=
      if other then (if inUse then some !b else s2.plat.relock) else none } }
    if other then s3
    else setRefBit 5 true (holdCause 6 true (enterSafe 6 s3))

/-- REF_VALID (R480): a lost reference is valid again; a PLL in holdover relocks to it. -/
def refValid (b : Bool) (s : State) : State :=
  if refBit s (ofBool b) then s
  else
    let s1 := raise 481 (holdCause 6 false (setRefBit (ofBool b) true s))
    if refBit s1 3 ∧ s1.plat.relock.isNone then { s1 with plat := { s1.plat with relock := some b } } else s1

/-- PLL_RELOCK (R480, R481): the root PLL has locked to the reference it relocks to. -/
def pllRelock (s : State) : State :=
  match s.plat.relock with
  | none => s
  | some b =>
    let s1 := setHoldover false (setRefBit 5 false (setRefBit 4 true (setRefBit 2 b { s with plat := { s.plat with relock := none } })))
    s1

/-- HOLDOVER_EXPIRY (R481): with both references lost, frames are suspended. -/
def holdoverExpiry (s : State) : State :=
  if !refBit s 0 && !refBit s 1 && refBit s 3 && !s.plat.suspended then
    raise 490 { s with plat := { s.plat with suspended := true } }
  else s

/-- REF_LOSS (R480, R481). -/
def execRefLoss (b : Bool) (s : State) : Result := .next (refLoss b s)
/-- PLL_RELOCK (R480). -/
def execPllRelock (s : State) : Result := .next (pllRelock s)
/-- HOLDOVER_EXPIRY (R481). -/
def execHoldoverExpiry (s : State) : Result := .next (holdoverExpiry s)

/-! ## The CK_TILE step (R484) -/

/-- The least temperature of a step, in °C. -/
def stepFloor (k : Nat) : Int := match k with
  | 0 => -128
  | 1 => 100
  | 2 => 105
  | _ => 110

/-- CK_TILE in MHz at a step. -/
def stepMHz (k : Nat) : Nat := 1500 - 150 * min k 3

/-- The step after a reading, as the step before gives it: lower as soon as a threshold is reached, one step higher only 5 °C below
the threshold that lowered it. -/
def nextStepOf (now : Nat) (t : Int) : Nat :=
  let want := if 110 ≤ t then 3 else if 105 ≤ t then 2 else if 100 ≤ t then 1 else 0
  if now < want then want
  else if want < now ∧ t ≤ stepFloor now - 5 then now - 1
  else now

/-- Whether a temperature lies within 5 °C of a threshold (R507). -/
def nearThreshold (t : Int) : Bool := [100, 105, 110].any fun (h : Int) => decide (h - 5 ≤ t) && decide (t ≤ h + 5)

/-- The monitor of the die temperature (R393). -/
def dieMonitor (t : Int) (s : State) : State :=
  let bad := decide (115 ≤ t)
  let was := bitOf s.safety.holding 16
  let s1 := holdCause 16 bad s
  if bad then (if was then s1 else raise 136 (enterSafe 4 s1)) else if was then raise 136 s1 else s1

/-- DIE_TEMP_READ (R484). -/
def dieTempRead (t : Int) (s : State) : State :=
  let was := nearThreshold (signed 8 (odGet s 0x2800 6))
  let s1 := odSet s 0x2800 6 (unsigned 8 t)
  let s2 := if nearThreshold t && !was then raise 489 s1 else s1
  dieMonitor t { s2 with plat := { s2.plat with nextStep := nextStepOf s2.plat.nextStep t } }

/-- DIE_TEMP_READ (R484). -/
def execDieTempRead (temp : Int) (s : State) : Result := .next (dieTempRead temp s)

/-! ## Gates (R488) -/

/-- The domains behind a PLL's gate (R488, R490). -/
def pllDomains (n : Nat) : List Nat := match n with
  | 1 => List.range 51 ++ [52]
  | 2 => [51, 52]
  | 3 => span 25 18
  | 4 => [50]
  | 5 => span 43 8
  | _ => []

/-- Whether a child of a PLL's gate is in use: a domain gate is open unless its domain is OFF. -/
def gateInUse (s : State) (n : Nat) : Bool := (pllDomains n).any fun d => domainState s d != 0

/-- CLK_GATE_REQUEST (R488): a write of CLK_GATE. -/
def clkGateWrite (d : Nat) (s : State) : State :=
  let s1 := winPut s clkGate 0 4 (fld d 0 4)
  if !bitOf d 4 then s1
  else
    let n := fld d 0 3
    let opens := bitOf d 3
    let refused := decide (6 ≤ n) || (!opens && (n == 0 || gateInUse s n))
    if refused then raise 485 (winPut s1 clkGate 16 16 stChildBusy)
    else
      let s2 := winPut s1 clkGate 16 16 stOk
      if n = 0 then s2 else winPut s2 clkGate (4 + n) 1 (ofBool opens)

/-- CLK_GATE_REQUEST (R488). -/
def execClkGateRequest (data : Reg) (s : State) : Result := .next (clkGateWrite data.toNat s)

/-! ## Multiplexers and the frequency counter (R485 to R487) -/

/-- CLK_MUX_SWITCH (R485, R486): a write of CLK_MUX. -/
def clkMuxWrite (d : Nat) (s : State) : State :=
  let s0 := if bitOf d 6 then winPut s clkMux 6 1 0 else s
  let s1 := winPut s0 clkMux 0 4 (fld d 0 4)
  if !bitOf d 4 then s1
  else
    let m := fld d 0 3
    if 4 ≤ m ∨ ((m = 0 ∨ m = 2) ∧ !(admittedLaunches s).isEmpty) then raise 485 (winPut s1 clkMux 6 1 1)
    else if s.plat.muxWait.isSome then s1
    else
      let s2 := winPut s1 clkMux 5 1 1
      { s2 with plat := { s2.plat with muxWait := some ⟨m, bitOf d 3, muxStopped s m⟩ } }

/-- CLK_MUX_DONE (R485): the switch changes over; one from a stopped clock never does. -/
def clkMuxDone (s : State) : State :=
  match s.plat.muxWait with
  | none => s
  | some w =>
    if w.hung then s
    else raise 484 (winPut (winPut { s with plat := { s.plat with muxWait := none } } clkMux 5 1 0) clkMux (7 + w.mux) 1 (ofBool w.bypass))

/-- CLK_MUX_SWITCH (R485, R486). -/
def execClkMuxSwitch (data : Reg) (s : State) : Result := .next (clkMuxWrite data.toNat s)
/-- CLK_MUX_DONE (R485). -/
def execClkMuxDone (s : State) : Result := .next (clkMuxDone s)

/-- FREQ_MEASURE (R487): a write of CLK_FCNT_CTRL. -/
def fcntWrite (d : Nat) (s : State) : State :=
  let s1 := winPut (winPut s clkFcnt 0 3 (fld d 0 3)) clkFcnt 16 16 (fld d 16 16)
  let s2 := if bitOf d 4 then winPut s1 clkFcnt 4 1 0 else s1
  if bitOf d 3 then { s2 with plat := { s2.plat with measuring := true } } else s2

/-- Whether the clock chosen for measurement has stopped. -/
def measuredStopped (s : State) : Bool := match fld (winGet s clkFcnt) 0 3 with
  | 0 => muxStopped s 0
  | 1 => muxStopped s 1
  | 2 => muxStopped s 2
  | 3 => muxStopped s 2
  | 4 => muxStopped s 3
  | _ => false

/-- FREQ_MEASURE_DONE (R487): `edges` is what the counter saw. -/
def fcntDone (edges : Nat) (s : State) : State :=
  if !s.plat.measuring then s
  else raise 483 (winPut (winSet { s with plat := { s.plat with measuring := false } } (clkFcnt + 4)
    (if measuredStopped s then 0 else edges)) clkFcnt 4 1 1)

/-- FREQ_MEASURE (R487). -/
def execFreqMeasure (data : Reg) (s : State) : Result := .next (fcntWrite data.toNat s)
/-- FREQ_MEASURE_DONE (R487). -/
def execFreqMeasureDone (edges : Nat) (s : State) : Result := .next (fcntDone edges s)

/-! ## Fences (R36) -/

def isFenced (s : State) (pos : Nat) : Bool := bitOf (odGet s 0x2203 (clusterOf pos + 1)) (maskBit pos)

/-- Fence a logical tile (R36, R409). -/
def fenceTile (pos : Nat) (s : State) : State :=
  if !isLogical s.plat.fuse pos ∨ isFenced s pos then s
  else raise 134 (odBump (odSet s 0x2203 (clusterOf pos + 1) (odGet s 0x2203 (clusterOf pos + 1) + 2 ^ maskBit pos)) 0x2200 4 16 1)

/-! ## Domains (R490 to R494) -/

/-- Whether a launch's placement in force has a section of a kind for a unit that passes a test (R520). -/
def launchUnit (l : Launch) (kinds : List Nat) (f : Nat → Bool) : Bool :=
  l.sections.any fun x => x.set == l.set && kinds.contains x.kind && f x.unit

/-- Whether a stream is enabled, as accepted (R366). -/
def anyStream (s : State) : Bool :=
  (List.range 64).any fun k => odGet s (0x6800 + k) 1 == 1 || odGet s (0x6840 + k) 1 == 1 ||
    odForce s (0x6800 + k) 1 == 1 || odForce s (0x6840 + k) 1 == 1

/-- Whether a child of a domain's gate is in use (R491). -/
def domainInUse (s : State) (d : Nat) : Bool :=
  if d < 24 then
    (admittedLaunches s).any (fun l => l.tiles.any (fun t => clusterOf t.1 == d) ||
      launchUnit l [0x12, 0x13] fun p => clusterOf p == d) ||
    allBanks.any fun b => bankCluster b == d && bankDomain b == d && bankOwner s b != 0
  else if 25 ≤ d ∧ d ≤ 42 then
    s.chunks.any (fun p => p.2.st != .free && tileDomain (chunkHome p.1) == d) ||
    s.ports.any (fun p => tileDomain p.1 == d && !p.2.streams.isEmpty) ||
    (admittedLaunches s).any fun l => launchUnit l [0x14] fun p => tileDomain p == d
  else if 43 ≤ d ∧ d ≤ 48 then
    (admittedLaunches s).any (fun l => launchUnit l [0x15] fun p => tileDomain p == d) ||
    (odGet s 0x2600 1 == 2 && odGet s 0x2600 2 == d - 43)
  else if d = 50 then anyStream s
  else false

/-- DomainRequestResult and PWR_DOM_REQ.STATUS are one value (R505, R506). -/
def domResult (st : Nat) (s : State) : State := winPut (odSet s 0x2900 2 st) pwrDom 16 16 st

/-- Whether a request may switch a domain at all (R490): PD_MGMT only by a register write of the management firmware. -/
def domSwitchable (d : Nat) (fw : Bool) : Bool :=
  decide (d ≤ 52) && d != 24 && d != 49 && d != 51 && (d != 52 || fw)

/-- A request that R491 refuses. -/
def domRefuse (s : State) : State := raise 487 (domResult stChildBusy s)

/-- Whether R491 refuses a request. -/
def domRefused (s : State) (d : Nat) (on fw : Bool) : Bool := !domSwitchable d fw || (!on && domainInUse s d)

/-- An accepted request: off moves to DRAINING, on moves to WAKING; an on request with nothing to do completes OK at once (R491 to R493).
R491 says nothing of an off request for a domain that is OFF or DRAINING: it completes OK at once too (DESIGN CHOICE, log entry 81). -/
def domAccept (d : Nat) (on : Bool) (s : State) : State :=
  let st := domainState s d
  if on then
    if st = 0 then domResult 0xFFFF (setDomain { s with plat := { s.plat with domReq := d + 1 } } d 1) else domResult stOk s
  else if st = 0 ∨ st = 3 then domResult stOk s
  else domResult 0xFFFF (setDomain { s with plat := { s.plat with domReq := d + 1 } } d 3)

/-- A write of PWR_DOM_REQ (R506). -/
def domRegWrite (fw : Bool) (data : Nat) (s : State) : State :=
  let s1 := winPut s pwrDom 0 7 (fld data 0 7)
  if !bitOf data 7 then s1
  else if domRefused s (fld data 0 6) (bitOf data 6) fw then domRefuse s1
  else domAccept (fld data 0 6) (bitOf data 6) s1

/-- The entry DomainRequest, for one direction (R505). -/
def domEntry (on : Bool) : OwnEntry where
  covers := fun r => reqAt r 0x2900 1 && bitOf (reqVal r) 8 == on
  rule := fun r t => if domRefused t (reqVal r % 256) on false then abState else 0
  effect := fun r t => domAccept (reqVal r % 256) on t
  refused := fun _ t => domRefuse t

/-- A request in one direction. -/
def domRequest (on : Bool) (r : DomReq) (s : State) : State := match r with
  | .reg p d => if bitOf d.toNat 6 = on then domRegWrite (p != .host) d.toNat s else s
  | .od q => odWriteOwn (domEntry on) q s

/-- DOMAIN_OFF_REQUEST (R491, R492, R494). -/
def execDomainOffRequest (req : DomReq) (s : State) : Result := .next (domRequest false req s)
/-- DOMAIN_ON_REQUEST (R491, R493). -/
def execDomainOnRequest (req : DomReq) (s : State) : Result := .next (domRequest true req s)

/-- The switch of a domain has completed (R492, R493, R507). -/
def domSwitched (d : Nat) (s : State) : State :=
  let s1 := raise 486 (odBump s 0x2900 3 32 1)
  if s1.plat.domReq = d + 1 then domResult stOk { s1 with plat := { s1.plat with domReq := 0 } } else s1

/-- The banks of a domain hold nothing any more (R53, R492). -/
def loseBanks (d : Nat) (s : State) : State :=
  (allBanks.filter fun b => bankDomain b == d).foldl (fun t b =>
    zeroBank b (setBankAux b { bankAux t b with fromOff := true } t)) s

/-- The tiers of a domain hold nothing any more: only a scrubbing assignment reaches its chunks (R493). -/
def loseChunks (d : Nat) (s : State) : State :=
  { s with
    chunks := s.chunks.filter fun p => tileDomain (chunkHome p.1) != d
    leaves := s.leaves.filter fun p => tileDomain (chunkHome p.1) != d }

/-- The Ethernet ports, or a Prolux link, of a domain are down (R492, R493). -/
def portsDown (d : Nat) (s : State) : State :=
  if d = 50 then
    (List.range 8).foldl (fun t p => odSet t (0x1200 + p) 3 0)
      (winSet (winSet s (tileBase 732 + 0xF1000) 0) (tileBase 756 + 0xF1000) 0)
  else if 43 ≤ d ∧ d ≤ 48 then
    [0, 1].foldl (fun t h => winPut t (tileBase (plxTile (d - 43) h) + 0xF1000) 0 7 0)
      (odSet (odSet s (0x2700 + d - 43) 2 0) (0x2700 + d - 43) 3 0)
  else s

/-- A domain is OFF, its contents lost; PD_MGMT sleeps in retention (R492, R494): its banks read as OFF (R53) and keep what they hold
(DEDUCED, log entry 84). -/
def domainLost (d : Nat) (s : State) : State :=
  let s1 := setDomain s d 0
  if d = 52 then s1
  else if 25 ≤ d ∧ d ≤ 42 then loseChunks d s1
  else portsDown d (loseBanks d s1)

/-- DOMAIN_OFF_DONE (R492): what the domain holds has gone to its destinations, and it is OFF. -/
def execDomainOffDone (d : Nat) (s : State) : Result :=
  if 52 < d then .next s
  else if domainState s d ≠ 3 then .next s
  else .next (domSwitched d (domainLost d s))

/-- The banks of a domain that is on again: those declared ON hold zeros (R51, R53). -/
def wakeBanks (d : Nat) (s : State) : State :=
  (allBanks.filter fun b => bankDomain b == d).foldl (fun t b =>
    if fld (winGet t (bankStateAddr b)) (2 * bankNo b) 2 = 3 then setBankAux b { bankAux t b with fromOff := false } t else t) s

/-- A domain is ON (R493): `failed` are the tiles that fail its self-test. -/
def domainUp (d : Nat) (failed : List Nat) (s : State) : State :=
  let s1 := setDomain s d 2
  if d < 24 then (failed.filter fun p => tileDomain p == d).foldl (fun t p => fenceTile p t) (wakeBanks d s1)
  else if d = 52 then wakeBanks d s1
  else s1

/-- DOMAIN_ON_DONE (R493). -/
def execDomainOnDone (d : Nat) (failed : List Nat) (s : State) : Result :=
  if 52 < d then .next s
  else if domainState s d ≠ 1 then .next s
  else .next (domSwitched d (domainUp d failed s))

/-! ## The reset of one tile (R498) -/

/-- What a tile reset clears. -/
def resetTile (pos : Nat) (s : State) : State :=
  let t := clearRegs (kindOf pos) (tileOf s pos)
  let t1 := { t with slots := t.slots.map fun p => (p.1, { p.2 with dry := 0, latch := false }), ready := [] }
  let a := tileBase pos + 0xF2000
  winSet (winSet (winSet (setTile pos t1 { s with agenda := s.agenda.filter fun x => x.c.pos != pos }) a 0) (a + 4) 0) (a + 8) 0

/-- A tile reset, counted in PWR_TILE_RESET (R498, R506). -/
def countedReset (pos : Nat) (s : State) : State := resetTile pos (winBump s pwrTile 16 16 1)

/-- Whether an admitted launch holds a window on a tile. -/
def tileHeld (s : State) (pos : Nat) : Bool := (admittedLaunches s).any fun l => l.tiles.any fun t => t.1 == pos

/-- A write of PWR_TILE_RESET (R498, R506); a position that is no logical M-, V- or S-tile is refused. -/
def tileResetWrite (d : Nat) (s : State) : State :=
  let s0 := if bitOf d 12 then winPut s pwrTile 12 1 0 else s
  let s1 := winPut s0 pwrTile 0 11 (fld d 0 11)
  if !bitOf d 11 then s1
  else
    let pos := fld d 0 11
    if tileHeld s pos ∨ !isLogical s.plat.fuse pos ∨ kindOf pos = .port then winPut s1 pwrTile 12 1 1
    else countedReset pos s1

/-- TILE_RESET (R498). -/
def execTileReset (data : Reg) (s : State) : Result := .next (tileResetWrite data.toNat s)

/-! ## The management watchdog (R394) -/

/-- The Helmet resets the management complex: its cores start again from their first instruction. -/
def resetMgmt (s : State) : State :=
  mgmtTiles.foldl (fun t p => adjTile p (fun u =>
    { clearRegs .s u with ready := [], pc := 0, tc := 0, ended := false, waiti := false, loops := [], recv := none, barw := none }) t) s

/-- A missed kick (R394). -/
def missedKick (s : State) : State :=
  let s1 := winBump (enterSafe 5 s) (tileBase 1116 + 0xF1008) 24 8 1
  resetMgmt { s1 with safety := { s1.safety with lastKick := 0 } }

/-- A write of HLM_KICK (R394). -/
def kickWrite (v : Nat) (s : State) : State :=
  if (v = 0x5A5AA5A5 ∨ v = 0xA5A55A5A) ∧ v ≠ s.safety.lastKick then { s with safety := { s.safety with lastKick := v } }
  else missedKick s

/-- HLM_KICK (R394). -/
def execHlmKick (data : Reg) (s : State) : Result := .next (kickWrite data.toNat s)

end Sys2Proof.Machine
end

