-- ==== Sys2Proof/Machine/Route.lean ====
section
/-! DEFINITION. Routes of VC1 to VC3 (R63 to R65), messages and memory requests on their way (R69, R77, R239, R294), and the windows
that they name. Directions are 0 N, 1 E, 2 S, 3 W; 4 is the router's own tile. -/

namespace Sys2Proof.Machine

/-- The neighbour of a position in a direction. -/
def neighbour (p d : Nat) : Option Nat :=
  match d with
  | 0 => if posRow p = 0 then none else some (p - 48)
  | 1 => if posCol p = 47 then none else some (p + 1)
  | 2 => if posRow p = 31 then none else some (p + 48)
  | _ => if posCol p = 0 then none else some (p - 1)

/-- The input at which a flit sent in a direction arrives. -/
def opposite (d : Nat) : Nat := (d + 2) % 4

/-- Whether a hop crosses the Col. -/
def crossesCol (p d : Nat) : Bool := (d == 1 && posCol p == 23) || (d == 3 && posCol p == 24)

/-- The positions whose routers are on, as a mask (R31). -/
def onMask (f : Fuse) : Nat :=
  (List.range 24).foldl (fun m cl =>
    [Kind.m, .v, .s, .port].foldl (fun m k => (logicalIn f cl k).foldl (fun m p => m ||| 2 ^ p) m) m) 0

/-- The west-first classes: 0 and 2 have gone west only since their class began, 1 and 3 have turned (R63 step 2). -/
def nextClass (q d : Nat) : Option Nat :=
  if d = 3 then (match q with
    | 0 => some 0
    | 1 => some 2
    | 2 => some 2
    | _ => none)
  else some (if q < 2 then 1 else 3)

/-- A partial path: where it stands, its class, and its directions, last first. -/
structure Walk where
  pos : Nat
  cls : Nat
  rev : List Nat
  deriving DecidableEq, Repr

/-- The steps of one walk in the order W, N, S, E, that meet places not yet met. -/
def walkSteps (mask : Nat) (w : Walk) (seen : Nat) : List Walk × Nat :=
  [3, 0, 2, 1].foldl (fun a d =>
    match neighbour w.pos d, nextClass w.cls d with
    | some p, some q =>
      if mask.testBit p && !a.2.testBit (4 * p + q) then (a.1 ++ [⟨p, q, d :: w.rev⟩], a.2 ||| 2 ^ (4 * p + q)) else a
    | _, _ => a) ([], seen)

/-- One more hop of every walk, in order. -/
def walkLayer (mask : Nat) : List Walk → Nat → List Walk × Nat
  | [], seen => ([], seen)
  | w :: l, seen =>
    let (a, s1) := walkSteps mask w seen
    let (b, s2) := walkLayer mask l s1
    (a ++ b, s2)

/-- The first of the shortest allowed paths (R63 steps 3 and 4). -/
def walkTo (mask dst : Nat) : Nat → List Walk → Nat → Option (List Nat)
  | 0, _, _ => none
  | n + 1, ws, seen =>
    match ws.find? fun w => w.pos == dst with
    | some w => some w.rev.reverse
    | none => let (l, s1) := walkLayer mask ws seen; walkTo mask dst n l s1

/-- The route between two positions (R63). -/
def route (f : Fuse) (src dst : Nat) : Option (List Nat) :=
  let m := onMask f
  if !m.testBit src || !m.testBit dst then none else walkTo m dst 6145 [⟨src, 0, []⟩] (2 ^ (4 * src))

/-- A window that a message names: a tile's position, or 0x8000 + a cluster's number for its commons (R239). The position of its
router, its first device address, and the unit that reports a refusal there (R305). -/
structure DestWin where
  pos : Nat
  base : Nat
  deriving DecidableEq, Repr

def destWin (d : Nat) : Option DestWin :=
  if d < 1536 then some ⟨d, tileBase d⟩
  else if 0x8000 ≤ d ∧ d < 0x8018 then some ⟨commonsTile (d - 0x8000), cmnBase (d - 0x8000)⟩
  else none

/-- How many windows of a launch have started at a position. -/
def startsAt (s : State) (pos launch : Nat) : Nat :=
  match (tileOf s pos).slots.find? fun p => p.2.launch == launch with
  | some p => p.2.starts
  | none => 0

/-- The destinations of a word at a place of each window, with the way to each; those that no route reaches are left out. -/
def destsOf (f : Fuse) (src : Nat) (ds : List (DestWin × Nat)) : List (List Nat × Nat × Nat) :=
  ds.filterMap fun d => (route f src d.1.pos).map fun w => (w, d.1.pos, d.1.base + d.2)

/-- The header word of a message (R239). -/
structure MsgHead where
  dest0 : Nat
  dest1 : Nat
  off0 : Nat
  off1 : Nat
  ndata : Nat
  kind : Nat
  bad : Bool
  deriving DecidableEq, Repr

def msgHead (w : Nat) : MsgHead where
  dest0 := fld w 0 16
  dest1 := fld w 16 16
  off0 := fld w 32 32
  off1 := fld w 64 32
  ndata := fld w 96 16
  kind := fld w 112 16
  bad := fld w 128 384 != 0

/-- The windows and offsets that a header names; none where one of them is no window. -/
def MsgHead.dests (h : MsgHead) : List (Option DestWin × Nat) :=
  (if h.dest0 = 0xFFFF then [] else [(destWin h.dest0, h.off0)]) ++
  (if h.dest1 = 0xFFFF then [] else [(destWin h.dest1, h.off1)])

/-- The windows and offsets that exist and are on. -/
def MsgHead.live (h : MsgHead) (f : Fuse) (src : Nat) : List (DestWin × Nat) :=
  h.dests.filterMap fun d => match d.1 with
    | some w => if (route f src w.pos).isSome then some (w, d.2) else none
    | none => none

/-- The destinations that do not exist: each word for them is refused at once (R35, R293, R305). -/
def MsgHead.dead (h : MsgHead) (f : Fuse) (src : Nat) : List (Nat × Nat) :=
  h.dests.filterMap fun d => match d.1 with
    | some w => if (route f src w.pos).isSome then none else some (w.base + d.2, w.pos)
    | none => some (d.2, src)

/-- A memory request as its data word 0 gives it (R294). -/
def memReqOf (s : State) (c : Ctx) (h : MsgHead) (word0 : Nat) : MemReq where
  src := c.pos
  glove := c.glove
  launch := c.launch
  write := h.kind == 2
  addr := fld word0 0 64
  len := if h.kind = 2 then 64 * (h.ndata - 1) else fld word0 64 32
  words := if h.kind = 2 then h.ndata - 1 else 0
  data := []
  dests := h.dests.map fun d => match d.1 with
    | some w => (w.pos, w.base + d.2, startsAt s w.pos c.launch)
    | none => (1536, d.2, 0)
  adds := h.dest0 != 0xFFFF
  bad := if h.kind = 2 then fld word0 64 448 != 0 || h.ndata < 2 || 65 < h.ndata || fld word0 0 6 != 0
    else fld word0 96 416 != 0 || h.ndata != 1 || fld word0 64 6 != 0 || fld word0 64 32 == 0 || 4096 < fld word0 64 32 ||
      fld word0 0 6 != 0

/-- The flits of a message (R77, R239, R294): its header and its data words; of a memory request word 0 is the request itself. -/
def messageFlits (s : State) (c : Ctx) (vc : Nat) (h : MsgHead) (hdrBad : Bool) (words : List (Nat × Nat)) : List VcFlit :=
  let f := s.plat.fuse
  let live := h.live f c.pos
  if h.kind = 0 then
    vcFlit vc c.glove (destsOf f c.pos live) .head hdrBad false ::
      (List.range words.length).zipWith (fun j w =>
        vcFlit vc c.glove (destsOf f c.pos (live.map fun d => (d.1, d.2 + 64 * j))) (.word w.1 none) (hdrBad || w.2 != 0) false) words
  else
    let r := memReqOf s c h ((words.map (·.1)).headD 0)
    let home := chunkHome (chunkOf r.addr)
    let dest := match route f c.pos home with
      | some w => [(w, home, r.addr)]
      | none => []
    vcFlit vc c.glove dest .head hdrBad false :: vcFlit vc c.glove dest (.request r) (hdrBad || (words.headD (0, 0)).2 != 0) false ::
      (words.drop 1).map fun w => vcFlit vc c.glove dest (.store c.pos w.1) (w.2 != 0) false

/-- The unit that detects an access to a window (R305): the tile addressed, or the S-tile of the cluster whose commons it is. -/
def windowUnit (a other : Nat) : Nat :=
  if 0xF00000000000 ≤ a ∧ a < 0xF00060000000 then (a - 0xF00000000000) / 0x100000
  else if 0xF80000000000 ≤ a ∧ a < 0xF80018000000 then commonsTile ((a - 0xF80000000000) / 0x1000000)
  else other

/-- The words of zeros that a refused READ delivers (R293), from a position. -/
def zeroFlits (f : Fuse) (src glove vc n : Nat) (dests : List (Nat × Nat × Nat)) : List VcFlit :=
  (List.range n).map fun j =>
    vcFlit vc glove (dests.filterMap fun d => (route f src d.1).map fun w => (w, d.1, d.2.1 + 64 * j)) (.word 0 none) false true

end Sys2Proof.Machine
end

