-- ==== Sys2Proof/Machine/Host.lean ====
section
/-! DEFINITION. Registers in the windows of tiles and commons as they read and are written (R8, R9, R44, R463, R464, R469), and
accesses of the host, of host DMA and of the mesh to device addresses through port B (R46, R52, R292, R293). -/

namespace Sys2Proof.Machine

/-- The state that a meaning leaves. -/
def after (r : Result) (s : State) : State := match r with
  | .next t => t
  | _ => s

/-! ## Views (R60, R219, R263, R304, R408, R457) -/

/-- BNK_STATE or BNK_CMN_STATE: each bank's state as its domain lets it be (R53, R60). -/
def bankStates (s : State) (bs : List Nat) : Nat := bs.foldl (fun a b => a + bankState s b * 4 ^ bankNo b) 0

/-- HLM_SAFE (R408). -/
def hlmSafe (s : State) : Nat := ofBool (isSafe s) + 6 * ofBool s.safety.outs + 16 * s.safety.causes

/-- RUN (R263). -/
def runView (s : State) (pos : Nat) : Nat :=
  let t := tileOf s pos
  let g := match t.wins[t.lastWin]? with
    | some w => w.glove
    | none => 0
  let dry := t.slots.foldl (fun a p => if p.2.dry = 0 then a else a + 2 ^ p.1) 0
  t.lastWin % 64 + 64 * ofBool t.run.isSome + 128 * ofBool t.clearing + 256 * g + 2 ^ 16 * dry

/-- VT_KEYS (R219). -/
def keysView (s : State) (pos : Nat) : Nat := (tileOf s pos).slots.foldl (fun a p => a + 2 ^ p.1) 0

/-- BNK_MEM_HASH (R304). -/
def hashView (s : State) (pos : Nat) : Nat :=
  let l := s.leaves.filter fun p => chunkHome p.1 == pos
  l.length + 2 ^ 17 * (l.filter fun p => p.2 == .hashing).length

/-- NOC_LINK_STATE (R95): each outgoing link, unusable where a router at one of its ends is off (R65); 0 before the fuse load. -/
def linkView (s : State) (pos : Nat) : Nat :=
  if s.plat.step < 4 then 0
  else (List.range 4).foldl (fun a d => match neighbour pos d with
    | some q =>
      if isLogical s.plat.fuse pos && isLogical s.plat.fuse q then
        a + 16 ^ d * (if crossesCol pos d then odGet s 0x2301 (posRow pos + 1) else 1)
      else a
    | none => a) 0

/-- NOC_ROUTE_CRC (R95): of a route table whose bytes the manual does not lay out, so open; fixed by the map; 0 before the fuse load. -/
def routeCrc (s : State) (pos : Nat) : Nat :=
  if s.plat.step < 4 then 0 else (Config.openResult (2 ^ 18) pos (onMask s.plat.fuse)).toNat % 2 ^ 32

/-- The launches whose frame programs run. -/
def liveLaunches (s : State) : List Launch := (kvals s.launches).filter fun l => l.started && !l.released

/-- The longest plan of a list of launches. -/
def planTc (ls : List Launch) : Nat := ls.foldl (fun n l => max n l.aux.planLen) 0

/-- Whether a launch's slots are in force: it has started and has not released its windows (R23). -/
def launchLive (s : State) (k : Nat) : Bool := match kget s.launches k with
  | some l => l.started && !l.released
  | none => false

/-- Whether a segment covers a plan tc (R71). -/
def segCovers (g : Seg) (tc : Nat) : Bool := decide (g.start ≤ tc) && decide (tc < g.start + g.rep * g.period)

/-- NOC_SEGMENT (R95): in the tail of the frame programs that run the last descriptor, before it the one in use, or that last in use. -/
def segView (s : State) (pos : Nat) : Nat :=
  let gs := (kgetD s.routers pos Router.blank).segs
  let l := planTc (liveLaunches s)
  if 0 < l ∧ l ≤ s.now then 1024 + (gs.length - 1)
  else (List.range gs.length).foldl (fun n i => match gs[i]? with
    | some g => if launchLive s g.1 && decide (g.2.start ≤ s.now) then i else n
    | none => n) 0

/-- The value of a window register as it reads now. -/
def winView (s : State) (a : Nat) : Nat :=
  if 0xF80000000000 ≤ a then
    let cl := (a - 0xF80000000000) / 0x1000000
    if (a - 0xF80000000000) % 0x1000000 = 0xFF0000 then bankStates s ((List.range 16).map (cmnBank cl)) else winGet s a
  else
    let pos := (a - 0xF00000000000) / 0x100000
    let off := (a - 0xF00000000000) % 0x100000
    let port := kindOf pos == .port
    if off = 0xFE000 then linkView s pos
    else if off = 0xFE014 then segView s pos
    else if off = 0xFE01C then routeCrc s pos
    else if off = 0xF0004 ∧ !port then bankStates s ((List.range (bankCount (kindOf pos))).map (tileBank pos))
    else if off = 0xF200C ∧ !port then runView s pos
    else if off = 0xF1010 ∧ kindOf pos = .v then keysView s pos
    else if off = 0xF1008 ∧ isMemPort pos then hashView s pos
    else if off = 0xF1000 ∧ regHome a = tileBase 1116 + 0xF1000 then hlmSafe s
    else if off = 0xF1008 ∧ port then match portFn pos with
      | .plx _ _ => putFld (winGet s a) 24 8 ((kgetD s.plx pos PlxPort.blank).ents.length - 1)
      | _ => winGet s a
    else winGet s a

/-! ## Reads and writes (R8, R463, R464, R469) -/

/-- The low halves of 64-bit counter pairs (R60, R124, R219, R263). -/
def pairLow (a : Nat) : Bool :=
  if 0xF80000000000 ≤ a then (a - 0xF80000000000) % 0x1000000 == 0xFF0010
  else
    let pos := (a - 0xF00000000000) / 0x100000
    let off := (a - 0xF00000000000) % 0x100000
    match kindOf pos with
    | .m => off == 0xF1010 || off == 0xF2010
    | .v => off == 0xF1004 || off == 0xF2010
    | .s => off == 0xF2010
    | .port => false

/-- The place of a pair's snapshot on a path: the host's and the management complex's are apart (R464). -/
def snapKey (p : Path) (a : Nat) : Nat := match p with
  | .host => a
  | .mgmt _ => 2 ^ 48 + a

/-- A 32-bit read of a window register; `clear` where a read has its side effects (R8, R464, R469). -/
def devRead (p : Path) (clear : Bool) (a : Nat) (s : State) : Nat × State :=
  match winSpec a with
  | none => (0, s)
  | some (r, _) =>
    if pairLow a then (winView s a, { s with snap := kput s.snap (snapKey p a) (winGet s (a + 4)) })
    else if 4 ≤ a ∧ pairLow (a - 4) then (kgetD s.snap (snapKey p (a - 4)) 0, s)
    else if regHome a = pwrWake then
      let v := winGet s a
      if v = 0 then (0, s) else (1 + (drawFree s).1.toNat % v, (drawFree s).2)
    else if clear ∧ r.rc ≠ 0 then (winView s a, winSet s a (regCleared r (winGet s a)))
    else (winView s a &&& (2 ^ 32 - 1 - r.wo), s)

/-- The bank whose owner register stands at an address (R347). -/
def ownerBank (a : Nat) : Option Nat :=
  if 0xF80000000000 ≤ a then
    let off := (a - 0xF80000000000) % 0x1000000
    if 0xFF0040 ≤ off ∧ off < 0xFF0080 then some (cmnBank ((a - 0xF80000000000) / 0x1000000) ((off - 0xFF0040) / 4)) else none
  else
    let pos := (a - 0xF00000000000) / 0x100000
    let off := (a - 0xF00000000000) % 0x100000
    if 0xF0010 ≤ off ∧ (off - 0xF0010) / 4 < bankCount (kindOf pos) then some (tileBank pos ((off - 0xF0010) / 4)) else none

/-- A 32-bit write of a window register: one with behaviour of its own has it; others follow their fields (R8, R9). -/
def devWrite (p : Path) (a d : Nat) (s : State) : State :=
  match winSpec a, ownerBank a with
  | none, _ => s
  | some _, some b => after (execBankHandoverRequest b (BitVec.ofNat 32 d) s) s
  | some (r, _), none =>
    let h := regHome a
    let off := (a - 0xF00000000000) % 0x100000
    if h = clkMux then clkMuxWrite d s
    else if h = clkFcnt then fcntWrite d s
    else if h = clkGate then clkGateWrite d s
    else if h = pwrDom then domRegWrite (p != .host) d s
    else if h = pwrTile then tileResetWrite d s
    else if h = tileBase 1116 + 0xF1004 then kickWrite d s
    else if a < 0xF80000000000 ∧ off = 0xF2000 then (if bitOf d 31 then winSet s a 0 else s)
    else winSet s a (regWritten r false (winGet s a) d)

/-- A write of many bytes to a register area: its aligned doublewords that are whole, lowest first. -/
def devWords (p : Path) (a : Nat) (d : List Byte) (s : State) : State :=
  (List.range d.length).foldl (fun t i =>
    if (a + i) % 4 = 0 ∧ i + 4 ≤ d.length then devWrite p (a + i) (leNat ((d.drop i).take 4)) t else t) s

/-- A read of many bytes of a register area, doubleword by doubleword. -/
def devBytes (p : Path) (clear : Bool) : Nat → Nat → State → List Byte × State
  | 0, _, s => ([], s)
  | n + 1, a, s =>
    let (v, s1) := devRead p clear a s
    let (l, s2) := devBytes p clear n (a + 4) s1
    (leBytes 4 v ++ l, s2)

/-! ## Port B (R46, R52, R292) -/

/-- The pieces of a byte range of a bank, word by word: the word, the place in it, the length. -/
def bankPieces (b a n : Nat) : List (Nat × Nat × Nat) :=
  if n = 0 then [] else
  let o := a - bankBase b
  (span (o / 64) ((o + n - 1) / 64 - o / 64 + 1)).map fun w =>
    (w, max o (64 * w) - 64 * w, min (o + n) (64 * w + 64) - max o (64 * w))

/-- What an access through port B returns: its status, and for a read the bytes and whether a lane was uncorrectable. -/
structure PortRes where
  status : Nat
  data : List Byte
  bad : Bool
  deriving DecidableEq, Repr

/-- Read the words of a bank that the check admits. -/
def portWords (g b : Nat) : List (Nat × Nat × Nat) → State → PortRes × State
  | [], s => (⟨stOk, [], false⟩, s)
  | (w, o, n) :: l, s =>
    let (r, s1) := portBAct g b w .read s
    let (x, s2) := portWords g b l s1
    let lanes := (lanesOf o n).any fun i => bitOf r.bad i
    (⟨x.status, ((leBytes 64 r.data).drop o).take n ++ x.data, lanes || x.bad⟩, s2)

/-- A read of a byte range that lies in one bank: checked whole (R293, R351, R52). -/
def portRead (g b a n : Nat) (s : State) : PortRes × State :=
  let (st, s1) := bankCheck g 1 false b a s
  if st ≠ stOk then (⟨st, List.replicate n 0, false⟩, s1)
  else
    let (r, s2) := portWords g b (bankPieces b a n) s1
    (r, if r.bad then raise 141 s2 else s2)

/-- Write the words of a bank that the check admits; a discarded one is told (R47). -/
def portStore (g b : Nat) (d : List Byte) : List (Nat × Nat × Nat) → State → Nat × State
  | [], s => (stOk, s)
  | (w, o, n) :: l, s =>
    let (r, s1) := portBAct g b w (.write o (d.take n)) s
    let (st, s2) := portStore g b (d.drop n) l s1
    (if r.status = stOk then st else r.status, s2)

/-- A write of a byte range that lies in one bank: checked whole. -/
def portWrite (g b a : Nat) (d : List Byte) (s : State) : Nat × State :=
  let (st, s1) := bankCheck g 1 true b a s
  if st ≠ stOk then (st, s1) else portStore g b d (bankPieces b a d.length) s1

/-- An atomic on the lane at an address of a bank (R48): its status, the old lane, whether it was uncorrectable. -/
def portAtomic (g b a : Nat) (swap : Bool) (x : Nat) (s : State) : Nat × Nat × Bool × State :=
  let o := a - bankBase b
  let i := o % 64 / 8
  let op : BOp := if swap then .swap (2 ^ i) (x * 2 ^ (64 * i)) else .add (2 ^ i) (x * 2 ^ (64 * i))
  let (r, s1) := bankAccess 1 g b (o / 64) op s
  (r.status, lane r.data i, bitOf r.bad i, if bitOf r.bad i then raise 141 s1 else s1)

/-- A write through port B to any device address, of one access: `source` and `other` as R293 and R305 name them. Writes nothing
where it is refused. -/
def meshWrite (g a : Nat) (d : List Byte) (source other : Nat) (s : State) : State :=
  match verdict s g a d.length false other with
  | .tier => store a d s
  | .bank b => (portWrite g b a d s).2
  | .regs _ => devWords .host a d s
  | .refused reason unit => reject g a d.length source reason unit s

/-- What a flit brings is written (R277, R293): a word of a memory request that lands in a bank after its due tc is counted (R277,
cause 3). -/
def deliver (pos g a : Nat) (d : List Byte) (source : Nat) (due : Option (Nat × Nat)) (s : State) : State :=
  match verdict s g a d.length false pos, due with
  | .bank b, some (k, n) =>
    let (st, s1) := portWrite g b a d s
    if st = stOk ∧ n < startsAt s1 pos k then ndCount k 3 1 s1 else s1
  | _, _ => meshWrite g a d source pos s

/-- The atomic add that completes a WRITE request, at a bank's lane (R294). -/
def completeWrite (pos g a n : Nat) (s : State) : State :=
  match verdict s g a 8 false pos with
  | .bank b => (portAtomic g b a false n s).2.2.2
  | .regs _ => reject g a 8 2 0 pos s
  | .tier => reject g a 8 2 0 pos s
  | .refused reason unit => reject g a 8 2 reason unit s

/-! ## Words of host DMA (R320) -/

/-- The tile that detects what a host DMA transfer meets outside the tiers: the PCIe port tile at P[12,7] (R305). -/
def dmaTile : Nat := 348

/-- Whether an access reaches its tier now. A transfer that was checked whole is completed, whoever owns its chunks since (R290, R293). -/
def tierOn (s : State) (a : Nat) : Bool := domainOn s (tileDomain (chunkHome (chunkOf a)))

/-- Read a word from the device. -/
def dmaRead (g a n : Nat) (s : State) : PortRes × State :=
  match regionOf s.plat.fuse a with
  | .bank b => portRead g b a n s
  | .regs _ =>
    let (d, s1) := devBytes .host true (n / 4) a s
    (⟨stOk, d, false⟩, s1)
  | .unmapped => (⟨stAccessFault, List.replicate n 0, false⟩, s)
  | _ => if tierOn s a then (⟨stOk, load s a n, eccBad s a n⟩, tierReadChecks g a n s) else (⟨stAccessFault, List.replicate n 0, false⟩, s)

/-- Write a word to the device; in a relaxed glove it counts as a choice taken (R277 cause 2). -/
def dmaWrite (g a : Nat) (d : List Byte) (s : State) : Nat × State :=
  match regionOf s.plat.fuse a with
  | .bank b => portWrite g b a d s
  | .regs _ => (stOk, devWords .host a d s)
  | .unmapped => (stAccessFault, s)
  | _ => if tierOn s a then (stOk, ndHostWrite g a d.length (store a d s)) else (stAccessFault, s)

/-- The first status that is not OK. -/
def firstBad (a b : Nat) : Nat := if a = stOk then b else a

/-- Word j of a burst moves: from the host's bytes, a pattern or the device to the device, or to the bytes that go to the host. -/
def burstWord (o : Op) (j : Nat) (data : List Byte) (status : Nat) (bad : Bool) (s : State) : (List Byte × Nat × Bool) × State :=
  let at_ := o.moved + 64 * j
  let (r, s1) : PortRes × State :=
    if dKind o.bytes = 2 then (⟨stOk, (List.replicate 8 (leBytes 8 (dPattern o.bytes))).flatten, false⟩, s)
    else if dSrcHost o.bytes then (⟨stOk, (data.drop (64 * j)).take 64, false⟩, s)
    else dmaRead o.glove (dSrc o.bytes + at_) 64 s
  let (st, s2) := if dDstHost o.bytes then (stOk, s1) else dmaWrite o.glove (dDst o.bytes + at_) r.data s1
  ((if dDstHost o.bytes then data ++ r.data else data, firstBad status (firstBad r.status st), bad || r.bad), s2)

/-- A burst has moved, its bytes for the host are sent; the last one completes the op (R320, R333, R404). -/
def endBurst (k : Nat) (o : Op) (n : Nat) (data : List Byte) (st : Nat) (bad : Bool) (s : State) : State :=
  let s1 := if dDstHost o.bytes then hostWrite (dDst o.bytes + o.moved) data s else s
  let o1 := { o with moved := o.moved + n, progress := o.progress + n / 64, bad := firstBad o.bad st, eccSeen := o.eccSeen || bad }
  if dLen o.bytes ≤ o1.moved then completeOp k (firstBad o1.bad (if o1.eccSeen then stEcc else stOk)) s1
  else if o.drainReq then completeOp k stDrained s1
  else setOp k o1 s1

/-- The words of a burst that no rule places in tc move at once (log entry 52). -/
def burstWords (o : Op) : Nat → Nat → List Byte → Nat → Bool → State → (List Byte × Nat × Bool) × State
  | 0, _, data, st, bad, s => ((data, st, bad), s)
  | m + 1, j, data, st, bad, s =>
    let ((d, st1, bad1), s1) := burstWord o j data st bad s
    burstWords o m (j + 1) d st1 bad1 s1

end Sys2Proof.Machine
end

