-- ==== Sys2Proof/Machine/MTile.lean ====
section
/-! DEFINITION. The M-tile datapath (R97 to R123, R240 to R242): the lookup-accumulate, loads, rescale and top-k, each as it acts in its
tc, and the statistics adds of converting instructions (R138 to R141). -/

namespace Sys2Proof.Machine

/-! ## Residues and parity (R118, R97) -/

/-- res7 (R118). -/
def res7 (v : Int) : Nat := (v % 7).toNat

/-- The bit that makes the number of ones even. -/
def parityBit (x : Nat) : Nat := (List.range 32).foldl (fun a i => if bitOf x i then 1 - a else a) 0

/-- The parity of a code-array word: one bit per 32 bits (R97). -/
def codeParity (w : Nat) : Nat := (List.range 16).foldl (fun a k => a + parityBit (fld w (32 * k) 32) * 2 ^ k) 0

/-! ## Slots -/

def zeroRows : List Nat := List.replicate 128 0
def accRows (m : MState) (slot : Nat) : List Nat := kgetD m.acc slot zeroRows
def resRows (m : MState) (slot : Nat) : List Nat := kgetD m.res slot zeroRows

def markSlot (slot : Nat) (on : Bool) (m : MState) : MState :=
  { m with slotPoison := if on then slot :: m.slotPoison.filter (· != slot) else m.slotPoison.filter (· != slot) }

/-- Set rows of a slot from `first` on, or add to them modulo 2^64, with their residues (R102, R109, R119). -/
def changeRows (slot first : Nat) (set : Bool) (vals : List Int) (rs : List Nat) (m : MState) : MState :=
  let rows := accRows m slot
  let old := resRows m slot
  let n := vals.length
  let mid := (rows.drop first).take n
  let omid := (old.drop first).take n
  { m with
    acc := kput m.acc slot (rows.take first ++
      (if set then vals.map (unsigned 64) else List.zipWith (fun (a : Nat) (v : Int) => unsigned 64 ((a : Int) + v)) mid vals) ++ rows.drop (first + n))
    res := kput m.res slot (old.take first ++
      (if set then rs.map (· % 7) else List.zipWith (fun a r => (a + r) % 7) omid rs) ++ old.drop (first + n)) }

/-! ## LAC (R100 to R104, R119 to R122, R240) -/

/-- The operands of a LAC. -/
structure Lac where
  src : Nat
  addr : Nat
  n : Nat
  slot : Nat
  set : Bool
  aw : Bool
  cw : Bool
  half : Nat
  cbsel : Nat
  za : Nat
  fwd : Bool
  deriving DecidableEq, Repr

def lacOf (w : Nat) : Lac where
  src := fld w 56 2
  addr := fld w 40 16
  n := fld w 33 7 + 1
  slot := fld w 26 7
  set := bitOf w 25
  aw := bitOf w 24
  cw := bitOf w 23
  half := fld w 22 1
  cbsel := fld w 18 4
  za := fld w 2 16
  fwd := bitOf w 1

/-- Two words make a vector (R103, third row). -/
def Lac.wide (l : Lac) : Bool := !l.cw && l.aw
def Lac.cols (l : Lac) : Nat := if l.cw then 32 else 64

/-- The elements of a vector, from its word or two words (R103). -/
def Lac.elements (l : Lac) (w0 w1 : Nat) : List Nat :=
  if l.wide then (List.range 64).map fun j => fld (if j < 32 then w0 else w1) (16 * (j % 32)) 16
  else if l.cw && l.aw then (List.range 32).map fun j => fld w0 (16 * j) 16
  else if l.cw then (List.range 32).map fun j => fld w0 (8 * (j + 32 * l.half)) 8
  else (List.range 64).map fun j => fld w0 (8 * j) 8

/-- A code-array word (keys 0 to 63) or codebook quarter (64 to 67) as it stands. -/
def codeNow (m : MState) (key : Nat) : OldCode :=
  if key < 64 then ⟨0, key, kgetD m.codes key 0, kgetD m.parity key 0, m.codePoison.contains key⟩
  else ⟨0, key, kgetD m.book (key - 64) 0, kgetD m.bookRes (key - 64) 0, m.bookPoison.contains (key - 64)⟩

/-- The same as it stood in a tc (R101, R105): a load takes effect from its own tc on. -/
def codeAt (m : MState) (key tc : Nat) : OldCode := (m.hist.find? fun x => x.key == key && decide (tc < x.tc)).getD (codeNow m key)

/-- What a column of the array holds for a vector: its code words, the codebook quarters, and the element in front of it. -/
structure Column where
  el : Nat
  codes : List OldCode
  book : List OldCode
  deriving DecidableEq, Repr

/-- The code words of column j (R98). -/
def Lac.codeKeys (l : Lac) (j : Nat) : List Nat := if l.cw then [2 * j, 2 * j + 1] else [j]
/-- The codebook quarters that a LAC uses (R99, R122). -/
def Lac.bookKeys (l : Lac) : List Nat := if l.cw then [64, 65, 66, 67] else [64 + l.cbsel / 4]

/-- The columns as a vector that entered in a tc passes them (R104, R105). -/
def Lac.columns (l : Lac) (m : MState) (entered : Nat) (els : List Nat) : List Column :=
  (List.range els.length).map fun j =>
    ⟨els.getD j 0, (l.codeKeys j).map fun k => codeAt m k (entered + j), l.bookKeys.map fun k => codeAt m k (entered + j)⟩

/-- The code of cell i of a column (R98). -/
def Lac.code (l : Lac) (x : Column) (i : Nat) : Nat :=
  if l.cw then fld ((x.codes.map (·.val)).getD (i / 64) 0) (8 * (i % 64)) 8 else fld ((x.codes.map (·.val)).getD 0 0) (4 * i) 4

/-- The codebook entry that a cell selects, and its residue (R99). -/
def Lac.entry (l : Lac) (x : Column) (i : Nat) : Int × Nat :=
  let k := l.code x i
  let e := if l.cw then k % 64 else 16 * (l.cbsel % 4) + k
  let q : OldCode := (x.book[if l.cw then k / 64 else 0]?).getD ⟨0, 0, 0, 0, false⟩
  (signed 8 (fld q.val (8 * e) 8), fld q.check (3 * e) 3)

/-- The row sum and its residue (R101, R119). -/
def Lac.row (l : Lac) (cols : List Column) (i : Nat) : Int × Nat :=
  cols.foldl (fun a x =>
    let d : Int := (x.el : Int) - (l.za : Int)
    let e := l.entry x i
    (a.1 + d * e.1, (a.2 + res7 d * e.2) % 7)) (0, 0)

/-- A vector's row sums are applied to its slot (R101, R119, R122). -/
def Lac.apply (l : Lac) (b : Nat) (cols : List Column) (poison : Bool) (m : MState) : MState :=
  let sums := (List.range 128).map (l.row cols)
  let slot := (l.slot + b) % 128
  let dirty := poison || cols.any fun x => x.codes.any (·.poison) || x.book.any (·.poison)
  let m1 := changeRows slot 0 l.set (sums.map (·.1)) (sums.map (·.2)) m
  if dirty then markSlot slot true m1 else if l.set then markSlot slot false m1 else m1

/-- The parity bits of a code word that fail. -/
def parityFails (x : OldCode) : Nat := Nat.xor (codeParity x.val) x.check

/-- The parity check of the words that a vector passed: counted once a word, the first of a LAC reported (R121). -/
def parityCheck (c : Ctx) (cols : List Column) (s : State) : State :=
  match (cols.flatMap (·.codes)).filter fun x => parityFails x != 0 with
  | [] => s
  | x :: rest =>
    let bad := x :: rest
    let a := tileBase c.pos + 0xF1008
    let s1 := winPut (winBump (winPut s (tileBase c.pos + 0xF1000) 1 1 1) a 0 16 bad.length) a 16 6 ((bad.getLastD x).key)
    let s2 := setLatch c.pos c.lslot s1
    if (tileOf s c.pos).m.parSaid = c.tc + 1 then s2
    else report c.pos 0x0402 c.pos 0 c.glove (leBytes 1 x.key ++ leBytes 2 (parityFails x))
      (adjTile c.pos (fun t => { t with m := { t.m with parSaid := c.tc + 1 } }) s2)

/-- A vector enters the array and is counted; its row sums come C + 3 tc later (R104, R124). -/
def vectorNow (c : Ctx) (b w0 w1 : Nat) (bad : Bool) (s : State) : State :=
  schedIn c ((lacOf c.word).cols + 3) (.sums b w0 w1 bad s.now) (winCount64 s (tileBase c.pos + 0xF1010) 1)

/-- A vector's row sums are applied. The parity errors it met on its way are counted in the same tc (DESIGN CHOICE, log entry 73). -/
def sumsNow (c : Ctx) (b w0 w1 : Nat) (bad : Bool) (entered : Nat) (s : State) : State :=
  let l := lacOf c.word
  let cols := l.columns (tileOf s c.pos).m entered (l.elements w0 w1)
  adjTile c.pos (fun t => { t with m := l.apply b cols bad t.m }) (parityCheck c cols s)

/-- A combination of SRC, CW and AW that R103 reads (R100). -/
def Lac.formOk (l : Lac) : Bool :=
  if l.src = 1 then !l.cw && l.aw else if l.src = 0 then l.cw || !l.aw else true

/-- The words that a LAC reads from one bank (R100). -/
def Lac.words (l : Lac) : Nat := if l.wide && l.src != 1 then 2 * l.n else l.n

/-- Words of the mesh that a mesh-sourced LAC reads (R104). -/
def Lac.slots (l : Lac) : Nat := if l.wide then 2 * l.n else l.n

/-- The tc after issue at which vector 0 and the last vector enter (R104). -/
def Lac.first (l : Lac) : Nat :=
  match l.src with
  | 2 => if l.wide then 7 else 6
  | 3 => if l.wide then 4 else 3
  | _ => 3
def Lac.last (l : Lac) : Nat := l.first + (if l.wide && l.src != 1 then 2 * (l.n - 1) else l.n - 1)

/-- FWD hands a vector's word `d` tc from now. The TAG of a word that did not come as a flit is not stated: a free value (log entry 9).
In a tc in which two words of a pair are handed, the second of a vector goes ahead of the first of the next (DESIGN CHOICE, log
entry 72). -/
def fwdWord (c : Ctx) (d : Nat) (x : Nat × Nat) (s : State) : State :=
  if (lacOf c.word).fwd then
    let (tag, s1) := drawFree s
    schedIn c d (.hand (mkFlit c (tag.toNat % 4096) false (x.2 != 0) x.1)) s1
  else s

/-- A LAC has read word j: what enters the array from it, and what FWD hands (R103, R104). -/
def lacWord (c : Ctx) (j : Nat) (before : Option (Nat × Nat)) (x y : Nat × Nat) (s : State) : State :=
  let l := lacOf c.word
  if l.src = 1 then
    schedIn c 2 (.vector j x.1 y.1 (x.2 != 0 || y.2 != 0)) (fwdWord c 2 y (fwdWord c 1 x s))
  else
    let lag := if l.src = 2 then 4 else 2
    let s1 := fwdWord c lag x s
    if !l.wide then schedIn c lag (.vector j x.1 0 (x.2 != 0)) s1
    else match before with
      | some p => if j % 2 = 1 then schedIn c lag (.vector (j / 2) p.1 x.1 (p.2 != 0 || x.2 != 0)) s1 else s1
      | none => s1

/-- A mesh-sourced LAC takes the flit of one of its slots (R104); with FWD it hands the word on. A vector of two words of which the
first did not come does not enter (DESIGN CHOICE, log entry 74). -/
def lacTake (rd : MeshRd) (f : Flit) (s : State) : State :=
  let c := rd.c
  let l := lacOf c.word
  let j := s.now - c.tc
  let half := if l.wide && j % 2 == 0 then some f else none
  let s1 := adjTile c.pos (fun t => { t with m := { t.m with meshRd := if l.slots ≤ j + 1 then none else some { rd with half := half } } }) s
  let s2 := if l.fwd then schedIn c 3 (.hand (mkFlit c f.tag false f.poison f.data)) s1 else s1
  if !l.wide then schedIn c 3 (.vector j f.data 0 f.poison) s2
  else match rd.half with
    | some h => if j % 2 = 1 then schedIn c 3 (.vector (j / 2) h.data f.data (h.poison || f.poison)) s2 else s2
    | none => s2

/-- Whether a plan tc is a slot of a mesh-sourced LAC (R104). -/
def meshWants (rd : MeshRd) (tc : Nat) : Bool := decide (rd.c.tc ≤ tc) && decide (tc < rd.c.tc + (lacOf rd.c.word).slots)

/-! ## LDC (R97, R99, R105, R109, R241) -/

/-- What stood at a key before a load, for the vectors that have yet to pass. -/
def remember (now key : Nat) (m : MState) : MState :=
  { m with hist := (m.hist.filter fun x => decide (now < x.tc + 128)) ++ [{ codeNow m key with tc := now }] }

/-- A word enters the code array (R97, R105, R122). -/
def loadCode (w x : Nat) (bad : Bool) (m : MState) : MState :=
  { m with
    codes := kput m.codes w x
    parity := kput m.parity w (codeParity x)
    codePoison := if bad then w :: m.codePoison.filter (· != w) else m.codePoison.filter (· != w) }

/-- A word enters a codebook quarter (R99, R122). -/
def loadBook (q x : Nat) (bad : Bool) (m : MState) : MState :=
  { m with
    book := kput m.book q x
    bookRes := kput m.bookRes q ((List.range 64).foldl (fun a e => a + res7 (signed 8 (fld x (8 * e) 8)) * 2 ^ (3 * e)) 0)
    bookPoison := if bad then q :: m.bookPoison.filter (· != q) else m.bookPoison.filter (· != q) }

/-- A word of a RAW64 field enters eight rows of a slot (R109); `all` where it is the last of sixteen clean ones. -/
def loadRows (slot j x : Nat) (set bad all : Bool) (m : MState) : MState :=
  let vals := (List.range 8).map fun i => signed 64 (lane x i)
  let m1 := changeRows slot (8 * j) set vals (vals.map res7) m
  if bad then markSlot slot true m1 else if set && all then markSlot slot false m1 else m1

/-- Words of an LDC (R105). -/
def ldcWords (kind : Nat) : Nat := match kind with
  | 0 => 64
  | 1 => 1
  | _ => 16

/-- Word j of an LDC takes effect (R105). -/
def loadNow (c : Ctx) (j x : Nat) (bad all : Bool) (s : State) : State :=
  adjTile c.pos (fun t => { t with m := match c.f 38 2 with
    | 0 => loadCode j x bad (remember s.now j t.m)
    | 1 => loadBook (c.f 36 2) x bad (remember s.now (64 + c.f 36 2) t.m)
    | _ => loadRows (c.f 29 7) j x (bitOf c.word 28) bad all t.m }) s

/-! ## Rescale (R110 to R114, R120, R122) -/

/-- A rescale descriptor (R110). -/
structure Rescale where
  m : Nat
  sh : Nat
  fmt : Nat
  zo : Int
  tag : Nat
  bad : Bool
  deriving DecidableEq, Repr

def rescaleOf (d : Nat) : Rescale where
  m := fld d 0 32
  sh := fld d 32 6
  fmt := fld d 40 3
  zo := signed 32 (fld d 64 32)
  tag := fld d 112 16
  bad := decide (5 ≤ fld d 40 3) || fld d 38 2 != 0 || fld d 43 21 != 0 || fld d 96 16 != 0

/-- Shift right toward zero. -/
def shiftToZero (p : Int) (sh : Nat) : Int := if 0 ≤ p then p / 2 ^ sh else -((-p) / 2 ^ sh)

def fmtLo (f : Nat) : Int := match f with
  | 0 => 0 | 1 => 0 | 2 => -32768 | _ => -2147483648
def fmtHi (f : Nat) : Int := match f with
  | 0 => 255 | 1 => 65535 | 2 => 32767 | _ => 2147483647

/-- The output of one row, and whether it was clipped (R111). -/
def rescaleRow (r : Rescale) (fmt : Nat) (v : Int) : Int × Bool :=
  if fmt = 4 then (v, false)
  else
    let x := shiftToZero (v * r.m) r.sh + r.zo
    if x < fmtLo fmt then (fmtLo fmt, true) else if fmtHi fmt < x then (fmtHi fmt, true) else (x, false)

/-- Bits of an output row (R113). -/
def fmtBits (f : Nat) : Nat := match f with
  | 0 => 8 | 1 => 16 | 2 => 16 | 3 => 32 | _ => 64

/-- Row i of a slot and its tracked residue. -/
def rowOf (m : MState) (slot i : Nat) : Int × Nat := (signed 64 ((accRows m slot).getD i 0), (resRows m slot).getD i 0)

/-- The residue check of rows of a slot as they are read: flag, count, the first mismatch of an instruction reported (R120). -/
def residueCheck (c : Ctx) (topk said : Bool) (slot : Nat) (rows : List Nat) (s : State) : Bool × State :=
  let m := (tileOf s c.pos).m
  match rows.filter fun i => res7 (rowOf m slot i).1 != (rowOf m slot i).2 with
  | [] => (said, s)
  | i :: rest =>
    let bad := i :: rest
    let a := tileBase c.pos + 0xF1004
    let s1 := winPut (winPut (winBump (winPut s (tileBase c.pos + 0xF1000) 0 1 1) a 0 16 bad.length) a 16 7 slot) a 23 7 (bad.getLastD i)
    let s2 := setLatch c.pos c.lslot s1
    if said then (true, s2)
    else (true, report c.pos 0x0401 c.pos 0 c.glove
      (leBytes 1 slot ++ leBytes 1 i ++ leBytes 1 (res7 (rowOf m slot i).1) ++ leBytes 1 (rowOf m slot i).2 ++ leBytes 1 (ofBool topk)) s2)

/-- The statistics bank and row count of a launch slot (R138). -/
def statBankOf (s : State) (c : Ctx) : Option Nat × Nat := ((lslotOf s c).statBank, (lslotOf s c).statRows)

/-- A tag that collects nothing, or lies below the launch's row count (R139). -/
def tagOk (s : State) (c : Ctx) (tag : Nat) : Bool := tag == 0xFFFF || decide (tag < (statBankOf s c).2)

/-- A record is added to its statistics row (R138, R140): issued in a tc through the crossbar in the bank's cluster, and elsewhere handed
to the router, for the slot plan to carry under the tensor tag as its TAG, poisoned in a dry run, which adds nothing and leaves no hole in
the plan (R259; DESIGN CHOICE, log entry 75). -/
def statAt (c : Ctx) (tc tag : Nat) (lanes : List Nat) (s : State) : State :=
  match (statBankOf s c).1 with
  | none => s
  | some b =>
    let x := ofLanes fun i => lanes.getD i 0
    if tag = 0xFFFF then s
    else if bankCluster b = clusterOf c.pos then (if c.dry ≠ 0 then s else schedAt c (tc + 2) (.stat b tag x) s)
    else schedAt c tc (.hand ⟨c.glove, tag % 4096, c.dry != 0, false, x, true⟩) s

/-- Slots of an RSC or TOPK (R112). -/
def slotCount (c : Ctx) : Nat := c.f 44 7 + 1
def slotNo (c : Ctx) (u : Nat) : Nat := (c.f 51 7 + u) % 128

/-- The output words of rows in order (R113): eight or more rows to a word. -/
def packRows (fmt : Nat) (l : List Int) : Nat :=
  let w := fmtBits fmt
  (List.range l.length).foldl (fun a i => a + unsigned w (l.getD i 0) * 2 ^ (w * i)) 0

/-- The saturated rows are counted (R111, R124). -/
def countSat (pos n : Nat) (s : State) : State := winBump s (tileBase pos + 0xF100C) 0 32 n

/-! ## Top-k (R115 to R117) -/

/-- Whether one 64-bit entry precedes another: key descending, then position ascending (R83, R116). -/
def precedes (a b : Nat) : Bool :=
  let ka := signed 32 (fld a 32 32)
  let kb := signed 32 (fld b 32 32)
  decide (kb < ka) || (decide (ka = kb) && decide (fld a 0 32 < fld b 0 32))

def unusedEntry : Nat := 0x80000000FFFFFFFF

/-- The output list of TOPK: the first k candidates in order, then unused entries (R116). Where K is above the number of candidates,
the entries past the last candidate are unused ones too (DESIGN CHOICE, log entry 76). -/
def topkList (k : Nat) (cands : List Nat) : List Nat :=
  let n := 8 * ((k + 7) / 8)
  let best := (sortBy (fun a b => !precedes b a) cands).take k
  best ++ List.replicate (n - best.length) unusedEntry

/-- Eight entries a word. -/
def entryWords (l : List Nat) : List Nat := (chunksOf 64 8 l).map fun g => ofLanes fun i => g.getD i 0

/-- Output words of a TOPK. -/
def topkWords (c : Ctx) : Nat := (c.f 35 8 + 8) / 8

/-- The candidates of a TOPK from its rows' keys (R115). -/
def keyEntries (d1 : Nat) (keys : List Int) : List Nat :=
  (List.range keys.length).map fun i => unsigned 32 (keys.getD i 0) * 2 ^ 32 + (fld d1 0 32 + i) % 2 ^ 32

/-- An output word goes to its bank, or to the router with SEND, `d` tc from now. -/
def putOut (c : Ctx) (d b w tag x : Nat) (s : State) : State :=
  if bitOf c.word 43 then schedIn c d (.hand (mkFlit c tag false false x)) s
  else schedIn c d (.store b w (.write 0 (leBytes 64 x))) s

/-- The list of a TOPK goes out, 12 tc after its last read (R117), and then its record (R140). -/
def topkOut (c : Ctx) (d0 d1 sat : Nat) (cands : List Nat) (s : State) : State :=
  let ws := entryWords (topkList (c.f 35 8 + 1) cands)
  let (b, w) := addrBank c.pos false (fld d1 48 16)
  let s1 := (List.range ws.length).foldl (fun t j => putOut c (12 + j) b (w + j) (c.f 18 12) (ws.getD j 0) t) s
  statAt c (s.now + 12 + ws.length) (rescaleOf d0).tag [0, 0, 0, 128 * slotCount c, sat, 0] s1

/-! ## Row reads (R114, R117, R120, R122) -/

def isTopk (c : Ctx) : Bool := c.f 58 6 == 0x13

/-- Rows read in one tc (R114). -/
def rowsPerTc (fmt : Nat) : Nat := if fmt = 4 then 8 else 16

/-- The format of an instruction's outputs: TOPK takes S32 (R115). -/
def outFmt (c : Ctx) (d0 : Nat) : Nat := if isTopk c then 3 else (rescaleOf d0).fmt

/-- Where output word k of slot u goes (R113): every other word of a pair to the other bank. -/
def rscPlace (c : Ctx) (fmt u k : Nat) : Nat × Nat :=
  let (b, w) := addrBank c.pos false (c.f 27 16)
  if fmt = 1 ∨ fmt = 2 then (4 * c.pos + Nat.xor (b % 4) (k % 2), w + 2 * u + k / 2) else (b, w + fmtBits fmt / 4 * u + k)

/-- An RSC or TOPK reads a group of rows in its tc: poison at a slot's first group, the residue check, the outputs; a word is written or
handed 4 tc after its last row (R114), and the last group leads on to the list or the record. -/
def rowsNow (c : Ctx) (r : RowsSt) (s : State) : State :=
  let m := (tileOf s c.pos).m
  let fmt := outFmt c r.d0
  let per := rowsPerTc fmt
  let u := r.k * per / 128
  let i0 := r.k * per % 128
  let slot := slotNo c u
  let poisoned := i0 == 0 && m.slotPoison.contains slot
  let s0 := if poisoned then winPut s (tileBase c.pos + 0xF1000) 2 1 1 else s
  if poisoned ∧ dryNow s c = 0 then schedIn c 0 (.exc excPoison) s0
  else
    let rows := span i0 per
    let (said, s1) := residueCheck c (isTopk c) r.said slot rows s0
    let res := rows.map fun i => rescaleRow (rescaleOf r.d0) fmt (rowOf m slot i).1
    let sat := res.countP (·.2)
    let outs := r.outs ++ res.map (·.1)
    let s2 := if sat = 0 then s1 else countSat c.pos sat s1
    let word := 512 / fmtBits fmt
    let done := !isTopk c && decide (word ≤ outs.length)
    let (b, w) := rscPlace c fmt u ((i0 + per - 1) / word)
    let s3 := if done then putOut c 4 b w (c.f 11 12) (packRows fmt outs) s2 else s2
    let r1 : RowsSt := { r with k := r.k + 1, outs := if done then [] else outs, sat := r.sat + sat, said := said }
    if r1.k * per < 128 * slotCount c then schedIn c 1 (.rows r1) s3
    else if !isTopk c then statAt c (s.now + 5) (rescaleOf r.d0).tag [0, 0, 0, 128 * slotCount c, r1.sat, 0] s3
    else if bitOf c.word 34 then
      let (lb, lw) := addrBank c.pos false (fld r.d1 32 16)
      schedIn c 1 (.read lb lw 0 ((keyEntries r.d1 outs).map fun e => (e, 0)) (r.d1 % 2 ^ 128 + 2 ^ 128 * (r.d0 % 2 ^ 128) + 2 ^ 256 * r1.sat)) s3
    else topkOut c r.d0 r.d1 r1.sat (keyEntries r.d1 outs) s3

end Sys2Proof.Machine
end

