-- ==== Sys2Proof/Machine/Steppe.lean ====
section
/-! DEFINITION. The arithmetic of annealing and sampling: Steppe (R189 to R191), near-Gaussian noise (R156, R198), the look-up functions
(R199, R200), the continuous step (R154), the discrete updates (R162), groups (R177 to R181) and the categorical draw (R203). -/

namespace Sys2Proof.Machine

/-! ## Rounding and saturation -/

/-- Rounding toward zero after a right shift: tz and tz128 (R154, R162). -/
def tz (v : Int) (k : Nat) : Int := if 0 ≤ v then v / 2 ^ k else -((-v) / 2 ^ k)

/-- Clamp to the i32 range (R162). -/
def sat32 (v : Int) : Int := clampInt (-2147483648) 2147483647 v

/-! ## Steppe (R189 to R191) -/

def w32 (x : Nat) : Nat := x % 2 ^ 32
def rotl (x n : Nat) : Nat := w32 (x <<< n) ||| (w32 x >>> (32 - n))

/-- The four words of a counter (R189). -/
def counter (element replica step tag stream : Nat) : List Nat :=
  [element % 2 ^ 32, (element / 2 ^ 32 % 2 ^ 16) * 2 ^ 16 + replica % 2 ^ 16, step % 2 ^ 32, (tag % 256) * 2 ^ 24 + stream % 2 ^ 24]

/-- The rotation amounts of a round (R191). -/
def rotA (i : Nat) : Nat := [16, 12, 8, 7].getD (i % 4) 0
def rotB (i : Nat) : Nat := [13, 9, 17, 5].getD (i % 4) 0

/-- One round (R191). -/
def steppeRound (k0 k1 i : Nat) (v : Nat × Nat × Nat × Nat) : Nat × Nat × Nat × Nat :=
  let a := w32 (v.1 + v.2.1)
  let d := rotl (Nat.xor v.2.2.2 a) (rotA i)
  let c := w32 (v.2.2.1 + d)
  let b := rotl (Nat.xor v.2.1 c) (rotB i)
  (w32 (a + k0), b, Nat.xor c (w32 (k1 + i * 0x6C8E9CF5)), d)

/-- The four words of a draw (R191). -/
def steppe (c : List Nat) (seed : Nat) : List Nat :=
  let r := (List.range 8).foldl (fun v i => steppeRound (seed % 2 ^ 32) (seed / 2 ^ 32 % 2 ^ 32) i v)
    (c.getD 0 0, c.getD 1 0, c.getD 2 0, c.getD 3 0)
  [r.1, r.2.1, r.2.2.1, r.2.2.2]

/-- Word 0 of a draw. -/
def draw0 (element replica step tag stream seed : Nat) : Nat := (steppe (counter element replica step tag stream) seed).headD 0

/-- Near-Gaussian noise from the words of a draw (R156, R198). -/
def noiseOf (v : List Nat) : Int := tz ((v.foldl (fun (a : Int) x => a + ((x % 65536 : Nat) : Int)) 0 - 131070) * 28378) 16

/-! ## Look-up tables (R199, R200), formed from their definitions in fixed point with 192 fractional bits -/

/-- exp(-1/64): the alternating series, its terms falling below the last bit. -/
def expSeries : Nat → Nat → Nat → Nat
  | 0, _, _ => 0
  | n + 1, i, term => term - expSeries n (i + 1) (term / (64 * i))

def expBase : Nat := expSeries 40 1 (2 ^ 192)

/-- exp(-k/64) for k below 4096: the product of the squares named by the bits of k. -/
def expFix (k : Nat) : Nat :=
  ((List.range 12).foldl (fun a i =>
    (if bitOf k i then a.1 * a.2 / 2 ^ 192 else a.1, a.2 * a.2 / 2 ^ 192)) (2 ^ 192, expBase)).1

/-- E[k]. -/
def expTable (k : Nat) : Nat := min 0xFFFFFFFF ((expFix k + 2 ^ 159) / 2 ^ 160)
/-- L[k]. -/
def logisticTable (k : Nat) : Nat :=
  let d := 2 ^ 192 + expFix k
  min 0xFFFFFFFF ((2 ^ 225 + d) / (2 * d))

/-- exp_lut over the entries that a ROM reads as (R199, R201). -/
def expLutBy (e : Nat → Nat) (z : Int) : Nat :=
  if 0 ≤ z then 0xFFFFFFFF
  else
    let t := (-z).toNat
    let k := t / 1024
    if 2048 ≤ k then 0
    else
      let d : Int := (((e k : Int) - e (k + 1)) % 2 ^ 64) * (t % 1024 : Nat) % 2 ^ 64
      (((e k : Int) - d / 1024) % 2 ^ 32).toNat

/-- exp_lut (R199). -/
def expLut (z : Int) : Nat := expLutBy expTable z

/-- lpos of R200 over the entries that a ROM reads as. -/
def lposBy (e : Nat → Nat) (t : Nat) : Nat :=
  let k := t / 1024
  if 2048 ≤ k then 0xFFFFFFFF
  else
    let d : Int := (((e (k + 1) : Int) - e k) % 2 ^ 64) * (t % 1024 : Nat) % 2 ^ 64
    (((e k : Int) + d / 1024) % 2 ^ 32).toNat

/-- logistic_lut over the entries that a ROM reads as (R200, R201). -/
def logisticLutBy (e : Nat → Nat) (z : Int) : Nat :=
  if 0 ≤ z then lposBy e z.toNat else (2 ^ 32 - lposBy e (-z).toNat) % 2 ^ 32

/-- logistic_lut (R200). -/
def logisticLut (z : Int) : Nat := logisticLutBy logisticTable z

/-- The entries that a look-up at a distance t from zero reads; none beyond the table. -/
def tableReads (t : Nat) : List Nat := if 2048 ≤ t / 1024 then [] else [t / 1024, t / 1024 + 1]

/-- The entries that exp_lut reads. -/
def expReads (z : Int) : List Nat := if 0 ≤ z then [] else tableReads (-z).toNat

/-! ## The steps of an anneal -/

/-- What a continuous step makes of one variable: its new x and y, and whether y saturated, a wall was met, the sign changed. -/
structure StepOut where
  x : Int
  y : Int
  ysat : Bool
  wall : Bool
  chg : Bool
  deriving DecidableEq, Repr

/-- The step of R154. -/
def contStep (dt a0 c0 at_ sg : Nat) (x y h xi : Int) : StepOut :=
  let f := -(((a0 : Int) - at_) * x * 4) + c0 * h
  let y0 := y + tz (dt * tz f 14) 12 + tz (sg * xi) 12
  let y1 := clampInt (-32768) 32767 y0
  let x0 := x + tz ((dt : Int) * a0 * y1) 24
  let x1 := clampInt (-16384) 16384 x0
  ⟨x1, if x1 = x0 then y1 else 0, y1 != y0, x1 != x0, decide (0 ≤ x1) != decide (0 ≤ x)⟩

/-- The argument of a Metropolis test (R162). -/
def metroArg (beta es : Nat) (sp e : Int) : Int := sat32 (tz (beta * (sp * e)) es)
/-- The argument of a heat-bath draw (R162). -/
def heatArg (beta es : Nat) (e : Int) : Int := sat32 (tz (beta * e) es)

/-- The Metropolis update of a spin by an exp_lut (R162). -/
def metropolisBy (lut : Int → Nat) (beta es : Nat) (sp e : Int) (u : Nat) : Int :=
  let z := metroArg beta es sp e
  if z ≤ 0 ∨ u < lut (-z) then -sp else sp

/-- The heat-bath update of a spin by a logistic_lut (R162). -/
def heatBathBy (lut : Int → Nat) (beta es : Nat) (e : Int) (u : Nat) : Int := if u < lut (heatArg beta es e) then 1 else -1

/-- The pairs of a group of n members at a step (R177), each with the lower member first; pairs with the phantom are left out. -/
def groupPairs (n step : Nat) : List (Nat × Nat) :=
  let np := n + n % 2
  let rho := step % (np - 1)
  let all := (np - 1, rho) :: (span 1 (np / 2 - 1)).map fun k => ((rho + k) % (np - 1), (rho + np - 1 - k) % (np - 1))
  (all.filter fun p => p.1 != n && p.2 != n).map fun p => (min p.1 p.2, max p.1 p.2)

/-- The transfer between the members of a pair, and how often it was clamped (R178): the second test sees what the first left. -/
def pairDelta (dt c0 : Nat) (xp xq hp hq : Int) : Int × Nat :=
  let del := tz (dt * tz (c0 * (hp - hq)) 14) 13
  let up := min (16384 - xp) xq
  let (d1, n1) := if 0 < del ∧ up < del then (up, 1) else (del, 0)
  let down := min xp (16384 - xq)
  if d1 < 0 ∧ down < -d1 then (-down, n1 + 1) else (d1, n1)

/-- The member that a group rounds to, and whether it was a tie (R181). -/
def argmax (l : List Int) : Nat × Bool :=
  let top := l.foldl max (l.headD 0)
  (l.findIdx (· == top), decide (1 < l.countP (· == top)))

/-! ## The categorical draw (R203) -/

/-- A candidate: its key and its position. -/
abbrev Cand := Int × Nat

/-- Whether one candidate stands at or before another in the order of R203. -/
def candLe (a b : Cand) : Bool := decide (b.1 < a.1) || (decide (a.1 = b.1) && decide (a.2 ≤ b.2))

/-- The index of the first cumulative weight that a test accepts, with what came before it. -/
def cumFind (p : Nat → Bool) : List Nat → Nat → Nat → Option Nat
  | [], _, _ => none
  | w :: l, c, j => if p (c + w) then some j else cumFind p l (c + w) (j + 1)

/-- The argument of a candidate's weight (R203). -/
def catsArg (top : Cand) (temp : Nat) (c : Cand) : Int := clampInt (-2147483648) 2147483647 (((c.1 - top.1) * 4096).tdiv temp)

/-- The ROM entries that a selection reads. -/
def catsReads (cands : List Cand) (kk temp : Nat) : List Nat :=
  let sorted := (sortBy candLe cands).take kk
  match sorted with
  | [] => []
  | top :: _ => if temp = 0 then [] else sorted.flatMap fun c => expReads (catsArg top temp c)

/-- The selection by an exp_lut: the candidate, the number kept, and its rank; none where no entry is a candidate (R203, R205). -/
def catsSelect (lut : Int → Nat) (cands : List Cand) (kk temp topp u : Nat) : Option (Cand × Nat × Nat) :=
  let sorted := (sortBy candLe cands).take kk
  match sorted with
  | [] => none
  | top :: _ =>
    if temp = 0 then some (top, 1, 0)
    else
      let ws := sorted.map fun c => lut (catsArg top temp c)
      let tot := ws.foldl (· + ·) 0
      let kept := if topp = 0 then sorted.length else match cumFind (fun c => decide (topp * tot ≤ c * 2 ^ 32)) ws 0 0 with
        | some j => j + 1
        | none => sorted.length
      let kt := (ws.take kept).foldl (· + ·) 0
      let target := u * kt / 2 ^ 32
      let sel := (cumFind (fun c => decide (target < c)) (ws.take kept) 0 0).getD 0
      some (sorted.getD sel top, kept, sel)

end Sys2Proof.Machine
end

