-- ==== Sys2Proof/Machine/VTile.lean ====
section
/-! DEFINITION. The V-tile datapath (R243 to R248): what vector operations, look-ups, draws, dynamics, groups, the categorical sampler
and the mapping to codes (R133 to R137) give, as registers that land in their tc. -/

namespace Sys2Proof.Machine

/-! ## Lanes -/

/-- Whether MASK enables a lane (R244). -/
def laneOn (mask l : Nat) : Bool := bitOf mask (l / 32)

/-- Enabled lanes. -/
def lanesOn (mask : Nat) : List Nat := (List.range 256).filter (laneOn mask)

/-- A register lands under a mask: poison where an operand is poisoned; a whole clean write clears it (R243, R256). -/
def vxLand (i mask : Nat) (new : List Nat) (poison : Bool) : Landing :=
  .lanes i ((lanesOn mask).map fun l => (l, w32 (new.getD l 0))) (if poison then some true else if mask = 255 then some false else none)

/-- A u64 lands in lanes 0 and 1 (R244). -/
def pairLand (i v : Nat) : Landing := .lanes i [(0, fld v 0 32), (1, fld v 32 32)] none

/-- The signed value of a lane. -/
def sl (l : List Nat) (i : Nat) : Int := signed 32 (l.getD i 0)

/-- FL bits of lanes. -/
def flLanes (ls : List Nat) : Landing := .flOr (ls.foldl (fun f l => f ||| 2 ^ l) 0)

/-- The fields of a draw descriptor (R243). -/
structure Draw where
  base : Nat
  replica : Nat
  step : Nat
  tag : Nat
  stream : Nat
  deriving DecidableEq, Repr

def drawBits (x : Nat) : Draw := ⟨fld x 0 48, fld x 48 16, fld x 64 32, fld x 96 8, fld x 104 24⟩
def drawOf (t : Tile) (dd : Nat) : Draw := drawBits (pmGet t (8 + dd))

/-- The seed of the launch that owns the window (R188). -/
def seedOf (t : Tile) (c : Ctx) : Nat := (kgetD t.slots c.lslot SlotSt.blank).seed

/-- The four words of a draw at an element offset. -/
def Draw.at (d : Draw) (seed l : Nat) : List Nat := steppe (counter (d.base + l) d.replica d.step d.tag d.stream) seed

/-- Steppe evaluations are counted (R219), and are progress outside a dry run. -/
def countDraws (c : Ctx) (n : Nat) (s : State) : State := winCount64 s (tileBase c.pos + 0xF1004) n

/-- VT_SFAULT (R219): bit 1 CATS_EMPTY, bit 2 POISON. -/
def vtFault (c : Ctx) (bit : Nat) (s : State) : State := winPut s (tileBase c.pos + 0xF1000) bit 1 1

/-! ## The look-up ROMs (R199 to R201) -/

/-- The place of a ROM word: the tile, the table (true the logistic one) and the entry. -/
def romKey (pos : Nat) (lg : Bool) (k : Nat) : Nat := 8192 * pos + 4096 * ofBool lg + k
/-- What a ROM word reads as: its table's entry where it is as made. -/
def romWord (s : State) (pos : Nat) (lg : Bool) (k : Nat) : Nat := match kget s.rom (romKey pos lg k) with
  | some w => w.val
  | none => if lg then logisticTable k else expTable k
/-- Whether the parity of a ROM word fails. -/
def romFails (s : State) (pos : Nat) (lg : Bool) (k : Nat) : Bool := match kget s.rom (romKey pos lg k) with
  | some w => w.fails
  | none => false

/-- exp_lut and logistic_lut as a tile's units compute them. -/
def tileExp (s : State) (pos : Nat) (z : Int) : Nat := expLutBy (romWord s pos false) z
def tileLogistic (s : State) (pos : Nat) (z : Int) : Nat := logisticLutBy (romWord s pos true) z

/-- The parity check of the words that an instruction reads: the flag, the check latch, and one record for the first word that fails;
which unit read it is not stated (R201, R218, R397, log entry 30). -/
def romCheck (c : Ctx) (lg : Bool) (reads : List Nat) (s : State) : State :=
  match reads.find? (romFails s c.pos lg) with
  | none => s
  | some k =>
    let (unit, s1) := drawFree (setLatch c.pos c.lslot (vtFault c 0 s))
    report c.pos 0x0501 c.pos (ofBool lg) c.glove (leBytes 2 k ++ leBytes 1 (unit.toNat % 16)) s1

/-! ## VOP (R245) -/

/-- The lane result of a VOP function that writes VXd lane by lane; `l` is the lane, `va` the whole register a. -/
def vopLane (fn imm : Nat) (va : List Nat) (a b : Nat) : Nat :=
  let ia := signed 32 a
  let ib := signed 32 b
  let sh := imm % 32
  match fn with
  | 0 => w32 (a + b)
  | 1 => unsigned 32 (ia - ib)
  | 2 => w32 (a + imm)
  | 3 => w32 (a * b)
  | 4 => unsigned 32 (sat32 (tz (ia * ib) (imm % 64)))
  | 5 => Nat.land a b
  | 6 => Nat.lor a b
  | 7 => Nat.xor a b
  | 8 => w32 (a <<< sh)
  | 9 => a >>> sh
  | 10 => unsigned 32 (ia / 2 ^ sh)
  | 11 => unsigned 32 (tz ia sh)
  | 12 => unsigned 32 (min ia ib)
  | 13 => unsigned 32 (max ia ib)
  | 14 => ofBool (decide (ia < ib))
  | 15 => ofBool (a == b)
  | 16 => imm
  | _ => va.getD (imm % 256) 0

/-- Which operands a function reads: a, b. -/
def vopReads (fn : Nat) : Bool × Bool :=
  (fn != 16 && fn != 20 && fn != 21, [0, 1, 3, 4, 5, 6, 7, 12, 13, 14, 15].contains fn)

/-- What a VOP lands (R245). -/
def vopLand (c : Ctx) (u : Tile) : List Landing :=
  let fn := c.f 52 6
  let imm := c.f 8 32
  let mask := c.f 0 8
  let va := vxGet u (c.f 44 4)
  let vb := vxGet u (c.f 40 4)
  let d := c.f 48 4
  let poison := ((vopReads fn).1 && vxPoison u (c.f 44 4)) || ((vopReads fn).2 && vxPoison u (c.f 40 4))
  match fn with
  | 17 => [flLanes ((lanesOn mask).filter fun l => va.getD l 0 != 0)]
  | 19 => [.gm ((lanesOn mask).foldl (fun g l => g + 2 ^ l) 0)
      (((lanesOn mask).filter fun l => va.getD l 0 != 0).foldl (fun g l => g + 2 ^ l) 0)]
  | 20 => if laneOn mask 0 then [pairLand d (u.v.ev.getD (imm % 4) 0)] else []
  | 21 => [.evClear (imm % 4)]
  | _ => [vxLand d mask ((List.range 256).map fun l => vopLane fn imm va (va.getD l 0) (vb.getD l 0)) poison]

/-- What a VLUT lands, and the ROM words it reads (R199, R200, R244). -/
def vlutLand (c : Ctx) (s : State) : List Landing :=
  let u := tileOf s c.pos
  let va := vxGet u (c.f 44 4)
  let f (z : Int) : Nat := if bitOf c.word 57 then tileLogistic s c.pos z else tileExp s c.pos z
  [vxLand (c.f 48 4) (c.f 0 8) ((List.range 256).map fun l => if laneOn (c.f 0 8) l then f (sl va l) else 0) (vxPoison u (c.f 44 4))]

def vlutReads (c : Ctx) (u : Tile) : List Nat :=
  let va := vxGet u (c.f 44 4)
  (lanesOn (c.f 0 8)).flatMap fun l => if bitOf c.word 57 then tableReads (sl va l).natAbs else expReads (sl va l)

/-! ## SAMP (R196 to R198, R246) -/

/-- SAMP_UNIFORM (R246): words 0 to 3 of each lane's draw. -/
def uniformLand (c : Ctx) (poison : Bool) (u : Tile) : List Landing :=
  let d := drawOf u (c.f 44 3)
  let ws := (List.range 256).map fun l => if laneOn (c.f 32 8) l then d.at (seedOf u c) l else []
  (List.range 4).map fun k => vxLand (c.f 51 4 + k) (c.f 32 8) (ws.map fun w => w.getD k 0) poison

/-- SAMP_BERNOULLI (R197): lane l forms mask bits 4 l to 4 l + 3. -/
def bernoulliLand (c : Ctx) (poison : Bool) (u : Tile) : List Landing :=
  let d := drawOf u (c.f 44 3)
  let p := fld (pmGet u (c.f 40 4)) 0 32
  let old := leNat ((vxGet u (c.f 51 4)).take 32 |>.flatMap (leBytes 4))
  let bitsOf (l : Nat) : Nat := (List.range 4).foldl (fun a k =>
    if (steppe (counter (d.base / 4 + l) d.replica d.step d.tag d.stream) (seedOf u c)).getD k 0 < p then a + 2 ^ k else a) 0
  let m := (List.range 256).foldl (fun a l =>
    a + (if laneOn (c.f 32 8) l then bitsOf l else fld old (4 * l) 4) * 2 ^ (4 * l)) 0
  [.lanes (c.f 51 4) ((List.range 32).map fun i => (i, fld m (32 * i) 32)) (if poison then some true else none)]

/-- SAMP_GAUSSIAN (R198). -/
def gaussianLand (c : Ctx) (poison : Bool) (u : Tile) : List Landing :=
  let d := drawOf u (c.f 44 3)
  [vxLand (c.f 51 4) (c.f 32 8) ((List.range 256).map fun l =>
    if laneOn (c.f 32 8) l then unsigned 32 (noiseOf (d.at (seedOf u c) l)) else 0) poison]

/-- The lanes' spins after an acceptance (R162, R246): VXd updated, FL gains the flips. -/
def acceptLand (step : Nat → Nat → Int → Int → Nat → Int) (c : Ctx) (poison : Bool) (u : Tile) : List Landing :=
  let d := drawOf u (c.f 44 3)
  let pms := pmGet u (c.f 40 4)
  let vd := vxGet u (c.f 51 4)
  let lo := vxGet u (c.f 47 4)
  let hi := vxGet u (c.f 47 4 + 1)
  let mask := c.f 32 8
  let new := (List.range 256).map fun l =>
    if laneOn mask l then
      unsigned 32 (step (fld pms 0 16) (fld pms 16 6) (sl vd l) (signed 64 (lo.getD l 0 + 2 ^ 32 * hi.getD l 0)) ((d.at (seedOf u c) l).headD 0))
    else vd.getD l 0
  [vxLand (c.f 51 4) mask new (poison || vxPoison u (c.f 51 4)), flLanes ((lanesOn mask).filter fun l => new.getD l 0 != vd.getD l 0)]

/-- The energy change that a lane's e gives, from two registers (R246). -/
def laneE (c : Ctx) (u : Tile) (l : Nat) : Int :=
  signed 64 ((vxGet u (c.f 47 4)).getD l 0 + 2 ^ 32 * (vxGet u (c.f 47 4 + 1)).getD l 0)

/-- The ROM words that an acceptance reads. -/
def acceptReads (heat : Bool) (c : Ctx) (u : Tile) : List Nat :=
  let p := pmGet u (c.f 40 4)
  (lanesOn (c.f 32 8)).flatMap fun l =>
    if heat then tableReads (heatArg (fld p 0 16) (fld p 16 6) (laneE c u l)).natAbs
    else expReads (-(metroArg (fld p 0 16) (fld p 16 6) (sl (vxGet u (c.f 51 4)) l) (laneE c u l)))

/-! ## DYN (R154, R178, R181, R247) -/

/-- The groups of lanes that GM marks: first lane and size (R247). -/
def laneGroups (gm : Nat) : List (Nat × Nat) :=
  let starts := (List.range 256).filter (bitOf gm)
  (List.range starts.length).map fun i => (starts.getD i 0, starts.getD (i + 1) 256 - starts.getD i 0)

/-- The stand-in and momentum of a state record (R155). -/
def recX (r : Nat) : Int := signed 16 (fld r 0 16)
def recY (r : Nat) : Int := signed 16 (fld r 16 16)
def recOf (x y : Int) : Nat := unsigned 16 x + 2 ^ 16 * unsigned 16 y
/-- The activation of a stand-in: bit 15 inverted (R155). -/
def activation (x : Int) : Nat := Nat.xor (unsigned 16 x) 0x8000

/-- What becomes of the poison of a register that an instruction writes in part. -/
def partMark (poison : Bool) : Option Bool := if poison then some true else none

/-- DYN_STEP (R154 to R156). -/
def stepLand (c : Ctx) (poison : Bool) (u : Tile) : List Landing :=
  let d := drawOf u (c.f 41 3)
  let pm := pmGet u (c.f 37 4)
  let vs := vxGet u (c.f 52 4)
  let vh := vxGet u (c.f 48 4)
  let on := lanesOn (c.f 29 8)
  let outs := on.map fun l => (l, contStep (fld pm 0 16) (fld pm 16 16) (fld pm 32 16) (fld pm 48 16) (fld pm 64 16)
    (recX (vs.getD l 0)) (recY (vs.getD l 0)) (sl vh l) (noiseOf (d.at (seedOf u c) l)))
  let whole := if poison then some true else if c.f 29 8 = 255 then some false else none
  [.lanes (c.f 52 4) (outs.map fun o => (o.1, recOf o.2.x o.2.y)) whole,
    .halves (c.f 44 4) (outs.map fun o => (o.1, activation o.2.x)) (partMark poison),
    flLanes ((outs.filter (·.2.chg)).map (·.1)), .ev 0 (outs.countP (·.2.wall)), .ev 1 (outs.countP (·.2.ysat))]

/-- Groups of fewer than two lanes (R247). -/
def shortGroup (u : Tile) : Bool := (laneGroups u.v.gm).any fun g => decide (g.2 < 2)

/-- DYN_GROUP_TRANSFER (R177 to R179). -/
def transferLand (c : Ctx) (poison : Bool) (u : Tile) : List Landing :=
  let d := drawOf u (c.f 41 3)
  let pm := pmGet u (c.f 37 4)
  let vs := vxGet u (c.f 52 4)
  let vh := vxGet u (c.f 48 4)
  let mask := c.f 29 8
  let moves := (laneGroups u.v.gm).flatMap fun g => (groupPairs g.2 d.step).map fun p =>
    let a := g.1 + p.1
    let b := g.1 + p.2
    (a, b, pairDelta (fld pm 0 16) (fld pm 32 16) (recX (vs.getD a 0)) (recX (vs.getD b 0)) (sl vh a) (sl vh b))
  let gain (l : Nat) : Int := moves.foldl (fun g m => if m.1 = l then g + m.2.2.1 else if m.2.1 = l then g - m.2.2.1 else g) 0
  let clamps := (moves.filter fun m => laneOn mask m.1 || laneOn mask m.2.1).foldl (fun n m => n + m.2.2.2) 0
  [.halves (c.f 52 4) ((lanesOn mask).map fun l => (l, unsigned 16 (recX (vs.getD l 0) + gain l)))
    (if poison then some true else if mask = 255 then some false else none), .ev 2 clamps]

/-- DYN_GROUP_ROUND (R181): the rounding before is that of the activations that VXo holds (log entry 14). -/
def roundLand (c : Ctx) (poison : Bool) (u : Tile) : List Landing :=
  let vs := vxGet u (c.f 52 4)
  let vo := vxGet u (c.f 44 4)
  let mask := c.f 29 8
  let groups := laneGroups u.v.gm
  let ps (g : Nat × Nat) : List Int := (span g.1 g.2).map fun l => recX (vs.getD l 0)
  let olds (g : Nat × Nat) : List Int := (span g.1 g.2).map fun l => signed 16 (Nat.xor (fld (vo.getD l 0) 0 16) 0x8000)
  let member (l : Nat) : Bool := groups.any fun g => decide (g.1 ≤ l) && decide (l < g.1 + g.2)
  let flips := groups.flatMap fun g =>
    let a := (argmax (ps g)).1
    let b := (argmax (olds g)).1
    if a = b then [] else [g.1 + a, g.1 + b]
  let ties := groups.countP fun g => (argmax (ps g)).2 && laneOn mask g.1
  [.halves (c.f 44 4) (((lanesOn mask).filter member).map fun l => (l, activation (2 * recX (vs.getD l 0) - 16384))) (partMark poison),
    flLanes (flips.filter (laneOn mask)), .ev 3 ties]

/-! ## CATS (R202 to R205, R248) -/

def excCatsEmpty : Nat := 8
def excMapTable : Nat := 7

/-- The candidates of a list: entries that are not absent (R202). -/
def candsOf (nc : Nat) (ws : List Nat) : List Cand :=
  (((ws.flatMap fun w => (List.range 8).map (lane w)).take nc).filter (· != unusedEntry)).map fun e =>
    (signed 32 (fld e 32 32), fld e 0 32)

/-- CATS looks at its list, 40 tc after its issue (R203 to R205, R248); `got` begins with PMC and DD as they were at issue. -/
def catsNow (c : Ctx) (got : List (Nat × Nat)) (delay : Nat) (s : State) : State :=
  let u := tileOf s c.pos
  let (p, dd) := got.headD (0, 0)
  let ws := got.drop 1
  let bad := ws.any fun w => w.2 != 0
  let s0 := if bad then vtFault c 2 s else s
  if bad ∧ dryNow s c = 0 then schedIn c 0 (.exc excPoison) s0
  else
    let d := drawBits dd
    let cands := candsOf (c.f 32 8 + 1) (ws.map (·.1))
    match catsSelect (tileExp s c.pos) cands (c.f 24 8 + 1) (fld p 0 16) (fld p 32 32) ((d.at (seedOf u c) 0).headD 0) with
    | none => schedIn c 0 (.exc excCatsEmpty) (vtFault c 1 s0)
    | some (cand, kept, rank) =>
      let a := tileBase c.pos + 0xF100C
      let s1 := winPut (winBump (countDraws c 1 s0) a 0 16 1) a 16 8 (kept - 1)
      romCheck c false (catsReads cands (c.f 24 8 + 1) (fld p 0 16))
        (sched c (80 + delay) (.land (pairLand (c.f 13 4) (cand.2 + kept * 2 ^ 32 + rank * 2 ^ 48))) s1)

/-! ## Mapping (R133 to R137) -/

/-- The entries of a table: value and code (R133). -/
def mapEntries (n : Nat) (ws : List Nat) : List (Int × Nat) :=
  (List.range n).map fun e =>
    let x := fld (ws.getD (e / 32) 0) (16 * (e % 32)) 16
    (signed 8 (fld x 0 8), fld x 8 8)

/-- Strictly ascending. -/
def ascending : List Int → Bool
  | a :: b :: l => decide (a < b) && ascending (b :: l)
  | _ => true

/-- The checks of R134. -/
def mapOk (w8 : Bool) (n g : Nat) (es : List (Int × Nat)) : Bool :=
  decide (2 ≤ n) && decide (n ≤ if w8 then 256 else 16) && ascending (es.map (·.1)) &&
  es.countP (fun e => e.1 == 0) == 1 && es.all (fun e => decide (e.2 < if w8 then 256 else 16)) &&
  (es.map (·.2)).eraseDups.length == n && g != 0

/-- QLD checks its table, 10 tc after its issue (R133, R134, R248); `got` begins with G as the parameter register held it at issue. -/
def qldNow (c : Ctx) (got : List (Nat × Nat)) (delay : Nat) (s : State) : State :=
  let g := (got.headD (0, 0)).1
  let ws := got.drop 1
  let n := c.f 31 9
  let w8 := bitOf c.word 30
  let es := mapEntries n (ws.map (·.1))
  if ws.any (fun w => w.2 != 0) ∧ dryNow s c = 0 then schedIn c 0 (.exc excPoison) s
  else if !mapOk w8 n g es then schedIn c 0 (.exc excMapTable) s
  else sched c (11 + delay) (.land (.map ⟨w8, g, es⟩)) s

/-- What the mapping of one value gives: the entry's index, its squared error, and whether it was clipped (R135). -/
def mapValue (es : List (Int × Nat)) (g : Nat) (v : Int) : Nat × Nat × Bool :=
  let z := es.findIdx fun e => e.1 == 0
  let n := es.length
  let val (k : Nat) : Int := (es.getD k (0, 0)).1 * g
  let k := if 0 < v then z + ((span (z + 1) (n - z - 1)).takeWhile fun k => decide (val k ≤ v)).length
    else if v < 0 then z - (((List.range z).reverse).takeWhile fun k => decide (v ≤ val k)).length else z
  let e := v - val k
  (k, (e * e).toNat % 2 ^ 64, (decide (0 < v) && k == n - 1 && decide (val k < v)) || (decide (v < 0) && k == 0 && decide (v < val k)))

/-- What QMAP maps the lanes of a register to (R135, R136): a disabled lane takes the code of the entry 0. -/
def mapLanes (m : MapTab) (mask : Nat) (va : List Nat) : List (Nat × Nat × Bool) :=
  let z := m.entries.findIdx fun e => e.1 == 0
  (List.range 256).map fun l => if laneOn mask l then mapValue m.entries m.g (sl va l) else (z, 0, false)

/-- The packed codes land in the lowest words of a register (R136, R244). -/
def codesLand (m : MapTab) (d : Nat) (outs : List (Nat × Nat × Bool)) (poison : Bool) : Landing :=
  let w := if m.w8 then 8 else 4
  let packed := (List.range 256).foldl (fun a l => a + ((m.entries.getD (outs.getD l (0, 0, false)).1 (0, 0)).2) * 2 ^ (w * l)) 0
  .lanes d ((List.range (8 * w)).map fun i => (i, fld packed (32 * i) 32)) (partMark poison)

/-- The record of a QMAP (R138). -/
def mapRecord (mask : Nat) (outs : List (Nat × Nat × Bool)) : List Nat :=
  let on := lanesOn mask
  [(on.foldl (fun a l => a + (outs.getD l (0, 0, false)).2.1) 0) % 2 ^ 64, on.length,
    on.countP (fun l => (outs.getD l (0, 0, false)).2.2), 0, 0, 0]

/-! ## DINC (R244) -/

/-- Where a field of a draw descriptor lies: its first bit and its width. -/
def ddField (f : Nat) : Nat × Nat := match f with
  | 0 => (0, 48) | 1 => (48, 16) | 2 => (64, 32) | 3 => (104, 24) | _ => (96, 8)

end Sys2Proof.Machine
end

