-- ==== Sys2Proof/Machine/Advance.lean ====
section
/-! DEFINITION. Plan time (log entry 12): what comes due in each plan tc of the frame, tile by tile and bank by bank (R46, R47, R55 to
R59, R104 to R107, R114, R117, R141, R226, R233 to R239, R244, R250, R518), and the issue of an instruction in its tc. -/

namespace Sys2Proof.Machine

/-! ## Registers land (R233, R243, R249) -/

/-- The number of a register among those that R226 watches: VX0 to VX15 are 0 to 15, parameter registers 16 to 31, g0 to g31 32 to
63, then FL, GM, EV, the map table, FPFLAGS. -/
def keyVx (i : Nat) : Nat := i
def keyPm (i : Nat) : Nat := 16 + i
def keyG (i : Nat) : Nat := 32 + i
def keyFl : Nat := 64
def keyGm : Nat := 65
def keyEv : Nat := 66
def keyMap : Nat := 67
def keyFp : Nat := 68
/-- The numbers of the units (R104, R518, R244): the load unit, the rescale unit, the array, port A of a V-tile, the sampler, RECV. -/
def unitLoad : Nat := 80
def unitRescale : Nat := 81
def unitArray : Nat := 82
def unitPortA : Nat := 83
def unitSampler : Nat := 84
def unitRecv : Nat := 85

/-- The register that a landing writes. -/
def Landing.key : Landing → Nat
  | .pm i _ _ => keyPm i
  | .dd i _ _ _ => keyPm i
  | .g i _ _ => keyG i
  | .lanes i _ _ => keyVx i
  | .halves i _ _ => keyVx i
  | .fl _ => keyFl
  | .flOr _ => keyFl
  | .flBit _ _ => keyFl
  | .gm _ _ => keyGm
  | .ev _ _ => keyEv
  | .evClear _ => keyEv
  | .map _ => keyMap
  | .fp _ => keyFp
  | .fpOr _ => keyFp

/-- Change lanes of a list. -/
def putLanes (f : Nat → Nat → Nat) (l : List Nat) (new : List (Nat × Nat)) : List Nat :=
  new.foldl (fun a x => a.set x.1 (f (a.getD x.1 0) x.2)) l

/-- A VX register takes lanes, and its poison bit. -/
def vxTake (i : Nat) (f : Nat → Nat → Nat) (new : List (Nat × Nat)) (mark : Option Bool) (t : Tile) : Tile :=
  let u := vxPut i (putLanes f (vxGet t i) new) t
  match mark with
  | some p => vxMark i p u
  | none => u

/-- A register takes its value. -/
def landOn (r : Landing) (t : Tile) : Tile :=
  match r with
  | .pm i v p => pmSet i v p t
  | .dd i lo w by_ => pmSet i (putFld (pmGet t i) lo w (unsigned w ((fld (pmGet t i) lo w : Int) + by_))) (pmBad t i) t
  | .g i v p => gSet i v p t
  | .lanes i l m => vxTake i (fun _ x => x) l m t
  | .halves i l m => vxTake i (fun old x => x + old / 2 ^ 16 * 2 ^ 16) l m t
  | .fl v => { t with fl := v }
  | .flOr v => { t with fl := t.fl ||| v }
  | .flBit b v => { t with fl := putFld t.fl b 1 (ofBool v) }
  | .gm mask v => { t with v := { t.v with gm := (List.range 256).foldl (fun g l => g + ofBool (bitOf (if bitOf mask l then v else t.v.gm) l) * 2 ^ l) 0 } }
  | .ev i n => { t with v := { t.v with ev := t.v.ev.set i ((t.v.ev.getD i 0 + n) % 2 ^ 64) } }
  | .evClear i => { t with v := { t.v with ev := t.v.ev.set i 0 } }
  | .map m => { t with v := { t.v with map := some m } }
  | .fp v => { t with s := { t.s with fp := v } }
  | .fpOr v => { t with s := { t.s with fp := t.s.fp ||| v } }

/-- A register or unit is ready from now on (R226). -/
def readyNow (pos key : Nat) (s : State) : State := adjTile pos (fun t => { t with ready := kput t.ready key s.now }) s

def landNow (c : Ctx) (r : Landing) (s : State) : State := readyNow c.pos r.key (adjTile c.pos (landOn r) s)

/-- Registers land `d` tc after issue. -/
def landIn (c : Ctx) (d : Nat) (l : List Landing) (s : State) : State := l.foldl (fun t r => sched c d (.land r) t) s

/-- A unit is held for `d` tc from issue on. -/
def hold (c : Ctx) (unit d : Nat) (s : State) : State := sched c d (.free unit) s

/-! ## Messages (R239) -/

/-- A whole message enters the queue. Words for windows that do not exist, and requests to anything but a tier, are refused (R293,
R305); a refused READ delivers zeros. -/
def queueMessage (c : Ctx) (vc : Nat) (h : MsgHead) (hdrBad : Bool) (words : List (Nat × Nat)) (s : State) : State :=
  let f := s.plat.fuse
  let put (l : List VcFlit) : State := queueFlits c.pos l s
  if h.kind = 0 then
    (h.dead f c.pos).foldl (fun t d => (List.range words.length).foldl (fun u j => reject c.glove (d.1 + 64 * j) 64 3 0 d.2 u) t)
      (put (messageFlits s c vc h hdrBad words))
  else
    let r := memReqOf s c h ((words.map (·.1)).headD 0)
    match regionOf f r.addr with
    | .hbm => put (messageFlits s c vc h hdrBad words)
    | .cap => put (messageFlits s c vc h hdrBad words)
    | _ => reject c.glove r.addr r.len 2 0 (windowUnit r.addr c.pos)
        (if r.write then s else put (zeroFlits f c.pos c.glove vc (r.len / 64) r.dests))

/-- SENDM reads its header: what is wrong with it is found now, and a message that the queue has no room for is dropped (R239); `room`
is the length of the queue at issue. -/
def sendmHead (c : Ctx) (room : Nat) (x : Nat × Nat) (s : State) : Bool × State :=
  let h := msgHead x.1
  let relaxed := match kget s.launches c.launch with
    | some l => !c.free && isRelaxed s l
    | none => false
  if h.bad ∨ h.ndata = 0 ∨ 256 < h.ndata ∨ 3 ≤ h.kind ∨ (h.kind ≠ 0 ∧ !relaxed) then (false, schedIn c 0 (.exc excOperand) s)
  else if c.dry = 0 ∧ 512 < room + h.ndata + 1 then
    (false, report c.pos 0x0603 c.pos (c.f 57 1 + 1) c.glove (leBytes 2 h.dest0 ++ leBytes 2 h.ndata)
      (winBump s (tileBase c.pos + 0xF2018) 8 8 1))
  else (true, s)

/-- The words of a message that a fault ended enter the queue as far as they were read (R257); a request needs all of its own. -/
def sendmEnd (c : Ctx) (got : List (Nat × Nat)) (whole : Bool) (s : State) : State :=
  match got with
  | [] => s
  | x :: words =>
    let h := msgHead x.1
    if c.dry ≠ 0 ∨ (h.kind ≠ 0 ∧ !whole) then s else queueMessage c (c.f 57 1 + 1) h (x.2 != 0) words s

/-! ## Words read through port A -/

/-- Whether an instruction reads its cluster's commons: SRC 1, or 2 of a LAC or LDC; SPACE 1 of an LD; bit 56 of a SENDM. -/
def readsCmn (c : Ctx) : Bool :=
  let o := c.f 58 6
  if o = 0x10 ∨ o = 0x11 then c.f 56 2 == 2 else if o = 0x13 then false else if o = 7 then bitOf c.word 56 else c.f 56 2 == 1

/-- The words that an instruction reads one a tc; a SENDM's number stands in its header. -/
def readCount (c : Ctx) (got : List (Nat × Nat)) : Nat :=
  match c.f 58 6 with
  | 0x05 => c.f 32 8 + 1
  | 0x07 => (msgHead (got.headD (0, 0)).1).ndata + 1
  | 0x0B => c.f 34 2 + 1
  | 0x10 => let l := lacOf c.word; if l.src = 1 then l.n else l.slots
  | 0x11 => ldcWords (c.f 38 2)
  | 0x13 => topkWords c
  | 0x20 => c.f 32 4 + 1
  | 0x26 => (c.f 32 8 + 8) / 8
  | 0x27 => 8
  | _ => 1

/-- Word j of a transfer has been read: what it leads to (R105, R233, R235, R239, R244, R251); `late` is by how much the read came
after its planned tc. -/
def useWord (c : Ctx) (j arg late : Nat) (got : List (Nat × Nat)) (x y : Nat × Nat) (s : State) : State :=
  let cmn := readsCmn c
  let lag := if cmn then 5 else 2
  let bad := x.2 != 0
  match c.f 58 6 with
  | 0x05 => schedIn c (if cmn then 3 else 1) (.hand (mkFlit c (c.f 20 12) false bad x.1)) s
  | 0x0B => (List.range 4).foldl (fun t k => schedIn c lag (.land (.pm (c.f 36 4 + 4 * j + k) (fld x.1 (128 * k) 128) bad)) t) s
  | 0x10 => lacWord c j got.getLast? x y s
  | 0x11 => schedIn c lag (.load j x.1 x.2 (j + 1 == ldcWords (c.f 38 2) && !bad && got.all fun w => w.2 == 0)) s
  | 0x20 => schedIn c lag (.land (.lanes (c.f 36 4) ((List.range 16).map fun k => (16 * j + k, fld x.1 (32 * k) 32))
      (if bad then some true else if j = 15 ∧ got.all (fun w => w.2 == 0) then some false else none))) s
  | 0x33 =>
    let off := fld arg 0 6
    let size := 2 ^ c.f 54 2
    let v := fld x.1 (8 * off) (8 * size)
    let spoilt := bitOf x.2 (off / 8)
    if spoilt ∧ c.dry = 0 then sched c (3 + late) (.exc excPoison) s
    else schedIn c (if cmn then 3 else 2) (.land (.g (c.f 48 5) (if bitOf c.word 53 then unsigned 64 (signed (8 * size) v) else v) spoilt)) s
  | _ => s

/-- What an instruction keeps of a word for the words after it. -/
def keepWord (c : Ctx) (got : List (Nat × Nat)) (x : Nat × Nat) : List (Nat × Nat) :=
  match c.f 58 6 with
  | 0x10 => [x]
  | 0x13 => got ++ (List.range 8).map fun i => (lane x.1 i, 0)
  | 0x07 => got ++ [x]
  | 0x26 => got ++ [x]
  | 0x27 => got ++ [x]
  | _ => got ++ [(0, x.2)]

/-- The last word of a transfer has been read. -/
def lastWord (c : Ctx) (arg late : Nat) (got : List (Nat × Nat)) (s : State) : State :=
  match c.f 58 6 with
  | 0x07 => sendmEnd c got true s
  | 0x13 => topkOut c (fld arg 128 128) (fld arg 0 128) (arg / 2 ^ 256) (got.map (·.1)) s
  | 0x26 => sched c (40 + late) (.check got late) s
  | 0x27 => sched c (10 + late) (.check got late) s
  | _ => s

/-- The words of a transfer go on: the next is read a tc later. A poisoned list word ends a TOPK (R122). -/
def readOn (c : Ctx) (b w j arg : Nat) (got : List (Nat × Nat)) (x y : Nat × Nat) (s : State) : State :=
  let late := if isTopk c then 0 else s.now - (c.tc + bankLag (readsCmn c) j)
  if isTopk c ∧ x.2 ≠ 0 ∧ dryNow s c = 0 then schedIn c 0 (.exc excPoison) s
  else
    let (ok, s1) := if c.f 58 6 = 7 ∧ j = 0 then sendmHead c arg x s else (true, s)
    if !ok then s1
    else
      let s2 := useWord c j arg late got x y s1
      let got1 := keepWord c got x
      if j + 1 < readCount c got1 then schedIn c 1 (.read b (w + 1) (j + 1) got1 arg) s2 else lastWord c arg late got1 s2

/-- Port A of a bank has answered a read: the words, or the cause of an exception. In a dry run a refused word reads as zero and counts
as uncorrectable. Uncorrectable lanes set the check latch (R397, R409). -/
def readDone (c : Ctx) (b w j arg : Nat) (got : List (Nat × Nat)) (cause : Option Nat) (x y : Nat × Nat) (s : State) : State :=
  match cause with
  | some e =>
    if dryNow s c ≠ 0 then readOn c b w j arg got (0, 1) (0, 1) s
    else schedIn c 0 (.exc e) (if c.f 58 6 = 7 then sendmEnd c got false s else s)
  | none => readOn c b w j arg got x y (if x.2 = 0 ∧ y.2 = 0 then s else raise 141 (setLatch c.pos c.lslot s))

/-! ## Port A (R46, R52, R55 to R59, R106, R141) -/

/-- One access of an instruction through port A: the cause of an exception where it is refused, the word, its uncorrectable lanes. -/
def portAOne (c : Ctx) (b w : Nat) (op : BOp) (s : State) : Option Nat × (Nat × Nat) × State :=
  if bankWords b ≤ w then (some excAccess, (0, 0), s)
  else
    let (r, s1) := bankAccess 0 c.glove b w op s
    if r.status = stOk then (none, (r.data, r.bad), s1) else (some (causeOf r.status), (0, 0), s1)

/-- The lower of two causes (R256). -/
def lowerCause (a b : Option Nat) : Option Nat := match a, b with
  | some x, some y => some (min x y)
  | some x, none => some x
  | none, y => y

/-- Port A serves an item. A dry run stores nothing (R259). -/
def serve (x : Item) (s : State) : State :=
  let c := x.c
  match x.act with
  | .read b w j got arg =>
    let (e, d, s1) := portAOne c b w .read s
    if c.f 58 6 = 0x10 ∧ c.f 56 2 = 1 then
      let (e2, d2, s2) := portAOne c (4 * c.pos + Nat.xor (b % 4) 1) w .read s1
      readDone c b w j arg got (lowerCause e e2) d d2 s2
    else readDone c b w j arg got e d (0, 0) s1
  | .store b w op =>
    if c.dry ≠ 0 then s
    else
      let (e, _, s1) := portAOne c b w op s
      match e with
      | some k => schedIn c 0 (.exc k) s1
      | none => s1
  | .stat b row lanes =>
    let (e, _, s1) := portAOne c b row (.add 0x3F lanes) s
    match e with
    | some k => schedIn c 0 (.exc k) s1
    | none => s1
  | _ => s

/-- The bank that an item wants port A of. -/
def Item.bank (x : Item) : Option Nat := match x.act with
  | .read b _ _ _ _ => some b
  | .store b _ _ => some b
  | .stat b _ _ => some b
  | _ => none

def Item.row (x : Item) : Nat := match x.act with
  | .read _ w _ _ _ => w
  | .store _ w _ => w
  | .stat _ w _ => w
  | _ => 0

/-- Whether an item wants port A of a bank: a LAC from a pair wants two. -/
def Item.wants (x : Item) (b : Nat) : Bool :=
  x.bank == some b || (x.c.f 58 6 == 0x10 && x.c.f 56 2 == 1 && x.bank == some (4 * (b / 4) + Nat.xor (b % 4) 1))

/-- The precedence of R106 on an M-tile; what the rule does not name comes last (DESIGN CHOICE, log entry 77). -/
def Item.precedence (x : Item) : Nat := match x.c.f 58 6, x.act with
  | 0x10, _ => 0
  | 0x11, _ => 1
  | 0x0B, _ => 1
  | _, .store _ _ _ => 2
  | 0x13, _ => 3
  | _, _ => 4

/-- An item waits a tc, and its instruction with it. -/
def delay (x : Item) (s : State) : State :=
  let s1 := shift x.c s
  putItem { x with tc := s1.now + 1 } s1

/-- Whether an item loses port A of its bank to another of its M-tile in this tc (R106). On V- and S-tiles both are served (DESIGN
CHOICE, log entry 77). -/
def losesA (l : List Item) (x : Item) : Bool :=
  kindOf x.c.pos == .m && match x.bank with
    | none => false
    | some b => (List.range l.length).any fun i => match l[i]? with
        | some y => y.c.pos == x.c.pos && y.wants b && y != x &&
          (decide (y.precedence < x.precedence) || (y.precedence == x.precedence && decide (i < l.findIdx (· == x))))
        | none => false

/-- The banks of tiles serve the items of a tc. -/
def serveOwn (l : List Item) (s : State) : State :=
  l.foldl (fun t x => if losesA l x then delay x t else serve x t) s

/-- Which of the kinds of R57 and R141 a request is: a read, a write, an add. -/
def Item.kind (x : Item) : Nat := match x.act with
  | .read _ _ _ _ _ => 0
  | .store _ _ _ => 1
  | _ => 2

/-- Whether one request of a commons bank is served before another (R57, R141). -/
def beforeItem (f : Fuse) (x y : Item) : Bool :=
  if x.since ≠ y.since then decide (x.since < y.since)
  else if x.kind ≠ y.kind then decide (x.kind < y.kind)
  else if x.kind ≠ 2 ∧ x.row ≠ y.row then decide (x.row < y.row)
  else decide (rank f x.c.pos < rank f y.c.pos)

/-- The request that comes first. -/
def firstItem (f : Fuse) : List Item → Option Item
  | [] => none
  | x :: l => match firstItem f l with
    | none => some x
    | some y => if beforeItem f y x then some y else some x

/-- The requests that one access serves: the reads of one word, or the writes of one word, that came in one tc; one add. -/
def sameAccess (x y : Item) : Bool := if x.kind = 2 then y == x else y.since == x.since && y.kind == x.kind && y.row == x.row

/-- Writes of one word: that of the lowest rank among those that are not refused is performed, the others are discarded (R57). -/
def serveWrites (b : Nat) (x : Item) (l : List Item) (s : State) : State :=
  let refused (t : State) (y : Item) : Bool := (bankCheck y.c.glove 0 true b (wordAddr b y.row) t).1 != stOk
  let fine := l.filter fun y => !refused s y
  l.foldl (fun t y =>
    if refused s y ∨ firstItem s.plat.fuse fine = some y then serve y t else bankConflict y.c.glove b (wordAddr b x.row) t) s

/-- Reads of one word are one access (R56, R59): those served beyond the first count as merged. -/
def serveReads (b : Nat) (x : Item) (l : List Item) (s : State) : State :=
  let n := l.countP fun y => (bankCheck y.c.glove 0 false b (wordAddr b x.row) s).1 == stOk && decide (x.row < bankWords b)
  let s1 := l.foldl (fun t y => serve y t) s
  if n ≤ 1 then s1 else winCount64 s1 (cmnBase (bankCluster b) + 0xFF0010) (n - 1)

/-- A commons bank serves one access of a tc; every other request waits, is counted, and delays its instruction (R57); a waiting add
delays nothing (R141). -/
def serveCmn (b : Nat) (l : List Item) (s : State) : State :=
  match firstItem s.plat.fuse l with
  | none => s
  | some x =>
    let now := l.filter (sameAccess x)
    let wait := l.filter fun y => !sameAccess x y
    let s1 := if x.kind = 0 then serveReads b x now s else if x.kind = 1 then serveWrites b x now s else serve x s
    let s2 := wait.foldl (fun t y => if y.kind = 2 then putItem { y with tc := t.now + 1 } t else delay y t) s1
    if wait.isEmpty then s2 else winBump s2 (cmnBase (bankCluster b) + 0xFF0018) 0 32 wait.length

/-- Port A of every bank serves the items of a tc. A dry run sends no write to the commons. -/
def servePorts (l : List Item) (s : State) : State :=
  let isCmn (x : Item) : Bool := match x.bank with
    | some b => bankIsCmn b
    | none => false
  let cmn := l.filter fun x => isCmn x && !(x.kind == 1 && x.c.dry != 0)
  let banks := (cmn.filterMap Item.bank).eraseDups
  banks.foldl (fun t b => serveCmn b (cmn.filter fun x => x.bank == some b) t) (serveOwn (l.filter fun x => !isCmn x) s)

/-! ## One plan tc -/

/-- The items of a tc that pass a test leave the agenda. -/
def due (tc : Nat) (p : Item → Bool) (s : State) : List Item × State :=
  (s.agenda.filter fun x => decide (x.tc ≤ tc) && p x, { s with agenda := s.agenda.filter fun x => !(decide (x.tc ≤ tc) && p x) })

/-- Perform the items of a tc that pass a test, in order. -/
def performAll (tc : Nat) (p : Item → Bool) (f : Item → State → State) (s : State) : State :=
  let (l, s1) := due tc p s
  l.foldl (fun t x => f x t) s1

def Item.isPort (x : Item) : Bool := x.bank.isSome
def Item.isRows (x : Item) : Bool := match x.act with
  | .rows _ => true
  | _ => false
def Item.isCheck (x : Item) : Bool := match x.act with
  | .check _ _ => true
  | _ => false
def Item.isExc (x : Item) : Bool := match x.act with
  | .exc _ => true
  | _ => false

/-- The order of changes within a tc (R107): loads of codes, LDC.S SET, LDC.S ADD, LAC SET, LAC ADD, all else, port B. -/
def Item.order (x : Item) : Nat := match x.act with
  | .load _ _ _ _ => if x.c.f 38 2 < 2 then 0 else if bitOf x.c.word 28 then 1 else 2
  | .sums _ _ _ _ _ => if bitOf x.c.word 25 then 3 else 4
  | .portB _ _ _ => 6
  | .dma _ _ _ _ _ _ => 6
  | .deliver _ _ _ _ _ => 6
  | .complete _ _ _ => 6
  | _ => 5

/-- Word j of a burst of host DMA moves in its tc, and leads to the next one a tc later; a burst of an op that has ended does not go on. -/
def dmaWord (c : Ctx) (k j n : Nat) (data : List Byte) (st : Nat) (bad : Bool) (s : State) : State :=
  match kget s.fe.ops k with
  | none => s
  | some o =>
    let ((d, st1, bad1), s1) := burstWord o j data st bad s
    if 64 * (j + 1) < n then schedIn c 1 (.dma k (j + 1) n d st1 bad1) s1 else endBurst k o n d st1 bad1 s1

/-- What no instruction began: a word of host DMA, what a flit brings; its dry state tells what comes in held tc. -/
def foreign (glove tc : Nat) : Ctx := ⟨1536, tc, 0, glove, 0, 0, 0, 0, 0, false⟩

/-- A change that is due. -/
def perform (x : Item) (s : State) : State :=
  match x.act with
  | .load j w bad all => loadNow x.c j w (bad != 0) all s
  | .vector b w0 w1 bad => vectorNow x.c b w0 w1 bad s
  | .sums b w0 w1 bad e => sumsNow x.c b w0 w1 bad e s
  | .land r => landNow x.c r s
  | .hand f => handNow x.c.pos f s
  | .free u => readyNow x.c.pos u s
  | .portB b w op => if bankWords b ≤ w then s else (bankAccess 1 x.c.glove b w op s).2
  | .dma k j n d st bad => dmaWord x.c k j n d st bad s
  | .deliver pos a d source due => deliver pos x.c.glove a d source due s
  | .complete pos a n => completeWrite pos x.c.glove a n s
  | _ => s

/-- The exceptions detected in a tc: the lowest code of an instruction is taken, and those of different instructions in the order of their
codes (R256; DESIGN CHOICE, log entry 78). -/
def takeDue (tc : Nat) (s : State) : State :=
  let (l, s1) := due tc Item.isExc s
  let code (x : Item) : Nat := match x.act with
    | .exc k => k
    | _ => 0
  (sortBy (fun a b => decide (code a ≤ code b)) l).foldl (fun t x => takeExc x.c (code x) t) s1

/-- What flits brought in the held tc before a plan tc (R91). -/
def Item.isHeld (x : Item) : Bool := decide (1536 ≤ x.c.pos) && x.c.dry == 1

/-- Everything that is due in a plan tc: what came in held tc before it, accesses and reads, then exceptions, then changes (R107, R257). -/
def runTc (tc : Nat) (s : State) : State :=
  let (l, s1) := due tc Item.isPort (performAll tc Item.isHeld perform { s with now := tc })
  let s2 := performAll tc Item.isRows (fun x t => match x.act with
    | .rows r => rowsNow x.c r t
    | _ => t) (servePorts l s1)
  let s3 := performAll tc Item.isCheck (fun x t => match x.act with
    | .check got late => if x.c.f 58 6 = 0x26 then catsNow x.c got late t else qldNow x.c got late t
    | _ => t) s2
  (List.range 7).foldl (fun t k => performAll tc (fun x => !x.isPort && !x.isRows && !x.isCheck && x.order == k) perform t) (takeDue tc s3)

/-- Plan time goes on: every tc in which something is due, up to and with `tc`. -/
def runTo (tc : Nat) : Nat → State → State
  | 0, s => s
  | n + 1, s => match s.agenda with
    | [] => s
    | x :: _ => if tc < x.tc then s else runTo tc n (runTc (max s.now x.tc) s)

/-- The frame has reached a plan tc, with everything due in it done. -/
def advance (tc : Nat) (s : State) : State := { runTo tc (tc + 1 - s.now + s.agenda.length) s with now := max tc s.now }

/-- The frame has reached the start of a plan tc: what is due in it is not done yet (R51). -/
def advanceTo (tc : Nat) (s : State) : State :=
  if tc ≤ s.now then s else { runTo (tc - 1) (tc - s.now + s.agenda.length) s with now := tc }

/-- Everything under way comes to its end. -/
def drainAgenda : Nat → State → State
  | 0, s => s
  | n + 1, s => match s.agenda with
    | [] => s
    | x :: _ => drainAgenda n (runTc (max s.now x.tc) s)

/-- What the management complex has begun is done at once (R261). -/
def settle (s : State) : State :=
  if s.agenda.any fun x => x.c.free then runTo s.now 1024 s else s

/-- A command that names a plan tc: one that the frame has passed names nothing (log entry 12). -/
def atTc (tc : Nat) (s : State) (f : State → State) : Result :=
  if tc < s.now ∨ muxStopped s 0 then .next s else .next (f (advance tc s))

/-- A command that may name a plan tc. -/
def atTc? (tc : Option Nat) (s : State) (f : State → State) : Result := match tc with
  | some t => atTc t s f
  | none => .next (f s)

/-! ## Issue (R226, R104, R518, R244) -/

/-- The registers that an instruction reads. -/
def readKeys (k : Kind) (w : Nat) : List Nat :=
  let f (lo n : Nat) : Nat := fld w lo n
  match f 58 6 with
  | 0x04 => [keyFl]
  | 0x05 => if f 56 2 = 2 then [keyFl] else if f 56 2 = 3 then (match k with
      | .v => [keyVx (f 40 4)]
      | .s => (span 24 8).map keyG
      | _ => []) else []
  | 0x0A => [keyFl]
  | 0x12 => [keyPm (f 23 4)]
  | 0x13 => [keyPm (f 30 4), keyPm (f 30 4 + 1)]
  | 0x21 => [keyVx (f 36 4)]
  | 0x22 =>
    let r := vopReads (f 52 6)
    (if r.1 then [keyVx (f 44 4)] else []) ++ (if r.2 then [keyVx (f 40 4)] else []) ++ (if f 52 6 = 20 then [keyEv] else [])
  | 0x23 => [keyVx (f 44 4)]
  | 0x24 => keyPm (8 + f 44 3) :: match f 55 3 with
      | 1 => [keyPm (f 40 4)]
      | 3 => [keyPm (f 40 4), keyVx (f 51 4), keyVx (f 47 4), keyVx (f 47 4 + 1)]
      | 4 => [keyPm (f 40 4), keyVx (f 51 4), keyVx (f 47 4), keyVx (f 47 4 + 1)]
      | _ => []
  | 0x25 => match f 56 2 with
      | 2 => [keyVx (f 52 4), keyVx (f 44 4), keyGm]
      | m => [keyVx (f 52 4), keyVx (f 48 4), keyPm (8 + f 41 3), keyPm (f 37 4)] ++ if m = 1 then [keyGm] else []
  | 0x26 => [keyPm (f 20 4), keyPm (8 + f 17 3)]
  | 0x27 => [keyPm (f 26 4)]
  | 0x28 => [keyVx (f 54 4), keyMap]
  | 0x29 => [keyPm (8 + f 55 3)]
  | 0x30 => [keyG (f 42 5), keyG (f 37 5)]
  | 0x31 => [keyG (f 42 5)]
  | 0x32 => keyG (f 42 5) :: if [4, 9, 10, 11].contains (f 52 6 % 16) then [] else [keyG (f 37 5)]
  | 0x33 => [keyG (f 43 5)]
  | 0x34 => [keyG (f 43 5), keyG (f 48 5)]
  | 0x35 => if f 54 4 = 0 then [] else [keyG (f 49 5), keyG (f 44 5)]
  | 0x36 => if bitOf w 57 then [keyG (f 48 5)] else if f 32 16 = 4 then [keyFp] else []
  | 0x37 => if bitOf w 47 then [keyG (f 48 5)] else []
  | 0x38 => if bitOf w 43 then [keyFl] else [keyG (f 44 5)]
  | _ => []

/-- The units that an instruction needs free, each with the tc after issue at which it needs it. -/
def unitsUsed (k : Kind) (w : Nat) : List (Nat × Nat) :=
  match fld w 58 6 with
  | 0x06 => [(unitRecv, 0)]
  | 0x0B => [(if k = .v then unitPortA else unitLoad, 0)]
  | 0x10 => [(unitArray, (lacOf w).first)]
  | 0x11 => [(unitLoad, 0)]
  | 0x12 => [(unitRescale, 0)]
  | 0x13 => [(unitRescale, 0)]
  | 0x20 => [(unitPortA, 0)]
  | 0x21 => [(unitPortA, 0)]
  | 0x26 => [(unitSampler, 0), (unitPortA, 1)]
  | 0x27 => [(unitPortA, 0)]
  | _ => []

/-- The units that an instruction holds, each with the tc after issue from which it is free again: `fmt` is the format of its
descriptor (R104, R114, R117, R244, R518). -/
def unitsHeld (k : Kind) (w fmt : Nat) : List (Nat × Nat) :=
  let slots := fld w 44 7 + 1
  match fld w 58 6 with
  | 0x0B => if k = .v then [(unitPortA, fld w 34 2 + 1)] else [(unitLoad, fld w 34 2 + if fld w 56 2 = 1 then 1 else 2)]
  | 0x10 => [(unitArray, (lacOf w).last + 1)]
  | 0x11 => [(unitLoad, ldcWords (fld w 38 2) + if fld w 56 2 = 2 then 0 else 1)]
  | 0x12 => [(unitRescale, 2 + 128 / rowsPerTc fmt * slots)]
  | 0x13 => [(unitRescale, 2 + 8 * slots + if bitOf w 34 then (fld w 35 8 + 8) / 8 else 0)]
  | 0x20 => [(unitPortA, fld w 32 4 + 1)]
  | 0x21 => [(unitPortA, fld w 32 4 + 1)]
  | 0x26 => [(unitSampler, 64), (unitPortA, 1 + (fld w 32 8 + 8) / 8)]
  | 0x27 => [(unitPortA, 8)]
  | _ => []

/-- An instruction holds its units. -/
def holdUnits (c : Ctx) (fmt : Nat) (s : State) : State := (unitsHeld (kindOf c.pos) c.word fmt).foldl (fun t u => hold c u.1 u.2 t) s

/-- The registers that an item of an instruction has yet to write. -/
def Item.writes (x : Item) : List Nat := match x.act with
  | .land r => [r.key]
  | .read _ _ j _ _ => (match x.c.f 58 6 with
    | 0x0B => (span (x.c.f 36 4 + 4 * j) (4 * (x.c.f 34 2 + 1 - j))).map keyPm
    | 0x20 => [keyVx (x.c.f 36 4)]
    | 0x26 => [keyVx (x.c.f 13 4)]
    | 0x27 => [keyMap]
    | 0x33 => [keyG (x.c.f 48 5)]
    | _ => [])
  | .check _ _ => if x.c.f 58 6 = 0x26 then [keyVx (x.c.f 13 4)] else [keyMap]
  | _ => []

/-- The registers that a RECV has yet to write. -/
def recvWrites (pos : Nat) (r : RecvSt) : List Nat := match r.c.f 56 2 with
  | 1 => [keyFl]
  | 2 => if kindOf pos = .v then [keyVx (r.c.f 40 4)] else (span 24 8).map keyG
  | _ => []

/-- Whether a register that an instruction reads has yet to be written (R226). -/
def regBusy (s : State) (pos key : Nat) : Bool :=
  (s.agenda.any fun x => x.c.pos == pos && x.writes.contains key) || match (tileOf s pos).recv with
    | some r => (recvWrites pos r).contains key
    | none => false

/-- From which tc a unit is free: it is known where the unit's holder is under way (R104). -/
def unitFrom (s : State) (pos unit : Nat) : Nat :=
  (s.agenda.filter fun x => x.c.pos == pos && x.act == .free unit).foldl (fun m x => max m x.tc) (kgetD (tileOf s pos).ready unit 0)

/-- The first tc in which the next instruction of a tile can issue (R226); none while a register that it reads is still to be
written or a RECV has flits to take. -/
def issueTc (s : State) (c : Ctx) : Option Nat :=
  let t := tileOf s c.pos
  let k := kindOf c.pos
  let regs := readKeys k c.word
  if regs.any (regBusy s c.pos) ∨ (c.f 58 6 = 6 ∧ t.recv.isSome) then none
  else
    let a := regs.foldl (fun m r => max m (kgetD t.ready r 0)) t.tc
    some ((unitsUsed k c.word).foldl (fun m u => max m (unitFrom s c.pos u.1 - u.2)) a)

/-- The word of the next instruction as a command of a plan tc meets it. -/
def nextWord (s : State) (pos tc : Nat) : Nat :=
  let t := tileOf (if mgmtTiles.contains pos then s else advance tc s) pos
  kgetD t.store t.pc 0

/-- The outcome of a command that fetches (R226, R232): nothing in any other tc than that of the instruction's issue. -/
def runInstr (s : State) (pos tc opc reserved : Nat) (go : Ctx → State → State) : Result :=
  if 1536 ≤ pos ∨ (tc < s.now ∧ !mgmtTiles.contains pos) then .next s
  else
    let s1 := if mgmtTiles.contains pos then s else advance tc s
    match fetch s1 pos tc opc reserved with
    | .idle => .next s
    | .illegal c => if !c.free ∧ (tileOf s1 pos).tc ≠ tc then .next s else .next (early c excIllegal s1)
    | .go c => if c.free then .next (settle (go c s1)) else if issueTc s1 c = some tc then .next (go c s1) else .next s

end Sys2Proof.Machine
end

