-- ==== Sys2Proof/Machine/Issue.lean ====
section
/-! DEFINITION. The instructions that every kind of tile has (R226 to R239), the windows they run in (R222 to R225, R231, R238),
and the events of banks at rest (R51, R54). -/

namespace Sys2Proof.Machine

/-- Bits [hi:lo] of an instruction word. -/
def bits (hi lo : Nat) : Nat := 2 ^ (hi + 1) - 2 ^ lo

def excLoopDepth : Nat := 13
def excRecvEmpty : Nat := 10
def excBarTimeout : Nat := 11
def excWindowEnd : Nat := 12

/-! ## Control (R228, R231, R233) -/

/-- NOP (R233). -/
def execNop (pos tc : Nat) (s : State) : Result :=
  runInstr s pos tc 0x00 (bits 57 16) fun c t => stepOn c (c.f 0 16 + 1) t

/-- WAITT (R233). -/
def execWaitt (pos tc : Nat) (s : State) : Result :=
  runInstr s pos tc 0x01 (bits 57 32) fun c t =>
    let w := c.f 0 32
    if c.stop ≤ w then early c excOperand t
    else if w < c.tc then stepOn c 1 (winBump t (tileBase c.pos + 0xF2018) 24 8 1)
    else stepOn c (max 1 (w - c.tc)) t

/-- A LOOP of `count` passes over the `body` instructions after it (R228). -/
def loopOver (c : Ctx) (count body : Nat) (s : State) : State :=
  let t := tileOf s c.pos
  if 4 ≤ t.loops.length ∨ storeWords (kindOf c.pos) ≤ t.pc + body then early c excLoopDepth s
  else
    adjTile c.pos (fun u =>
      if count = 0 then
        let (p, l) := nextPc (t.pc + body) u.loops
        { u with pc := p, loops := l, tc := c.tc + 1, clearing := false }
      else { u with pc := t.pc + 1, loops := ⟨t.pc + 1, t.pc + body, count - 1⟩ :: u.loops, tc := c.tc + 1, clearing := false })
      (countIssue c s)

/-- LOOP (R228); in the management complex its count may come from a register (R261). -/
def execLoop (pos tc : Nat) (s : State) : Result :=
  let fromReg := mgmtTiles.contains pos && bitOf (kgetD (tileOf s pos).store (tileOf s pos).pc 0) 0
  runInstr s pos tc 0x02 (if fromReg then bits 57 42 ||| bits 36 36 else bits 57 36) fun c t =>
    if fromReg then
      let g := c.f 37 5
      if gPoison (tileOf t c.pos) g then early c excPoison t
      else loopOver c (gGet (tileOf t c.pos) g) (c.f 24 12 + 1) t
    else loopOver c (c.f 0 24 + 1) (c.f 24 12 + 1) t

/-- YIELD (R231). -/
def execYield (pos tc : Nat) (s : State) : Result :=
  runInstr s pos tc 0x03 (bits 57 0) fun c t => adjTile c.pos (fun u => { u with ended := true }) (stepOn c 1 t)

/-- HALTF (R233, R259). -/
def execHaltf (pos tc : Nat) (s : State) : Result :=
  runInstr s pos tc 0x04 (bits 57 9) fun c t =>
    let t1 := stepOn c 1 t
    if bitOf (tileOf t c.pos).fl (c.f 0 9) then setDry c.pos c.lslot 1 t1 else t1

/-! ## Hand-off (R84, R85, R235, R236) -/

/-- BAR (R84, R233). -/
def execBar (pos tc : Nat) (s : State) : Result :=
  runInstr s pos tc 0x08 (bits 57 32 ||| bits 19 16) fun c t =>
    let stamp := (sysAt t c.tc % 2 ^ 48) * 2 ^ 16 + c.f 0 16
    let data := ofLanes fun i => if i = 0 then 1 else if i = 1 then stamp else 0
    handWords c 1 [mkFlit c (c.f 20 12) true false data] (stepOn c 1 t)

/-- FLAG (R85, R233). -/
def execFlag (pos tc : Nat) (s : State) : Result :=
  runInstr s pos tc 0x0A (bits 57 32 ||| bits 19 0) fun c t =>
    handWords c 1 [mkFlit c (c.f 20 12) false false (tileOf t c.pos).fl] (stepOn c 1 t)

/-- The words of a register block: the lanes of a VX register, or g24 to g31 (R235). -/
def blockWords (c : Ctx) (n : Nat) (t : Tile) : List (Nat × Bool) :=
  match kindOf c.pos with
  | .v => (List.range n).map fun w => (vxRead t (c.f 40 4) w, vxPoison t (c.f 40 4))
  | _ => [(gBlock t, (span 24 8).any (gPoison t))]

/-- Whether a register block of this kind of tile holds `n` words. -/
def blockHas (k : Kind) (n : Nat) : Bool := match k with
  | .v => decide (n ≤ 16)
  | .s => n == 1
  | _ => false

/-- SEND (R235): words of a bank or the commons are read one a tc and handed after it. -/
def execSend (pos tc : Nat) (s : State) : Result :=
  runInstr s pos tc 0x05 (bits 19 0) fun c t =>
    let n := c.f 32 8 + 1
    let tag := c.f 20 12
    match c.f 56 2 with
    | 0 => startRead c false (c.f 40 16) [] 0 (stepOn c 1 t)
    | 1 => startRead c true (c.f 40 16) [] 0 (stepOn c 1 t)
    | 2 => if n ≠ 1 then early c excIllegal t
      else handWords c 1 [mkFlit c tag false false (tileOf t c.pos).fl] (stepOn c 1 t)
    | _ => if !blockHas (kindOf c.pos) n then early c excIllegal t
      else handWords c 1 ((blockWords c n (tileOf t c.pos)).map fun w => mkFlit c tag false w.2 w.1) (stepOn c 1 t)

/-- RECV (R235): it waits while an earlier one has flits to take. -/
def execRecv (pos tc : Nat) (s : State) : Result :=
  runInstr s pos tc 0x06 (bits 31 0) fun c t =>
    let n := c.f 32 8 + 1
    let dst := c.f 56 2
    if dst = 3 ∨ (dst = 1 ∧ n ≠ 1) ∨ (dst = 2 ∧ !blockHas (kindOf c.pos) n) then early c excIllegal t
    else adjTile c.pos (fun u => { u with recv := some ⟨c, 0, n, false⟩ }) (stepOn c 1 t)

/-- BARW (R233): issue holds until a flit with its TAG is delivered. -/
def execBarw (pos tc : Nat) (s : State) : Result :=
  runInstr s pos tc 0x09 (bits 57 56 ||| bits 19 0) fun c t =>
    adjTile c.pos (fun u => { u with barw := some (c.f 20 12), tc := c.tc, clearing := false }) (countIssue c t)

/-- A BARW that waits ends: issue goes on after it. -/
def endBarw (pos tc : Nat) (s : State) : State :=
  adjTile pos (fun t =>
    let (p, l) := nextPc t.pc t.loops
    { t with barw := none, pc := p, loops := l, tc := tc + 1 }) s

/-- BARW_TIMEOUT (R233): a BARW has waited MAXW tc. -/
def execBarwTimeout (pos tc : Nat) (s : State) : Result :=
  if 1536 ≤ pos then .next s
  else atTc tc s fun s1 =>
    let t := tileOf s1 pos
    match t.barw, arrivalCtx s1 pos tc with
    | some _, some c =>
      if tc = t.tc + fld (kgetD t.store t.pc 0) 32 24 then endBarw pos tc (takeExc c excBarTimeout s1) else s1
    | _, _ => s1

/-! ## Parameter registers (R233, R242) -/

/-- LDP (R233): on an M-tile it holds the load unit, on a V-tile port A, for its NW reads (R518). -/
def execLdp (pos tc : Nat) (s : State) : Result :=
  runInstr s pos tc 0x0B (bits 33 0) fun c t =>
    let src := c.f 56 2
    let n := c.f 34 2 + 1
    if 2 ≤ src then early c excIllegal t
    else if 15 < c.f 36 4 + 4 * n - 1 then early c excOperand t
    else holdUnits c 0 (startRead c (src == 1) (c.f 40 16) [] 0 (stepOn c 1 t))

/-! ## Messages (R239) -/

/-- SENDM (R239): the header and the data words are read one a tc. -/
def execSendm (pos tc : Nat) (s : State) : Result :=
  runInstr s pos tc 0x07 (bits 39 0) fun c t =>
    startRead c (bitOf c.word 56) (c.f 40 16) [] (tileOf t c.pos).msgq.length (stepOn c 1 t)

/-! ## Windows (R222 to R225, R231, R238) -/

/-- Whether a window needs the clear of R224. -/
def needsClear (t : Tile) (w : WinDesc) : Bool := t.lastGlove != some w.glove

/-- What lands on a tile in a span of tc is lost to the clear of its registers (R224). -/
def dropLandings (pos lo hi : Nat) (s : State) : State :=
  { s with agenda := s.agenda.filter fun x => !(x.c.pos == pos && decide (lo ≤ x.tc) && decide (x.tc < hi) && match x.act with
      | .land _ => true
      | .load _ _ _ _ => true
      | .sums _ _ _ _ _ => true
      | _ => false) }

/-- WINDOW_START (R224, R225): the next window of the tile starts; its banks take their states before anything is done in that tc (R51). -/
def execWindowStart (pos win : Nat) (s : State) : Result :=
  if 1536 ≤ pos then .next s
  else
    let t := tileOf s pos
    match t.wins[win]? with
    | none => .next s
    | some w =>
      if t.run.isSome ∨ w.start < t.tc ∨ w.start < s.now ∨ !winLive s t w ∨ mgmtTiles.contains pos then .next s
      else
        let s1 := advanceTo w.start s
        let t := tileOf s1 pos
        let clr := needsClear t w
        let t1 := if clr then clearRegs (kindOf pos) t else t
        let t2 := { t1 with
          run := some win, lastWin := win, clearing := clr, lastGlove := some w.glove, pc := w.entry, loops := [],
          tc := if clr then w.start + 64 else w.start, ended := false, recv := none, barw := none
          slots := kadj t1.slots w.lslot fun x => { x with starts := x.starts + 1 } }
        let s2 := if clr then dropLandings pos w.start (w.start + 64) s1 else s1
        .next (declare pos w false (setTile pos t2 s2))

/-- WINDOW_END (R231, R238): the window of the tile ends. -/
def execWindowEnd (pos : Nat) (s : State) : Result :=
  if 1536 ≤ pos then .next s
  else match curWin (tileOf s pos) with
    | none => .next s
    | some w =>
      if w.stop < s.now then .next s
      else
        let s0 := advanceTo w.stop s
        match arrivalCtx s0 pos w.stop with
        | none => .next s
        | some c =>
          let t := tileOf s0 pos
          let live := match kget s0.launches c.launch with
            | some l => l.phase == .running
            | none => false
          let s1 := if !live then s0
            else if t.recv.isSome then takeExc c excRecvEmpty s0
            else if !t.ended then takeExc c excWindowEnd s0
            else s0
          .next (declare pos w true (adjTile pos (fun u => { u with
            run := none, tc := w.stop, clearing := false, ended := true, recv := none, barw := none,
            m := { u.m with meshRd := none } }) s1))

/-! ## The commons crossbar (R57, R141) -/

/-- COMMONS_QUEUED_SERVICE (R57, R141): the frame goes on to the tc in which a commons bank serves a request that waits there. -/
def execCommonsQueuedService (cluster bank : Nat) (s : State) : Result :=
  if 24 ≤ cluster ∨ 16 ≤ bank then .next s
  else match s.agenda.find? fun x => x.bank == some (cmnBank cluster bank) && decide (x.since < x.tc) with
  | some x => .next (advance x.tc s)
  | none => .next s

/-! ## Banks that change owner (R349, R350) -/

/-- BANK_OWNER_CHANGE (R349, R350): at B + 2 the owner becomes NEXT, before anything is done in that tc, and a scrub begins where one
follows. -/
def execBankOwnerChange (bank : Nat) (s : State) : Result :=
  if !bankExists bank then .next s
  else match changeAt s bank with
    | none => .next s
    | some (frame, tc) =>
      if s.frame.boundaries < frame then .next s
      else
        let s0 := if s.frame.boundaries = frame then advanceTo tc s else s
        let a := bankOwnerAddr bank
        let v := winGet s0 a
        let s1 := winPut s0 a 0 8 (fld v 8 8)
        if fld v 0 8 ≠ fld v 8 8 ∨ bitOf v 16 then
          .next (setHand bank (some .scrubbing) (setBankState bank 2 (winPut s1 a 18 1 1)))
        else .next (endHandover bank s1)

/-- BANK_HANDOVER_SCRUB_DONE (R350): the bank is ON and reads zero; in a domain that is off it stays OFF until the domain is on (R53). -/
def execBankHandoverScrubDone (bank : Nat) (s : State) : Result :=
  if !bankExists bank then .next s
  else if (bankAux s bank).hand ≠ some .scrubbing then .next s
  else
    let s1 := setBankState bank 3 (zeroBank bank s)
    .next (endHandover bank (setBankAux bank { bankAux s1 bank with
      fromOff := (bankAux s1 bank).fromOff && !domainOn s (bankDomain bank) } s1))

/-! ## Banks at rest (R51, R54) -/

/-- Whether an admitted launch's windows declare a bank ON at some time. -/
def declaredOn (s : State) (b : Nat) : Bool :=
  (admittedLaunches s).any fun l => l.tiles.any fun t => t.2.any fun w =>
    if bankIsCmn b then
      t.1 == bankPos b && bitOf w.cdecl (bankNo b) && (fld w.cin (2 * bankNo b) 2 == 3 || fld w.cafter (2 * bankNo b) 2 == 3)
    else t.1 == b / 4 && bitOf w.decl (b % 4) && (fld w.stIn (2 * (b % 4)) 2 == 3 || fld w.stAfter (2 * (b % 4)) 2 == 3)

/-- BANK_WAKE (R51): the bank wakes toward ON. -/
def execBankWake (bank : Nat) (s : State) : Result :=
  if !bankExists bank then .next s
  else if bankState s bank < 2 ∧ domainOn s (bankDomain bank) ∧ declaredOn s bank then .next (setBankState bank 2 s)
  else .next s

/-- The check latches of the launch slots at a bank's tile whose glove owns the bank (R397). -/
def latchOwner (b : Nat) (s : State) : State :=
  let pos := bankPos b
  (tileOf s pos).slots.foldl (fun t p =>
    match kget t.launches p.2.launch with
    | some l => if l.glove = bankOwner t b then setLatch pos p.1 t else t
    | none => t) s

/-- BANK_SCRUB_VISIT (R54): a word of a bank that is ON is read, and its single-bit errors are corrected. -/
def execBankScrubVisit (bank word : Nat) (s : State) : Result :=
  if !bankExists bank ∨ bankWords bank ≤ word then .next s
  else if bankState s bank ≠ 3 then .next s
  else
    let a := bankBase bank + 64 * word
    let s1 := { s with ecc := s.ecc.filter fun p => !(decide (a / 8 ≤ p.1) && decide (p.1 < a / 8 + 8) && p.2 == .single) }
    .next (if eccMask s a = 0 then s1 else raise 141 (latchOwner bank s1))

end Sys2Proof.Machine
end

