-- ==== Sys2Proof/Machine/STile.lean ====
section
/-! DEFINITION. S-tiles (R249 to R255) and the management complex (R261). -/

namespace Sys2Proof.Machine

def excMisaligned : Nat := 9

/-! ## Integer functions (R250) -/

/-- The integer functions; none where FN is not listed. -/
def aluResult (fn a b : Nat) : Option Nat :=
  let ia := signed 64 a
  let ib := signed 64 b
  match fn with
  | 0 => some ((a + b) % 2 ^ 64)
  | 1 => some (unsigned 64 (ia - ib))
  | 2 => some (Nat.land a b)
  | 3 => some (Nat.lor a b)
  | 4 => some (Nat.xor a b)
  | 5 => some ((a <<< (b % 64)) % 2 ^ 64)
  | 6 => some (a >>> (b % 64))
  | 7 => some (unsigned 64 (ia / 2 ^ (b % 64)))
  | 8 => some (a * b % 2 ^ 64)
  | 9 => some (unsigned 64 (ia * ib / 2 ^ 64))
  | 10 => some (a * b / 2 ^ 64)
  | 11 => some (if b = 0 then 2 ^ 64 - 1 else unsigned 64 (ia.tdiv ib))
  | 12 => some (if b = 0 then 2 ^ 64 - 1 else a / b)
  | 13 => some (if b = 0 then a else unsigned 64 (ia.tmod ib))
  | 14 => some (if b = 0 then a else a % b)
  | 15 => some (ofBool (decide (ia < ib)))
  | 16 => some (ofBool (decide (a < b)))
  | 17 => some (ofBool (a == b))
  | _ => none

/-- Registers that an instruction reads: POISON where one is poisoned (R256). -/
def readsPoison (c : Ctx) (s : State) (l : List Nat) : Bool := l.any (gPoison (tileOf s c.pos))

/-- The latency of an integer function (R250). -/
def aluLatency (fn : Nat) : Nat := if fn = 8 ∨ fn = 9 ∨ fn = 10 then 3 else if 11 ≤ fn ∧ fn ≤ 14 then 34 else 1

/-- The latency of a floating-point function (R250). -/
def fpuLatency (fn : Nat) : Nat := match fn with
  | 0x23 => 12
  | 0x33 => 24
  | 0x24 => 14
  | 0x34 => 28
  | _ => 4

/-- An instruction of one result: its causes at issue, then its register, `d` tc after issue. -/
def toReg (c : Ctx) (s : State) (reads : List Nat) (gd d : Nat) (v : Option Nat) : State :=
  match v with
  | none => early c excIllegal s
  | some x => match issueCause c [(readsPoison c s reads, excPoison)] with
    | some e => early c e s
    | none => sched c d (.land (.g gd x (readsPoison c s reads))) (stepOn c 1 s)

/-- ALU (R250). -/
def execAlu (pos tc : Nat) (s : State) : Result :=
  runInstr s pos tc 0x30 (bits 36 0) fun c t =>
    let u := tileOf t c.pos
    toReg c t [c.f 42 5, c.f 37 5] (c.f 47 5) (aluLatency (c.f 52 6)) (aluResult (c.f 52 6) (gGet u (c.f 42 5)) (gGet u (c.f 37 5)))

/-- ALUI (R250). -/
def execAlui (pos tc : Nat) (s : State) : Result :=
  runInstr s pos tc 0x31 (bits 9 0) fun c t =>
    let u := tileOf t c.pos
    toReg c t [c.f 42 5] (c.f 47 5) (aluLatency (c.f 52 6)) (aluResult (c.f 52 6) (gGet u (c.f 42 5)) (unsigned 64 (signed 32 (c.f 10 32))))

/-- The registers that an FPU function reads: square root and the conversions read ga alone. -/
def fpuReads (c : Ctx) : List Nat := if [4, 9, 10, 11].contains (c.f 52 6 % 16) then [c.f 42 5] else [c.f 42 5, c.f 37 5]

/-- FPU (R250): the result, and the sticky flags. -/
def execFpu (pos tc : Nat) (s : State) : Result :=
  runInstr s pos tc 0x32 (bits 36 0) fun c t =>
    let u := tileOf t c.pos
    match fpuResult (c.f 52 6) (gGet u (c.f 42 5)) (gGet u (c.f 37 5)) with
    | none => early c excIllegal t
    | some r => match issueCause c [(readsPoison c t (fpuReads c), excPoison)] with
      | some e => early c e t
      | none =>
        let (free, t1) := if r.tiny then drawFree t else (0, t)
        let flags := r.flags + (if r.tiny && bitOf free.toNat 0 then fpUnderflow else 0)
        landIn c (fpuLatency (c.f 52 6)) [.g (c.f 47 5) r.bits (readsPoison c t (fpuReads c)), .fpOr flags] (stepOn c 1 t1)

/-! ## Loads and stores (R251) -/

/-- The address of an LD or ST. -/
def memAddr (c : Ctx) (t : Tile) : Nat := unsigned 64 ((gGet t (c.f 43 5) : Int) + signed 24 (c.f 19 24))

/-- Whether an address bit outside a space's form is set. -/
def addrBad (cmn : Bool) (a : Nat) : Bool := if cmn then decide (2 ^ 22 ≤ a) else decide (2 ^ 17 ≤ a)

/-- The bank, word and byte of an address (R251). -/
def addrPlace (pos : Nat) (cmn : Bool) (a : Nat) : Nat × Nat × Nat :=
  if cmn then (cmnBank (clusterOf pos) (a / 2 ^ 18), a % 2 ^ 18 / 64, a % 64) else (tileBank pos (a / 2 ^ 16), a % 2 ^ 16 / 64, a % 64)

/-- The causes at issue of an LD or ST. -/
def memCauses (c : Ctx) (s : State) (regs : List Nat) : List (Bool × Nat) :=
  let a := memAddr c (tileOf s c.pos)
  let size := 2 ^ c.f 54 2
  [(decide (2 ≤ c.f 56 2), excIllegal), (addrBad (c.f 56 2 == 1) a, excOperand), (a % size != 0, excMisaligned),
    (readsPoison c s regs, excPoison)]

/-- LD (R251): the byte that it reads stands in the read's argument. -/
def execLd (pos tc : Nat) (s : State) : Result :=
  runInstr s pos tc 0x33 (bits 18 0) fun c t =>
    match issueCause c (memCauses c t [c.f 43 5]) with
    | some e => early c e t
    | none =>
      let cmn := c.f 56 2 == 1
      let (b, w, off) := addrPlace c.pos cmn (memAddr c (tileOf t c.pos))
      sched c (bankLag cmn 0) (.read b w 0 [] off) (stepOn c 1 t)

/-- ST (R46, R251). -/
def execSt (pos tc : Nat) (s : State) : Result :=
  runInstr s pos tc 0x34 (bits 18 0 ||| bits 53 53) fun c t =>
    match issueCause c (memCauses c t [c.f 43 5, c.f 48 5]) with
    | some e => early c e t
    | none =>
      let cmn := c.f 56 2 == 1
      let u := tileOf t c.pos
      let (b, w, off) := addrPlace c.pos cmn (memAddr c u)
      sched c (bankLag cmn 0) (.store b w (.write off (leBytes (2 ^ c.f 54 2) (gGet u (c.f 48 5))))) (stepOn c 1 t)

/-! ## Branches (R227, R229, R252, R261) -/

/-- The conditions; none where COND is not listed. -/
def brTaken (cond a b : Nat) : Option Bool :=
  match cond with
  | 0 => some true
  | 1 => some (a == b)
  | 2 => some (a != b)
  | 3 => some (decide (signed 64 a < signed 64 b))
  | 4 => some (decide (signed 64 b ≤ signed 64 a))
  | 5 => some (decide (a < b))
  | 6 => some (decide (b ≤ a))
  | 7 => some (bitOf a (b % 64))
  | _ => none

/-- Whether a branch may go to a target: inside the innermost active loop and the store, except in the management complex. -/
def targetOk (c : Ctx) (t : Tile) (target : Nat) : Bool :=
  c.free || (decide (target < 8192) && match t.loops with
    | [] => true
    | f :: _ => decide (f.first ≤ target) && decide (target ≤ f.last))

/-- A branch resolves: it occupies issue for 3 tc either way. -/
def branch (c : Ctx) (taken : Bool) (target : Nat) (s : State) : State :=
  let s1 := stepOn c 3 s
  if taken then adjTile c.pos (fun t => { t with pc := target, loops := (tileOf s c.pos).loops }) s1 else s1

/-- BR (R252). -/
def execBr (pos tc : Nat) (s : State) : Result :=
  runInstr s pos tc 0x35 (bits 31 0) fun c t =>
    let u := tileOf t c.pos
    let cond := c.f 54 4
    let a := gGet u (c.f 49 5)
    let disp : Int := if c.free then signed 12 (c.f 32 12) else (c.f 32 12 : Int)
    let indirect := c.free && cond == 8
    match (if indirect then some true else brTaken cond a (gGet u (c.f 44 5))) with
    | none => early c excIllegal t
    | some taken =>
      let target := if indirect then a % 8192 else (((u.pc : Int) + 1 + disp) % 8192).toNat
      let far := !c.free && (disp == 0 || decide (8192 ≤ u.pc + 1 + c.f 32 12) || !targetOk c u target)
      let regs := if indirect then [c.f 49 5] else if cond = 0 then [] else [c.f 49 5, c.f 44 5]
      match issueCause c [(far, excOperand), (readsPoison c t regs, excPoison)] with
      | some e => early c e t
      | none => branch c taken target t

/-! ## System registers (R254, R255, R261) -/

/-- The value of a system register; none where it is not listed. -/
def sysRead (c : Ctx) (s : State) (n : Nat) : Option Nat :=
  match n with
  | 0 => some c.tc
  | 1 => some c.glove
  | 2 => some c.win
  | 3 => some (ofBool (kgetD (tileOf s c.pos).slots c.lslot SlotSt.blank).ctl)
  | 4 => some (tileOf s c.pos).s.fp
  | 5 => some (odGet s 0x2100 3)
  | 6 => some (sysAt s c.tc)
  | _ => none

/-- Whether the launch of the window runs in a relaxed glove (R255). -/
def runsRelaxed (c : Ctx) (s : State) : Bool := match kget s.launches c.launch with
  | some l => !c.free && isRelaxed s l
  | none => false

/-- SYS (R254); WAITI holds issue in the management complex until a watched interrupt is pending (R261). -/
def execSys (pos tc : Nat) (s : State) : Result :=
  runInstr s pos tc 0x36 (bits 55 53 ||| bits 31 0) fun c t =>
    let write := bitOf c.word 57
    let g := c.f 48 5
    let n := c.f 32 16
    if bitOf c.word 56 && !c.free then early c excIllegal t
    else if bitOf c.word 56 && !watchHit t then adjTile c.pos (fun u => { u with waiti := true }) t
    else
      let t0 := adjTile c.pos (fun u => { u with waiti := false }) t
      if write then
        if n ≠ 4 then early c excIllegal t0
        else match issueCause c [(readsPoison c t0 [g], excPoison)] with
          | some e => early c e t0
          | none => sched c 1 (.land (.fp (gGet (tileOf t0 c.pos) g % 32))) (stepOn c 1 t0)
      else match sysRead c t0 n with
        | none => early c excIllegal t0
        | some v =>
          if (n = 5 ∨ n = 6) ∧ !runsRelaxed c t0 then early c excIllegal t0
          else
            let t1 := sched c 1 (.land (.g g v false)) (stepOn c 1 t0)
            if n = 5 ∨ n = 6 then ndCount c.launch 5 1 t1 else t1

/-! ## LI and FLS (R253) -/

/-- LI (R253). -/
def execLi (pos tc : Nat) (s : State) : Result :=
  runInstr s pos tc 0x37 (bits 57 53 ||| bits 46 32) fun c t =>
    let u := tileOf t c.pos
    let gd := c.f 48 5
    if bitOf c.word 47 then toReg c t [gd] gd 1 (some (fld (gGet u gd) 0 32 + c.f 0 32 * 2 ^ 32))
    else toReg c t [] gd 1 (some (unsigned 64 (signed 32 (c.f 0 32))))

/-- FLS (R253). -/
def execFls (pos tc : Nat) (s : State) : Result :=
  runInstr s pos tc 0x38 (bits 42 0) fun c t =>
    let u := tileOf t c.pos
    let b := c.f 49 9
    let g := c.f 44 5
    if bitOf c.word 43 then toReg c t [] g 1 (some (ofBool (bitOf u.fl b)))
    else match issueCause c [(readsPoison c t [g], excPoison)] with
      | some e => early c e t
      | none => sched c 1 (.land (.flBit b (gGet u g != 0))) (stepOn c 1 t)

end Sys2Proof.Machine
end

