-- ==== Sys2Proof/Machine/Bound.lean ====
section
/-! DEFINITION. The bound that admission computes on frame programs (R108, R225, R230, R237): the windows of a tile run tc by tc on the
timing of their instructions alone, every branch both ways, every loop at its COUNT and every BARW at its MAXW. What only data would tell
is taken at its latest: RSC as RAW64, SENDM with 256 words, the banks that a TOPK's descriptor names as contended (log entry 89). No
commons request queues (R104). -/

namespace Sys2Proof.Machine

/-! ## The timing of an instruction word (R104, R105, R114, R117, R233, R235, R239, R244, R250, R251) -/

/-- The registers that an instruction writes, each with the tc after issue from which it may be read. -/
def resultsAt (w : Nat) : List (Nat × Nat) :=
  let f (lo n : Nat) : Nat := fld w lo n
  let from_ : Nat := if f 56 2 = 1 then 7 else 3
  match f 58 6 with
  | 0x0B => (List.range (4 * (f 34 2 + 1))).map fun i => (keyPm (f 36 4 + i), from_ + i / 4)
  | 0x20 => [(keyVx (f 36 4), from_ + f 32 4)]
  | 0x22 => [(if f 52 6 = 17 then keyFl else if f 52 6 = 19 then keyGm else if f 52 6 = 21 then keyEv else keyVx (f 48 4), 3)]
  | 0x23 => [(keyVx (f 48 4), 4)]
  | 0x24 => (match f 55 3 with
    | 0 => (List.range 4).map fun k => (keyVx (f 51 4 + k), 12)
    | _ => [(keyVx (f 51 4), 12), (keyFl, 12)])
  | 0x25 => [(keyVx (if f 56 2 = 2 then f 44 4 else f 52 4), 14), (keyEv, 14)] ++
      (if f 56 2 = 0 then [(keyVx (f 44 4), 14)] else []) ++ (if f 56 2 = 1 then [] else [(keyFl, 14)])
  | 0x26 => [(keyVx (f 13 4), 80)]
  | 0x27 => [(keyMap, 11)]
  | 0x28 => [(keyVx (f 50 4), 6)]
  | 0x29 => [(keyPm (8 + f 55 3), 1)]
  | 0x30 => [(keyG (f 47 5), aluLatency (f 52 6))]
  | 0x31 => [(keyG (f 47 5), aluLatency (f 52 6))]
  | 0x32 => [(keyG (f 47 5), fpuLatency (f 52 6)), (keyFp, fpuLatency (f 52 6))]
  | 0x33 => [(keyG (f 48 5), if f 56 2 = 1 then 5 else 3)]
  | 0x36 => [(if bitOf w 57 then keyFp else keyG (f 48 5), 1)]
  | 0x37 => [(keyG (f 48 5), 1)]
  | 0x38 => [(if bitOf w 43 then keyG (f 44 5) else keyFl, 1)]
  | _ => []

/-- The list words that a TOPK reads. -/
def listWords (w : Nat) : Nat := if bitOf w 34 then (fld w 35 8 + 8) / 8 else 0

/-- The tc after issue of an instruction's last effect. -/
def lastAt (w : Nat) : Nat :=
  let f (lo n : Nat) : Nat := fld w lo n
  let n := f 32 8 + 1
  let slots := f 44 7 + 1
  match f 58 6 with
  | 0x05 => (match f 56 2 with
    | 0 => n + 1
    | 1 => n + 4
    | 2 => 1
    | _ => n)
  | 0x07 => if bitOf w 56 then 258 else 257
  | 0x08 => 1
  | 0x0A => 1
  | 0x10 => (lacOf w).last + (lacOf w).cols + 3
  | 0x11 => ldcWords (f 38 2) + (if f 56 2 = 2 then 6 else 2)
  | 0x12 => 16 * slots + 6
  | 0x13 => 13 + 8 * slots + listWords w + (f 35 8 + 8) / 8
  | 0x21 => f 32 4 + 2
  | 0x28 => 7
  | 0x34 => if f 56 2 = 1 then 2 else 1
  | _ => (resultsAt w).foldl (fun m x => max m x.2) 0

/-- The uses of an M-tile's port A, each with its tc after issue and its bank. -/
def portUses (w : Nat) : List (Nat × Option Nat) :=
  let f (lo n : Nat) : Nat := fld w lo n
  let bank : Option Nat := some (f 51 2)
  let own (n : Nat) : List (Nat × Option Nat) := if f 56 2 = 0 then (span 1 n).map fun t => (t, bank) else []
  let slots := f 44 7 + 1
  let outs := (f 35 8 + 8) / 8
  let none_ (a n : Nat) : List (Nat × Option Nat) := (span a n).map fun t => (t, none)
  match f 58 6 with
  | 0x05 => own (f 32 8 + 1)
  | 0x0B => own (f 34 2 + 1)
  | 0x10 => own (lacOf w).words ++
      if f 56 2 = 1 then (span 1 (lacOf w).words).flatMap fun t => [(t, bank), (t, some (Nat.xor (f 51 2) 1))] else []
  | 0x11 => own (ldcWords (f 38 2))
  | 0x12 => if bitOf w 43 then [] else (span 6 (16 * slots)).map fun t => (t, some (f 38 2))
  | 0x13 => none_ (2 + 8 * slots) (listWords w) ++ if bitOf w 43 then [] else none_ (13 + 8 * slots + listWords w) outs
  | _ => []

/-- The place in the order of R106. -/
def portRank (opc : Nat) : Nat := match opc with
  | 0x10 => 0
  | 0x0B => 1
  | 0x11 => 1
  | 0x12 => 2
  | 0x13 => 3
  | _ => 4

/-! ## A run on timing alone -/

/-- An instruction under way: its place in the order of R106, the port A uses that it has left, the tc from which its registers and
units are ready, its last effect, and the tc under which that must fall. -/
structure Job where
  prec : Nat
  uses : List (Nat × Option Nat)
  marks : List (Nat × Nat)
  last : Nat
  limit : Option Nat
  deriving DecidableEq, Repr

/-- Where a run of a tile stands: the earliest next issue, the program counter, the loops, the instructions under way, a RECV's flits
and registers, the slots of a mesh-sourced LAC, whether the window's program has ended, the limit of its effects, and whether a rule is
broken. -/
structure Sim where
  tc : Nat
  pc : Nat
  loops : List LoopFr
  jobs : List Job
  recv : Option (Nat × List Nat)
  mesh : Nat × Nat
  ended : Bool
  limit : Option Nat
  bad : Bool
  deriving DecidableEq, Repr

def Sim.blank : Sim := ⟨0, 0, [], [], none, (0, 0), true, none, false⟩

/-- The job of an instruction issued at `t`. -/
def jobAt (k : Kind) (w t : Nat) (limit : Option Nat) : Job where
  prec := portRank (fld w 58 6)
  uses := if k = .m then (portUses w).map fun u => (t + u.1, u.2) else []
  marks := (resultsAt w ++ unitsHeld k w 4).map fun x => (x.1, t + x.2)
  last := t + lastAt w
  limit := limit

/-- Whether a job loses port A in a tc to another that comes before it (R106). -/
def jobLoses (now : Nat) (l : List Job) (i : Nat) (j : Job) : Bool :=
  j.uses.any fun u => u.1 == now && (List.range l.length).any fun n => match l[n]? with
    | some x => n != i && (decide (x.prec < j.prec) || (x.prec == j.prec && decide (n < i))) &&
      x.uses.any fun v => v.1 == now && (u.2 == none || v.2 == none || u.2 == v.2)
    | none => false

/-- A job waits a tc. -/
def Job.wait (now : Nat) (j : Job) : Job :=
  { j with
    uses := j.uses.map fun u => (if now ≤ u.1 then u.1 + 1 else u.1, u.2)
    marks := j.marks.map fun m => (m.1, if now < m.2 then m.2 + 1 else m.2)
    last := j.last + 1 }

/-- Port A of a tc, and the jobs that are over. -/
def Sim.ports (now : Nat) (s : Sim) : Sim :=
  let l := (List.range s.jobs.length).filterMap fun i => (s.jobs[i]?).map fun j => if jobLoses now s.jobs i j then j.wait now else j
  let past (j : Job) : Bool := match j.limit with
    | some x => decide (x ≤ j.last)
    | none => false
  { s with
    bad := s.bad || l.any past
    jobs := (l.filter fun j => decide (now < j.last) || j.marks.any fun m => decide (now < m.2)).map fun j =>
      { j with uses := j.uses.filter fun u => decide (now < u.1), marks := j.marks.filter fun m => decide (now < m.2) } }

/-- A flit of the plan at the local output goes to a RECV where no mesh-sourced LAC reads that slot (R237). -/
def Sim.flit (now : Nat) (slot : Bool) (s : Sim) : Sim :=
  if !slot || (decide (s.mesh.1 ≤ now) && decide (now < s.mesh.2)) then s
  else match s.recv with
    | none => s
    | some (n, keys) =>
      if n ≤ 1 then { s with recv := none, jobs := s.jobs ++ [⟨4, [], (unitRecv, now + 1) :: keys.map fun k => (k, now + 2), now + 2, s.limit⟩] }
      else { s with recv := some (n - 1, keys) }

/-- Whether the next instruction can issue (R226). -/
def Sim.ready (k : Kind) (w now : Nat) (s : Sim) : Bool :=
  let free (key lag : Nat) : Bool := s.jobs.all fun j => j.marks.all fun m => m.1 != key || decide (m.2 ≤ now + lag)
  (readKeys k w).all (fun key => free key 0 && (match s.recv with
    | some r => !r.2.contains key
    | none => true)) &&
  (unitsUsed k w).all (fun u => free u.1 u.2) && (fld w 58 6 != 6 || s.recv.isNone)

/-- Issue goes on after `cost` tc. -/
def Sim.on (now cost : Nat) (s : Sim) : Sim :=
  let (p, l) := nextPc s.pc s.loops
  { s with tc := now + cost, pc := p, loops := l }

/-- What an instruction leads to, at a tc of its window. -/
def Sim.issue (k : Kind) (w now stop : Nat) (s : Sim) : List Sim :=
  let f (lo n : Nat) : Nat := fld w lo n
  if !opcLegal k (f 58 6) then [s.on now 1]
  else match f 58 6 with
    | 0x00 => [s.on now (f 0 16 + 1)]
    | 0x01 => [s.on now (if stop ≤ f 0 32 then 1 else max 1 (f 0 32 - now))]
    | 0x02 =>
      let body := f 24 12 + 1
      if 4 ≤ s.loops.length ∨ storeWords k ≤ s.pc + body then [s.on now 1]
      else [{ s with tc := now + 1, pc := s.pc + 1, loops := ⟨s.pc + 1, s.pc + body, f 0 24⟩ :: s.loops }]
    | 0x03 => [{ s with ended := true }]
    | 0x06 => [{ s.on now 1 with recv := some (f 32 8 + 1, match f 56 2 with
      | 1 => [keyFl]
      | 2 => if k = .v then [keyVx (f 40 4)] else (span 24 8).map keyG
      | _ => []) }]
    | 0x09 => [s.on now (f 32 24 + 1)]
    | 0x35 => [s.on now 3, { s with tc := now + 3, pc := (s.pc + 1 + f 32 12) % storeWords k }]
    | _ =>
      let s1 := s.on now 1
      let s2 := { s1 with jobs := s1.jobs ++ [jobAt k w now s.limit] }
      if f 58 6 = 0x10 ∧ f 56 2 = 3 then
        let n := (lacOf w).slots
        [{ s2 with mesh := (now, now + n), bad := s2.bad || (span now n).any fun t => t % 8 == 7 }]
      else [s2]

/-- A window as the bound sees it: its descriptor, whether it clears, and the first tc of the next window of another glove. -/
structure BWin where
  w : WinDesc
  clr : Bool
  limit : Option Nat
  deriving DecidableEq, Repr

/-- One tc of a tile. -/
def Sim.step (k : Kind) (store : KMap Nat) (wins : List BWin) (slot : Nat → Bool) (now : Nat) (s : Sim) : List Sim :=
  let s0 := match wins.find? fun x => x.w.start == now with
    | some x => { s with tc := if x.clr then now + 64 else now, pc := x.w.entry, loops := [], recv := none, ended := false, limit := x.limit }
    | none => s
  let s1 := (s0.ports now).flit now (slot now)
  match wins.find? fun x => decide (x.w.start ≤ now) && decide (now < x.w.stop) with
  | none => [{ s1 with recv := none, ended := true, mesh := (0, 0) }]
  | some x =>
    let w := kgetD store s1.pc 0
    if s1.ended || decide (now < s1.tc) || !s1.ready k w now then [s1] else s1.issue k w now x.w.stop

/-- No rule is broken in the tc that remain, whichever way its branches go; past the tc `last`, the end of the last window, a run with
nothing under way is over. -/
def simRun (k : Kind) (store : KMap Nat) (wins : List BWin) (slot : Nat → Bool) (last : Nat) : Nat → List Sim → Nat → Bool
  | 0, l, _ => l.all fun s => !s.bad
  | n + 1, l, now =>
    (l.all fun s => !s.bad) && ((decide (last < now) && l.all fun s => s.jobs.isEmpty) ||
      simRun k store wins slot last n (l.flatMap (Sim.step k store wins slot now)).eraseDups (now + 1))

/-- The windows of a tile in their order as the bound sees them: each glove's limit is the next window of another one, round the frame. -/
def boundWins (frame : Nat) (ws : List WinDesc) : List BWin :=
  (List.range ws.length).filterMap fun i => (ws[i]?).map fun w =>
    let later := (ws.filter fun v => v.glove != w.glove && decide (w.stop ≤ v.start)).map (·.start)
    let round := (ws.filter fun v => v.glove != w.glove).map fun v => v.start + frame
    ⟨w, ((ws[if i = 0 then ws.length - 1 else i - 1]?).map fun v => v.glove != w.glove).getD false, (later ++ round).min?⟩

/-- The frame programs of a tile keep R108 and R237: from the frame's start until every effect of its last window has come. -/
def boundOk (k : Kind) (frame : Nat) (store : KMap Nat) (ws : List WinDesc) (slot : Nat → Bool) : Bool :=
  let last := (ws.map (·.stop)).foldl max 0
  simRun k store (boundWins frame ws) slot last (last + 8192) [Sim.blank] 0

end Sys2Proof.Machine
end

