-- ==== Sys2Proof/Machine/Combine.lean ====
section
/-! DEFINITION. The combine operations of routers and Prolux port tiles (R81 to R86, R450), on words of eight 64-bit lanes. -/

namespace Sys2Proof.Machine

/-- ADD: lane by lane, modulo 2^64 (R82). -/
def combineAdd (ws : List Nat) : Nat := ofLanes fun k => ws.foldl (fun a w => a + lane w k) 0

/-- BAR: lane 1 is the larger, the other lanes are added (R84). -/
def combineBar (ws : List Nat) : Nat :=
  ofLanes fun k => if k = 1 then ws.foldl (fun a w => max a (lane w 1)) 0 else ws.foldl (fun a w => a + lane w k) 0

/-- FLAG: the bits of any input (R85). -/
def combineFlag (ws : List Nat) : Nat := ws.foldl (fun a w => a ||| w) 0

/-- The eight entries of a word. -/
def wordEntries (w : Nat) : List Nat := (List.range 8).map (lane w)

/-- The input whose head goes next: on equal heads the first (R83). -/
def bestHead : List (Nat × Nat) → Option (Nat × Nat)
  | [] => none
  | h :: l => match bestHead l with
    | none => some h
    | some b => if precedes b.2 h.2 then some b else some h

/-- `n` steps of the merge (R83): what each of the `ins` has seen, what of it has been read, and the entries that leave. -/
def mergeSteps (ins : List (Nat × List Nat)) : Nat → List Nat → List Nat × List Nat
  | 0, p => ([], p)
  | n + 1, p =>
    match bestHead (ins.filterMap fun x => (x.2[p.getD x.1 0]?).map fun e => (x.1, e)) with
    | none => ([], p)
    | some (i, e) =>
      let (l, q) := mergeSteps ins n (p.set i (p.getD i 0 + 1))
      (e :: l, q)

/-- No list has begun. -/
def TopkSt.blank : TopkSt := ⟨List.replicate 5 [], List.replicate 5 0, false⟩

/-- One slot of a TOPK merge: the words of the inputs named join their lists, and eight entries leave (R83). -/
def topkWord (t : TopkSt) (ws : List (Nat × Nat)) (poison : Bool) : Nat × Bool × TopkSt :=
  let ins := ws.foldl (fun a w => a.set w.1 (a.getD w.1 [] ++ wordEntries w.2)) t.ins
  let (l, p) := mergeSteps (ws.map fun w => (w.1, ins.getD w.1 [])) 8 t.pos
  (ofLanes fun i => l.getD i 0, t.poison || poison, ⟨ins, p, t.poison || poison⟩)

/-- The merge of two whole lists of words (R83, R450). -/
def topkLists (a b : List Nat) : List Nat :=
  let ins := [(0, a.flatMap wordEntries), (1, b.flatMap wordEntries)]
  entryWords (mergeSteps ins (8 * a.length) [0, 0]).1

/-- Two contributions of one round, word by word (R450); the codes of OP are those of R72. -/
def combineRound (op : Nat) (a b : List Nat) : List Nat :=
  if op = 3 then topkLists a b
  else a.zipWith (fun x y => if op = 2 then combineAdd [x, y] else if op = 4 then combineBar [x, y] else combineFlag [x, y]) b

/-- A word whose value the manual does not state (log entry 9). -/
def drawWord (s : State) : Nat × State :=
  (ofLanes fun i => (Config.freeValue (s.freeCtr + i)).toNat, { s with freeCtr := s.freeCtr + 8 })

end Sys2Proof.Machine
end

