-- ==== Sys2Proof/Machine/Exchange.lean ====
section
/-! DEFINITION. The exchange of a Prolux port tile (R441, R442, R448 to R453): cells and their order, entries and their rounds, what
its slots take and hand, credits, and the combination of two contributions. -/

namespace Sys2Proof.Machine

def plxOf (s : State) (pos : Nat) : PlxPort := kgetD s.plx pos PlxPort.blank
def setPlx (pos : Nat) (p : PlxPort) (s : State) : State := { s with plx := kput s.plx pos p }
def adjPlx (pos : Nat) (f : PlxPort → PlxPort) (s : State) : State := setPlx pos (f (plxOf s pos)) s

/-- The link and half of a Prolux port tile (R439). -/
def plxLink (pos : Nat) : Nat × Nat := match portFn pos with
  | .plx l h => (l, h)
  | _ => (0, 0)

def isPlx (pos : Nat) : Bool := (List.range 12).any fun i => plxTile (i / 2) (i % 2) == pos

/-- The state of a half-link, coded as PlxState (R457). -/
def halfState (s : State) (pos : Nat) : Nat := fld (winGet s (tileBase pos + 0xF1000)) 0 3

/-! ## Cells (R441, R442) -/

/-- Kinds of cell. -/
def kindExchange : Nat := 0
def kindTime : Nat := 1
def kindNotice : Nat := 2
def kindRecord : Nat := 3
def kindCredit : Nat := 5

/-- The first 72 bytes of a cell. -/
def cellHead (kind tag : Nat) (poison : Bool) (glove version seq : Nat) (data : List Byte) : List Byte :=
  (data ++ List.replicate (64 - data.length) 0) ++ leBytes 2 (tag % 4096 + 4096 * ofBool poison + 8192 * kind) ++
    leBytes 1 glove ++ [0] ++ leBytes 2 version ++ leBytes 2 seq

/-- A whole cell: the acknowledgement and the CRC are added as it leaves. -/
def cellOf (ack : Nat) (head : List Byte) : List Byte :=
  let b := head ++ leBytes 2 ack ++ [0, 0]
  b ++ leBytes 4 (crc32c b)

/-- A cell leaves the half-link, where it can now; it is kept for replay, or held while the half-link trains; a miswired one carries
time cells only (R442 to R444). -/
def emitCell (pos : Nat) (head : List Byte) (s : State) : State :=
  let p := plxOf s pos
  let st := halfState s pos
  if st = 3 ∧ leNat ((head.drop 64).take 2) / 8192 = kindTime then { s with out := .plxCell pos (cellOf p.seqIn head) :: s.out }
  else if st = 2 ∧ p.replay.length < 1024 ∧ p.held = [] then
    { setPlx pos { p with replay := p.replay ++ [(leNat ((head.drop 70).take 2), head)] } s with
      out := .plxCell pos (cellOf p.seqIn head) :: s.out }
  else if st = 1 ∨ st = 2 then setPlx pos { p with held := p.held ++ [head] } s
  else s

/-- Send a cell with the next sequence number. -/
def sendCell (pos kind tag : Nat) (poison : Bool) (glove version : Nat) (data : List Byte) (s : State) : State :=
  let seq := ((plxOf s pos).seqOut + 1) % 2 ^ 16
  emitCell pos (cellHead kind tag poison glove version seq data) (adjPlx pos (fun p => { p with seqOut := seq }) s)

/-- Send what has been held, as far as the replay buffer has room (R442, R443). -/
def releaseHeld (pos : Nat) : Nat → State → State
  | 0, s => s
  | n + 1, s =>
    let p := plxOf s pos
    match p.held with
    | [] => s
    | h :: l =>
      if halfState s pos = 2 ∧ p.replay.length < 1024 then
        releaseHeld pos n { setPlx pos { p with
          held := l
          replay := p.replay ++ [(leNat ((h.drop 70).take 2), h)] } s with
            out := .plxCell pos (cellOf p.seqIn h) :: s.out }
      else s

/-! ## Rounds (R449) -/

def entAdj (pos i : Nat) (f : XEnt → XEnt) (s : State) : State := adjPlx pos (fun p => { p with ents := p.ents.modify i f }) s

/-- The words of a round that have come. -/
def roundOf (m : KMap Words2) (r : Nat) : Words2 := kgetD m r []

/-- Add a word to a round. -/
def roundAdd (m : KMap Words2) (r : Nat) (w : Nat × Bool) : KMap Words2 := kput m r (roundOf m r ++ [w])

/-- A poisoned word of a round that a failed link will not deliver (R455); its value is open. -/
def lostWord (e : XEnt) (r i : Nat) : Nat × Bool :=
  (ofLanes fun k => (Config.openResult (2 ^ 16 + e.tag) (r * 2 ^ 24 + i) k).toNat, true)

/-- A word of INIT for a round before LAG (R449). -/
def initWord (s : State) (e : XEnt) (r i : Nat) : Nat × Bool :=
  let a := e.init + 64 * (r * e.nw + i)
  (loadNat s a 64, eccMask s a != 0)

/-- Whether a launch runs in a relaxed glove. -/
def launchRelaxed (s : State) (k : Nat) : Bool := match kget s.launches k with
  | some l => isRelaxed s l
  | none => false

/-- The planned remote contribution of round r: 0 for INIT, v + 1 for round v = r - LAG (R449). -/
def plannedChoice (e : XEnt) (r : Nat) : Nat := if r < e.lag then 0 else r - e.lag + 1

/-- The freshest complete one in a relaxed glove, the planned one elsewhere (R451). -/
def freshChoice (s : State) (e : XEnt) (r : Nat) : Nat :=
  if 1 ≤ e.lag ∧ launchRelaxed s e.launch then
    match ((span (r - e.lag) (r - (r - e.lag))).filter fun v => (roundOf e.theirs v).length == e.nw).getLast? with
    | some v => v + 1
    | none => plannedChoice e r
  else plannedChoice e r

/-- The remote contribution that round r uses: the one fixed when its use began. -/
def choiceOf (s : State) (e : XEnt) (r : Nat) : Nat :=
  match e.pick with
  | some (q, c) => if q = r then c else freshChoice s e r
  | none => freshChoice s e r

/-- Word i of the remote contribution of round r, where it has come. -/
def remoteWord (s : State) (pos : Nat) (e : XEnt) (r i : Nat) : Option (Nat × Bool) :=
  match choiceOf s e r with
  | 0 => some (initWord s e r i)
  | v + 1 => match (roundOf e.theirs v)[i]? with
    | some w => some w
    | none => if halfState s pos = 4 then some (lostWord e v i) else none

/-- Whether the remote contribution of round r is complete. -/
def remoteFull (s : State) (pos : Nat) (e : XEnt) (r : Nat) : Bool :=
  match choiceOf s e r with
  | 0 => true
  | v + 1 => (roundOf e.theirs v).length == e.nw || halfState s pos == 4

/-- The use of a contribution of round r begins: the choice stands, and one that is not the planned one is counted (R277, R451). -/
def fixChoice (pos i : Nat) (r : Nat) (s : State) : State :=
  match (plxOf s pos).ents[i]? with
  | none => s
  | some e =>
    if e.pick.any fun p => p.1 == r then s
    else
      let c := choiceOf s e r
      let s1 := entAdj pos i (fun x => { x with pick := some (r, c) }) s
      if c = plannedChoice e r then s1 else ndCount e.launch 1 1 s1

/-- Word i of the result of round r, where it stands ready (R448 to R450). -/
def resultWord (s : State) (pos : Nat) (e : XEnt) (r i : Nat) : Option (Nat × Bool) :=
  if e.op ≠ 1 then (roundOf e.result r)[i]?
  else if e.lin then (roundOf e.mine r)[i]?
  else remoteWord s pos e r i

/-- The rounds that every output of an entry has used. -/
def usedRounds (e : XEnt) : Nat :=
  match e.lout, e.rout with
  | true, true => min (e.gave / e.nw) (e.sent / e.nw)
  | true, false => e.gave / e.nw
  | false, true => e.sent / e.nw
  | false, false => e.comb

/-- The received rounds whose last word has been used (R449). -/
def freeTarget (e : XEnt) : Nat := (if e.op = 1 then usedRounds e else e.comb) - e.lag

/-- Used rounds go, and each freed one is credited (R449). -/
def settleEnt (pos i : Nat) (s : State) : State :=
  match (plxOf s pos).ents[i]? with
  | none => s
  | some e =>
    let d := usedRounds e
    let f := if e.rin then freeTarget e else 0
    let s1 := entAdj pos i (fun x => { x with
      result := x.result.filter fun p => !decide (p.1 < d)
      mine := if x.op = 1 then x.mine.filter fun p => !decide (p.1 < d) else x.mine.filter fun p => !decide (p.1 < x.comb)
      theirs := x.theirs.filter fun p => !decide (p.1 < f)
      freed := max x.freed f }) s
    (span e.freed (f - e.freed)).foldl (fun t v =>
      sendCell pos kindCredit 0 false e.glove 0 (leBytes 2 e.tag ++ leBytes 2 v) t) s1

/-- Whether the windows of an entry's launch are held (R451). -/
def entHeld (s : State) (e : XEnt) : Bool := match kget s.launches e.launch with
  | some l => match l.hold with
    | (a, b) :: _ => decide (a < b)
    | [] => false
  | none => false

/-- Send what an entry may send now: at most `n` words (R449). -/
def pumpEnt (pos i : Nat) : Nat → State → State
  | 0, s => s
  | n + 1, s =>
    match (plxOf s pos).ents[i]? with
    | none => s
    | some e =>
      let r := e.sent / e.nw
      if !e.rout ∨ entHeld s e ∨ (e.lag < r ∧ e.credits < r - e.lag ∧ halfState s pos ≠ 4) then s
      else match resultWord s pos e r (e.sent % e.nw) with
        | none => s
        | some (w, bad) =>
          let s1 := if e.op = 1 ∧ e.rin then fixChoice pos i r s else s
          let s2 := sendCell pos kindExchange e.tag bad e.glove (r % 2 ^ 16) (leBytes 64 w)
            (entAdj pos i (fun x => { x with sent := x.sent + 1 }) s1)
          pumpEnt pos i n (settleEnt pos i s2)

/-- Words that an entry can have ready at once: those of its receive store and one round more (R448). -/
def pumpAll (pos : Nat) (s : State) : State :=
  (List.range (plxOf s pos).ents.length).foldl (fun t i => pumpEnt pos i 32768 t) s

/-! ## Notices (R452) -/

/-- The Prolux port tiles of a launch. -/
def plxUnits (l : Launch) : List Nat := (l.sections.filter fun x => x.set == l.set && x.kind == 0x15).map (·.unit)

/-- A cell goes out on every half-link that carries an entry of a launch, once for its key. -/
def sendOnce (l : Launch) (key : Nat × Nat) (kind : Nat) (data : List Byte) (s : State) : State :=
  (plxUnits l).foldl (fun t pos =>
    if (plxOf t pos).notices.contains key then t
    else sendCell pos kind 0 false l.glove 0 data (adjPlx pos (fun p => { p with notices := key :: p.notices }) t)) s

/-- The data of a notice: 0 a drain with its step, 1 a kill. -/
def noticeData (l : Launch) (kill step : Nat) : List Byte :=
  leBytes 8 (pCount l.params) ++ leBytes 1 kill ++ List.replicate 7 0 ++ leBytes 8 step

/-- A drain or kill notice goes to the peers of a launch. -/
def sendNotice (l : Launch) (kill step : Nat) (s : State) : State :=
  if pMulti l.params then sendOnce l (pCount l.params, kill) kindNotice (noticeData l kill step) s else s

/-- A record as its 64 bytes (R88). -/
def vc3Bytes (r : Vc3) : List Byte :=
  let b := leBytes 2 r.code ++ leBytes 2 (r.unit + 2048 * r.sub) ++ leBytes 2 r.count ++ leBytes 2 r.reporter ++ leBytes 8 r.time ++
    leBytes 1 r.glove ++ leBytes 1 r.hop ++ [0, 0] ++ r.detail
  b ++ List.replicate (64 - b.length) 0

/-- The record in 64 bytes. -/
def vc3Of (b : List Byte) : Vc3 where
  code := bytesNat b 0 2
  unit := bytesNat b 2 2 % 2048
  sub := bytesNat b 2 2 / 2048
  count := bytesNat b 4 2
  reporter := bytesNat b 6 2
  time := bytesNat b 8 8
  glove := bytesNat b 16 1
  hop := bytesNat b 17 1
  detail := b.drop 20

/-- What tells a record from others: all but its hops. -/
def recordKey (r : Vc3) : Nat × Nat := (leNat (vc3Bytes { r with hop := 0 }), 2)

/-! ## Slots (R297, R449) -/

/-- The entry whose turn it is among those of a TAG and glove that pass a test: the one with the fewest rounds, the first on equal. -/
def turnOf (p : PlxPort) (tag glove : Nat) (f : XEnt → Bool) (words : XEnt → Nat) : Option Nat :=
  ((List.range p.ents.length).foldl (fun a i => match p.ents[i]? with
    | none => a
    | some e =>
      if e.tag = tag ∧ e.glove = glove ∧ f e then
        (match a with
          | none => some (i, words e / e.nw)
          | some (_, n) => if words e / e.nw < n then some (i, words e / e.nw) else a)
      else a) none).map (·.1)

/-- A flit delivered at the local output joins the local contribution of its entry. -/
def plxTake (pos : Nat) (f : Flit) (s : State) : Option State :=
  let p := plxOf s pos
  (turnOf p f.tag f.glove (·.lin) (·.took)).map fun i =>
    pumpEnt pos i 32768 (entAdj pos i (fun e => { e with
      took := e.took + 1
      mine := roundAdd e.mine (e.took / e.nw) (f.data, f.poison) }) s)

/-- The word that an entry hands into a slot, where it stands ready. -/
def plxHand (pos tag glove : Nat) (s : State) : Option (Nat × Bool) × State :=
  let p := plxOf s pos
  match turnOf p tag glove (·.lout) (·.gave) with
  | none => (none, s)
  | some i => match p.ents[i]? with
    | none => (none, s)
    | some e =>
      let r := e.gave / e.nw
      match resultWord s pos e r (e.gave % e.nw) with
      | none => (none, s)
      | some w =>
        let s1 := if e.op = 1 ∧ e.rin then fixChoice pos i r s else s
        (some w, settleEnt pos i (entAdj pos i (fun x => { x with gave := x.gave + 1 }) s1))

/-! ## Combination (R450, R453) -/

/-- What a BAR round with RECORD set leaves (R453): the participant of the latest stamp and the lag. -/
def barRecord (pos : Nat) (e : XEnt) (mine whole : Nat) (s : State) : State :=
  let who := fld (lane whole 1) 0 16
  let lag := min (fld (lane whole 1) 16 48 - fld (lane mine 1) 16 48) (2 ^ 32 - 1)
  let s1 := odSet (odSet s 0x7600 1 who) 0x7600 2 lag
  let me := match kget s.launches e.launch with
    | some l => pModule l.params
    | none => 0
  if who ≠ me ∧ odGet s 0x2780 1 < lag then
    raise 330 (report pos 0x0903 pos 0 e.glove (leBytes 2 who ++ leBytes 4 lag) (odBump s1 0x7600 3 32 1))
  else s1

/-- The next round of a combine entry is combined once both contributions are complete (R450). -/
def combineEnt (pos i : Nat) (s : State) : State :=
  match (plxOf s pos).ents[i]? with
  | none => s
  | some e =>
    let r := e.comb
    let mine := roundOf e.mine r
    if e.op = 1 ∨ entHeld s e ∨ mine.length ≠ e.nw ∨ !remoteFull s pos e r then s
    else
      let theirs := (List.range e.nw).filterMap (remoteWord s pos e r)
      let bad := mine.any (·.2) || theirs.any (·.2)
      let ws := combineRound e.op (mine.map (·.1)) (theirs.map (·.1))
      let s1 := fixChoice pos i r s
      let s2 := entAdj pos i (fun x => { x with comb := r + 1, result := kput x.result r (ws.map fun w => (w, bad)) }) s1
      let s3 := if e.op = 4 ∧ e.record then barRecord pos e ((mine.map (·.1)).headD 0) (ws.headD 0) s2 else s2
      pumpEnt pos i 32768 (settleEnt pos i s3)

/-- EXCHANGE_COMBINE (R450). -/
def execExchangeCombine (pos tag : Nat) (s : State) : Result :=
  if !isPlx pos then .next s
  else
    let p := plxOf s pos
    .next ((List.range p.ents.length).foldl (fun t i => match p.ents[i]? with
      | some e => if e.tag = tag then combineEnt pos i t else t
      | none => t) s)

end Sys2Proof.Machine
end

