-- ==== Sys2Proof/Machine/Mesh.lean ====
section
/-! DEFINITION. VC0 (R61 to R75, R81 to R86, R295, R297): what a slot takes, what it hands on, and where a flit is delivered. One
command is the use of one output of one router in one plan tc. -/

namespace Sys2Proof.Machine

def routerOf (s : State) (pos : Nat) : Router := kgetD s.routers pos Router.blank
def setRouter (pos : Nat) (r : Router) (s : State) : State := { s with routers := kput s.routers pos r }
def adjRouter (pos : Nat) (f : Router → Router) (s : State) : State := setRouter pos (f (routerOf s pos)) s
def portOf (s : State) (pos : Nat) : PortSt := kgetD s.ports pos PortSt.blank
def setPort (pos : Nat) (p : PortSt) (s : State) : State := { s with ports := kput s.ports pos p }
def adjPort (pos : Nat) (f : PortSt → PortSt) (s : State) : State := setPort pos (f (portOf s pos)) s

/-- The slot entry of an output in a plan tc, with its launch (R71, R72). -/
def slotEntry (s : State) (pos out tc : Nat) : Option (Nat × SlotEnt) :=
  let r := routerOf s pos
  ((List.range r.segs.length).find? fun i => match r.segs[i]? with
    | some g => segCovers g.2 tc && launchLive s g.1
    | none => false).bind fun i => (r.segs[i]?).bind fun g =>
      (kget r.slots (g.2.base + 5 * ((tc - g.2.start) % g.2.period) + out)).bind fun e =>
        if e.2.op = 0 ∨ e.1 ≠ g.1 then none else some (g.1, e.2)

/-- Whether a launch's windows are held at a plan tc (R451). -/
def heldAt (s : State) (k tc : Nat) : Bool := match kget s.launches k with
  | some l => l.hold.any fun x => decide (x.1 ≤ tc) && decide (tc < x.2)
  | none => false

/-! ## Plan faults (R75, R89, R95, R96) -/

/-- One event of a case: counted in its field of NOC_PLAN_FAULT, reported and raised. -/
def planFault (pos field code input glove : Nat) (detail : List Byte) (s : State) : State :=
  raise 321 (report pos code pos input glove detail (winBump s (tileBase pos + 0xFE004) (8 * field) 8 1))

def planMiss (pos tc input : Nat) (e : SlotEnt) : State → State :=
  planFault pos 0 0x0301 input e.glove (leBytes 4 tc ++ leBytes 2 e.tag)
def planExtra (pos tc input : Nat) (f : Flit) : State → State :=
  planFault pos 1 0x0302 input f.glove (leBytes 4 tc ++ leBytes 2 f.tag ++ leBytes 1 f.glove)
def tagFault (pos tc input : Nat) (e : SlotEnt) (f : Flit) : State → State :=
  planFault pos 2 0x0303 input e.glove (leBytes 4 tc ++ leBytes 2 e.tag ++ leBytes 2 f.tag)
def gloveFault (pos tc input : Nat) (e : SlotEnt) (f : Flit) : State → State :=
  planFault pos 3 0x0304 input e.glove (leBytes 4 tc ++ leBytes 1 e.glove ++ leBytes 1 f.glove)

/-- What a link input's decoder finds is counted; an uncorrectable error is reported and raised (R75, R89, R95, R96). -/
def linkErrors (pos vc glove : Nat) (e : LinkErr) (s : State) : State :=
  let a := tileBase pos + 0xFE008
  let s1 := if e.fixed = 0 then s else winBump s a 0 16 e.fixed
  if e.lanes % 512 = 0 then s1
  else raise 322 (report pos 0x0305 pos e.input glove (leBytes 1 vc ++ leBytes 1 (e.lanes % 256))
    (winBump s1 a 16 16 ((List.range 9).countP (bitOf e.lanes))))

/-- A flit with uncorrectable errors is poisoned, and what its lanes hold is open. -/
def spoilFlit (e : LinkErr) (f : Flit) (s : State) : Flit × State :=
  if e.lanes % 512 = 0 then (f, s)
  else
    let (w, s1) := drawWord s
    ({ f with poison := true, data := ofLanes fun i => if bitOf e.lanes i then lane w i else lane f.data i }, s1)

/-- The errors that the slot's link input meets: the flit at the input carries them from now on. -/
def latchErrors (pos input tc lag : Nat) (errs : List LinkErr) (s : State) : State :=
  match errs.find? (fun e => e.input == input), (routerOf s pos).latch.find? fun x => x.input == input && x.tc + lag == tc with
  | some e, some x =>
    let (f, s1) := spoilFlit e x.flit (linkErrors pos 0 x.flit.glove e s)
    adjRouter pos (fun r => { r with latch := r.latch.map fun y => if y = x then { y with flit := f } else y }) s1
  | _, _ => s

/-! ## Streams (R73, R295, R297) -/

def streamKey (glove tag : Nat) (write : Bool) : Nat := 2 * (4096 * glove + tag) + ofBool write

/-- The streams of a tag and glove in one direction, in table order. -/
def streamsOf (p : PortSt) (glove tag : Nat) (write : Bool) : List Stream :=
  p.streams.filter fun x => x.tag == tag && x.glove == glove && (x.op == 3) == write

/-- The place after a word: on to the next entry after the last word, and back to the first after the last entry. -/
def nextPlace (l : List Stream) (p : Nat × Nat) : Nat × Nat :=
  let nw := match l[p.1]? with
    | some x => x.nw
    | none => 0
  if p.2 + 1 < nw then (p.1, p.2 + 1) else if p.1 + 1 < l.length then (p.1 + 1, 0) else (0, 0)

/-- Words of a group of a read stream: 1, 128 or 256 (R297). -/
def groupWords (op : Nat) : Nat := if op = 1 then 128 else if op = 2 then 256 else 1

/-- Word j of a group after its transposition (R297). -/
def groupOut (op : Nat) (ws : List Nat) (j : Nat) : Nat :=
  if op = 1 then (List.range 128).foldl (fun a i => a + fld (ws.getD i 0) (4 * j) 4 * 2 ^ (4 * i)) 0
  else if op = 2 then
    (List.range 64).foldl (fun a b =>
      let i := 64 * (j % 2) + b
      a + fld (ws.getD (2 * i + j / 2 / 64) 0) (8 * (j / 2 % 64)) 8 * 2 ^ (8 * b)) 0
  else ws.getD 0 0

/-- Whether word j of a group carries a code of an uncorrectable lane (R300). -/
def groupBad (op : Nat) (masks : List Nat) (j : Nat) : Bool :=
  if op = 1 then (List.range 128).any fun i => bitOf (masks.getD i 0) (j / 16)
  else if op = 2 then
    (List.range 64).any fun b => bitOf (masks.getD (2 * (64 * (j % 2) + b) + j / 2 / 64) 0) (j / 2 % 64 / 8)
  else masks.getD 0 0 != 0

/-- The device address of the first word of the group that holds a place of a stream. -/
def groupAddr (x : Stream) (w : Nat) : Nat := x.addr + 64 * (w / groupWords x.op * groupWords x.op)

/-- A word read ahead, as memory stands. -/
def readAheadWord (s : State) (x : Stream) (w : Nat) : ReadAhead :=
  let n := groupWords x.op
  let a := groupAddr x w
  let ws := (List.range n).map fun i => loadNat s (a + 64 * i) 64
  let ms := (List.range n).map fun i => eccMask s (a + 64 * i)
  ⟨x.tag, x, w, groupOut x.op ws (w % n), groupBad x.op ms (w % n)⟩

/-- A stream write reaches words read ahead of it: what its slots hand is what stands in plan order (R297). -/
def refreshAhead (pos a : Nat) (s : State) : State :=
  adjPort pos (fun p => { p with buffer := p.buffer.map fun b =>
    let g := groupAddr b.stream b.place
    if g ≤ a ∧ a < g + 64 * groupWords b.stream.op then readAheadWord s b.stream b.place else b }) s

/-- The next word of the read streams of a tag: none where there is no such stream; late where it is not ready (R297). -/
def streamHand (pos tc : Nat) (e : SlotEnt) (s : State) : Option Flit × State :=
  let p := portOf s pos
  let l := streamsOf p e.glove e.tag false
  let k := streamKey e.glove e.tag false
  let at_ := kgetD p.place k (0, 0)
  match l[at_.1]? with
  | none => (none, s)
  | some x =>
    let next := { p with place := kput p.place k (nextPlace l at_) }
    match p.buffer.find? fun b => b.stream == x && b.place == at_.2 with
    | some b => (some ⟨e.glove, e.tag, b.bad, false, b.data, false⟩, setPort pos { next with buffer := p.buffer.erase b } s)
    | none =>
      let (w, s1) := drawWord (setPort pos next s)
      (some ⟨e.glove, e.tag, true, false, w, false⟩,
        raise 260 (report pos 0x0703 pos 0 e.glove (leBytes 4 tc ++ leBytes 2 e.tag) (odBump s1 0x7500 4 64 1)))

/-- The next word of the write stream of a flit's tag is written; a poisoned one writes nothing (R297). -/
def streamTake (pos : Nat) (f : Flit) (s : State) : Option State :=
  let p := portOf s pos
  let l := streamsOf p f.glove f.tag true
  let k := streamKey f.glove f.tag true
  let at_ := kgetD p.place k (0, 0)
  (l[at_.1]?).map fun x =>
    let s1 := setPort pos { p with place := kput p.place k (nextPlace l at_) } s
    if f.poison ∨ f.bar then s1
    else refreshAhead pos (x.addr + 64 * at_.2) (store (x.addr + 64 * at_.2) (leBytes 64 f.data) s1)

/-! ## Inputs (R62, R72, R73, R75, R236) -/

/-- The flit that arrives at a link input for a slot, `lag` tc after its own slot; one output has used it. -/
def latchTake (pos input tc lag : Nat) (s : State) : Option Flit × State :=
  let r := routerOf s pos
  match r.latch.find? fun x => x.input == input && x.tc + lag == tc with
  | none => (none, s)
  | some x =>
    let rest := if x.uses ≤ 1 then List.erase r.latch x else r.latch.map fun y => if y = x then { y with uses := y.uses - 1 } else y
    (some x.flit, setRouter pos { r with latch := rest } s)

/-- The word of the own-tile input of a tile: the oldest that was handed at least 2 tc earlier, the same for every output (R236). -/
def ownTake (pos tc : Nat) (s : State) : Option Flit × State :=
  let r := routerOf s pos
  match r.own with
  | some (t, f) => if t = tc then (f, s) else fresh
  | none => fresh
where
  fresh : Option Flit × State :=
    let t := tileOf s pos
    let f := match t.inj with
      | (h, f) :: _ => if h ≤ tc then some f else none
      | [] => none
    (f, adjRouter pos (fun r => { r with own := some (tc, f) }) (if f.isSome then setTile pos { t with inj := t.inj.drop 1 } s else s))

/-- The word that a Prolux port tile hands: a zero one in a held window (R451). -/
def plxOwn (pos tc launch : Nat) (e : SlotEnt) (s : State) : Option Flit × State :=
  if heldAt s launch tc then (some ⟨e.glove, e.tag, false, e.op == 4, 0, false⟩, s)
  else
    let r := routerOf s pos
    match r.own with
    | some (t, f) => if t = tc then (f, s) else fresh
    | none => fresh
where
  fresh : Option Flit × State :=
    let (w, s1) := plxHand pos e.tag e.glove s
    let bar := (plxOf s pos).ents.any fun x => x.tag == e.tag && x.glove == e.glove && x.op == 4
    let f := w.map fun w => (⟨e.glove, e.tag, w.2, bar, w.1, false⟩ : Flit)
    (f, adjRouter pos (fun r => { r with own := some (tc, f) }) s1)

/-- The words that a memory port tile hands in a tc, one to each lane that a slot takes, in ascending output order (R73). -/
def laneFill (pos tc : Nat) : List Nat → State → List (Nat × Nat × Option Flit) × State
  | [], s => ([], s)
  | o :: l, s =>
    match slotEntry s pos o tc with
    | none => laneFill pos tc l s
    | some (_, e) =>
      if !bitOf e.src 4 then laneFill pos tc l s
      else
        let (f, s1) := streamHand pos tc e s
        let (r, s2) := laneFill pos tc l s1
        ((tc, o, f) :: r, s2)

/-- The word on an injection lane of a memory port tile (R73). -/
def laneTake (pos tc out : Nat) (s : State) : Option Flit × State :=
  let pick (l : List (Nat × Nat × Option Flit)) : Option Flit := (l.find? fun x => x.2.1 == out).bind (·.2.2)
  let l := (portOf s pos).lanes
  if l.any fun x => x.1 == tc then (pick l, s)
  else
    let (r, s1) := laneFill pos tc (List.range 4) s
    (pick r, adjPort pos (fun p => { p with lanes := r }) s1)

/-- The flit of an input of a slot (R72, R73). -/
def inputTake (pos out tc launch input lag : Nat) (e : SlotEnt) (s : State) : Option Flit × State :=
  if input < 4 then latchTake pos input tc lag s
  else if isMemPort pos then laneTake pos tc out s
  else if isPlx pos then plxOwn pos tc launch e s
  else ownTake pos tc s

/-- What an input brings to its slot after the checks of R75: the flit where there is one to use, and whether the output is
poisoned for it. -/
def inputCheck (pos tc input : Nat) (e : SlotEnt) (x : Option Flit) (s : State) : Option Flit × Bool × State :=
  match x with
  | none => (none, true, planMiss pos tc input e s)
  | some f =>
    let s1 := if f.tag = e.tag then s else tagFault pos tc input e f s
    if f.glove = e.glove then (some f, f.poison || f.tag != e.tag, s1)
    else (none, true, gloveFault pos tc input e f s1)

/-- The inputs of a slot in the order N, E, S, W, own tile. -/
def slotInputs (e : SlotEnt) : List Nat := (List.range 5).filter (bitOf e.src)

/-- Take and check the inputs of a slot. -/
def gather (pos out tc launch lag : Nat) (errs : List LinkErr) (e : SlotEnt) : List Nat → State → List (Nat × Option Flit × Bool) × State
  | [], s => ([], s)
  | i :: l, s =>
    let (x, s1) := inputTake pos out tc launch i lag e (latchErrors pos i tc lag errs s)
    let (f, bad, s2) := inputCheck pos tc i e x s1
    let (r, s3) := gather pos out tc launch lag errs e l s2
    ((i, f, bad) :: r, s3)

/-! ## Outputs (R62, R75, R237) -/

/-- How many outputs of a router use what arrives at an input from a slot at `tc`: forwarded 2 tc later or combined 3 tc later. -/
def slotUses (s : State) (pos input tc : Nat) : Nat :=
  ((List.range 5).filter fun o =>
    (match slotEntry s pos o (tc + 2) with
      | some (_, e) => e.op == 1 && bitOf e.src input
      | none => false) ||
    (match slotEntry s pos o (tc + 3) with
      | some (_, e) => e.op != 1 && bitOf e.src input
      | none => false)).length

/-- A flit leaves on a link (R61, R62, R75). -/
def linkSend (pos out tc : Nat) (f : Flit) (s : State) : State :=
  match neighbour pos out with
  | none => s
  | some p =>
    let t := tc + if crossesCol pos out then 4 else 0
    let n := slotUses s p (opposite out) t
    if n = 0 then planExtra p (t + 2) (opposite out) f s
    else adjRouter p (fun r => { r with latch := r.latch ++ [⟨opposite out, t, n, f⟩] }) s

/-- The oldest RECV takes a flit, and writes it 2 tc later: into its bank through port B, into FL, or into its register block (R235, R243);
a poisoned one writes no bank, and takes POISON where it was for FL (R75, R234). With its last flit the RECV completes (log entry 79). A
RECV issued in a dry run writes nothing (R259). -/
def recvTake (r : RecvSt) (f : Flit) (s : State) : State :=
  let c := r.c
  let s1 := adjTile c.pos (fun t =>
    if r.left ≤ 1 then { t with recv := none, ready := kput t.ready unitRecv (s.now + 1) }
    else { t with recv := some { r with next := r.next + 1, left := r.left - 1, bad := r.bad || f.poison } }) s
  match c.f 56 2 with
  | 0 =>
    let (b, w) := addrBank c.pos false (c.f 40 16)
    if c.dry ≠ 0 ∨ f.poison then s1 else schedIn c 2 (.portB b (w + r.next) (.write 0 (leBytes 64 f.data))) s1
  | 1 => if f.poison then takeExc c excPoison s1 else if c.dry ≠ 0 then s1 else schedIn c 2 (.land (.fl f.data)) s1
  | _ =>
    if c.dry ≠ 0 then s1
    else if kindOf c.pos = .v then
      schedIn c 2 (.land (.lanes (c.f 40 4) ((List.range 16).map fun k => (16 * r.next + k, fld f.data (32 * k) 32))
        (if f.poison then some true else if r.next = 15 ∧ !r.bad then some false else none))) s1
    else (List.range 8).foldl (fun t k => schedIn c 2 (.land (.g (24 + k) (lane f.data k) f.poison)) t) s1

/-- A statistics record at the local output of its bank's router is added to the row of its TAG through port B, 2 tc later (R62, R140). -/
def statTake (pos launch : Nat) (f : Flit) (s : State) : Option State :=
  match (kget s.launches launch).bind fun l => pStatBankNo l.params with
  | some b =>
    if f.stat ∧ bankPos b = pos then
      some (if f.poison then s else schedIn (foreign f.glove s.now) 2 (.portB b f.tag (.add 0x3F f.data)) s)
    else none
  | none => none

/-- A flit at the local output of an M-, V- or S-tile (R84, R237, R397). -/
def tileDeliver (pos tc : Nat) (f : Flit) (s : State) : State :=
  let t := tileOf s pos
  match arrivalCtx s pos tc with
  | none => unclaimed pos tc f s
  | some c =>
    let s1 := if f.poison then setLatch pos c.lslot s else s
    let waits := t.barw == some f.tag
    if f.bar then (if waits then endBarw pos tc s1 else unclaimed pos tc f s1)
    else
      let lac := match t.m.meshRd with
        | some rd => if meshWants rd tc then some rd else none
        | none => none
      match lac, t.recv with
      | some rd, _ => lacTake rd f s1
      | none, some r => recvTake r f s1
      | none, none => if waits then endBarw pos tc s1 else unclaimed pos tc f s1

/-- A flit at the local output of any position; nothing at the other port tiles takes one (R237). -/
def localDeliver (pos tc launch : Nat) (f : Flit) (s : State) : State :=
  if kindOf pos ≠ .port then (match statTake pos launch f s with
    | some s1 => s1
    | none => tileDeliver pos tc f s)
  else
    let t := if isMemPort pos then streamTake pos f s else if isPlx pos then plxTake pos f s else none
    match t with
    | some s1 => s1
    | none => report pos 0x0602 pos 0 f.glove (leBytes 4 tc ++ leBytes 2 f.tag) s

/-- A flit leaves on an output; what a slot delivers to a Prolux port tile in a held window is no round's (R451). -/
def slotSend (pos out tc launch : Nat) (f : Flit) (s : State) : State :=
  if out < 4 then linkSend pos out tc f s
  else if isPlx pos ∧ heldAt s launch tc then s
  else localDeliver pos tc launch f s

/-! ## The slot commands -/

/-- Each input on its own: forwarded (R72), at a memory port tile also delivered side by side (R73). What R75 poisons goes on with the
entry's TAG and GLOVE (DESIGN CHOICE, log entry 85). -/
def forwardAll (pos out tc launch : Nat) (e : SlotEnt) : List (Nat × Option Flit × Bool) → State → State
  | [], s => s
  | (_, f, bad) :: l, s =>
    match f with
    | some f => forwardAll pos out tc launch e l (slotSend pos out tc launch { f with glove := e.glove, tag := e.tag, poison := bad } s)
    | none =>
      let (w, s1) := drawWord s
      forwardAll pos out tc launch e l (slotSend pos out tc launch ⟨e.glove, e.tag, true, false, w, false⟩ s1)

/-- The words of a combine: those of its inputs, open ones for the missing (R86). -/
def combineWords : List (Nat × Option Flit × Bool) → State → List (Nat × Nat) × State
  | [], s => ([], s)
  | (i, f, _) :: l, s =>
    match f with
    | some f =>
      let (r, s1) := combineWords l s
      ((i, f.data) :: r, s1)
    | none =>
      let (w, s1) := drawWord s
      let (r, s2) := combineWords l s1
      ((i, w) :: r, s2)

/-- The merge that a slot of an output belongs to: its tag and glove. -/
def topkKey (out : Nat) (e : SlotEnt) : Nat := 4096 * (8 * e.glove + out) + e.tag

/-- The result of a combine (R82 to R86, R140): `stat` where it combines statistics records. -/
def combineOut (pos out : Nat) (e : SlotEnt) (ws : List (Nat × Nat)) (bad stat : Bool) (s : State) : Flit × State :=
  let l := ws.map (·.2)
  match e.op with
  | 2 => (⟨e.glove, e.tag, bad, false, combineAdd l, stat⟩, s)
  | 3 =>
    let r := routerOf s pos
    let k := topkKey out e
    let (w, p, t) := topkWord (kgetD r.topk k TopkSt.blank) ws bad
    (⟨e.glove, e.tag, p, false, w, false⟩, setRouter pos { r with topk := kput r.topk k t } s)
  | 4 => (⟨e.glove, e.tag, bad, true, combineBar l, false⟩, s)
  | _ => (⟨e.glove, e.tag, bad, false, combineFlag l, false⟩, s)

/-- The use of one slot whose entry has the OP of the command; any other command finds nothing to do. -/
def slotUse (op pos out tc : Nat) (errs : List LinkErr) (s : State) : State :=
  match slotEntry s pos out tc with
  | none => s
  | some (launch, e) =>
    if e.op ≠ op then s
    else
      let (ins, s1) := gather pos out tc launch (if op = 1 then 2 else 3) errs e (slotInputs e) s
      if op = 1 then forwardAll pos out tc launch e ins s1
      else
        let (ws, s2) := combineWords ins s1
        let stat := ins.all fun x => x.2.1.any (·.stat)
        let (f, s3) := combineOut pos out e ws (ins.any (·.2.2)) stat s2
        slotSend pos out tc launch f s3

/-- A slot command. -/
def slotRun (op pos out tc : Nat) (errs : List LinkErr) (s : State) : Result :=
  if 1536 ≤ pos ∨ 5 ≤ out then .next s else atTc tc s (slotUse op pos out tc errs)

/-- SLOT_FWD (R72, R73, R75). -/
def execSlotFwd (pos out tc : Nat) (errs : List LinkErr) (s : State) : Result := slotRun 1 pos out tc errs s
/-- COMBINE_ADD (R82). -/
def execCombineAdd (pos out tc : Nat) (errs : List LinkErr) (s : State) : Result := slotRun 2 pos out tc errs s
/-- COMBINE_TOPK (R83). -/
def execCombineTopk (pos out tc : Nat) (errs : List LinkErr) (s : State) : Result := slotRun 3 pos out tc errs s
/-- COMBINE_BAR (R84). -/
def execCombineBar (pos out tc : Nat) (errs : List LinkErr) (s : State) : Result := slotRun 4 pos out tc errs s
/-- COMBINE_FLAG (R85). -/
def execCombineFlag (pos out tc : Nat) (errs : List LinkErr) (s : State) : Result := slotRun 5 pos out tc errs s

end Sys2Proof.Machine
end

