-- ==== Sys2Proof/Machine/Vc.lean ====
section
/-! DEFINITION. VC1 to VC3 (R63 to R69, R77 to R80, R87, R88): the way of flits over links, what they do where they arrive, the share
ledgers, the way of fault records, and the rates of Col links (R90 to R92). -/

namespace Sys2Proof.Machine

/-! ## Real time (R67, R91) -/

/-- The plan tc that a tc of the frame brings, and whether the plan advances in it (R91): held tc come before the plan tc that follows them. -/
def planAt (s : State) (k : Nat) : Nat × Bool :=
  let m := odGet s 0x2300 3
  (16 * k / m, decide (16 * k / m < 16 * (k + 1) / m))

/-- Whether a tc of the frame is open at an output (R67): the plan does not advance in it, or leaves the output idle. -/
def openTc (s : State) (pos out k : Nat) : Bool :=
  let (p, on) := planAt s k
  !on || (slotEntry s pos out p).isNone

/-- The number of an open tc at an output (R67). -/
def openNo (s : State) (pos out k : Nat) : Nat := (List.range k).countP (openTc s pos out)

/-- The order in which VCs are served in an open tc (R67). -/
def vcOrder (n : Nat) : List Nat :=
  if n % 8 = 3 then [2, 1, 3] else if n % 8 = 7 then [3, 1, 2] else [1, 2, 3]

/-- A command that names a tc of the frame, held ones counted: what is due in plan time up to it is done first (log entry 12). -/
def atReal (k : Nat) (s : State) (f : State → State) : Result :=
  let (p, on) := planAt s k
  if p < s.now ∨ muxStopped s 0 then .next s else .next (f (if on then advance p s else advanceTo p s))

/-- A port B access follows 2 tc after a local output slot (R62); in a held tc it comes before the plan tc that follows. -/
def deliverAt (k glove : Nat) (a : Act) (s : State) : State :=
  let (p, on) := planAt s (k + 2)
  schedAt { foreign glove s.now with dry := ofBool !on } p a s

/-! ## Delivery (R44, R62, R75, R78, R84, R277, R294) -/

/-- A health flit reaches the port tile that compares (R397): the tile, with 2,048 added where its latch was set. -/
def healthArrive (launch tile : Nat) (latch : Bool) (s : State) : State :=
  { s with launches := kadj s.launches launch fun l =>
      { l with sentinel := { l.sentinel with health := (tile + 2048 * ofBool latch) :: l.sentinel.health } } }

/-- A word of a WRITE joins the granted request of its source that still lacks words; a poisoned one will write nothing (R75, R78). -/
def storeArrive (pos src : Nat) (f : VcFlit) (data : Nat) (s : State) : State :=
  adjPort pos (fun p =>
    let i := p.granted.findIdx fun r => r.write && r.src == src && r.glove == f.glove && decide (r.data.length < r.words)
    { p with granted := p.granted.modify i fun r => { r with data := r.data ++ [(data, f.poison)] } }) s

/-- The key of a glove and VC. -/
def gloveVc (glove vc : Nat) : Nat := 4 * glove + vc

/-- A grant returns to the source of a WRITE: its words may move; those of a refused one go (R78, R293; DESIGN CHOICE, log entry 80). -/
def grantArrive (pos words : Nat) (ok : Bool) (f : VcFlit) (s : State) : State :=
  let mine (x : VcFlit) : Bool := x.glove == f.glove && match x.pay with
    | .store _ _ => true
    | _ => false
  adjTile pos (fun t =>
    if ok then { t with grants := kmod t.grants f.glove 0 (· + words) }
    else
      let go := ((List.range t.msgq.length).filter fun i => (t.msgq[i]?).any mine).take words
      { t with msgq := ((List.range t.msgq.length).filter fun i => !go.contains i).filterMap fun i => t.msgq[i]? }) s

/-- What a flit does at a destination of its own: a poisoned one writes nothing and asks for nothing (R75). -/
def flitArrive (pos a k : Nat) (f : VcFlit) (s : State) : State :=
  match f.pay with
  | .head => s
  | .word d due => if f.poison then s else deliverAt k f.glove (.deliver pos a (leBytes 64 d) (if due.isSome then 2 else 3) due) s
  | .add n => if f.poison then s else deliverAt k f.glove (.complete pos a n) s
  | .request r => if f.poison then s else adjPort pos (fun p => { p with arrived := p.arrived ++ [r] }) s
  | .store src d => storeArrive pos src f d s
  | .grant n ok => grantArrive pos n ok f s
  | .piece d => if f.poison then s else deliverAt k f.glove (.deliver pos a d 4 none) s
  | .health l t latch => healthArrive l t latch s

/-! ## One hop (R61 to R63, R67 to R69, R77) -/

/-- The direction in which a destination's way goes on: 4 where it is reached. -/
def wayOut (w : List Nat × Nat × Nat) : Nat := w.1.headD 4

/-- The class in which a flit leaves: it enters class B when it turns west after a move north, south or east (R63). -/
def leaveClass (input cls out : Nat) : Nat :=
  if cls = 1 then 1 else if out = 3 ∧ input < 4 ∧ input ≠ 1 then 1 else 0

def qKey (input vc cls : Nat) : Nat := 8 * input + 2 * (vc - 1) + cls

/-- Places of a buffer (R68). -/
def vcPlaces (vc : Nat) : Nat := if vc = 1 then 4 else 8

/-- The tc from which what leaves in one may leave the next router (R62). -/
def hopTc (pos out k : Nat) : Nat := k + if crossesCol pos out then 6 else 2

/-- Whether a flit may go out now: the next router has a free place (R68). -/
def hasCredit (s : State) (pos input vc cls out : Nat) : Bool :=
  if out = 4 then true
  else match neighbour pos out with
    | none => false
    | some p => decide ((kgetD (routerOf s p).q (qKey (opposite out) vc (leaveClass input cls out)) []).length < vcPlaces vc)

/-- The first flit of each glove of a VC in a tile's queue, with its place. -/
def firstOfGloves (vc : Nat) (l : List VcFlit) : List (Nat × VcFlit) :=
  (List.range l.length).filterMap fun i => (l[i]?).bind fun f =>
    if f.vc = vc ∧ !(l.take i).any (fun x => x.vc == vc && x.glove == f.glove) then some (i, f) else none

/-- Whether a flit of a tile's queue may leave: its 2 tc have passed, and the words of a WRITE have their grant (R62, R78). -/
def mayLeave (s : State) (pos now : Nat) (f : VcFlit) : Bool :=
  decide (f.since ≤ now) && match f.pay with
    | .store _ _ => decide (0 < kgetD (tileOf s pos).grants f.glove 0)
    | _ => true

/-- Whether a first injection may go: paid before, or within the glove's budget (R69). -/
def mayInject (s : State) (f : VcFlit) : Bool := f.paid || budgetOpen s f.glove (f.vc + 2)

/-- What remains of a flit after the copies for one output have left, marked as paid (R77). -/
def flitRest (out : Nat) (f : VcFlit) : VcFlit := { f with dests := f.dests.filter (fun w => wayOut w != out), paid := true }

/-- The copy that leaves for one output. -/
def flitCopy (pos out now : Nat) (f : VcFlit) : VcFlit :=
  { f with dests := (f.dests.filter fun w => wayOut w == out).map fun w => (w.1.drop 1, w.2), paid := true, since := hopTc pos out now }

/-- A flit enters class B (R95). -/
def countClass (pos cls to_ : Nat) (s : State) : State :=
  if cls = 0 ∧ to_ = 1 then winBump s (tileBase pos + 0xFE018) 0 32 1 else s

/-- A copy leaves in a tc of the frame: over a link into the next router's buffer, with the errors that it meets there, or to its
destinations here. -/
def flitLeave (pos input cls out k : Nat) (err : Option LinkErr) (f : VcFlit) (s : State) : State :=
  let c := flitCopy pos out (s.frame.base + k) f
  if out = 4 then c.dests.foldl (fun t w => flitArrive pos w.2.2 k f t) s
  else match neighbour pos out with
    | none => s
    | some p =>
      let b := leaveClass input cls out
      let s1 := countClass pos cls b s
      let join (c : VcFlit) (u : State) := adjRouter p (fun r => { r with q := kmod r.q (qKey (opposite out) f.vc b) [] (· ++ [c]) }) u
      match err with
      | none => join c s1
      | some e => join { c with poison := c.poison || decide (e.lanes % 512 ≠ 0) } (linkErrors p f.vc f.glove { e with input := opposite out } s1)

/-- A flit of a tile's own queue leaves: its first copy counts against the budget of its glove (R69), and a word of a WRITE uses its
grant (R78). -/
def ownLeave (pos out k i : Nat) (err : Option LinkErr) (f : VcFlit) (s : State) : State :=
  let rest := flitRest out f
  let spend (t : Tile) : Tile := match f.pay with
    | .store _ _ => if f.paid then t else { t with grants := kadj t.grants f.glove fun n => n - 1 }
    | _ => t
  let s1 := adjTile pos (fun t => spend { t with msgq := if rest.dests.isEmpty then t.msgq.eraseIdx i else t.msgq.set i rest }) s
  flitLeave pos 4 0 out k err f (if f.paid then s1 else budgetAdd f.glove (f.vc + 2) 1 s1)

/-- A flit of a router's buffer leaves. -/
def bufLeave (pos input vc cls out k : Nat) (err : Option LinkErr) (f : VcFlit) (s : State) : State :=
  let rest := flitRest out f
  let left := fun (l : List VcFlit) => if rest.dests.isEmpty then l.drop 1 else rest :: l.drop 1
  flitLeave pos input cls out k err f (adjRouter pos (fun r => { r with q := kmod r.q (qKey input vc cls) [] left }) s)

/-- The waiting gloves of a tile's queue whose budget is spent stall: once a frame for each VC (R69, R355). -/
def stallOwn (pos vc out now : Nat) (s : State) : State :=
  (firstOfGloves vc (tileOf s pos).msgq).foldl (fun t x =>
    let key := gloveVc x.2.glove vc
    if x.2.dests.any (fun w => wayOut w == out) && mayLeave t pos now x.2 && !mayInject t x.2 && !(tileOf t pos).stalled.contains key then
      adjTile pos (fun u => { u with stalled := key :: u.stalled }) (budgetStall x.2.glove t)
    else t) s

/-- Flits with no destination left, because none can be reached, go. -/
def dropEmpty (pos : Nat) (s : State) : State :=
  if (tileOf s pos).msgq.any fun f => f.dests.isEmpty then
    adjTile pos (fun t => { t with msgq := t.msgq.filter fun f => !f.dests.isEmpty }) s
  else s

/-- The longest waits of flits of a VC for an output (R95): NOC_VC_MAXWAIT. -/
def noteWait (pos vc now : Nat) (f : VcFlit) (s : State) : State :=
  winMax s (tileBase pos + 0xFE00C) (16 * (vc - 1)) 16 (now - f.since)

/-- What a VC sends through an output from one of its nine waiting places: 0 to 7 the buffers 2 input + class, 8 the tile's own queue. -/
def serveSource (pos vc out k src : Nat) (err : Option LinkErr) (s : State) : Option State :=
  let now := s.frame.base + k
  if src = 8 then
    match (firstOfGloves vc (tileOf s pos).msgq).find? fun x =>
      x.2.dests.any (fun w => wayOut w == out) && mayLeave s pos now x.2 && mayInject s x.2 with
    | some (i, f) => if hasCredit s pos 4 vc 0 out then some (noteWait pos vc now f (ownLeave pos out k i err f s)) else none
    | none => none
  else
    match kgetD (routerOf s pos).q (qKey (src / 2) vc (src % 2)) [] with
    | f :: _ =>
      if f.dests.any (fun w => wayOut w == out) ∧ f.since ≤ now ∧ hasCredit s pos (src / 2) vc (src % 2) out then
        some (noteWait pos vc now f (bufLeave pos (src / 2) vc (src % 2) out k err f s))
      else none
    | [] => none

/-- The round robin of a VC at an output (R67): the place after the one served last goes first. -/
def serveVc (pos vc out k : Nat) (err : Option LinkErr) (s : State) : Option State :=
  let key := 3 * out + vc
  let last := kgetD (routerOf s pos).rr key 8
  (List.range 9).findSome? fun j =>
    let src := (last + 1 + j) % 9
    (serveSource pos vc out k src err s).map fun t => adjRouter pos (fun r => { r with rr := kput r.rr key src }) t

/-! ## VC3 (R61, R63, R67, R68, R80, R87) -/

/-- The way of a record, from the router at which it was raised to the Helmet link tile of that router's half (R63, R87). -/
def vc3Way (s : State) (pos : Nat) (e : Vc3Ent) : Option (List Nat) := match e.way with
  | some w => some w
  | none => route s.plat.fuse pos (helmetTile pos)

/-- Whether the next router has a free place for a record (R68). -/
def vc3Credit (s : State) (pos out cls : Nat) : Bool := match neighbour pos out with
  | none => false
  | some p => decide ((kgetD s.vc3Wait (16 * p + 2 * opposite out + cls) []).length < 8)

/-- Whether a held record may leave through an output: it was held for 64 tc, its way goes there, and there is a place (R87). -/
def vc3Ready (s : State) (pos out now : Nat) (e : Vc3Ent) : Bool :=
  decide (e.since + 64 ≤ now) && (vc3Way s pos e).any fun w =>
    w.headD 4 == out && (out == 4 || vc3Credit s pos out (leaveClass e.input e.cls out))

/-- The records at the head of a router's input buffers enter the coalescing buffer as far as they fit, its own tile's last (R87). -/
def vc3Refill (pos : Nat) (s : State) : State :=
  (List.range 9).foldl (fun t j =>
    let k := 16 * pos + j
    (kgetD t.vc3Wait k []).foldl (fun u e => match kgetD u.vc3Wait k [] with
      | x :: l => if x = e ∧ vc3Fits u pos e then
          vc3Take pos e { u with vc3Wait := if l.isEmpty then kdel u.vc3Wait k else kput u.vc3Wait k l } else u
      | [] => u) t) s

/-- What the 64 bytes of a record become under uncorrectable lanes: those lanes are open (R61, R75; log entry 21). -/
def spoilRecord (e : LinkErr) (r : Vc3) (s : State) : Vc3 × State :=
  if e.lanes % 256 = 0 then (r, s)
  else
    let (w, s1) := drawWord s
    let x := leNat (vc3Bytes r)
    (vc3Of (leBytes 64 (ofLanes fun i => if bitOf e.lanes i then lane w i else lane x i)), s1)

/-- A record leaves: over a link to the next router, or to the Helmet and the management complex (R87). -/
def vc3Leave (pos out k : Nat) (err : Option LinkErr) (e : Vc3Ent) (s : State) : State :=
  if out = 4 then
    { s with safety := { s.safety with inbox := s.safety.inbox ++ [e.rec_] }, out := .record e.rec_ :: s.out }
  else match neighbour pos out with
    | none => s
    | some p =>
      let b := leaveClass e.input e.cls out
      let s1 := countClass pos e.cls b s
      let (r, s2) := match err with
        | none => (e.rec_, s1)
        | some x => spoilRecord x e.rec_ (linkErrors p 3 0 { x with input := opposite out } s1)
      vc3Arrive p ⟨r, (vc3Way s pos e).map (·.drop 1), opposite out, b, hopTc pos out (s.frame.base + k)⟩ s2

/-- VC3 at an output: the record held longest of those that may leave. -/
def serveVc3 (pos out k : Nat) (err : Option LinkErr) (s : State) : Option State :=
  let held := kgetD s.vc3Held pos []
  (held.find? (vc3Ready s pos out (s.frame.base + k))).map fun e =>
    let l := List.erase held e
    vc3Refill pos (vc3Leave pos out k err e { s with vc3Held := if l.isEmpty then kdel s.vc3Held pos else kput s.vc3Held pos l })

/-! ## The open tc of an output (R61, R67) -/

/-- An output is used in an open tc: the first VC in its order that has something to send; a link carries one flit a tc (R61). -/
def useOpenTc (pos out k : Nat) (err : Option LinkErr) (only3 : Bool) (s : State) : State :=
  let now := s.frame.base + k
  let s1 := stallOwn pos 2 out now (stallOwn pos 1 out now (dropEmpty pos s))
  if !openTc s1 pos out k ∨ now < kgetD (routerOf s1 pos).linkFree out 0 then s
  else
    match (vcOrder (openNo s1 pos out k)).findSome? fun vc =>
      (if vc = 3 then serveVc3 pos out k err s1 else serveVc pos vc out k err s1).map fun t => (vc, t) with
    | some (vc, t) =>
      if only3 && vc != 3 then s else adjRouter pos (fun r => { r with linkFree := kput r.linkFree out (now + 1) }) t
    | none => if only3 then s else s1

/-- VC_FLIT_FORWARD (R67, R69): an output in a tc of the frame, held ones counted. -/
def execVcFlitForward (pos out tc : Nat) (err : Option LinkErr) (s : State) : Result :=
  if 1536 ≤ pos ∨ 5 ≤ out then .next s else atReal tc s (useOpenTc pos out tc err false)

/-- VC3_RECORD_RELEASE (R87): the record that a router has held longest goes on, where its output's open tc is VC3's. -/
def releaseRecord (pos tc : Nat) (err : Option LinkErr) (s : State) : State :=
  match (kgetD s.vc3Held pos []).head? with
  | none => s
  | some e => match vc3Way s pos e with
    | none => s
    | some w => useOpenTc pos (w.headD 4) tc err true s

/-- VC3_RECORD_RELEASE (R87). -/
def execVc3RecordRelease (pos tc : Nat) (err : Option LinkErr) (s : State) : Result :=
  if 1536 ≤ pos then .next s else atReal tc s (releaseRecord pos tc err)

/-! ## Share ledgers (R78, R294) -/

/-- A request that its home port tile refuses (R292 to R294): the reason, where there is one. -/
def requestFault (s : State) (r : MemReq) : Option (Nat × Nat) :=
  let home := chunkHome (chunkOf r.addr)
  if r.bad then some (2, home)
  else if r.addr / 4096 ≠ (r.addr + r.len - 1) / 4096 then some (1, home)
  else match verdict s r.glove r.addr r.len false home with
    | .tier => none
    | .refused reason unit => some (reason, unit)
    | _ => some (0, home)

/-- The flits of the data words of a READ, one for each word and destination that a route reaches; a rejected READ returns zero (R293). -/
def readFlits (s : State) (pos : Nat) (r : MemReq) (allowed : Bool) : List VcFlit :=
  (List.range (min r.len 4096 / 64)).flatMap fun j =>
    let a := r.addr + 64 * j
    r.dests.filterMap fun d => (route s.plat.fuse pos d.1).map fun w =>
      vcFlit 2 r.glove [(w, d.1, d.2.1 + 64 * j)] (.word (if allowed then loadNat s a 64 else 0) (some (r.launch, d.2.2)))
        (allowed && eccMask s a != 0) false

/-- The words of a READ for a window that does not exist, or is not on, are refused one by one (R293, R305). -/
def readDead (pos : Nat) (r : MemReq) (s : State) : State :=
  (r.dests.filter fun d => (route s.plat.fuse pos d.1).isNone).foldl (fun t d =>
    (List.range (min r.len 4096 / 64)).foldl (fun u j => reject r.glove (d.2.1 + 64 * j) 64 2 0 (windowUnit d.2.1 r.src) u) t) s

/-- A refused request: a READ delivers zeros, the source of a WRITE is told (R293; DESIGN CHOICE, log entry 80). -/
def refuseRequest (pos : Nat) (r : MemReq) (s : State) : State :=
  if !r.write then queueFlits pos (readFlits s pos r false) (readDead pos r s)
  else match route s.plat.fuse pos r.src with
    | some w => queueFlits pos [vcFlit 2 r.glove [(w, r.src, 0)] (.grant r.words false) false true] s
    | none => s

/-- The grant of a WRITE goes back to its source (R78). -/
def sendGrant (pos : Nat) (r : MemReq) (s : State) : State :=
  match route s.plat.fuse pos r.src with
  | some w => if r.write then queueFlits pos [vcFlit 2 r.glove [(w, r.src, 0)] (.grant r.words true) false true] s else s
  | none => s

/-- Bytes of a burst of a host DMA transfer: what is left of it, at most 4 KiB. -/
def burstSize (o : Op) : Nat := min 4096 (dLen o.bytes - o.granted)

/-- LEDGER_REQUEST (R78): the first arrived request, or at a PCIe port tile the next burst of a host DMA op, joins the ledger. -/
def execLedgerRequest (pos op : Nat) (s : State) : Result :=
  if 1536 ≤ pos then .next s
  else match kindOf pos, portFn pos with
    | .port, .pcie _ => match kget s.fe.ops op with
      | some o =>
        if o.phase ≠ .started ∨ (dKind o.bytes ≠ 1 ∧ dKind o.bytes ≠ 2) ∨ dLen o.bytes ≤ o.granted ∨
            s.ports.any (fun p => p.2.pend.any fun x => x.req.isNone && x.op == op) then .next s
        else .next (adjPort pos (fun p => { p with pend := p.pend ++ [⟨o.glove, burstSize o, none, op, false⟩] }) s)
      | none => .next s
    | .port, _ => match (portOf s pos).arrived with
      | [] => .next s
      | r :: l =>
        let s1 := adjPort pos (fun p => { p with arrived := l }) s
        if r.bad then .next (refuseRequest pos r (reject r.glove r.addr r.len 2 2 pos s1))
        else .next (adjPort pos (fun p => { p with pend := p.pend ++ [⟨r.glove, r.len, some r, 0, false⟩] }) s1)
    | _, _ => .next s

/-- The VC2 share of a glove (R353). -/
def shareOf (s : State) (g : Nat) : Nat := odForce s (0x3100 + g) 8

/-- Gloves with pending requests that are not stalled, ascending. -/
def pendingGloves (p : PortSt) : List Nat :=
  (List.range 256).filter fun g => p.pend.any fun x => x.glove == g && !x.stalled

/-- The requests of a glove that its deficit covers, in arrival order. -/
def covered : Nat → List LedgerReq → List LedgerReq
  | _, [] => []
  | d, x :: l => if x.size ≤ d then x :: covered (d - x.size) l else []

/-- A request is granted against its glove's deficit: a memory request may move its data, a DMA op its burst. -/
def grantReq (pos : Nat) (x : LedgerReq) (s : State) : State :=
  let s1 := adjPort pos (fun p => { p with
    pend := p.pend.erase x
    deficit := kadj p.deficit x.glove fun d => d - x.size
    granted := match x.req with
      | some r => p.granted ++ [r]
      | none => p.granted }) s
  match x.req with
  | some r => budgetAdd x.glove 5 x.size (sendGrant pos r s1)
  | none => { s1 with fe := { s1.fe with ops := kadj s1.fe.ops x.op fun o => { o with granted := o.granted + x.size } } }

/-- Grant requests one by one: at a memory port tile each needs its glove's allowance, and the glove stalls once it is spent
(R354, R355), no longer pending. -/
def grantAll (pos : Nat) : List LedgerReq → State → State
  | [], s => s
  | x :: l, s =>
    if x.req.isSome ∧ !budgetOpen s x.glove 5 then
      adjPort pos (fun p => { p with
        pend := p.pend.map fun y => if y.glove = x.glove then { y with stalled := true } else y
        deficit := kdel p.deficit x.glove }) (budgetStall x.glove s)
    else grantAll pos l (grantReq pos x s)

/-- The next glove of the round at or above a number, back to the lowest (R78 item 3). -/
def nextGlove (l : List Nat) (g : Nat) : Option Nat := match l.find? fun x => decide (g ≤ x) with
  | some x => some x
  | none => l.head?

/-- A visit of the ledger (R78 items 3 to 5). -/
def ledgerVisit (pos : Nat) (s : State) : State :=
  let p := portOf s pos
  let all := pendingGloves p
  let shared := all.filter fun g => shareOf s g != 0
  let deficit := p.deficit.filter fun x => all.contains x.1
  match shared, nextGlove shared p.visit with
  | _ :: _, some g =>
    let d := kgetD deficit g 0 + 512 * shareOf s g
    let reqs := covered d (p.pend.filter fun x => x.glove == g)
    let s1 := setPort pos { p with deficit := kput deficit g d, visit := g + 1 } s
    let s2 := grantAll pos reqs s1
    if (portOf s2 pos).pend.any fun x => x.glove == g then s2 else adjPort pos (fun p => { p with deficit := kdel p.deficit g }) s2
  | _, _ => match nextGlove all p.visit with
    | none => setPort pos { p with deficit := deficit } s
    | some g => grantAll pos ((p.pend.filter fun x => x.glove == g).take 1) (setPort pos { p with deficit := deficit, visit := g + 1 } s)

/-- LEDGER_GRANT (R78). -/
def execLedgerGrant (pos : Nat) (s : State) : Result :=
  if 1536 ≤ pos then .next s else .next (ledgerVisit pos s)

/-! ## The Col and the stretch (R90 to R93) -/

/-- The rate of a Col link (R94). -/
def colRate (s : State) (row : Nat) : Nat := odGet s 0x2301 (row + 1)

/-- COL_RETRAIN (R90): a Col link comes back at a rate: 1 full, 2 half, 3 quarter, 4 failed. The report's UNIT and REPORTER are the
router at the link's west end, and a failed link stays so until the next start-up (DESIGN CHOICE, log entries 86 and 87). -/
def execColRetrain (row rate : Nat) (s : State) : Result :=
  if 32 ≤ row then .next s
  else
    let old := colRate s row
    if old = 0 ∨ old = 4 ∨ rate = 0 ∨ 4 < rate ∨ rate = old then .next s
    else
      let s1 := odSet s 0x2301 (row + 1) rate
      .next (raise 320 (report (posAt 23 row) 0x0306 (posAt 23 row) row 0 (leBytes 1 old ++ leBytes 1 rate) s1))

/-- Whether a VC0 slot in force uses the Col link of a row. -/
def colUsed (s : State) (row : Nat) : Bool :=
  [(posAt 23 row, 1), (posAt 24 row, 3)].any fun x =>
    let r := routerOf s x.1
    r.segs.any fun g => launchLive s g.1 &&
      (List.range g.2.period).any fun j => match kget r.slots (g.2.base + 5 * j + x.2) with
        | some e => e.1 == g.1 && e.2.op != 0
        | none => false

/-- Whether a stream in force is served by a port tile. -/
def portUsed (s : State) (pos : Nat) : Bool := (portOf s pos).streams.any fun x => launchLive s x.launch

/-- The stretch that a rate code of R302 needs. -/
def rateStretch (code : Nat) : Nat := match code with
  | 2 => 22
  | 3 => 32
  | 4 => 64
  | _ => 16

/-- The causes and the factor M of R92. -/
def stretchOf (s : State) : Nat × Nat :=
  let col := (List.range 32).foldl (fun m r => if colUsed s r then max m (match colRate s r with
    | 2 => 32
    | 3 => 64
    | _ => 16) else m) 16
  let hbm := (List.range 48).foldl (fun m i =>
    if portUsed s (hbmTile (i / 4) (i % 4)) then max m (rateStretch (odGet s 0x2501 (i / 4 + 1))) else m) 16
  let cap := (List.range 24).foldl (fun m cl =>
    if portUsed s (posIn cl 4 3) then max m (rateStretch (odGet s 0x2502 (cl + 1))) else m) 16
  (ofBool (decide (16 < col)) + 2 * ofBool (decide (16 < hbm)) + 4 * ofBool (decide (16 < cap)), max col (max hbm cap))

end Sys2Proof.Machine
end

