-- ==== Sys2Proof/Machine/Tier.lean ====
section
/-! DEFINITION. The memory tiers (R287 to R302): memory requests at their home port tile, streams read ahead, ECC write-back and
patrol scrub, leaves, temperatures and rates, and the assignment of chunks. -/

namespace Sys2Proof.Machine

/-! ## Memory requests (R294) -/

/-- A granted request that comes next of its source (R294): a READ, or a WRITE that has all its words. -/
def nextGranted (write : Bool) (p : PortSt) : Option MemReq :=
  (List.range p.granted.length).findSome? fun i => match p.granted[i]? with
    | some r => if r.write = write ∧ !(p.granted.take i).any (fun x => x.src == r.src) ∧ (!write ∨ r.words ≤ r.data.length) then some r
      else none
    | none => none

/-- A granted request is taken. -/
def takeGranted (pos : Nat) (r : MemReq) (s : State) : State := adjPort pos (fun p => { p with granted := p.granted.erase r }) s

/-- MEM_READ (R294). -/
def execMemRead (pos : Nat) (s : State) : Result :=
  if 1536 ≤ pos then .next s
  else match nextGranted false (portOf s pos) with
    | none => .next s
    | some r =>
      let s1 := takeGranted pos r s
      match requestFault s r with
      | some (reason, unit) => .next (refuseRequest pos r (reject r.glove r.addr r.len 2 reason unit s1))
      | none => .next (queueFlits pos (readFlits s pos r true) (readDead pos r (tierReadChecks r.glove r.addr r.len s1)))

/-- The data words of a WRITE are stored; a poisoned one writes nothing (R75). -/
def writeData (a : Nat) : Words2 → State → State
  | [], s => s
  | (d, bad) :: l, s => writeData (a + 64) l (if bad then s else store a (leBytes 64 d) s)

/-- The completion of a WRITE: an add of 1 at DEST0, where it is named (R294). -/
def writeDone (pos : Nat) (r : MemReq) (s : State) : State :=
  match r.adds, r.dests with
  | true, d :: _ => (match route s.plat.fuse pos d.1 with
    | some w => queueFlits pos [vcFlit 2 r.glove [(w, d.1, d.2.1)] (.add 1) false false] s
    | none => reject r.glove d.2.1 8 2 0 (windowUnit d.2.1 r.src) s)
  | _, _ => s

/-- MEM_WRITE (R294). -/
def execMemWrite (pos : Nat) (s : State) : Result :=
  if 1536 ≤ pos then .next s
  else match nextGranted true (portOf s pos) with
    | none => .next s
    | some r =>
      let s1 := takeGranted pos r s
      match requestFault s r with
      | some (reason, unit) => .next (reject r.glove r.addr r.len 2 reason unit s1)
      | none => .next (writeDone pos r (writeData r.addr r.data s1))

/-! ## Streams (R297) -/

/-- The first places of the read streams of a tag, from where their slots stand, that are not in the buffer. -/
def nextUnread (p : PortSt) (l : List Stream) : Nat → Nat × Nat → Option (Stream × Nat)
  | 0, _ => none
  | n + 1, at_ => match l[at_.1]? with
    | none => none
    | some x =>
      if p.buffer.any fun b => b.stream == x && b.place == at_.2 then nextUnread p l n (nextPlace l at_) else some (x, at_.2)

/-- STREAM_READ_AHEAD (R297, R300): the next word, or whole group, of the read streams of a tag is read; `tag` is 4,096 times the
glove, plus the TAG. -/
def execStreamReadAhead (pos tag : Nat) (s : State) : Result :=
  if 1536 ≤ pos then .next s
  else
    let p := portOf s pos
    let l := streamsOf p (tag / 4096) (tag % 4096) false
    match nextUnread p l 2049 (kgetD p.place (streamKey (tag / 4096) (tag % 4096) false) (0, 0)) with
    | none => .next s
    | some (x, w) =>
      let n := groupWords x.op
      if 2048 < p.buffer.length + n then .next s
      else
        let ws := (span (w / n * n) n).filter fun v => !p.buffer.any fun b => b.stream == x && b.place == v
        .next (adjPort pos (fun q => { q with buffer := q.buffer ++ ws.map (readAheadWord s x) })
          (tierReadChecks x.glove (groupAddr x w) (64 * n) s))

/-! ## ECC and scrubs (R300, R301) -/

/-- The single-bit errors of a 64-byte word are corrected where they are stored. -/
def correctWord (a : Nat) (s : State) : State :=
  { s with ecc := s.ecc.filter fun p => !(p.1 / 8 == a / 64 && p.2 == .single) }

/-- Whether an address lies in a tier whose home tile is on. -/
def inTier (s : State) (a : Nat) : Bool :=
  (regionOf s.plat.fuse a == .hbm || regionOf s.plat.fuse a == .cap) && domainOn s (tileDomain (chunkHome (chunkOf a)))

/-- ECC_WRITE_BACK (R300). -/
def execEccWriteBack (addr : Nat) (s : State) : Result := if inTier s addr then .next (correctWord addr s) else .next s

/-- PATROL_SCRUB_VISIT (R301). -/
def execPatrolScrubVisit (addr : Nat) (s : State) : Result :=
  if inTier s addr then .next (correctWord addr (tierReadChecks 0 (addr / 64 * 64) 64 s)) else .next s

/-! ## Leaves (R298) -/

/-- The chunks of a port tile whose leaf is HASHING. -/
def hashingOf (s : State) (pos : Nat) : List Nat := (s.leaves.filter fun p => chunkHome p.1 == pos && p.2 == .hashing).map (·.1)

/-- HASH_PASS_START (R298): a free engine takes the lowest local chunk that is STALE and quiet; `quiet` are the chunks without a
write for 1,024 tc. -/
def execHashPassStart (pos : Nat) (quiet : List Nat) (s : State) : Result :=
  if 1536 ≤ pos then .next s
  else
    let stale := (s.leaves.filter fun p => chunkHome p.1 == pos && p.2 == .stale && quiet.contains p.1).map (·.1)
    match stale with
    | [] => .next s
    | k :: _ =>
      if 8 ≤ (hashingOf s pos).length ∨ !domainOn s (tileDomain pos) then .next s
      else .next { s with leaves := kput s.leaves k .hashing }

/-- HASH_PASS_DONE (R298): the chunk has been read back (R300), and its leaf is VALID. -/
def execHashPassDone (pos chunk : Nat) (s : State) : Result :=
  if 1536 ≤ pos then .next s
  else if (hashingOf s pos).contains chunk then
    .next (ownReads (chunk * chunkBytes) chunkBytes { s with leaves := kdel s.leaves chunk })
  else .next s

/-! ## Rates (R302) -/

/-- The threshold that leads to a rate code, in °C. -/
def rateFloor (cap : Bool) (code : Nat) : Int := match code with
  | 2 => 85
  | 3 => 95
  | 4 => if cap then 100 else 105
  | 5 => if cap then 105 else 110
  | _ => -128

/-- The code of a temperature, and the code that follows one now in force: a higher rate only 5 °C below the threshold. -/
def rateWant (cap : Bool) (t : Int) : Nat :=
  if rateFloor cap 5 ≤ t then 5 else if rateFloor cap 4 ≤ t then 4 else if rateFloor cap 3 ≤ t then 3
  else if rateFloor cap 2 ≤ t then 2 else 1

def nextRate (cap : Bool) (now : Nat) (t : Int) : Nat :=
  let up := (List.range 5).foldl (fun c _ => if 1 < c ∧ t ≤ rateFloor cap c - 5 then c - 1 else c) now
  max up (rateWant cap t)

/-- MEM_TEMP_READ (R302, R304): the temperature that the next boundary goes by. -/
def execMemTempRead (pos : Nat) (temp : Int) (s : State) : Result :=
  if !isMemPort pos ∨ 1536 ≤ pos then .next s
  else .next (winPut s (tileBase pos + 0xF1004) 8 8 (unsigned 8 temp))

/-- The entry that shows a port tile's rate. -/
def rateEntry (pos : Nat) : Nat × Nat := match portFn pos with
  | .hbm st _ => (0x2501, st + 1)
  | _ => (0x2502, clusterOf pos + 1)

/-- A port tile takes its rate at a frame boundary (R302). -/
def applyRate (pos : Nat) (s : State) : State :=
  let a := tileBase pos + 0xF1004
  let v := winGet s a
  let cap := !(match portFn pos with
    | .hbm _ _ => true
    | _ => false)
  let old := fld v 0 3
  let t := signed 8 (fld v 8 8)
  let new := nextRate cap old t
  let (ix, sub) := rateEntry pos
  if new = old then s
  else raise 320 (report pos 0x0704 pos (ofBool cap) 0 (leBytes 1 old ++ leBytes 1 new ++ leBytes 1 (unsigned 8 t))
    (odSet (winPut s a 0 3 new) ix sub new))

/-- The 72 memory port tiles. -/
def memPorts : List Nat := (List.range 48).map (fun i => hbmTile (i / 4) (i % 4)) ++ (List.range 24).map fun cl => posIn cl 4 3

/-- Every rate chosen in the last tail comes into force. -/
def applyRates (s : State) : State := memPorts.foldl (fun t p => applyRate p t) s

/-! ## Assignment (R288, R290, R291) -/

/-- The chunks that the MemAssign entries name: the first one and how many. -/
def assignRange (s : State) : Nat × Nat := (odGet s 0x2500 1 / chunkBytes, odGet s 0x2500 2)

/-- Whether the named range is aligned, not empty and wholly in one tier of the grade. -/
def assignShape (s : State) : Bool :=
  let a := odGet s 0x2500 1
  let n := odGet s 0x2500 2
  let last := a + n * chunkBytes - 1
  a % chunkBytes == 0 && n != 0 && (match regionOf s.plat.fuse a, regionOf s.plat.fuse last with
    | .hbm, .hbm => true
    | .cap, .cap => true
    | _, _ => false)

/-- Whether a host DMA op in flight reaches a byte range. -/
def dmaReaches (o : Op) (a n : Nat) : Bool :=
  o.phase == .started && (
    (dKind o.bytes == 1 && !dSrcHost o.bytes && overlap (dSrc o.bytes) (dLen o.bytes) a n) ||
    ((dKind o.bytes == 1 || dKind o.bytes == 2) && !dDstHost o.bytes && overlap (dDst o.bytes) (dLen o.bytes) a n) ||
    (dKind o.bytes == 5 && !dSemHost o.bytes && overlap (dAddr o.bytes) 8 a n))

/-- Whether a commit is refused (R291), by the last case or by another. -/
def assignBusy (s : State) : Bool := odGet s 0x2500 6 == 1 || odGet s 0x2500 6 == 2

def assignRefused (s : State) : Bool :=
  let a := odGet s 0x2500 1
  let n := odGet s 0x2500 2 * chunkBytes
  let (first, count) := assignRange s
  !assignShape s ||
  s.chunks.any (fun p => p.2.st == .transit && decide (first ≤ p.1) && decide (p.1 < first + count)) ||
  s.launches.any (fun p => (isRunning p.2 || holdsResult p.2) && (setsOf p.2.params).any fun r => overlap r.base r.len a n) ||
  s.fe.ops.any fun p => dmaReaches p.2 a n

/-- The entry MemAssignCommit (R290, R291). -/
def assignEntry : OwnEntry where
  covers := fun r => reqAt r 0x2500 5
  rule := fun _ t => if assignBusy t || assignRefused t then abState else 0
  effect := fun _ t =>
    let (first, count) := assignRange t
    odSet { t with assign := some ⟨first, count, odGet t 0x2500 3, odGet t 0x2500 4 == 1, false, t.frame.boundaries, []⟩ } 0x2500 6 1
  refused := fun _ t => if assignBusy t then t else odSet t 0x2500 6 4

/-- MEM_ASSIGN_COMMIT (R290, R291). -/
def execMemAssignCommit (req : OdReq) (s : State) : Result := .next (odWriteOwn assignEntry req s)

def chunkAt (s : State) (k : Nat) : Chunk := kgetD s.chunks k ⟨.free, none⟩

/-- Store a chunk's state; a FREE chunk without a last owner is not listed. -/
def setChunk (k : Nat) (c : Chunk) (s : State) : State :=
  { s with chunks := if c = ⟨.free, none⟩ then kdel s.chunks k else kput s.chunks k c }

/-- The owner that an assignment brings: none for FREE. -/
def assignOwner (a : Assign) : Option Nat := if a.glove = 0x100 then none else some a.glove

/-- MEM_ASSIGN_TRANSIT (R290): at the next boundary the chunks are TRANSIT, and those that need it are scrubbed. -/
def execMemAssignTransit (s : State) : Result :=
  match s.assign with
  | none => .next s
  | some a =>
    if a.transit ∨ s.frame.boundaries ≤ a.boundary then .next s
    else
      let ks := span a.first a.count
      let todo := ks.filter fun k => a.scrub || (chunkAt s k).last != assignOwner a
      let s1 := ks.foldl (fun t k => setChunk k { chunkAt t k with st := .transit } t) s
      .next (odSet { s1 with assign := some { a with transit := true, boundary := s.frame.boundaries, todo := todo } } 0x2500 6 2)

/-- CHUNK_SCRUB_DONE (R290): every word of the chunk is zero with valid check bits, its leaf VALID. -/
def execChunkScrubDone (chunk : Nat) (s : State) : Result :=
  match s.assign with
  | none => .next s
  | some a =>
    if !a.todo.contains chunk ∨ !domainOn s (tileDomain (chunkHome chunk)) then .next s
    else
      let lo := chunk * chunkBytes
      .next { s with
        mem := memZero s.mem lo (lo + chunkBytes)
        ecc := kclear s.ecc (lo / 8) ((lo + chunkBytes) / 8)
        leaves := kdel s.leaves chunk
        assign := some { a with todo := a.todo.erase chunk, boundary := s.frame.boundaries } }

/-- MEM_ASSIGN_DONE (R290): at the first boundary after the last scrub the chunks have their owner. -/
def execMemAssignDone (s : State) : Result :=
  match s.assign with
  | none => .next s
  | some a =>
    if !a.transit ∨ a.todo ≠ [] ∨ s.frame.boundaries ≤ a.boundary then .next s
    else
      let st : ChunkSt := match assignOwner a with
        | none => .free
        | some g => .owned g
      let s1 := (span a.first a.count).foldl (fun t k => setChunk k ⟨st, assignOwner a⟩ t) s
      .next (odSet { s1 with assign := none } 0x2500 6 3)

end Sys2Proof.Machine
end

