-- ==== Sys2Proof/Machine/Dma.lean ====
section
/-! DEFINITION. Host DMA (R320): copies and fills, burst by burst under the share ledger and the budgets; semaphores (R321 to
R323); the retest of a stalled action (R355). A `tc` operand is the plan tc at which the first word acts at a bank's port B. -/

namespace Sys2Proof.Machine

/-- The check of a whole transfer's device side before its first byte moves (R276, R292, R293, R299, R351, R52). -/
def dmaCheck (g a n : Nat) (write : Bool) (s : State) : Nat × State :=
  match verdict s g a n true dmaTile with
  | .refused reason unit => (stAccessFault, reject g a n 1 reason unit s)
  | v =>
    match (if write then writeHold s g a n else none) with
    | some (some reason, at_) => (stAccessFault, reject g a n 1 reason (rejectUnit s.plat.fuse at_ dmaTile) s)
    | some (none, at_) =>
      let (x, s1) := drawFree s
      (stAccessFault, reject g a n 1 (x.toNat % 256) (rejectUnit s.plat.fuse at_ dmaTile) s1)
    | none => match v with
      | .bank b => bankCheck g 1 write b a s
      | _ => (stOk, s)

/-- The device sides of a transfer: address and whether it is written. -/
def dmaSides (b : List Byte) : List (Nat × Bool) :=
  (if dKind b = 1 ∧ !dSrcHost b then [(dSrc b, false)] else []) ++ (if dDstHost b then [] else [(dDst b, true)])

def dmaHasHost (b : List Byte) : Bool := dSrcHost b || dDstHost b

/-- Whether a device address is in a tier. -/
def atTier (s : State) (a : Nat) : Bool := match regionOf s.plat.fuse a with
  | .hbm => true
  | .cap => true
  | _ => false

/-- The tiers that a transfer reaches, each counted (R352 sub 05). -/
def dmaTiers (s : State) (b : List Byte) : Nat := ((dmaSides b).filter fun x => atTier s x.1).length

/-- Whether the budgets let a burst start (R352, R354). -/
def dmaOpen (s : State) (o : Op) : Bool :=
  budgetOpen s o.glove 6 && (dmaTiers s o.bytes == 0 || budgetOpen s o.glove 5)

/-- A burst of n bytes is counted when it starts (R352). -/
def dmaSpend (o : Op) (n : Nat) (s : State) : State :=
  let s1 := budgetAdd o.glove 6 n s
  if dmaTiers s o.bytes = 0 then s1 else budgetAdd o.glove 5 (n * dmaTiers s o.bytes) s1

/-- A burst moves: one word a tc from a plan tc on, or at once (log entry 52). -/
def moveBurst (k : Nat) (o : Op) (n : Nat) (data : List Byte) (tc : Option Nat) (s : State) : State :=
  match tc with
  | some t => dmaWord (foreign o.glove t) k 0 n data stOk false s
  | none =>
    let ((d, st, bad), s1) := burstWords o (n / 64) 0 data stOk false s
    endBurst k o n d st bad s1

/-- Whether a burst of an op is on its way. -/
def bursting (s : State) (k : Nat) : Bool := s.agenda.any fun x => match x.act with
  | .dma op _ _ _ _ _ => op == k
  | _ => false

/-- The next burst that the ledger has granted, or the stall of its glove (R78, R355). -/
def dmaBurst (k : Nat) (o : Op) (tc : Option Nat) (s : State) : State :=
  let n := min 4096 (o.granted - o.moved)
  if n = 0 ∨ o.stalled.isSome ∨ reading s k ∨ bursting s k ∨ (dmaHasHost o.bytes ∧ !s.host.busMaster) then s
  else if !dmaOpen s o then setOp k { o with stalled := some s.frame.boundaries } (budgetStall o.glove s)
  else
    let s1 := dmaSpend o n s
    if dSrcHost o.bytes then hostRead (.copy k) (dSrc o.bytes + o.moved) n s1 else moveBurst k o n [] tc s1

/-- A copy's host bytes have come. -/
def copyData (k : Nat) (o : Op) (d : List Byte) (tc : Option Nat) (s : State) : State := moveBurst k o d.length d tc s

/-- Copies and fills in progress; 8 at most (R319). -/
def dmaBusy (s : State) : Nat :=
  (s.fe.ops.filter fun p => p.2.phase == .started && (dKind p.2.bytes == 1 || dKind p.2.bytes == 2)).length

/-- A copy or fill starts: it is checked whole (R320, R342). -/
def startDma (k kind : Nat) (s : State) : State :=
  if 8 ≤ dmaBusy s then s
  else match startOp s k kind [1, 2] with
    | none => s
    | some (o, s1) =>
      if !gloveActive s o.glove then completeOp k stAccessFault s1
      else
        let (st, s2) := (dmaSides o.bytes).foldl (fun x y =>
          if x.1 ≠ stOk then x else dmaCheck o.glove y.1 (dLen o.bytes) y.2 x.2) (stOk, s1)
        if st = stOk then s2 else completeOp k st s2

/-- COPY (R320). -/
def execCopy (op : Nat) (s : State) : Result := .next (startDma op 1 s)

/-- FILL (R320). -/
def execFill (op : Nat) (s : State) : Result := .next (startDma op 2 s)

/-- A burst of an op in progress. -/
def burst (op : Nat) (tc : Option Nat) (s : State) : State := match kget s.fe.ops op with
  | none => s
  | some o => if o.phase = .started ∧ (dKind o.bytes = 1 ∨ dKind o.bytes = 2) then dmaBurst op o tc s else s

/-- DMA_BURST (R320). -/
def execDmaBurst (op : Nat) (tc : Option Nat) (s : State) : Result := atTc? tc s (burst op tc)

/-! ## Semaphores (R321 to R323) -/

/-- What a waiting op finds (R322, R404): it completes, or waits on. -/
def semValue (k : Nat) (o : Op) (v : Nat) (bad : Bool) (s : State) : State :=
  if bad then completeOp k stEcc s
  else if dValue o.bytes ≤ v then completeOp k stOk s
  else s

/-- The words that signals have changed in the present tc. -/
def semsNow (s : State) : List (Nat × Nat × Nat × Nat) := s.sems.filter fun x => x.1 == s.frame.boundaries && x.2.1 == s.now

/-- What a read in a plan tc finds of a word that signals of that tc have changed: the word before the first of them (R323). -/
def semBefore (s : State) (tc : Option Nat) (a v : Nat) : Nat := match tc, (semsNow s).find? fun x => x.2.2.1 == a with
  | some _, some x => x.2.2.2
  | _, _ => v

/-- A signal in a plan tc is about to change a word. -/
def semNote (tc : Option Nat) (a : Nat) (s : State) : State := match tc with
  | some _ => { s with sems := semsNow s ++ [(s.frame.boundaries, s.now, a, loadNat s a 8)] }
  | none => s

/-- A read of the word that a WAIT_SEM waits on. -/
def semRead (k : Nat) (o : Op) (tc : Option Nat) (s : State) : State :=
  let a := dAddr o.bytes
  if dSemHost o.bytes then (if s.host.busMaster ∧ !reading s k then hostRead (.sem k) a 8 s else s)
  else match verdict s o.glove a 8 false dmaTile with
    | .tier => semValue k o (semBefore s tc a (loadNat s a 8)) (eccBad s a 8) (tierReadChecks o.glove a 8 s)
    | .bank b =>
      let (r, s1) := portRead o.glove b a 8 s
      if r.status = stOk then semValue k o (semBefore s tc a (leNat r.data)) r.bad s1 else completeOp k r.status s1
    | .regs _ =>
      let (d, s1) := devBytes .host true 2 a s
      semValue k o (leNat d) false s1
    | .refused reason unit => completeOp k stAccessFault (reject o.glove a 8 1 reason unit s)

/-- A wait starts with its first read (R322, R342). -/
def waitSem (op : Nat) (tc : Option Nat) (s : State) : State := match startOp s op 4 [4, 5, 6, 7] with
  | none => s
  | some (o, s1) => if gloveActive s1 o.glove then semRead op o tc s1 else completeOp op stAccessFault s1

/-- WAIT_SEM (R322, R342). -/
def execWaitSem (op : Nat) (tc : Option Nat) (s : State) : Result := atTc? tc s (waitSem op tc)

/-- A wait reads again. -/
def pollSem (op : Nat) (tc : Option Nat) (s : State) : State := match kget s.fe.ops op with
  | none => s
  | some o => if o.phase = .started ∧ dKind o.bytes = 4 then semRead op o tc s else s

/-- WAIT_SEM_POLL (R322): 256 tc, or 4,096 tc for a host address, after the last read. -/
def execWaitSemPoll (op : Nat) (tc : Option Nat) (s : State) : Result := atTc? tc s (pollSem op tc)

/-- A signal whose atomic is not performed, on an uncorrectable lane (R45, R300): the manual names no status for it. It is neither OK
(R11) nor 0xFFFF (R315), and open among the others (log entry 9). -/
def signalLost (k : Nat) (s : State) : State :=
  let (x, s1) := drawFree s
  completeOp k (x.toNat % 0xFFFE + 1) s1

/-- A signal on a tier's lane. -/
def signalTier (k : Nat) (o : Op) (tc : Option Nat) (s : State) : State :=
  let a := dAddr o.bytes
  let s1 := tierReadChecks o.glove a 8 s
  if eccBad s a 8 then signalLost k s1
  else
    let v := if dSemWrite o.bytes then dValue o.bytes else (loadNat s a 8 + dValue o.bytes) % 2 ^ 64
    completeOp k stOk (ndHostWrite o.glove a 8 (store a (leBytes 8 v) (semNote tc a s1)))

/-- A signal on a bank's lane (R48). -/
def signalBank (k : Nat) (o : Op) (b : Nat) (tc : Option Nat) (s : State) : State :=
  let (st, _, bad, s1) := portAtomic o.glove b (dAddr o.bytes) (dSemWrite o.bytes) (dValue o.bytes) (semNote tc (dAddr o.bytes) s)
  if st = stOk ∧ bad then signalLost k s1 else completeOp k st s1

/-- A signal in device space, one host DMA transfer (R323). -/
def signalDevice (k : Nat) (o : Op) (tc : Option Nat) (s : State) : State :=
  let a := dAddr o.bytes
  let (st, s1) := dmaCheck o.glove a 8 true s
  if st ≠ stOk then completeOp k st s1
  else if !budgetOpen s1 o.glove 6 then setOp k { o with stalled := some s1.frame.boundaries } (budgetStall o.glove s1)
  else
    let s2 := budgetAdd o.glove 6 8 s1
    match verdict s2 o.glove a 8 false dmaTile with
    | .tier => signalTier k o tc s2
    | .bank b => signalBank k o b tc s2
    | _ =>
      let (d, s3) := devBytes .host true 2 a s2
      let v := if dSemWrite o.bytes then dValue o.bytes else (leNat d + dValue o.bytes) % 2 ^ 64
      completeOp k stOk (devWords .host a (leBytes 8 v) s3)

/-- What a started signal does; a host-space write waits for Bus Master Enable, and an orphan's is suppressed (R312, R323, R461). -/
def signal (k : Nat) (o : Op) (tc : Option Nat) (s : State) : State :=
  if o.stalled.isSome then s
  else if dSemHost o.bytes then
    if o.orphan then completeOp k stOk s
    else if s.host.busMaster then completeOp k stOk (hostWrite (dAddr o.bytes) (leBytes 8 (dValue o.bytes)) s)
    else s
  else signalDevice k o tc s

/-- A signal starts, or one that waited goes on. -/
def signalSem (op : Nat) (tc : Option Nat) (s : State) : State := match startOp s op 5 [4, 5, 6, 7] with
  | some (o, s1) => if gloveActive s1 o.glove then signal op o tc s1 else completeOp op stAccessFault s1
  | none => match kget s.fe.ops op with
    | none => s
    | some o => if o.phase = .started ∧ dKind o.bytes = 5 then signal op o tc s else s

/-- SIGNAL_SEM (R323, R342). -/
def execSignalSem (op : Nat) (tc : Option Nat) (s : State) : Result := atTc? tc s (signalSem op tc)

/-! ## Stalls (R355) -/

/-- Whether the budgets that an op waits for are open. -/
def opBudgetOpen (s : State) (o : Op) : Bool := if dKind o.bytes = 5 then budgetOpen s o.glove 6 else dmaOpen s o

/-- BUDGET_STALL_RETRY (R355): once a frame boundary has passed, the stalled action is tested again. -/
def execBudgetStallRetry (op : Nat) (s : State) : Result :=
  match kget s.fe.ops op with
  | none => .next s
  | some o => match o.stalled with
    | none => .next s
    | some f =>
      if f = s.frame.boundaries then .next s
      else if opBudgetOpen s o then .next (setOp op { o with stalled := none } s)
      else .next (setOp op { o with stalled := some s.frame.boundaries } (budgetStall o.glove s))

end Sys2Proof.Machine
end

