-- ==== Sys2Proof/Machine/Field.lean ====
section
/-! DEFINITION. Cyclic process data (R361 to R376, R381): frames that arrive, what the boundary delivers of them, safety connections, and
frames that leave. -/

namespace Sys2Proof.Machine

def fieldWith (f : FieldSt → FieldSt) (s : State) : State := { s with field := f s.field }

def RxSt.blank : RxSt := ⟨none, none, none, 0, none⟩
def TxSt.blank : TxSt := ⟨[], [], false, none, false, 0⟩
def Conn.blank : Conn := ⟨0, 0, 0, false, [], 0, 1, false⟩

def rxOf (s : State) (k : Nat) : RxSt := kgetD s.field.rx k RxSt.blank
def setRx (k : Nat) (r : RxSt) (s : State) : State := fieldWith (fun x => { x with rx := kput x.rx k r }) s
def txOf (s : State) (k : Nat) : TxSt := kgetD s.field.tx k TxSt.blank
def setTx (k : Nat) (r : TxSt) (s : State) : State := fieldWith (fun x => { x with tx := kput x.tx k r }) s
def connOf (s : State) (c : Nat) : Conn := kgetD s.field.conn c Conn.blank
def setConn (c : Nat) (r : Conn) (s : State) : State :=
  odSet (fieldWith (fun x => { x with conn := kput x.conn c r }) s) (0x4100 + c) 7 r.state

/-! ## Ports and tiles (R361, R388) -/

/-- The TSN port tile of a port. -/
def tsnTile (port : Nat) : Nat := if port < 4 then 732 else 756

/-- The lowest port of a mask. -/
def maskPort (m : Nat) : Nat := ((List.range 8).find? (bitOf m)).getD 0

def portUp (s : State) (p : Nat) : Bool := odGet s (0x1200 + p) 3 == 1

/-- An event of TSN_PD_EV: field 0 RX_BAD, 1 TX_NODATA, 2 TX_LATE, 3 SAFETY_CRC. -/
def pdEvent (tile field : Nat) (s : State) : State := winBump s (tileBase tile + 0xF1004) (8 * field) 8 1

/-! ## Streams and mappings (R365, R366) -/

/-- A stream's own entries: receive streams are 0 to 63, transmit streams 64 to 127. -/
def streamIndex (k : Nat) : Nat := if k < 64 then 0x6800 + k else 0x6840 + (k - 64)
def streamMask (s : State) (k : Nat) : Nat := odGet s (streamIndex k) 2
def payloadLen (s : State) (k : Nat) : Nat := odGet s (streamIndex k) (if k < 64 then 4 else 5)
/-- Whether a stream is enabled in this frame, and whether it is enabled now or about to be. -/
def streamOn (s : State) (k : Nat) : Bool := odForce s (streamIndex k) 1 == 1
def streamBusy (s : State) (k : Nat) : Bool := streamOn s k || odGet s (streamIndex k) 1 == 1

/-- A piece of a payload: what it names, its offset and length. -/
structure Piece where
  ref : Nat
  off : Nat
  len : Nat
  deriving DecidableEq, Repr

/-- The length of what a mapping entry names. -/
def pieceLen (s : State) (ref : Nat) : Nat := if ref < 0x8000 then odGet s (0x6000 + ref) 7 else odGet s (0x4100 + (ref - 0x8000)) 3 + 9

/-- The pieces of a stream's mapping. -/
def pieces (s : State) (k : Nat) : List Piece :=
  (span 1 (odGet s (0x6A00 + k) 0)).map fun i =>
    let v := odGet s (0x6A00 + k) i
    ⟨fld v 16 16, fld v 0 16, pieceLen s (fld v 16 16)⟩

/-- Whether two pieces share a byte. -/
def piecesMeet (a b : Piece) : Bool := decide (a.off < b.off + b.len) && decide (b.off < a.off + a.len)

/-- Whether a stream's pieces lie apart and inside its payload. -/
def piecesOk (s : State) (k : Nat) : Bool :=
  let l := pieces s k
  l.all (fun p => decide (p.off + p.len ≤ payloadLen s k)) &&
    (List.range l.length).all fun i => (List.range i).all fun j => match l[i]?, l[j]? with
      | some a, some b => !piecesMeet a b
      | _, _ => true

/-- Whether the mappings obey R365. -/
def mappingOk (s : State) : Bool :=
  (List.range 128).all (piecesOk s) && ((List.range 128).flatMap fun k => ((pieces s k).map (·.ref)).eraseDups).Nodup

/-! ## Receive (R362, R364, R367) -/

/-- A frame as R364 cuts it. -/
structure RxFrame where
  mac : List Byte
  vid : Nat
  seq : Option Nat
  etype : Nat
  header : List Byte
  payload : List Byte
  deriving DecidableEq, Repr

/-- The parts of a frame with one tag, without its frame check sequence. -/
def rxParse (d : List Byte) : Option RxFrame :=
  if beNat ((d.drop 12).take 2) ≠ 0x8100 then none
  else
    let vid := beNat ((d.drop 14).take 2) % 4096
    let e := beNat ((d.drop 16).take 2)
    if e = 0xF1C1 then
      some ⟨d.take 6, vid, some (beNat ((d.drop 20).take 2)), beNat ((d.drop 22).take 2), (d.drop 24).take 8, d.drop 32⟩
    else some ⟨d.take 6, vid, none, e, (d.drop 18).take 8, d.drop 26⟩

/-- The eight bytes by which filters and streams match: MAC, VID. -/
def matchValue (f : RxFrame) : Nat := leNat (f.mac ++ leBytes 2 f.vid)

/-- The stream filter of a frame (R362). -/
def filterOf (s : State) (f : RxFrame) : Option Nat := (List.range 256).find? fun i => odGet s (0x1600 + i) 1 == matchValue f

/-- The flow meter of a filter: whether a frame of `n` bytes passes at a time, and the meter after it. -/
def meterRun (s : State) (i n ns : Nat) : Bool × State :=
  let rate := odGet s (0x1600 + i) 3
  let burst := odGet s (0x1600 + i) 4 * 8000000
  if rate = 0 then (true, s)
  else
    let (tok, at_) := kgetD s.field.meter i (burst, ns)
    let now := min burst (tok + (ns - at_) * rate)
    let ok := decide (n * 8000000 ≤ now)
    (ok, fieldWith (fun x => { x with meter := kput x.meter i (if ok then now - n * 8000000 else now, ns) }) s)

/-- 802.1CB vector recovery (R362): whether a frame is taken, and the highest number with the history. -/
def recover (len : Nat) (st : Option (Nat × Nat)) (seq : Nat) : Bool × Option (Nat × Nat) :=
  match st with
  | none => (true, some (seq, 1))
  | some (top, hist) =>
    let d := signed 16 ((seq + 65536 - top) % 65536)
    if (len : Int) ≤ d ∨ d ≤ -(len : Int) then (false, st)
    else if d ≤ 0 then
      let i := (-d).toNat
      if bitOf hist i then (false, st) else (true, some (top, hist + 2 ^ i))
    else (true, some (seq, (hist * 2 ^ d.toNat + 1) % 2 ^ len))

/-- A frame is discarded (R364). -/
def rxDrop (port : Nat) (s : State) : State := pdEvent (tsnTile port) 0 (odBump s (0x7100 + port) 3 64 1)

/-- The enabled receive stream of a frame. -/
def rxStream (s : State) (port : Nat) (f : RxFrame) : Option Nat :=
  (List.range 64).find? fun k => streamOn s k && bitOf (streamMask s k) port && odGet s (0x6800 + k) 3 == matchValue f

/-- A frame of a stream is kept for its frame (R367). -/
def rxKeep (port k : Nat) (late : Bool) (x : Nat × List Byte) (s : State) : State :=
  let r := rxOf s k
  let old := if late then r.next else r.due
  let s1 := setRx k (if late then { r with next := some x } else { r with due := some x }) s
  if old.isSome then rxDrop port s1 else s1

/-- A process-data frame that passed its filter reaches its stream. Of one that no enabled stream takes, R364 says nothing: it is dropped
uncounted (DESIGN CHOICE, log entry 94). -/
def rxAccept (port : Nat) (late : Bool) (f : RxFrame) (s : State) : State :=
  match rxStream s port f with
  | none => s
  | some k =>
    let n := odGet s (0x6800 + k) 4
    if (f.header.headD 0).toNat ≠ 1 ∨ f.header.length < 8 ∨ f.payload.length < n then rxDrop port s
    else
      let hist := odGet s (0x6800 + k) 5
      let (ok, rec) := match hist, f.seq with
        | h + 1, some q => recover (h + 1) (rxOf s k).recov q
        | _, _ => (true, (rxOf s k).recov)
      let s1 := setRx k { rxOf s k with recov := rec } s
      if ok then rxKeep port k late (leNat (f.header.drop 4), f.payload.take n) s1 else s1

/-- RX_FRAME (R362, R364, R367): a frame without its frame check sequence; `late` where its last byte came after the capture point of
the coming boundary, `ns` the time of its arrival. -/
def execRxFrame (port : Nat) (late : Bool) (ns : Nat) (data : List Byte) (s : State) : Result :=
  if 8 ≤ port then .next s
  else if !portUp s port then .next s
  else
    let s1 := odBump s (0x7100 + port) 1 64 1
    match rxParse data with
    | none => .next s1
    | some f =>
      if f.etype ≠ odGet s 0x1300 1 then .next s1
      else match filterOf s f with
        | none => .next (rxDrop port s1)
        | some i =>
          let n := data.length + 4
          if odGet s (0x1600 + i) 2 < n then .next (rxDrop port s1)
          else
            let (ok, s2) := meterRun s1 i n ns
            .next (if ok then rxAccept port late f s2 else rxDrop port s2)

/-! ## Safety connections (R373 to R376) -/

/-- Whether a container of n data bytes passes its CRC (R373). -/
def containerOk (scid n : Nat) (b : List Byte) : Bool :=
  crc32c (leBytes 4 scid ++ b.take (5 + n)) == leNat ((b.drop (5 + n)).take 4)

/-- A container (R373). -/
def containerOf (scid seq status : Nat) (d : List Byte) : List Byte :=
  let b := leBytes 4 seq ++ leBytes 1 status ++ d
  b ++ leBytes 4 (crc32c (leBytes 4 scid ++ b))

/-- The connection after the event of a boundary, with whether it entered FAILSAFE and whether a container was out of sequence (R375). -/
def connStep (x : Conn) (wd : Nat) (auto : Bool) (c : Option (Nat × List Byte × Nat)) : Conn × Bool × Bool :=
  let miss (bad : Bool) : Conn × Bool × Bool :=
    let age := x.age + 1
    if wd ≤ age then ({ x with age := age, state := if auto then 1 else 4 }, true, bad) else ({ x with age := age }, false, bad)
  match x.state, c with
  | 1, some (seq, _, _) => ({ x with state := 2, last := seq }, false, false)
  | 2, some (seq, d, cy) =>
    if (seq + 2 ^ 32 - x.last) % 2 ^ 32 = 1 then ({ x with state := 3, last := seq, age := 0, data := d, cycle := cy }, false, false)
    else ({ x with last := seq }, false, false)
  | 2, none => ({ x with state := 1 }, false, false)
  | 3, some (seq, d, cy) =>
    let k := (seq + 2 ^ 32 - x.last) % 2 ^ 32
    if 1 ≤ k ∧ k ≤ wd then ({ x with last := seq, age := 0, data := d, cycle := cy }, false, false) else miss true
  | 3, none => miss false
  | 4, _ => if auto || x.ack then ({ x with state := 1, ack := false }, false, false) else (x, false, false)
  | _, _ => (x, false, false)

/-- The two CRC units of a port tile disagree over a container (R374, R392). -/
def crcDisagree (tile : Nat) (s : State) : State := raise 139 (enterSafe 3 (dangerous (pdEvent tile 3 s)))

/-- A receive connection at a boundary: `piece` is its container where a frame came, with the frame's CYCLE; `bad` where the two CRC
units disagree over it. -/
def connRun (c tile : Nat) (bad : Bool) (piece : Option (List Byte × Nat)) (s : State) : State :=
  let x := connOf s c
  let b := 0x4100 + c
  if !x.on then s
  else
    let n := odGet s b 3
    let good := piece.filter fun p => !bad && containerOk (odGet s b 2) n p.1
    let s0 := if piece.isSome ∧ good.isNone then odBump s b 9 32 1 else s
    let s1 := if piece.isNone ∨ good.isSome then s0 else if bad then crcDisagree tile s0 else pdEvent tile 3 s0
    let (y, fail, seqBad) := connStep x (odGet s b 4) (odGet s b 5 == 1)
      (good.map fun p => (leNat (p.1.take 4), (p.1.drop 5).take n, p.2))
    let s2 := if seqBad then odBump s1 b 10 32 1 else s1
    let s3 := setConn c y s2
    if fail then raise 326 s3 else s3

/-- Connections that a boundary enables or disables (R366, R375, R376). -/
def connEnable (s : State) : State :=
  (s.od.filter fun p => decide (odKey 0x4100 11 ≤ p.1) && decide (p.1 ≤ odKey 0x44FF 11)).foldl (fun t p =>
    let c := (List.range 1024).find? fun c => odKey (0x4100 + c) 11 == p.1
    match c with
    | none => t
    | some c =>
      let on := p.2 == 1
      if on = (connOf t c).on then t
      else setConn c (if on then { Conn.blank with state := if odGet t (0x4100 + c) 1 = 0 then 1 else 0, on := true } else Conn.blank) t) s

/-! ## Delivery at the boundary (R368) -/

/-- What is delivered of one object: its data, CYCLE, the state of its stream, its connection's state and age. -/
structure PdOut where
  obj : Nat
  stream : Nat
  data : List Byte
  cycle : Nat
  state : Nat
  safe : Nat
  age : Nat
  deriving DecidableEq, Repr

/-- The status block (R368). -/
def statusBlock (s : State) (o : PdOut) : List Byte :=
  leBytes 4 o.cycle ++ leBytes 1 o.state ++ leBytes 1 o.safe ++ leBytes 1 (min o.age 255) ++ [0] ++
    leBytes 2 (min (rxOf s o.stream).missed 0xFFFF) ++ List.replicate 54 0

/-- A location that the spare set takes over for a fenced set (R396, R399). -/
def movedTo (s : State) (glove obj which : Nat) : Option (Nat × Nat) :=
  (kvals s.launches).findSome? fun l =>
    if l.glove = glove ∧ isRunning l ∧ l.sentinel.partnerC ∧ l.sentinel.fenced.contains which then
      l.aux.safety.bind fun t => (t.moved.find? fun m => m.1 == obj).map (·.2)
    else none

/-- The locations of an object (R369): a fenced set's are those of its spare once it is the partner. -/
def objectDests (s : State) (o : Nat) : List (Nat × Nat) :=
  let g := odGet s (0x6000 + o) 1
  ([0, 1].filterMap fun w =>
    let d := odGet s (0x6000 + o) (3 + 2 * w)
    if d = 0xFFFF then none else some ((movedTo s g o w).getD (d, odGet s (0x6000 + o) (4 + 2 * w))))

/-- The words of an object as flits of one VC1 message (R77, R368). -/
def pdFlits (s : State) (tile glove : Nat) (ds : List (DestWin × Nat)) (b : List Byte) : List VcFlit :=
  (List.range ((b.length + 63) / 64)).map fun j =>
    let w := (b.drop (64 * j)).take 64
    vcFlit 1 glove (destsOf s.plat.fuse tile (ds.map fun d => (d.1, d.2 + 64 * j))) (.piece (w ++ List.replicate (64 - w.length) 0)) false false

/-- An object is delivered: its data, then its status block; words for a window that does not exist are refused (R35, R293). -/
def pdDeliver (o : PdOut) (s : State) : State :=
  let tile := tsnTile (maskPort (streamMask s o.stream))
  let g := odGet s (0x6000 + o.obj) 1
  let st := odGet s (0x6000 + o.obj) 8
  let n := odGet s (0x6000 + o.obj) 7
  let data := (o.data ++ List.replicate (n - o.data.length) 0).take n
  let ds := objectDests s o.obj
  let live := ds.filterMap fun d => (destWin d.1).bind fun w => if (route s.plat.fuse tile w.pos).isSome then some (w, d.2) else none
  let dead := ds.filter fun d => match destWin d.1 with
    | some w => (route s.plat.fuse tile w.pos).isNone
    | none => true
  let flits := pdFlits s tile g live data ++
    (if st = 0xFFFFFFFF then [] else pdFlits s tile g (live.map fun w => (w.1, st)) (statusBlock s o))
  let s1 := queueFlits tile (flits.filter fun f => !f.dests.isEmpty) s
  dead.foldl (fun t d => (List.range ((n + 63) / 64)).foldl (fun u j =>
    let a := (match destWin d.1 with
      | some w => w.base
      | none => 0) + d.2 + 64 * j
    reject g a 64 4 0 (windowUnit a tile) u) t) s1

/-- What a piece of a receive stream delivers. -/
def pieceOut (s : State) (k state : Nat) (frame : Option (Nat × List Byte)) (p : Piece) : Option PdOut :=
  let cy := (frame.map (·.1)).getD 0
  if p.ref < 0x8000 then
    if odGet s (0x6000 + p.ref) 2 = 0 then
      some ⟨p.ref, k, (frame.map fun f => (f.2.drop p.off).take p.len).getD [], cy, state, 0, 0⟩
    else none
  else
    let c := p.ref - 0x8000
    let x := connOf s c
    if odGet s (0x4100 + c) 1 = 0 then
      some ⟨odGet s (0x4100 + c) 6, k, if x.state = 3 then x.data else [], if x.state = 3 then x.cycle else cy, state, x.state, x.age⟩
    else none

/-- One enabled receive stream at a boundary: its frame, its connections, and what its objects receive. -/
def rxBoundary (crc : List Nat) (k : Nat) (s : State) : List PdOut × State :=
  let r := rxOf s k
  let tile := tsnTile (maskPort (streamMask s k))
  let frame := r.due.or r.last
  let r1 : RxSt := ⟨r.next, none, frame, if r.due.isSome then 0 else satAdd 0xFFFF r.missed 1, r.recov⟩
  let s1 := setRx k r1 s
  let s2 := if r.due.isSome then s1 else raise 325 (odBump s1 (0x6800 + k) 6 32 1)
  let ps := pieces s k
  let s3 := ps.foldl (fun t p =>
    if p.ref < 0x8000 ∨ odGet t (0x4100 + (p.ref - 0x8000)) 1 ≠ 0 then t
    else connRun (p.ref - 0x8000) tile (crc.contains (p.ref - 0x8000)) (r.due.map fun f => ((f.2.drop p.off).take p.len, f.1)) t) s2
  let st := if r.due.isSome then 0 else if frame.isSome then 1 else 2
  (ps.filterMap (pieceOut s3 k st frame), s3)

/-- Streams that a boundary enables begin afresh (R366). -/
def streamEnable (before s : State) : State :=
  (List.range 64).foldl (fun t k =>
    let u := if streamOn t k ∧ !streamOn before k then setRx k RxSt.blank t else t
    if streamOn u (64 + k) ∧ !streamOn before (64 + k) then setTx k TxSt.blank u else u) s

/-- The gate control list that a commit puts in force (R362). -/
def gclOf (s : State) (p : Nat) : Nat × List Nat := (odGet s (0x1400 + p) 2, (span 1 (odGet s (0x1400 + p) 1)).map fun i => odGet s (0x1500 + p) i)

/-- Receive connections in no enabled stream are evaluated without a container (R375). -/
def connIdle (s : State) : State :=
  let mapped := ((List.range 64).filter (streamOn s)).flatMap fun k => (pieces s k).map (·.ref)
  s.field.conn.foldl (fun t p =>
    if p.2.on ∧ odGet t (0x4100 + p.1) 1 = 0 ∧ !mapped.contains (0x8000 + p.1) then connRun p.1 0 false none t else t) s

/-- A frame boundary in the field network; `before` is the state before the accepted entries came into force. -/
def fieldBoundary (crc : List Nat) (before s : State) : State :=
  let s0 := fieldWith (fun x => { x with
    mute := isSafe s
    gcl := x.gclDue.foldl (fun m p => kput m p (gclOf s p)) x.gcl
    gclDue := []
    tx := x.tx.map fun p => (p.1, { p.2 with copies := [], chosen := [], fetched := false, noData := none, sent := false }) }) s
  let s1 := connEnable (streamEnable before s0)
  let (outs, s2) := (List.range 64).foldl (fun a k =>
    if streamOn a.2 k then
      let (o, t) := rxBoundary crc k a.2
      (a.1 ++ o, t)
    else a) (([] : List PdOut), s1)
  (sortBy (fun a b => decide (a.obj ≤ b.obj)) outs).foldl (fun t o => pdDeliver o t) (connIdle s2)

/-! ## Transmit (R369, R370, R376) -/

/-- The objects of a transmit stream, its own and its connections'. -/
def txObjects (s : State) (k : Nat) : List Nat :=
  ((pieces s (64 + k)).map fun p => if p.ref < 0x8000 then p.ref else odGet s (0x4100 + (p.ref - 0x8000)) 6).eraseDups

/-- How many of n reply flits a glove's VC1 allowance lets go, one by one (R354, R369). -/
def repliesOpen (s : State) (g n : Nat) : Nat := match allowance s g 3 with
  | none => n
  | some b => min n (b - spentOf s g 3)

/-- Read one location of an object: its bytes, whether it was read, and whether a lane was uncorrectable (R369); a read whose replies wait
for the next frame is not complete (R355, R370). -/
def txRead (tile g n : Nat) (d : Nat × Nat) (s : State) : (List Byte × Bool × Bool) × State :=
  match destWin d.1 with
  | none => (([], false, false), reject g d.2 n 4 0 tile s)
  | some w =>
    let a := w.base + d.2
    match verdict s g a n false w.pos with
      | .bank b =>
        let m := min n (64 * repliesOpen s g ((n + 63) / 64))
        let (r, s1) := portRead g b a m (budgetAdd g 3 ((m + 63) / 64) s)
        if m < n then (([], false, false), budgetStall g (if m = 0 then s else s1))
        else ((r.data, r.status == stOk, r.bad), s1)
      | .refused reason unit => (([], false, false), reject g a n 4 reason unit s)
      | _ => (([], false, false), reject g a n 4 0 w.pos s)

/-- Read every location of an object. -/
def txReadAll (tile g n : Nat) : List (Nat × Nat) → State → List (List Byte × Bool × Bool) × State
  | [], s => ([], s)
  | d :: l, s =>
    let (x, s1) := txRead tile g n d s
    let (r, s2) := txReadAll tile g n l s1
    (x :: r, s2)

/-- At FetchTc every object of a stream is read; one with one location is sent as read. -/
def txFetch (stream : Nat) (s : State) : State :=
  if 64 ≤ stream ∨ !streamOn s (64 + stream) ∨ (txOf s stream).fetched then s
  else
    let tile := tsnTile (maskPort (streamMask s (64 + stream)))
    let s1 := setTx stream { txOf s stream with fetched := true } s
    (txObjects s stream).foldl (fun t o =>
      let (l, u) := txReadAll tile (odGet t (0x6000 + o) 1) (odGet t (0x6000 + o) 7) (objectDests t o) t
      let x := txOf u stream
      let one := match l with
        | [(b, true, _)] => kput x.chosen o b
        | _ => x.chosen
      setTx stream { x with copies := kput x.copies o l, chosen := one } u) s1

/-- TX_FETCH (R369). -/
def execTxFetch (stream tc : Nat) (s : State) : Result := if 64 ≤ stream then .next s else atTc tc s (txFetch stream)

/-- The objects of a stream that are not to be sent (R370). -/
def txMissing (s : State) (k : Nat) : Bool :=
  let x := txOf s k
  !x.fetched || (txObjects s k).any (fun o => (kget x.chosen o).isNone) ||
    (s.field.mute && odGet s (0x6840 + k) 8 == 1)

/-- At the deadline a stream that lacks data is marked to go with NO_DATA (R370, R393). -/
def txDeadline (k : Nat) (s : State) : State :=
  let x := txOf s k
  if x.noData.isSome then s
  else
    let bad := txMissing s k
    let s1 := setTx k { x with noData := some bad } s
    if bad then raise 325 (pdEvent (tsnTile (maskPort (streamMask s (64 + k)))) 1 (odBump s1 (0x6840 + k) 9 32 1)) else s1

/-- TX_DATA_DEADLINE (R370). -/
def execTxDataDeadline (stream : Nat) (s : State) : Result :=
  if 64 ≤ stream then .next s
  else if streamOn s (64 + stream) then .next (txDeadline stream s) else .next s

/-- Put bytes into a payload. -/
def patch (p : List Byte) (off : Nat) (d : List Byte) : List Byte := p.take off ++ d ++ p.drop (off + d.length)

/-- The payload of a frame that carries data; each safety container takes the next SEQ (R376), and one over which the two CRC units
disagree is discarded (R374). -/
def txPayload (crc : List Nat) (k : Nat) : List Piece → List Byte → State → List Byte × State
  | [], b, s => (b, s)
  | p :: l, b, s =>
    let x := txOf s k
    if p.ref < 0x8000 then
      let d := kgetD x.chosen p.ref []
      txPayload crc k l (patch b p.off ((d ++ List.replicate (p.len - d.length) 0).take p.len)) s
    else
      let c := p.ref - 0x8000
      let y := connOf s c
      if !y.on ∨ odGet s (0x4100 + c) 1 ≠ 1 then txPayload crc k l b s
      else if crc.contains c then txPayload crc k l b (crcDisagree (tsnTile (maskPort (streamMask s (64 + k)))) s)
      else
        let n := odGet s (0x4100 + c) 3
        let d := kgetD x.chosen (odGet s (0x4100 + c) 6) []
        let e := d ++ List.replicate (n + 1 - d.length) 0
        txPayload crc k l (patch b p.off (containerOf (odGet s (0x4100 + c) 2) y.seq (e.headD 0).toNat ((e.drop 1).take n)))
          (setConn c { y with seq := (y.seq + 1) % 2 ^ 32 } s)

/-- Bits per second, in Mbit/s, of a port's speed. -/
def portMbps (s : State) (p : Nat) : Nat := match odGet s (0x1200 + p) 1 with
  | 1 => 1000
  | 2 => 2500
  | 3 => 10000
  | _ => 0

/-- How long from an instant of a cycle a gate stays open, in ns: entries are taken in order, the last one until the cycle ends. -/
def gateLeft (cls : Nat) : List Nat → Nat → Nat → Nat
  | [], _, _ => 0
  | e :: l, start, at_ =>
    let stop := start + e / 256
    if stop ≤ at_ ∧ !l.isEmpty then gateLeft cls l stop at_
    else if !bitOf (e % 256) cls then 0
    else (stop - max start at_) + gateLeft cls l stop (max stop at_)

/-- Whether a frame of `n` bytes finds its gate open at TxOffset until it ends (R362, R369). -/
def gateOpen (s : State) (port k n : Nat) : Bool :=
  let (cycle, es) := kgetD s.field.gcl port (31250, [0x007A12FF])
  let at_ := odGet s (0x6840 + k) 6 * 2 / 3 % max cycle 1
  let need := if portMbps s port = 0 then 0 else (n * 8000 + portMbps s port - 1) / portMbps s port
  decide (need ≤ gateLeft (odGet s (0x6840 + k) 4) es 0 at_)

/-- A transmit frame for a port (R364). -/
def txFrame (s : State) (k port : Nat) (two noData : Bool) (payload : List Byte) : List Byte :=
  let dest := odGet s (0x6840 + k) 3
  leBytes 6 dest ++ leBytes 6 (s.plat.fuse.macs.getD port 0) ++ [0x81, 0x00] ++
    beBytes 2 (odGet s (0x6840 + k) 4 * 2 ^ 13 + fld dest 48 12) ++
    (if two then [0xF1, 0xC1, 0, 0] ++ beBytes 2 (txOf s k).seq else []) ++ beBytes 2 (odGet s 0x1300 1) ++
    [1] ++ leBytes 1 (ofBool noData) ++ leBytes 2 k ++ leBytes 4 (odGet s 0x2100 3 % 2 ^ 32) ++ payload

/-- A frame leaves on every port of its stream whose link is up; one that finds its gate shut is counted (R369). -/
def txSend (k : Nat) (noData : Bool) (payload : List Byte) (s : State) : State :=
  let m := streamMask s (64 + k)
  let ports := (List.range 8).filter fun p => bitOf m p
  let two := decide (1 < ports.length)
  let up := ports.filter (portUp s)
  let s1 := up.foldl (fun t p =>
    { odBump t (0x7100 + p) 2 64 1 with out := .frame p (txFrame s k p two noData payload) :: t.out }) s
  let late := up.any fun p => !gateOpen s p k ((txFrame s k p two noData payload).length + 24)
  let s2 := if late then pdEvent (tsnTile (maskPort m)) 2 s1 else s1
  setTx k { txOf s2 k with seq := if two then ((txOf s2 k).seq + 1) % 2 ^ 16 else (txOf s2 k).seq, sent := true } s2

/-- TX_FRAME (R369, R370, R376): the frame of a stream leaves; once in a frame. -/
def execTxFrame (stream : Nat) (crc : List Nat) (s : State) : Result :=
  if 64 ≤ stream then .next s
  else if !streamOn s (64 + stream) ∨ (txOf s stream).sent then .next s
  else
    let s1 := txDeadline stream s
    let noData := (txOf s1 stream).noData == some true
    let zero := List.replicate (payloadLen s (64 + stream)) 0
    let (b, s2) := if noData then (zero, s1) else txPayload crc stream (pieces s1 (64 + stream)) zero s1
    .next (txSend stream noData b s2)

/-! ## Entries with behaviour of their own (R362, R366, R375) -/

/-- The entries GclCommit. -/
def gclEntry : OwnEntry where
  covers := fun r => decide (0x1400 ≤ r.index) && decide (r.index ≤ 0x1407) && r.sub == 3
  rule := fun _ _ => 0
  effect := fun r t => fieldWith (fun x => { x with gclDue := (r.index - 0x1400) :: x.gclDue.filter (· != r.index - 0x1400) }) t
  refused := fun _ t => t

/-- GCL_COMMIT (R362). -/
def execGclCommit (req : OdReq) (s : State) : Result := .next (odWriteOwn gclEntry req s)

/-- The entries SafetyAck: a FAILSAFE connection goes to SYNC at the next boundary. -/
def ackEntry : OwnEntry where
  covers := fun r => decide (0x4100 ≤ r.index) && decide (r.index ≤ 0x44FF) && r.sub == 8
  rule := fun _ _ => 0
  effect := fun r t =>
    let c := r.index - 0x4100
    if (connOf t c).state = 4 then setConn c { connOf t c with ack := true } t else t
  refused := fun _ t => t

/-- SAFETY_ACK (R375). -/
def execSafetyAck (req : OdReq) (s : State) : Result := .next (odWriteOwn ackEntry req s)

/-- The entries RxEnable and TxEnable: in force from the next boundary. -/
def enableEntry : OwnEntry where
  covers := fun r => decide (0x6800 ≤ r.index) && decide (r.index ≤ 0x687F) && r.sub == 1
  rule := fun _ _ => 0
  effect := fun r t => odSet t r.index 1 (reqVal r)
  refused := fun _ t => t

/-- STREAM_ENABLE_WRITE (R366). -/
def execStreamEnableWrite (req : OdReq) (s : State) : Result := .next (odWriteOwn enableEntry req s)

/-! ## Links and ARP (R379, R381, R389) -/

/-- Sessions of a transport end; one that unlocked the RWL registers locks them (R9, R379). -/
def endSessions (f : Nat → Session → Bool) (s : State) : State :=
  let gone := (s.serv.sessions.filter fun p => f p.1 p.2).map (·.1)
  let s1 := { s with serv := { s.serv with sessions := s.serv.sessions.filter fun p => !f p.1 p.2 } }
  let s2 := gone.foldl (fun t n =>
    { t with serv := { t.serv with
      cursor := t.serv.cursor.filter fun p => p.1 % 32 != n
      attest := t.serv.attest.filter fun p => p.1 % 32 != n } }) s1
  if gone.contains s.serv.unlocker ∧ s.serv.unlocker ≠ 0 then
    odSet { s2 with serv := { s2.serv with unlocker := 0 } } 0x2000 1 0
  else s2

/-- PORT_LINK_CHANGE (R379, R388, R389). -/
def execPortLinkChange (port : Nat) (up : Bool) (s : State) : Result :=
  if 8 ≤ port then .next s
  else if portUp s port = up ∨ (up ∧ (odGet s (0x1200 + port) 1 = 0 ∨ !domainOn s 50)) then .next s
  else
    let code := if up then odGet s (0x1200 + port) 1 else 0
    let s1 := winPut (odSet s (0x1200 + port) 3 (ofBool up)) (tileBase (tsnTile port) + 0xF1000) (2 * (port % 4)) 2 code
    .next (raise 323 (if up then s1 else endSessions (fun _ x => x.via == port + 1) s1))

/-- The answer to an ARP request for the service address of a port (R381). -/
def arpReply (s : State) (port : Nat) (d : List Byte) : Option (List Byte) :=
  let ip := odGet s (0x1200 + port) 4
  let mac := leBytes 6 (s.plat.fuse.macs.getD port 0)
  let h := d.drop 14
  if ip ≠ 0 ∧ beNat ((d.drop 12).take 2) = 0x0806 ∧ h.take 8 = [0, 1, 8, 0, 6, 4, 0, 1] ∧ beNat ((h.drop 24).take 4) = ip then
    some ((h.drop 8).take 6 ++ mac ++ [0x08, 0x06, 0, 1, 8, 0, 6, 4, 0, 2] ++ mac ++ beBytes 4 ip ++ (h.drop 8).take 10)
  else none

/-- ARP_REQUEST (R381): `data` is the request's frame, without its frame check sequence. -/
def execArpRequest (port : Nat) (data : List Byte) (s : State) : Result :=
  if 8 ≤ port then .next s
  else if !portUp s port then .next s
  else match arpReply s port data with
    | some f => .next { s with out := .frame port f :: s.out }
    | none => .next s

end Sys2Proof.Machine
end

