-- ==== Sys2Proof/Machine/Watch.lean ====
section
/-! DEFINITION. Functional safety (R390 to R409): sentinel replicas, reactions to fault records, monitors, watchdogs, safe state and the
rotating self-test. -/

namespace Sys2Proof.Machine

/-! ## Sentinel launches (R396 to R399) -/

def setLaunch (k : Nat) (l : Launch) (s : State) : State := { s with launches := kput s.launches k l }
def adjLaunch (k : Nat) (f : Launch → Launch) (s : State) : State := { s with launches := kadj s.launches k f }

/-- The tiles of a replica set: 0 A, 1 B, 2 C. -/
def setTiles (t : SafetyTable) (x : Nat) : List Nat := match x with
  | 0 => t.setA
  | 1 => t.setB
  | _ => t.setC

/-- The sets that take part in the comparison, in the order of their locations: a spare stands where the fenced set stood. -/
def activeSets (x : SentinelSt) : List (Nat × Nat) :=
  [0, 1].filterMap fun w => if !x.fenced.contains w then some (w, w) else if x.partnerC ∧ !x.fenced.contains 2 then some (2, w) else none

/-- A count or event of a glove's sentinel entries. -/
def sentinelBump (g sub : Nat) (s : State) : State := odBump s (0x4800 + g) sub 32 1
def sentinelEvent (g code : Nat) (s : State) : State := odSet s (0x4800 + g) 3 code
/-- An outcome that sends nothing leads to safe state where the glove says so (R392). -/
def sentinelStop (g : Nat) (s : State) : State := if odForce s (0x4800 + g) 1 = 1 then enterSafe 1 s else s

/-- The launch slots of a launch on a tile. -/
def launchSlots (s : State) (pos k : Nat) : List Nat := ((tileOf s pos).slots.filter fun p => p.2.launch == k).map (·.1)

/-- HEALTH_FLIT (R397): at its HT a tile hands its check latch to the port tile that compares, and clears it; what sets it in that tc
counts in the next flit. -/
def execHealthFlit (launch pos : Nat) (s0 : State) : Result :=
  if 1536 ≤ pos then .next s0
  else match kget s0.launches launch with
    | none => .next s0
    | some l => match l.aux.safety with
      | none => .next s0
      | some t =>
        let ht := ((t.ht.find? fun x => x.1 == pos).map (·.2)).getD s0.now
        if !isRunning l ∨ !(t.setA ++ t.setB ++ t.setC).contains pos ∨ ht < s0.now then .next s0
        else
          let s := advanceTo ht s0
          let mine := launchSlots s pos launch
          let latch := (tileOf s pos).slots.any fun p => p.2.launch == launch && p.2.latch
          let s1 := adjTile pos (fun u => { u with slots := mine.foldl (fun m i => kadj m i fun x => { x with latch := false }) u.slots }) s
          match route s.plat.fuse pos t.port with
          | none => .next s1
          | some w => .next (queueFlits pos [vcFlit 1 0 [(w, t.port, 0)] (.health launch pos latch) false true] s1)

/-- The two-location objects of a launch, with their streams (R398). -/
def comparedObjects (s : State) (l : Launch) (port : Nat) : List (Nat × Nat) :=
  (List.range 64).flatMap fun k =>
    if streamOn s (64 + k) ∧ tsnTile (maskPort (streamMask s (64 + k))) = port then
      ((txObjects s k).filter fun o => odGet s (0x6000 + o) 1 == l.glove && odGet s (0x6000 + o) 5 != 0xFFFF).map fun o => (k, o)
    else []

/-- The copy of an object from the location of a set, where it was read. -/
def copyAt (s : State) (x : Nat × Nat) (w : Nat) : Option (List Byte × Bool × Bool) := (kgetD (txOf s x.1).copies x.2 [])[w]?

/-- Whether a set is flagged in the frame (R397). -/
def setFlagged (s : State) (l : Launch) (t : SafetyTable) (os : List (Nat × Nat)) (x : Nat × Nat) : Bool :=
  (setTiles t x.1).any (fun p => !l.sentinel.health.contains p) ||
  os.any fun o => match copyAt s o x.2 with
    | some (_, read, bad) => !read || bad
    | none => true

/-- Whether two sets' copies of every object are equal. -/
def copiesEqual (s : State) (os : List (Nat × Nat)) : Bool :=
  os.all fun o => match copyAt s o 0, copyAt s o 1 with
    | some a, some b => a.1 == b.1
    | _, _ => false

/-- The output of the set at a location is sent. -/
def chooseCopies (os : List (Nat × Nat)) (w : Nat) (s : State) : State :=
  os.foldl (fun t o => match copyAt t o w with
    | some (b, _, _) => setTx o.1 { txOf t o.1 with chosen := kput (txOf t o.1).chosen o.2 b } t
    | none => t) s

/-- Sets are to be fenced at the next boundary, with the tiles whose latches were set (R399). -/
def fenceSets (k : Nat) (l : Launch) (t : SafetyTable) (xs : List Nat) (s : State) : State :=
  let tiles := (xs.flatMap (setTiles t)).filter fun p => l.sentinel.health.contains (p + 2048)
  let s1 := adjLaunch k (fun l => { l with sentinel := { l.sentinel with
    fenceDue := xs ++ tiles.map (8 + ·)
    fencedAt := s.frame.boundaries } }) s
  xs.foldl (fun t _ => sentinelBump l.glove 4 t) (raise 128 s1)

/-- The outcome of a frame's comparison (R398, R399). -/
def compareSets (k : Nat) (l : Launch) (t : SafetyTable) (s : State) : State :=
  let os := comparedObjects s l t.port
  let g := l.glove
  if l.sentinel.stopped then raise 130 s
  else match activeSets l.sentinel with
    | [a, b] =>
      let fa := setFlagged s l t os a
      let fb := setFlagged s l t os b
      if fa && fb then sentinelStop g (sentinelEvent g 0x0023 (fenceSets k l t [a.1, b.1] s))
      else if fa then sentinelEvent g 0x0021 (fenceSets k l t [a.1] (chooseCopies os b.2 s))
      else if fb then sentinelEvent g 0x0021 (fenceSets k l t [b.1] (chooseCopies os a.2 s))
      else if copiesEqual s os then chooseCopies os a.2 s
      else sentinelStop g (raise 130 (sentinelEvent g 0x0022 (sentinelBump g 6 s)))
    | [a] => if setFlagged s l t os a then sentinelStop g (raise 130 s) else chooseCopies os a.2 s
    | _ => raise 130 s

/-- REPLICA_COMPARISON (R398): `agree` where the two comparators agree. -/
def execReplicaComparison (launch : Nat) (agree : Bool) (s : State) : Result :=
  match kget s.launches launch with
  | none => .next s
  | some l => match l.aux.safety with
    | none => .next s
    | some t =>
      if !isRunning l then .next s
      else if !agree then .next (raise 130 (raise 139 (enterSafe 3 s)))
      else .next (compareSets launch l t s)

/-- The launch slots of a set's tiles are in a faulted dry run from a frame boundary on (R259, R399). -/
def drySet (k : Nat) (tiles : List Nat) (s : State) : State :=
  tiles.foldl (fun t p => (launchSlots t p k).foldl (fun u i => dryFrom p i 2 (s.frame.boundaries - 1) u) t) s

/-- REPLICA_FENCE (R399): at the boundary after a fence was decided. -/
def execReplicaFence (launch : Nat) (s : State) : Result :=
  match kget s.launches launch with
  | none => .next s
  | some l => match l.aux.safety with
    | none => .next s
    | some t =>
      let xs := l.sentinel.fenceDue.filter fun x => decide (x < 8)
      if xs = [] ∨ s.frame.boundaries ≤ l.sentinel.fencedAt then .next s
      else
        let y := { l.sentinel with fenced := l.sentinel.fenced ++ xs, fenceDue := [], fencedAt := s.frame.boundaries }
        let s1 := drySet launch (xs.flatMap (setTiles t)) (setLaunch launch { l with sentinel := y } s)
        let s2 := (l.sentinel.fenceDue.filter fun x => decide (8 ≤ x)).foldl (fun u x => fenceTile (x - 8) u) s1
        .next (if (activeSets y).length = 1 then odSet s2 (0x4800 + l.glove) 8 1 else s2)

/-- Whether a launch's unused spare is to become the partner at the present boundary (R399). -/
def spareDue (s : State) (l : Launch) (t : SafetyTable) : Bool :=
  t.setC != [] && !l.sentinel.spareUsed && l.sentinel.fenced.length == 1 && !l.sentinel.stopped && isRunning l &&
    decide (l.sentinel.fencedAt < s.frame.boundaries)

/-- SPARE_RESTART (R399, R498): at the boundary after the fence took effect, an unused spare becomes the partner; its tiles are reset. -/
def execSpareRestart (launch : Nat) (s : State) : Result :=
  match kget s.launches launch with
  | none => .next s
  | some l => match l.aux.safety with
    | none => .next s
    | some t =>
      if !spareDue s l t then .next s
      else
        let s1 := setLaunch launch { l with sentinel := { l.sentinel with partnerC := true, spareUsed := true } } s
        let s2 := t.setC.foldl (fun u p => countedReset p u) s1
        .next (raise 129 (odSet (sentinelBump l.glove 5 s2) (0x4800 + l.glove) 8 0))

/-- A frame boundary at the sentinel launches: last frame's health flits go, frames in simplex are counted, and one that exceeds its
limit sends nothing more (R399); a frame at whose boundary the spare is restarted is none. -/
def sentinelBoundary (s : State) : State :=
  s.launches.foldl (fun t p =>
    let l := p.2
    if l.aux.safety.isNone ∨ !isRunning l then t
    else
      let g := l.glove
      let simplex := (activeSets l.sentinel).length == 1 && l.sentinel.fenced != []
      let t1 := adjLaunch p.1 (fun l => { l with sentinel := { l.sentinel with health := [] } }) t
      let n := odGet t (0x4800 + g) 8 + 1
      if !simplex ∨ l.aux.safety.any (spareDue s l) then t1
      else
        let t2 := odSet t1 (0x4800 + g) 8 (min n 0xFFFF)
        if n ≤ odForce t (0x4800 + g) 2 ∨ l.sentinel.stopped then t2
        else sentinelStop g (raise 131 (sentinelEvent g 0x0024 (adjLaunch p.1 (fun l => { l with sentinel := { l.sentinel with stopped := true } }) t2)))) s

/-! ## Reactions to fault records (R401, R403) -/

/-- Whether a fault at a unit is on a launch's traffic: its tiles, routers or streams, for the glove that the record names. -/
def launchAt (l : Launch) (unit : Nat) : Bool :=
  l.tiles.any (fun t => t.1 == unit) || launchUnit l [0x12, 0x13, 0x14, 0x15] (· == unit)

/-- Whether a launch can move to another placement (R400, R401). -/
def canReexecute (l : Launch) : Bool :=
  l.aux.reexec.isSome && !pMulti l.params && !l.realtime && !l.faulted &&
    l.sections.any fun x => decide (l.set < x.set) && decide (x.set ≤ 2)

/-- A launch that a fault ends: every slot of it runs a faulted dry run from the next frame on, so that it is found ended
LAUNCH_FAULTED (R330). -/
def faultLaunch (k : Nat) (s : State) : State := adjLaunch k (fun l => { l with faulted := true, ending := true }) s

/-- At a boundary the launches that faults end begin their dry run. -/
def endFaulted (s : State) : State :=
  s.launches.foldl (fun t p => if p.2.ending then drySet p.1 (p.2.tiles.map (·.1)) t else t) s

/-- A hardware fault reaches the launches that it affects: a sentinel's replicas see to it; an offline launch is re-executed where it
can be, and ends otherwise (R397 to R402). -/
def affect (f : Nat → Launch → Bool) (mend : Bool) (s : State) : State :=
  s.launches.foldl (fun t p =>
    if !isRunning p.2 ∨ p.2.aux.safety.isSome ∨ !f p.1 p.2 then t
    else if mend ∧ canReexecute p.2 then adjLaunch p.1 (fun l => { l with reexDue := true }) t
    else faultLaunch p.1 t) s

/-- The reaction to plan and link faults, and to those that the table treats as such. -/
def planReaction (r : Vc3) (s : State) : State :=
  affect (fun _ l => l.glove == r.glove && launchAt l r.unit) true (odBump (dangerous s) 0x4000 7 32 1)

/-- The reaction to a record (R403); one forwarded from another module is diagnostic only (R452). -/
def react (r : Vc3) (s : State) : State :=
  let byte (i : Nat) : Nat := (r.detail.getD i 0).toNat
  if r.hop ≠ 0 then s
  else match r.code with
  | 0x0301 => planReaction r s
  | 0x0302 => planReaction r s
  | 0x0303 => planReaction r s
  | 0x0304 => planReaction r s
  | 0x0305 => planReaction r s
  | 0x0306 => if byte 1 = 4 then enterSafe 7 s else s
  | 0x0401 => tileReaction
  | 0x0402 => tileReaction
  | 0x0501 => tileReaction
  | 0x0601 => affect (fun _ l => l.glove == r.glove && l.tiles.any fun t => t.1 == r.unit) (r.sub == 5) (dangerous s)
  | 0x0602 => planReaction r s
  | 0x0604 => planReaction r s
  | 0x0702 =>
    let a := leNat (r.detail.take 8)
    let s1 := raise 141 (dangerous s)
    let uses (l : Launch) : Bool := l.glove == r.glove && (pRegions l.params).any fun x => overlap x.base x.len a 64
    affect (fun _ l => uses l && !((setRegions l.params 0 ++ setRegions l.params 1 ++ setRegions l.params 2).any fun x => overlap x.base x.len a 64)) true
      (affect (fun _ l => uses l && (setRegions l.params 0 ++ setRegions l.params 1 ++ setRegions l.params 2).any fun x => overlap x.base x.len a 64) false s1)
  | 0x0703 => planReaction r s
  | 0x0704 =>
    if byte 1 = 5 then
      affect (fun _ l => launchUnit l [0x14] (· == r.unit) || (pRegions l.params).any fun x =>
        (chunksIn x.base x.len).any fun c => chunkHome c == r.unit) false (enterSafe 7 s)
    else s
  | 0x0801 => raise 140 (fenceTile r.unit s)
  | 0x0802 =>
    let s1 := fenceTile r.unit s
    if s.launches.any fun p => isRunning p.2 && p.2.realtime && launchAt p.2 r.unit then enterSafe 3 s1 else s1
  | _ => s
where
  tileReaction : State := affect (fun _ l => l.glove == r.glove && launchAt l r.unit) true (fenceTile r.unit (dangerous s))

/-- The first fault record of a MULTI launch that runs a faulted dry run goes to its peers (R452). -/
def tellPeers (r : Vc3) (s : State) : State :=
  if r.hop ≠ 0 then s
  else s.launches.foldl (fun t p =>
    let l := p.2
    let dry := l.tiles.any fun x => (tileOf t x.1).slots.any fun y => y.2.launch == p.1 && y.2.dry == 2
    if pMulti l.params && isRunning l && !l.recordSent && l.glove == r.glove && dry && launchAt l r.unit then
      sendOnce l (recordKey r) kindRecord (vc3Bytes r) (adjLaunch p.1 (fun l => { l with recordSent := true }) t)
    else t) s

/-- FAULT_RECORD (R403, R452): the Helmet takes the next record that has reached it. -/
def execFaultRecord (s : State) : Result :=
  match s.safety.inbox with
  | [] => .next s
  | r :: l => .next (tellPeers r (react r { s with safety := { s.safety with inbox := l } }))

/-! ## Monitors, watchdogs, safe state (R391 to R395) -/

/-- A monitor's condition: bit 16 is the die's temperature, 17 to 21 the others in the order of R393. -/
def monitor (bit : Nat) (bad : Bool) (s : State) : State :=
  if bitOf s.safety.holding bit = bad then s
  else
    let s1 := holdCause bit bad s
    raise 136 (if bad then enterSafe 4 s1 else s1)

/-- The Helmet's own check (R392): its lockstep pair agrees and its self-test passes. -/
def helmetCheck (fine : Bool) (s : State) : State :=
  if bitOf s.safety.holding 9 = !fine then s
  else
    let s1 := holdCause 9 (!fine) s
    if fine then s1 else enterSafe 9 s1

/-- MONITOR_SAMPLE (R390, R393): supplies in mV, the rails' and clocks' deviations in tenths of a percent, and the Helmet's own check. -/
def execMonitorSample (mv48 mv33 : Nat) (rails : List Int) (temp tileDev aonDev : Int) (helmet : Bool) (s : State) : Result :=
  .next (helmetCheck helmet <| monitor 21 (decide (aonDev < -20) || decide (20 < aonDev))
    (monitor 20 (decide (tileDev < -10) || decide (10 < tileDev))
      (monitor 16 (decide (115 ≤ temp))
        (monitor 19 (rails.any fun x => decide (x < -50) || decide (50 < x))
          (monitor 18 (decide (mv33 < 2970) || decide (3630 < mv33))
            (monitor 17 (decide (mv48 < 40000) || decide (57600 < mv48)) s))))))

/-- WATCHDOG_EXPIRY (R394): no valid kick within WatchdogPeriod. -/
def execWatchdogExpiry (s : State) : Result := .next (missedKick s)

/-- FRAME_WATCHDOG_EXPIRY (R394). -/
def execFrameWatchdogExpiry (s : State) : Result := .next (enterSafe 5 s)

/-- Whether the condition of a cause holds (R392, R395). -/
def causeHolds (s : State) (bit : Nat) : Bool := match bit with
  | 0 => !s.plat.ready
  | 4 => s.safety.holding / 2 ^ 16 != 0
  | 7 => (List.range 32).any (fun r => colRate s r == 4) || memPorts.any fun p => fld (winGet s (tileBase p + 0xF1004)) 0 3 == 5
  | _ => bitOf s.safety.holding bit

/-- The entry SafeStateAck (R395). -/
def safeAckEntry : OwnEntry where
  covers := fun r => reqAt r 0x4000 3
  rule := fun _ _ => 0
  effect := fun _ t => { t with safety := { t.safety with
    causes := (List.range 10).foldl (fun a b => if bitOf t.safety.causes b && causeHolds t b then a + 2 ^ b else a) 0 } }
  refused := fun _ t => t

/-- SAFE_STATE_ACK (R395). -/
def execSafeStateAck (req : OdReq) (s : State) : Result := .next (odWriteOwn safeAckEntry req s)

/-- The entry SafeTestTrip (R393). -/
def safeTripEntry : OwnEntry where
  covers := fun r => reqAt r 0x4000 4
  rule := fun _ _ => 0
  effect := fun _ t => enterSafe 8 t
  refused := fun _ t => t

/-- SAFE_TEST_TRIP (R393). -/
def execSafeTestTrip (req : OdReq) (s : State) : Result := .next (odWriteOwn safeTripEntry req s)

/-- SAFE_STATE_EXIT (R395): at a frame boundary, every cause cleared and none that persists. -/
def execSafeStateExit (s : State) : Result :=
  if isSafe s ∧ s.safety.causes = 0 ∧ !((List.range 10).any (causeHolds s)) ∧ s.plat.ready then
    .next (raise 135 { s with safety := { s.safety with outs := true } })
  else .next s

/-! ## The rotating self-test (R405) -/

/-- Whether the Helmet tests a tile: no tenant launch holds it, or it is of a spare set that has not been restarted. -/
def testable (s : State) (pos : Nat) : Bool :=
  isLogical s.plat.fuse pos && kindOf pos != .port && !mgmtTiles.contains pos &&
    (admittedLaunches s).all fun l => l.glove == 0 || !l.tiles.any (fun t => t.1 == pos) ||
      (match l.aux.safety with
        | some t => t.setC.contains pos && !l.sentinel.spareUsed
        | none => false)

/-- SELF_TEST (R405): `wrong` an answer that is not the known one, `silent` a checker that did not report; `secs` since the cycle
began; the tile is reset (R498). -/
def execSelfTest (pos step secs : Nat) (wrong silent : Bool) (s : State) : Result :=
  if 1536 ≤ pos then .next s
  else if !testable s pos then .next s
  else
    let a := tileBase 1116 + 0xF100C
    let done := (pos :: s.safety.bistDone).eraseDups
    let s1 := winPut (countedReset pos s) a 0 16 done.length
    let s2 := if wrong then report pos 0x0801 pos 0 0 (leBytes 2 step) (winBump s1 a 16 16 1) else s1
    let s3 := if silent then report pos 0x0802 pos 0 0 (leBytes 2 step) (winBump s2 a 16 16 1) else s2
    let whole := (List.range 1536).all fun p => done.contains p || !testable s p
    .next (if whole then odSet { s3 with safety := { s3.safety with bistDone := [] } } 0x4000 8 secs
      else { s3 with safety := { s3.safety with bistDone := done } })

end Sys2Proof.Machine
end

