-- ==== Sys2Proof/Machine/Image.lean ====
section
/-! DEFINITION. Images and placements as admission and the loader read them (R262, R520): sections, window descriptors, slot plans,
stream and exchange entries, problem descriptors, and the rules under which admission refuses them (R343 reason 3). -/

namespace Sys2Proof.Machine

/-! ## Bytes of a set -/

/-- Bytes of the regions of a set, joined in their order. -/
def imgRead (s : State) : List LRegion → Nat → Nat → List Byte
  | [], _, _ => []
  | r :: l, off, n =>
    if off < r.len then
      let k := min n (r.len - off)
      load s (r.base + off) k ++ imgRead s l 0 (n - k)
    else imgRead s l (off - r.len) n

def imgNat (s : State) (rs : List LRegion) (off n : Nat) : Nat := leNat (imgRead s rs off n)
def imgSize (rs : List LRegion) : Nat := (rs.map (·.len)).sum

/-! ## Elements (R71, R72, R222, R295, R448) -/

/-- A window descriptor, from its 256 bits. -/
def winOf (x : Nat) : WinDesc where
  start := fld x 0 32
  stop := fld x 32 32
  glove := fld x 64 8
  lslot := fld x 72 4
  entry := fld x 80 13
  decl := fld x 96 4
  stIn := fld x 100 8
  stAfter := fld x 108 8
  cdecl := fld x 128 16
  cin := fld x 144 32
  cafter := fld x 176 32

/-- Reserved fields of a window descriptor are zero. -/
def winClean (x : Nat) : Bool := fld x 76 4 == 0 && fld x 93 3 == 0 && fld x 116 12 == 0 && fld x 208 48 == 0

def segOf (x : Nat) : Seg := ⟨fld x 0 32, fld x 32 24, fld x 56 7, fld x 64 12⟩
def slotOf (x : Nat) : SlotEnt := ⟨fld x 0 5, fld x 5 3, fld x 8 12, fld x 20 8⟩
def streamOf (k x : Nat) : Stream := ⟨k, fld x 0 48, fld x 64 24 + 1, fld x 88 2, fld x 90 12, fld x 102 8⟩

/-- An exchange entry at its launch's start. -/
def xentOf (k x : Nat) : XEnt where
  launch := k
  tag := fld x 0 12
  op := fld x 12 3
  rin := bitOf x 15
  lin := bitOf x 16
  rout := bitOf x 17
  lout := bitOf x 18
  record := bitOf x 19
  lag := fld x 20 4
  nw := fld x 24 24 + 1
  glove := fld x 48 8
  init := fld x 56 48
  took := 0
  gave := 0
  got := 0
  comb := 0
  sent := 0
  freed := 0
  credits := 0
  pick := none
  mine := []
  theirs := []
  result := []

/-! ## Sections (R520) -/

/-- The size of a section's element. -/
def elemOf (kind : Nat) : Nat := match kind with
  | 0x0002 => 4 | 0x0010 => 32 | 0x0011 => 8 | 0x0012 => 16 | 0x0013 => 4 | 0x0014 => 16 | 0x0015 => 16 | _ => 1

/-- A directory entry, and whether its reserved bytes are zero. -/
def sectionAt (s : State) (rs : List LRegion) (at_ : Nat) : Section × Bool :=
  let b := imgRead s rs at_ 32
  (⟨bytesNat b 0 2, bytesNat b 2 2, bytesNat b 4 4, bytesNat b 8 8, bytesNat b 16 8⟩, bytesNat b 24 8 == 0)

def directory (s : State) (rs : List LRegion) (dir n : Nat) : List (Section × Bool) :=
  (List.range n).map fun i => sectionAt s rs (dir + 32 * i)

/-- The elements of a section. -/
def elements (s : State) (rs : List LRegion) (x : Section) : List Nat :=
  (List.range (x.len / elemOf x.kind)).map fun i => imgNat s rs (x.off + elemOf x.kind * i) (elemOf x.kind)

/-- The position of a logical tile as a section names it. -/
def unitTile (f : Fuse) (unit : Nat) : Option Nat := match unit / 2 ^ 30 with
  | 0 => logicalPos f .m (unit % 2 ^ 30)
  | 1 => logicalPos f .v (unit % 2 ^ 30)
  | 2 => logicalPos f .s (unit % 2 ^ 30)
  | _ => none

/-- No two of a list are related. -/
def pairsFree {α : Type} (r : α → α → Bool) : List α → Bool
  | [] => true
  | x :: l => l.all (fun y => !r x y) && pairsFree r l

/-- What R520 asks of any directory: items 1 and 3, and the reserved bytes. -/
def dirSound (size : Nat) (l : List (Section × Bool)) : Bool :=
  l.all (fun x => x.2 && x.1.off % 8 == 0 && decide (x.1.off + x.1.len ≤ size) && x.1.len % elemOf x.1.kind == 0) &&
  pairsFree (fun x y => overlap x.1.off x.1.len y.1.off y.1.len) l &&
  pairsFree (fun x y => x.1.kind == y.1.kind && x.1.set == y.1.set && x.1.unit == y.1.unit) l

/-! ## The image (R127, R520) -/

def imageRegions (p : List Byte) : List LRegion := setRegions p 0

/-- The sections of an image. -/
def imageDir (s : State) (p : List Byte) : List (Section × Bool) :=
  let rs := imageRegions p
  directory s rs (imgNat s rs 16 8) (imgNat s rs 8 4)

/-- STAT_ROWS of the image's header. -/
def imageStatRows (s : State) (p : List Byte) : Nat := imgNat s (imageRegions p) 14 2

/-- The header of an image (R520). -/
def headerOk (s : State) (p : List Byte) : Bool :=
  let rs := imageRegions p
  let h := imgRead s rs 0 64
  h.length == 64 && bytesNat h 0 4 == 0x4D495842 && bytesNat h 4 1 == 1 && bytesNat h 5 3 == 0 &&
    decide (1 ≤ bytesNat h 8 4) && decide (bytesNat h 8 4 ≤ 65536) && bytesNat h 12 2 == pNprob p &&
    decide (bytesNat h 14 2 ≤ 4096) && bytesNat h 16 8 % 8 == 0 && (h.drop 24).all (· == 0) &&
    decide (bytesNat h 16 8 + 32 * bytesNat h 8 4 ≤ imgSize rs)

/-- The tags of a SCALES section: the first and how many. -/
def scaleTags (s : State) (rs : List LRegion) (x : Section) : Nat × Nat := (imgNat s rs (x.off + 4) 2, imgNat s rs (x.off + 6) 2)

/-- A SCALES section: its entries are there, with reserved bits zero and FM at most 16 (R127). -/
def scalesOk (s : State) (rs : List LRegion) (x : Section) : Bool :=
  let n := (scaleTags s rs x).2
  decide (8 + 4 * n ≤ x.len) && (List.range n).all fun i =>
    let e := imgNat s rs (x.off + 8 + 4 * i) 4
    fld e 21 9 == 0 && decide (fld e 16 5 ≤ 16)

/-- The sections of an image (R520 items 1 to 3): kinds, units, one section for each problem, tags apart. -/
def imageDirOk (s : State) (p : List Byte) (aux : LaunchAux) : Bool :=
  let rs := imageRegions p
  let l := imageDir s p
  let mine := (l.map (·.1)).filter fun x => decide (x.kind < 0x8000)
  let scales := mine.filter fun x => x.kind == 2
  dirSound (imgSize rs) l &&
  mine.all (fun x => x.set == 0 && (match x.kind with
    | 1 => decide (x.unit < pNprob p)
    | 2 => true
    | 3 => x.unit == 0
    | 4 => x.unit == 0
    | _ => false)) &&
  (mine.filter fun x => x.kind == 1).length == pNprob p &&
  scales.all (scalesOk s rs) &&
  pairsFree (fun x y => overlap (scaleTags s rs x).1 (scaleTags s rs x).2 (scaleTags s rs y).1 (scaleTags s rs y).2) scales &&
  (mine.any fun x => x.kind == 3) == aux.safety.isSome && (mine.any fun x => x.kind == 4) == aux.reexec.isSome

/-! ## Problems (R151, R152, R172 to R174, R206 to R209) -/

/-- A problem's section as admission reads it: its bytes, cut where its headers and tables are. -/
structure ProbImg where
  d : List Byte
  sched : List Nat
  ladder : List Nat
  grp : List Byte
  col : List Byte
  size : Nat
  deriving DecidableEq, Repr

def ProbImg.nvar (x : ProbImg) : Nat := bytesNat x.d 0 8
def ProbImg.mode (x : ProbImg) : Nat := bytesNat x.d 8 1
def ProbImg.flags (x : ProbImg) : Nat := bytesNat x.d 9 1
def ProbImg.realtime (x : ProbImg) : Bool := bitOf x.flags 0
def ProbImg.plainStop (x : ProbImg) : Bool := bitOf x.flags 2
def ProbImg.temper (x : ProbImg) : Bool := bitOf x.flags 3
def ProbImg.init (x : ProbImg) : Nat := fld x.flags 4 2
def ProbImg.replicas (x : ProbImg) : Nat := bytesNat x.d 10 1
def ProbImg.es (x : ProbImg) : Nat := bytesNat x.d 11 1
def ProbImg.stream (x : ProbImg) : Nat := bytesNat x.d 20 4
def ProbImg.steps (x : ProbImg) : Nat := bytesNat x.d 24 4
def ProbImg.cki (x : ProbImg) : Nat := bytesNat x.d 28 4
def ProbImg.valleyW (x : ProbImg) : Nat := bytesNat x.d 32 4
def ProbImg.plainP (x : ProbImg) : Nat := bytesNat x.d 36 4
def ProbImg.offset (x : ProbImg) : Int := signed 64 (bytesNat x.d 40 8)
def ProbImg.recordCap (x : ProbImg) : Nat := bytesNat x.d 48 4
def ProbImg.schedN (x : ProbImg) : Nat := bytesNat x.d 52 2
def ProbImg.discrete (x : ProbImg) : Bool := decide (2 ≤ x.mode)
def ProbImg.ngroup (x : ProbImg) : Nat := bytesNat x.grp 0 4
def ProbImg.nmember (x : ProbImg) : Nat := bytesNat x.grp 8 8
def ProbImg.gtab (x : ProbImg) : Nat := bytesNat x.grp 16 8
def ProbImg.mtab (x : ProbImg) : Nat := bytesNat x.grp 24 8
def ProbImg.ncol (x : ProbImg) : Nat := bytesNat x.col 0 2
def ProbImg.ctab (x : ProbImg) : Nat := bytesNat x.col 8 8
def ProbImg.sblk (x : ProbImg) : Nat := bytesNat x.col 16 8

/-- Read a problem's section (R152 item 6). -/
def readProb (s : State) (rs : List LRegion) (x : Section) : ProbImg :=
  let d := imgRead s rs x.off 64
  let n := bytesNat d 52 2
  let r := if bitOf (bytesNat d 9 1) 3 then bytesNat d 10 1 else 0
  let at1 := x.off + 64 + 8 * n
  let at2 := at1 + 4 * r
  ⟨d, (List.range n).map fun i => imgNat s rs (x.off + 64 + 8 * i) 8, (List.range r).map fun i => imgNat s rs (at1 + 4 * i) 4,
    imgRead s rs at2 32, imgRead s rs (at2 + 32) 32, 128 + 8 * n + 4 * r⟩

/-- The descriptor and schedule of a problem (R152 items 1 to 5). -/
def descOk (x : ProbImg) : Bool :=
  let inRange (v lo hi : Nat) : Bool := decide (lo ≤ v) && decide (v ≤ hi)
  inRange x.nvar 1 (2 ^ 34) && decide (x.mode ≤ 3) && decide (x.flags < 64) && x.init != 3 && inRange x.replicas 1 64 &&
    decide (x.es ≤ 63) && decide (bytesNat x.d 18 2 ≤ 16384) && decide (x.stream < 2 ^ 24) && decide (1 ≤ x.steps) &&
    inRange x.cki 1 (2 ^ 24) && decide (x.recordCap ≤ 2 ^ 24) && inRange x.schedN 1 1024 && (x.d.drop 54).all (· == 0) &&
  !(x.discrete && x.init == 0) && x.valleyW % x.cki == 0 && x.plainP % x.cki == 0 && !(x.plainStop && x.realtime) &&
  fld (x.sched.getD 0 0) 0 32 == 0 &&
  (List.range (x.sched.length - 1)).all fun i => decide (fld (x.sched.getD i 0) 0 32 < fld (x.sched.getD (i + 1) 0) 0 32)

/-- The groups of a problem: the variables of each, in order (R173). -/
def groupsOf (s : State) (rs : List LRegion) (x : ProbImg) : List (List Nat) :=
  (List.range x.ngroup).map fun i =>
    let e := imgNat s rs (x.gtab + 8 * i) 8
    (List.range (fld e 40 8 + 1)).map fun m => fld (imgNat s rs (x.mtab + 8 * (fld e 0 40 + m)) 8) 0 34

/-- Each group begins where the one before it ends, and the last at `last` (R174 item 2). -/
def firstsChain : Nat → List Nat → Nat → Bool
  | at_, [], last => at_ == last
  | at_, e :: l, last => fld e 0 40 == at_ && decide (1 ≤ fld e 40 8) && fld e 48 16 == 0 && firstsChain (at_ + fld e 40 8 + 1) l last

def climbs : List Nat → Bool
  | [] => true
  | [_] => true
  | a :: b :: l => decide (a < b) && climbs (b :: l)

/-- The colour of a variable (R206). -/
def colourOf (s : State) (rs : List LRegion) (x : ProbImg) (i : Nat) : Nat := imgNat s rs (x.ctab + i) 1

/-- The groups of a problem (R174, R207 item 3). -/
def groupsOk (s : State) (rs : List LRegion) (x : ProbImg) : Bool :=
  let gs := groupsOf s rs x
  decide (x.ngroup ≤ 2 ^ 28) && bytesNat x.grp 4 4 == 0 && decide (x.nmember ≤ x.nvar) &&
  (x.ngroup != 0 || (x.nmember == 0 && x.gtab == 0 && x.mtab == 0)) &&
  decide (x.gtab + 8 * x.ngroup ≤ imgSize rs) && decide (x.mtab + 8 * x.nmember ≤ imgSize rs) &&
  firstsChain 0 ((List.range x.ngroup).map fun i => imgNat s rs (x.gtab + 8 * i) 8) x.nmember &&
  ((List.range x.nmember).all fun i => let e := imgNat s rs (x.mtab + 8 * i) 8; decide (fld e 0 34 < x.nvar) && fld e 34 30 == 0) &&
  gs.all climbs && climbs (gs.map fun g => g.headD 0) && pairsFree (· == ·) gs.flatten &&
  (!x.discrete || gs.all fun g => g.all fun v => colourOf s rs x v == colourOf s rs x (g.headD 0))

/-- The colouring of a problem (R207 items 1, 2 and 4). -/
def colouringOk (s : State) (rs : List LRegion) (x : ProbImg) : Bool :=
  bytesNat x.col 2 6 == 0 && bytesNat x.col 24 8 == 0 &&
  if x.discrete then
    decide (1 ≤ x.ncol) && decide (x.ncol ≤ 256) && decide (x.ctab + x.nvar ≤ imgSize rs) &&
      (List.range x.nvar).all fun i => decide (colourOf s rs x i < x.ncol)
  else x.ncol == 0 && x.ctab == 0 && x.sblk == 0

/-- Fields of a sampling block (R208). -/
structure SampBlk where
  burn : Nat
  thin : Nat
  npair : Nat
  ptab : Nat
  sflags : Nat
  iter : Nat
  lchk : Nat
  lr : Nat × Nat × Nat
  sh : Nat × Nat × Nat
  deriving DecidableEq, Repr

def sampBlkOf (b : List Byte) : SampBlk :=
  ⟨bytesNat b 0 4, bytesNat b 4 4, bytesNat b 8 8, bytesNat b 16 8, bytesNat b 24 1, bytesNat b 32 4, bytesNat b 36 4,
    (bytesNat b 40 4, bytesNat b 44 4, bytesNat b 48 4), (bytesNat b 52 1, bytesNat b 53 1, bytesNat b 54 1)⟩

def SampBlk.marg (b : SampBlk) : Bool := bitOf b.sflags 0
def SampBlk.pair (b : SampBlk) : Bool := bitOf b.sflags 1
def SampBlk.learn (b : SampBlk) : Bool := bitOf b.sflags 2

/-- The sampling block of a problem, where it has one. -/
def sampBlk (s : State) (rs : List LRegion) (x : ProbImg) : Option SampBlk :=
  if x.sblk = 0 then none else some (sampBlkOf (imgRead s rs x.sblk 64))

/-- Entry p of the pair list. -/
def pairAt (s : State) (rs : List LRegion) (b : SampBlk) (p : Nat) : Nat × Nat :=
  (imgNat s rs (b.ptab + 16 * p) 8, imgNat s rs (b.ptab + 16 * p + 8) 8)

/-- The sampling block of a problem (R209 items 1 to 5). -/
def samplingOk (s : State) (rs : List LRegion) (rows : Nat) (x : ProbImg) : Bool := match sampBlk s rs x with
  | none => true
  | some b =>
    let raw := imgRead s rs x.sblk 64
    let pl (p : Nat) : Nat × Nat := pairAt s rs b p
    let needs := b.pair || b.learn
    raw.length == 64 && (raw.drop 25).take 7 == List.replicate 7 0 && (raw.drop 55).all (· == 0) &&
    x.discrete && !x.realtime && !x.plainStop &&
    decide (1 ≤ b.thin) && decide (b.thin ≤ 2 ^ 24) && decide (b.sflags < 8) && decide (1 ≤ b.lchk) && decide (b.lchk ≤ 2 ^ 16) &&
    decide (b.sh.1 ≤ 63) && decide (b.sh.2.1 ≤ 63) && decide (b.sh.2.2 ≤ 63) &&
    (if needs then decide (1 ≤ b.npair) && decide (b.ptab + 16 * b.npair ≤ imgSize rs) else b.npair == 0 && b.ptab == 0) &&
    ((List.range b.npair).all fun p => decide ((pl p).1 < (pl p).2) && decide ((pl p).2 < x.nvar) &&
      (p == 0 || decide ((pl (p - 1)).1 < (pl p).1) || ((pl (p - 1)).1 == (pl p).1 && decide ((pl (p - 1)).2 < (pl p).2)))) &&
    (!b.learn || (b.marg && b.pair && decide (0 < b.iter) && b.iter % b.thin == 0 && decide (b.burn < x.steps) &&
      (x.steps - b.burn) % b.iter == 0 && decide (0 < rows)))

/-- A problem's section is as its rules ask. -/
def probOk (s : State) (rs : List LRegion) (rows : Nat) (sec : Section) : Bool :=
  let x := readProb s rs sec
  decide (64 ≤ sec.len) && decide (x.size ≤ sec.len) && descOk x && groupsOk s rs x && colouringOk s rs x && samplingOk s rs rows x

/-- The section of a problem. -/
def probSection (s : State) (p : List Byte) (j : Nat) : Option Section :=
  ((imageDir s p).map (·.1)).find? fun x => x.kind == 1 && x.unit == j

/-- A problem of a launch, where it has one. -/
def probImg (s : State) (p : List Byte) (j : Nat) : Option ProbImg := (probSection s p j).map (readProb s (imageRegions p))

/-- The whole image (R343 reason 3). -/
def imageOk (s : State) (p : List Byte) (aux : LaunchAux) : Bool :=
  headerOk s p && imageDirOk s p aux &&
    (((imageDir s p).map (·.1)).filter fun x => x.kind == 1).all (probOk s (imageRegions p) (pStatRows p))

/-- Whether a launch is real-time: one of its problems is, or it carries a safety table (DEDUCED). -/
def imageRealtime (s : State) (p : List Byte) (aux : LaunchAux) : Bool :=
  aux.safety.isSome || (List.range (pNprob p)).any fun j => match probImg s p j with
    | some x => x.realtime
    | none => false

/-! ## The placement (R262, R520) -/

/-- The placement region. -/
def placeRegion (p : List Byte) : List LRegion := setRegions p 4

def placeDir (s : State) (p : List Byte) : List (Section × Bool) :=
  directory s (placeRegion p) 72 (imgNat s (placeRegion p) 64 4)

/-- The map CRC of the module (R262). -/
def mapCrc (s : State) : Nat :=
  crc32c ((List.range 24).flatMap (fun cl => leBytes 8 (logicalMask s.plat.fuse cl)) ++
    (List.range 24).flatMap fun cl => leBytes 8 (odGet s 0x2203 (cl + 1)))

/-- The header of a placement (R262). -/
def placeHeaderOk (s : State) (p : List Byte) : Bool :=
  let h := imgRead s (placeRegion p) 0 72
  h.length == 72 && bytesNat h 48 1 == (if s.plat.fuse.c6 then 0 else 1) && bytesNat h 49 3 == 0 &&
    bytesNat h 52 4 == mapCrc s && bytesNat h 60 4 == 0 && decide (1 ≤ bytesNat h 64 4) && decide (bytesNat h 64 4 ≤ 65536) && bytesNat h 68 4 == 0

/-- The units and kinds of a placement's sections (R520 items 2 to 4). -/
def placeUnitsOk (s : State) (l : List Section) : Bool :=
  let on := onMask s.plat.fuse
  l.all fun x => decide (x.set ≤ 2) && (match x.kind with
    | 0x10 => (unitTile s.plat.fuse x.unit).isSome
    | 0x11 => (match unitTile s.plat.fuse x.unit with
      | some pos => decide (x.len / 8 ≤ storeWords (kindOf pos))
      | none => false)
    | 0x12 => decide (x.unit < 1536) && bitOf on x.unit
    | 0x13 => decide (x.unit < 1536) && bitOf on x.unit
    | 0x14 => decide (x.unit < 1536) && isMemPort x.unit
    | 0x15 => decide (x.unit < 1536) && kindOf x.unit == .port && (match portFn x.unit with
      | .plx _ _ => true
      | _ => false)
    | _ => false)

/-- The bank states of a list of windows that declare a bank, as pairs in and after. -/
def bankCodes (cmn : Bool) (b : Nat) (ws : List WinDesc) : List (WinDesc × Nat × Nat) :=
  (ws.filter fun w => bitOf (if cmn then w.cdecl else w.decl) b).map fun w =>
    if cmn then (w, fld w.cin (2 * b) 2, fld w.cafter (2 * b) 2) else (w, fld w.stIn (2 * b) 2, fld w.stAfter (2 * b) 2)

/-- How long a wake to ON takes (R51). -/
def wakeTime (words old : Nat) : Nat := if old = 3 then 0 else if old = 1 then 300 else 300 + words

/-- The codes of declarations in their order, as a later wake finds them: RET entered from OFF counts as OFF (R51). -/
def coldCodes (prev : Nat) : List Nat → List Nat
  | [] => []
  | c :: l => (if c = 1 ∧ prev = 0 then 0 else c) :: coldCodes (if c = 1 ∧ prev = 0 then 0 else c) l

/-- The same round the frame. -/
def warmCodes (l : List (WinDesc × Nat × Nat)) : List Nat :=
  let cs := l.flatMap fun x => [x.2.1, x.2.2]
  coldCodes ((coldCodes 1 cs).getLastD 1) cs

/-- No wake begins before the interval before its declaration has started (R51): before a window that is the time since the
window before it (round the frame), before STATE_AFTER it is the window. -/
def wakesOk (n words : Nat) (l : List (WinDesc × Nat × Nat)) : Bool :=
  let warm := warmCodes l
  (List.range l.length).all fun i =>
    let k := if i = 0 then l.length - 1 else i - 1
    match l[i]?, l[k]? with
    | some (w, inn, aft), some (v, _, _) =>
      let room := if i = 0 then w.start + n - v.stop else w.start - v.stop
      inn != 2 && aft != 2 && (inn != 3 || decide (wakeTime words (warm.getD (2 * k + 1) 0) ≤ room)) &&
        (aft != 3 || decide (wakeTime words (warm.getD (2 * i) 0) ≤ w.stop - w.start))
    | _, _ => true

/-- The window table of a tile (R223, R50, R51); ownership is reason 4, and the management complex reason 5. -/
def windowsOk (s : State) (g planLen pos : Nat) (raw : List Nat) : Bool :=
  let ws := raw.map winOf
  let n := frameTc (periodOf (odForce s 0x2100 1) (odForce s 0x2100 2))
  let cmn := pos == commonsTile (clusterOf pos)
  decide (ws.length ≤ 64) && raw.all winClean &&
  ws.all (fun w => decide (w.start < w.stop) && decide (w.stop ≤ planLen) && decide (w.entry < storeWords (kindOf pos)) && w.glove == g &&
    decide (w.decl < 2 ^ bankCount (kindOf pos)) && (cmn || (w.cdecl == 0 && w.cin == 0 && w.cafter == 0))) &&
  ((List.range (ws.length - 1)).all fun i => match ws[i]?, ws[i + 1]? with
    | some a, some b => decide (a.stop ≤ b.start) && a.lslot == b.lslot
    | _, _ => true) &&
  ((List.range (bankCount (kindOf pos))).all fun b => wakesOk n (bankWords (tileBank pos b)) (bankCodes false b ws)) &&
  (!cmn || (List.range 16).all fun b => wakesOk n 4096 (bankCodes true b ws))

/-- Whether a link of a router is usable: input or output 0 to 3; 4 is the tile itself (R65). -/
def linkUsable (on pos d : Nat) : Bool :=
  if d = 4 then true
  else match neighbour pos d with
    | none => false
    | some q => bitOf on q

/-- SRC is as OP asks (R72), at the delivery into a memory port tile as R73 does: FWD from one to four links there, nothing from its
own lanes. -/
def srcOk (pos out : Nat) (e : SlotEnt) : Bool :=
  let n := ((List.range 5).filter fun i => bitOf e.src i).length
  let own := isMemPort pos && out == 4
  !(own && bitOf e.src 4) && (match e.op with
    | 0 => n == 0
    | 1 => n == 1 || (own && decide (1 ≤ n))
    | 6 => false
    | 7 => false
    | _ => decide (2 ≤ n))

/-- A slot entry of an output by itself (R74 items 4, 6, 8 and 9). -/
def slotOk (on g pos out x : Nat) : Bool :=
  let e := slotOf x
  fld x 28 4 == 0 && e.glove == g && srcOk pos out e &&
    (e.op == 0 || (linkUsable on pos out && ((List.range 5).filter fun i => bitOf e.src i).all (linkUsable on pos)))

/-- A SLOTS section: each entry, whether a segment uses it or not, is one that some output of the router can have (R74, R520). -/
def slotsOk (on g pos : Nat) (slots : List Nat) : Bool := slots.all fun x => (List.range 5).any fun out => slotOk on g pos out x

/-- No input feeds two outputs with different OPs (R74 item 7). -/
def phaseOk (es : List SlotEnt) : Bool :=
  pairsFree (fun (x y : SlotEnt) => x.op != y.op && (x.src &&& y.src) != 0) es

/-- The slot plan of a router (R74). -/
def planOk (on g planLen pos : Nat) (segs slots : List Nat) : Bool :=
  let gs := segs.map segOf
  (segs.all fun x => fld x 76 52 == 0) &&
  (gs.all fun x => x.start % 8 == 0 && decide (1 ≤ x.rep) && [8, 16, 32, 64].contains x.period && decide (x.start + x.rep * x.period ≤ planLen) &&
    (List.range x.period).all fun j =>
      let es := (List.range 5).map fun o => slots.getD (x.base + 5 * j + o) (g * 2 ^ 20)
      ((List.range 5).all fun o => slotOk on g pos o (es.getD o 0)) && phaseOk (es.map slotOf) &&
        (j % 8 != 7 || es.all fun e => (slotOf e).op == 0)) &&
  (List.range (gs.length - 1)).all fun i => match gs[i]?, gs[i + 1]? with
    | some a, some b => decide (a.start + a.rep * a.period ≤ b.start)
    | _, _ => true

/-- The stream table of a port tile (R296 items 1, 2 and 5). -/
def streamOk (s : State) (p : List Byte) (g x : Nat) : Bool :=
  let e := streamOf 0 x
  let n := 64 * e.nw
  fld x 48 16 == 0 && fld x 110 18 == 0 && e.glove == g && e.addr % 64 == 0 &&
  (chunksIn e.addr n).all (chunkOwnedBy s g) &&
  ((setsOf p).any fun r => decide (r.base ≤ e.addr) && decide (e.addr + n ≤ r.base + r.len)) &&
  (match e.op with
    | 1 => e.nw % 128 == 0 && e.addr % 0x2000 == 0
    | 2 => e.nw % 256 == 0 && e.addr % 0x4000 == 0
    | _ => true)

/-- The exchange table of a Prolux port tile (R448). -/
def xentsOk (p : List Byte) (g : Nat) (raw : List Nat) : Bool :=
  let es := raw.map (xentOf 0)
  decide (es.length ≤ 256) && raw.all (fun x => fld x 104 24 == 0) &&
  es.all (fun e => e.glove == g && decide (1 ≤ e.op) && decide (e.op ≤ 5) && decide (e.lag ≤ 16) &&
    (if e.op = 1 then e.rin != e.lin && (e.rout || e.lout) else e.rin && e.lin) && (e.op == 4 || !e.record) &&
    (if e.lag = 0 then e.init == 0 else e.init % 64 == 0 && (setRegions p 2).any fun r =>
      decide (r.base ≤ e.init) && decide (e.init + 64 * e.lag * e.nw ≤ r.base + r.len))) &&
  decide ((es.map fun e => e.nw * (e.lag + 1)).sum ≤ 16384)

/-- The sections of a set of a placement (R520). -/
def placeSetOk (s : State) (p : List Byte) (g planLen : Nat) (l : List Section) : Bool :=
  let on := onMask s.plat.fuse
  let rs := placeRegion p
  l.all fun x => match x.kind with
    | 0x10 => (match unitTile s.plat.fuse x.unit with
      | some pos => windowsOk s g planLen pos (elements s rs x)
      | none => true)
    | 0x13 => slotsOk on g x.unit (elements s rs x)
    | 0x12 => planOk on g planLen x.unit (elements s rs x) (match l.find? fun y => y.kind == 0x13 && y.unit == x.unit with
      | some y => elements s rs y
      | none => [])
    | 0x14 => (elements s rs x).all (streamOk s p g)
    | 0x15 => xentsOk p g (elements s rs x)
    | _ => true

/-- Sections of a set. -/
def inSet (set : Nat) (l : List Section) : List Section := l.filter fun x => x.set == set

/-- The logical tiles that a set names. -/
def setUnits (l : List Section) : List Nat := ((l.filter fun x => x.kind == 0x10 || x.kind == 0x11).map (·.unit)).eraseDups

/-- The sections that the module reads of a placement. -/
def placeSections (s : State) (p : List Byte) : List Section := ((placeDir s p).map (·.1)).filter fun x => decide (x.kind < 0x8000)

/-- Alternates stand beside a re-execution table, one or two, on tiles apart from the primary's (R400, R401). -/
def alternatesOk (p : List Byte) (aux : LaunchAux) (l : List Section) : Bool :=
  let alt := l.any fun x => x.set != 0
  (match aux.reexec with
    | none => !alt
    | some r => (l.any fun x => x.set == 1) && !pMulti p && decide (1 ≤ r.every) &&
      (setRegions p 3).any fun y => decide (y.base ≤ r.base) && decide (r.base < y.base + y.len)) &&
  [1, 2].all fun i => (setUnits (inSet i l)).all fun u => !(setUnits (inSet 0 l)).contains u

/-- The whole placement (R343 reason 3). -/
def placementOk (s : State) (p : List Byte) (aux : LaunchAux) (g : Nat) : Bool :=
  let l := placeSections s p
  placeHeaderOk s p && dirSound (imgSize (placeRegion p)) (placeDir s p) && placeUnitsOk s l && alternatesOk p aux l &&
    [0, 1, 2].all fun i => placeSetOk s p g aux.planLen (inSet i l)

/-- The least T1 of a health flit (R76): one flit, nothing ahead of it. -/
def healthBound (s : State) (pos port : Nat) : Option Nat := (route s.plat.fuse pos port).map fun w =>
  18 * w.length + 4 * ((List.range w.length).foldl (fun (a : Nat × Nat) i =>
    let d := w.getD i 4
    match neighbour a.1 d with
    | none => a
    | some q => (q, if crossesCol a.1 d then a.2 + 1 else a.2)) (pos, 0)).2 + 9

/-- The safety table of a launch (R396). -/
def safetyOk (s : State) (g : Nat) (t : SafetyTable) : Bool :=
  let tiles := t.setA ++ t.setB ++ t.setC
  let offs := ((List.range 64).filter fun k => odGet s (0x6840 + k) 8 == 1 &&
    (txObjects s k).any fun o => odGet s (0x6000 + o) 1 == g && odGet s (0x6000 + o) 5 != 0xFFFF).map fun k => odGet s (0x6840 + k) 6
  pairsFree (· == ·) tiles && (t.setC == [] || (t.setC.map kindOf == t.setA.map kindOf && t.mirrors)) &&
  decide (t.carriedA ≤ 16384) && decide (t.carriedB ≤ 16384) &&
  t.ht.all fun x => match healthBound s x.1 t.port with
    | some b => offs.all fun o => decide (x.2 + b + 300 ≤ o)
    | none => false

end Sys2Proof.Machine
end

