-- ==== Sys2Proof/Machine/Problem.lean ====
section
/-! DEFINITION. Problems: what a launch's determinants say of them (R127, R147 to R152, R264), their initial states (R159, R180, R184),
energies, schedules, records, summaries and statistics (R147, R157 to R168, R185, R211, R212, R216). -/

namespace Sys2Proof.Machine

def probKey (k j : Nat) : Nat := 65536 * k + j
def probOf (s : State) (k j : Nat) : Option ProbSt := kget s.probs (probKey k j)
def setProb (k j : Nat) (p : ProbSt) (s : State) : State := { s with probs := kput s.probs (probKey k j) p }

/-- A problem with what its launch carries of it. -/
structure ProbCtx where
  key : Nat
  no : Nat
  l : Launch
  img : ProbImg
  data : ProblemData
  code : Nat
  fm : Nat
  learned : Bool
  blk : Option SampBlk
  groups : List (List Nat)
  deriving DecidableEq, Repr

/-- The bytes of the image set, the parameter set and the placement of a parameter block. -/
def imageBytes (s : State) (p : List Byte) : List Byte := imgRead s (imageRegions p) 0 (imgSize (imageRegions p))
def paramBytes (s : State) (p : List Byte) : List Byte := imgRead s (setRegions p 1) 0 (imgSize (setRegions p 1))
def placeBytes (s : State) (p : List Byte) : List Byte := imgRead s (placeRegion p) 0 (imgSize (placeRegion p))

/-- The scale entry of a tag and the SS of its model, where the image has one (R126, R127, R520). -/
def scaleOf (s : State) (p : List Byte) (tag : Nat) : Option (Nat × Nat) :=
  let rs := imageRegions p
  (((imageDir s p).map (·.1)).find? fun x => x.kind == 2 && decide ((scaleTags s rs x).1 ≤ tag) &&
    decide (tag < (scaleTags s rs x).1 + (scaleTags s rs x).2)).map fun x =>
      (imgNat s rs (x.off + 8 + 4 * (tag - (scaleTags s rs x).1)) 4, imgNat s rs x.off 4)

/-- The scale code of a tag in the image; 0, which is no code, where it has none. -/
def imageCode (s : State) (p : List Byte) (tag : Nat) : Nat := match scaleOf s p tag with
  | some (e, _) => fld e 0 16
  | none => 0

/-- The problem of a launch, where there is one: its data as the determinants give it, or as learning has left it. -/
def probCtx (s : State) (k j : Nat) : Option ProbCtx :=
  match kget s.launches k with
  | none => none
  | some l => (probImg s l.params j).map fun x =>
    let (d, code) := match probOf s k j with
      | some p => (p.data, p.code)
      | none =>
        let d := Config.problemData (imageBytes s l.params) (paramBytes s l.params) j
        (d, imageCode s l.params d.tag)
    let e := ((scaleOf s l.params d.tag).map (·.1)).getD 0
    ⟨k, j, l, x, d, code, fld e 16 5, bitOf e 31, sampBlk s (imageRegions l.params) x, groupsOf s (imageRegions l.params) x⟩

/-- Address n of the problem's entry in the launch parameter block (R327). -/
def ProbCtx.addr (c : ProbCtx) (n : Nat) : Nat := pProb c.l.params c.no n

/-! ## State sets (R150, R155, R519) -/

/-- Bytes of one replica's set. -/
def setBytes (x : ProbImg) : Nat := if x.discrete then 64 * ((x.nvar + 511) / 512) else 64 * ((x.nvar + 15) / 16)
/-- Bytes of a rounded state. -/
def bitBytes (x : ProbImg) : Nat := 64 * ((x.nvar + 511) / 512)

def bitAt (b : List Byte) (i : Nat) : Bool := bitOf ((b.getD (i / 8) 0).toNat) (i % 8)

/-- Spins as bits, padded to whole words. -/
def packSpins (x : ProbImg) (sp : List Bool) : List Byte :=
  leBytes (bitBytes x) ((List.range sp.length).foldl (fun a i => if sp.getD i false then a + 2 ^ i else a) 0)

/-- The x field of variable i. -/
def xAt (b : List Byte) (i : Nat) : Int := signed 16 (bytesNat b (4 * i) 2)

/-- A record of x and y. -/
def recBytes (x y : Int) : List Byte := leBytes 2 (unsigned 16 x) ++ leBytes 2 (unsigned 16 y)

/-- A set as the module writes it: what lies past its variables is zero (R519). -/
def cleanSet (x : ProbImg) (b : List Byte) : List Byte :=
  if x.discrete then packSpins x ((List.range x.nvar).map (bitAt b))
  else leBytes (setBytes x) (leNat (b.take (4 * x.nvar)))

/-- Rounded spins of a replica (R160, R181): members of a group by their argmax. -/
def roundSet (c : ProbCtx) (b : List Byte) : List Bool :=
  if c.img.discrete then (List.range c.img.nvar).map (bitAt b)
  else
    let plain := (List.range c.img.nvar).map fun i => decide (0 ≤ xAt b i)
    c.groups.foldl (fun sp g =>
      let top := (argmax (g.map (xAt b))).1
      (List.range g.length).foldl (fun q m => q.set (g.getD m 0) (m == top)) sp) plain

/-- Groups whose argmax is taken on a tie (R181). -/
def roundTies (c : ProbCtx) (b : List Byte) : Nat :=
  if c.img.discrete then 0 else c.groups.countP fun g => (argmax (g.map (xAt b))).2

/-! ## Initial states (R159, R180, R184) -/

/-- The uniform start of a group of n members (R180). -/
def uniformStart (n : Nat) : List Int := (List.range n).map fun m => ((16384 / n + if m < 16384 % n then 1 else 0 : Nat) : Int)

/-- One replica's continuous start; `n` is the step that follows. -/
def contStart (s : State) (c : ProbCtx) (r n : Nat) : List Int × Nat :=
  let inst := load s (c.addr 0 + r * setBytes c.img) (setBytes c.img)
  let base := (List.range c.img.nvar).map fun i => match c.img.init with
    | 1 => xAt inst i
    | 2 => tz ((((draw0 i r n 0x13 c.img.stream c.l.seed % 65536 : Nat) : Int) - 32768) * (bytesNat c.img.d 18 2 : Int)) 15
    | _ => 0
  c.groups.foldl (fun a g =>
    let given := g.map (xAt inst)
    let good := given.all (fun p => decide (0 ≤ p) && decide (p ≤ 16384)) && given.sum == 16384
    let v := if c.img.init = 1 ∧ good then given else uniformStart g.length
    ((List.range g.length).foldl (fun q m => q.set (g.getD m 0) (v.getD m 0)) a.1,
      if c.img.init = 1 ∧ !good then a.2 + 1 else a.2)) (base, 0)

/-- One replica's discrete start. -/
def discStart (s : State) (c : ProbCtx) (r n : Nat) : List Bool × Nat :=
  let inst := load s (c.addr 0 + r * setBytes c.img) (setBytes c.img)
  let base := (List.range c.img.nvar).map fun i =>
    if c.img.init = 1 then bitAt inst i else !bitOf (draw0 i r n 0x13 c.img.stream c.l.seed) 31
  c.groups.foldl (fun a g =>
    let on := (List.range g.length).filter fun m => bitAt inst (g.getD m 0)
    let m := if c.img.init = 1 then on.headD 0 else draw0 (g.headD 0) r n 0x15 c.img.stream c.l.seed * g.length / 2 ^ 32
    ((List.range g.length).foldl (fun q i => q.set (g.getD i 0) (i == m)) a.1,
      if c.img.init = 1 ∧ on.length ≠ 1 then a.2 + 1 else a.2)) (base, 0)

/-- The sets at initialisation, and how many given states were replaced (R159, R185). -/
def startSets (s : State) (c : ProbCtx) (n : Nat) : List (List Byte) × Nat :=
  (List.range c.img.replicas).foldl (fun a r =>
    if c.img.discrete then
      let (sp, k) := discStart s c r n
      (a.1 ++ [packSpins c.img sp], a.2 + k)
    else
      let (xs, k) := contStart s c r n
      (a.1 ++ [cleanSet c.img (xs.flatMap fun x => recBytes x 0)], a.2 + k)) ([], 0)

/-! ## Sampling counters (R211) -/

/-- How many counters a problem has. -/
def counterCount (x : ProbImg) (b : SampBlk) : Nat := 1 + (if b.marg then x.nvar else 0) + (if b.pair then b.npair else 0)

/-- Where a problem's counters stand, eight to a word. -/
def counterHome (s : State) (c : ProbCtx) : List (Nat × Nat) := match c.blk with
  | none => []
  | some b => (List.range ((counterCount c.img b + 7) / 8)).map
      (Config.counterPlace (imageBytes s c.l.params) (placeBytes s c.l.params) c.l.set c.no)

/-- The counters as their banks hold them. -/
def counterVals (home : List (Nat × Nat)) (s : State) : List Nat :=
  home.flatMap fun x => (List.range 8).map (lane (loadNat s (wordAddr x.1 x.2) 64))

/-- Words of counters are set, with the glove of the launch. -/
def setCounters (g : Nat) (home : List (Nat × Nat)) (vals : List Nat) (s : State) : State :=
  (List.range home.length).foldl (fun t n => match home[n]? with
    | some x => (bankAccess 1 g x.1 x.2 (.write 0 (leBytes 64 (ofLanes fun i => vals.getD (8 * n + i) 0))) t).2
    | none => t) s

/-- Counters gain, each word of eight by one ATOMIC_ADD (R48, R211). -/
def addCounters (g : Nat) (home : List (Nat × Nat)) (gains : List Nat) (s : State) : State :=
  (List.range home.length).foldl (fun t n => match home[n]? with
    | some x => (bankAccess 1 g x.1 x.2 (.add 0xFF (ofLanes fun i => gains.getD (8 * n + i) 0)) t).2
    | none => t) s

/-! ## Start (R159, R163 to R165) -/

/-- A problem at its initialisation; a real-time problem's checkpoint number runs on (`q`). -/
def startProb (s : State) (c : ProbCtx) (n q : Nat) : ProbSt :=
  let (sets, resets) := startSets s c n
  { data := c.data, code := c.code
    steps := 0, first := n, check := q, perm := List.range c.img.replicas, oldPerm := List.range c.img.replicas
    lastCheck := 0, lastSamp := 0, lastIter := 0
    reps := List.replicate c.img.replicas ⟨0, false, false, none⟩
    best := none, ring := 0, lost := 0, written := 0, valleys := 0, passes := 0, walls := 0, ysat := 0, sets := sets
    chg := List.replicate c.img.replicas (List.replicate c.img.nvar false), stop := none
    counters := counterHome s c, saved := [], samples := 0, iters := 0, lchecks := 0, sats := 0, clamps := 0, ties := 0, resets := resets }

/-- The problems of a launch start with it, their counters at zero. A real-time problem with WARM set has no frame before its first, and is
initialised like any other (DESIGN CHOICE, log entry 88). -/
def startProbs (k : Nat) (l : Launch) (s : State) : State :=
  (List.range (pNprob l.params)).foldl (fun t j => match probCtx t k j with
    | none => t
    | some c =>
      let p := startProb t c 0 0
      setCounters l.glove p.counters [] (setProb k j p t)) s

/-! ## Energies (R147) -/

def spinOf (b : Bool) : Int := if b then 1 else -1

/-- The coupling sums g_i of a spin state. -/
def couplingSums (d : ProblemData) (sp : List Bool) : List Int :=
  (List.range sp.length).map fun i => d.couplings.foldl (fun a x =>
    if x.1 = i then a + d.codebook.getD x.2.2 0 * spinOf (sp.getD x.2.1 false) else a) 0

/-- The energy of a spin state, without OFFSET. -/
def bareEnergy (c : ProbCtx) (sp : List Bool) : Int :=
  let g := couplingSums c.data sp
  let sum := (List.range sp.length).foldl (fun (a : Int) i =>
    let b := c.data.bias.getD i 0
    a + spinOf (sp.getD i false) * (2 * b + 512 * g.getD i 0 + 2 * b)) 0
  0 - signed 64 (unsigned 64 sum) / 4

/-- The energy of a spin state, with OFFSET. -/
def energyOf (c : ProbCtx) (sp : List Bool) : Int := signed 64 (unsigned 64 (c.img.offset + bareEnergy c sp))

/-! ## Schedules and ladders (R157, R158, R163, R164) -/

def schedStep (e : Nat) : Nat := fld e 0 32

/-- A column of the schedule at a step: 32 is A, 48 SIGMA (R158). -/
def scheduleAt (x : ProbImg) (col tau : Nat) : Nat :=
  let k := (x.sched.filter fun e => decide (schedStep e ≤ tau)).length - 1
  let v (i : Nat) : Int := (fld (x.sched.getD i 0) col 16 : Nat)
  if x.sched.length ≤ k + 1 then (v k).toNat
  else
    let dn : Int := (schedStep (x.sched.getD (k + 1) 0) : Int) - schedStep (x.sched.getD k 0)
    (v k + ((v (k + 1) - v k) * ((tau : Int) - schedStep (x.sched.getD k 0))).tdiv dn).toNat

/-- The effective β of a rung at a schedule step (R163). -/
def rungBeta (x : ProbImg) (tau rung : Nat) : Nat :=
  let mul := if x.temper then fld (x.ladder.getD rung 0) 16 16 else 4096
  if x.discrete then min 65535 (scheduleAt x 32 tau * mul / 4096) else mul

/-- The effective σ of a rung (R163). -/
def rungSigma (x : ProbImg) (tau rung : Nat) : Nat :=
  let mul := if x.temper then fld (x.ladder.getD rung 0) 0 16 else 4096
  min 65535 (scheduleAt x 48 tau * mul / 4096)

/-- Swap round q (R164). -/
def swapRound (c : ProbCtx) (q tau : Nat) (es : List Int) (perm : List Nat) : List Nat :=
  let n := c.img.replicas
  let pairs := (List.range n).filter fun k => decide (k + 1 < n) && k % 2 == q % 2
  pairs.foldl (fun pi k =>
    let a := perm.getD k 0
    let b := perm.getD (k + 1) 0
    let d := ((rungBeta c.img tau k : Int) - rungBeta c.img tau (k + 1)) * (es.getD a 0 - es.getD b 0)
    let z := sat32 (tz d c.img.es)
    if 0 ≤ z ∨ draw0 k 0 q 0x12 c.img.stream c.l.seed < expLut z then (pi.set k b).set (k + 1) a else pi) perm

/-! ## Records (R166, R167) -/

/-- Write a record to the ring, or count it lost. -/
def putRecord (c : ProbCtx) (kind rep nc : Nat) (energy aux : Int) (x : ProbSt × State) : ProbSt × State :=
  let p := x.1
  if c.img.recordCap ≤ p.ring then ({ p with lost := satAdd 0xFFFFFFFF p.lost 1 }, x.2)
  else
    let step := if c.img.realtime then p.first + nc else nc
    let b := leBytes 1 kind ++ [0] ++ leBytes 2 rep ++ leBytes 4 p.check ++ leBytes 8 step ++
      leBytes 8 (unsigned 64 energy) ++ leBytes 8 (unsigned 64 aux)
    ({ p with ring := p.ring + 1, written := satAdd 0xFFFFFFFF p.written 1 }, store (c.addr 3 + 32 * p.ring) b x.2)

/-! ## Summaries (R168, R185, R212, R216) -/

/-- The summary of R168. -/
def summaryBytes (p : ProbSt) : List Byte :=
  let (e, r, bs) := match p.best with
    | some b => (unsigned 64 b.energy, b.replica, b.step)
    | none => (2 ^ 63, 0xFFFF, 0)
  leBytes 8 p.steps ++ leBytes 8 e ++ leBytes 2 r ++ leBytes 1 (p.stop.getD 0) ++ [0] ++ leBytes 4 p.written ++ leBytes 4 p.lost ++
    leBytes 4 (min p.valleys 0xFFFFFFFF) ++ leBytes 4 (min p.passes 0xFFFFFFFF) ++ leBytes 8 bs ++ leBytes 8 p.walls ++
    leBytes 8 p.ysat ++ [0, 0, 0, 0]

/-- The group summary of R185. -/
def groupSummary (c : ProbCtx) (p : ProbSt) : List Byte :=
  leBytes 4 c.img.ngroup ++ leBytes 4 (min p.resets 0xFFFFFFFF) ++ leBytes 8 p.clamps ++ leBytes 8 p.ties ++ List.replicate 8 0

/-- The sampling summary of R216. -/
def samplingSummary (p : ProbSt) : List Byte :=
  leBytes 8 p.samples ++ leBytes 4 p.iters ++ leBytes 4 p.lchecks ++ leBytes 8 p.sats ++ List.replicate 8 0

/-- The statistics output of R212. -/
def statsOut (s : State) (c : ProbCtx) (b : SampBlk) (p : ProbSt) : List Byte :=
  ((counterVals p.counters s).take (counterCount c.img b)).flatMap (leBytes 8)

/-- What an offline problem writes when it ends or is drained: states, summaries and statistics. -/
def writeOutputs (c : ProbCtx) (p : ProbSt) (s : State) : State :=
  let s1 := store (c.addr 1) (p.sets.flatMap (cleanSet c.img)) s
  let sums := summaryBytes p ++ (if c.img.ngroup = 0 then [] else groupSummary c p) ++
    (if c.blk.isSome then samplingSummary p else [])
  let s2 := store (c.addr 4) sums s1
  match c.blk with
  | none => s2
  | some b => store (c.addr 5) (statsOut s c b p) s2

/-- An ended problem's outputs stand as its counts now are; a real-time problem has no summary (R327). -/
def refresh (c : ProbCtx) (p : ProbSt) (s : State) : State :=
  let s1 := setProb c.key c.no p s
  if p.stop.isNone then s1
  else if c.img.realtime then store (c.addr 1) (p.sets.flatMap (cleanSet c.img)) s1
  else writeOutputs c p s1

end Sys2Proof.Machine
end

