-- ==== Sys2Proof/Machine/Sweep.lean ====
section
/-! DEFINITION. The steps of a problem as its determinants give them: the fields and the integrator of the continuous modes (R153 to R156,
R176 to R181), the colour phases, acceptances and group moves of the discrete ones (R161, R162, R175, R182, R183), with their change bits. -/

namespace Sys2Proof.Machine

/-- Whether a variable is a member of a group. -/
def isMember (c : ProbCtx) (i : Nat) : Bool := c.groups.any fun g => g.contains i

/-- The rung of a replica (R163). -/
def rungOf (p : ProbSt) (r : Nat) : Nat := p.perm.findIdx (· == r)

/-- The draw of an element of a replica at a step, for a purpose tag. -/
def probDraw (c : ProbCtx) (i r n tag : Nat) : List Nat := steppe (counter i r n tag c.img.stream) c.l.seed

/-! ## The continuous modes -/

/-- What each variable puts into the field (R153, R176): its stand-in, a member's spin form, or in MODE 1 the sign alone. -/
def fieldInputs (c : ProbCtx) (b : List Byte) : List Int :=
  if c.img.mode = 1 then (roundSet c b).map fun up => if up then 16384 else -16384
  else (List.range c.img.nvar).map fun i => if isMember c i then 2 * xAt b i - 16384 else xAt b i

/-- The activation elements of a set (R155, R176): 0xC000 and 0x4000 are those of MODE 1. -/
def activations (c : ProbCtx) (b : List Byte) : List Nat := (fieldInputs c b).map activation

/-- The accumulators that the activations give with a zero point of 32,768 (R153). -/
def fieldSums (c : ProbCtx) (acts : List Nat) : List Int :=
  (List.range c.img.nvar).map fun i => signed 64 (unsigned 64 (c.data.couplings.foldl (fun a x =>
    if x.1 = i then a + c.data.codebook.getD x.2.2 0 * ((acts.getD x.2.1 0 : Int) - 32768) else a) (64 * c.data.bias.getD i 0)))

/-- The fields of a set at a step (R153). With another FMT than S32 the lanes are those of the packed output; what lies past it, and the
lanes of a descriptor that R110 refuses, are not stated: free values (log entry 9). -/
def fieldsOf (c : ProbCtx) (n : Nat) (b : List Byte) : List Int :=
  let r := rescaleOf c.data.field
  let outs := (fieldSums c (activations c b)).map fun v => (rescaleRow r r.fmt v).1
  let packed := if r.bad then [] else outs.flatMap fun v => leBytes (fmtBits r.fmt / 8) (unsigned (fmtBits r.fmt) v)
  (List.range c.img.nvar).map fun i =>
    if 4 * i + 4 ≤ packed.length then signed 32 (bytesNat packed (4 * i) 4)
    else signed 32 ((Config.openResult (2 ^ 19 + i) c.l.seed n).toNat % 2 ^ 32)

/-- What a step makes of a replica: its set, the variables whose rounded values changed, and what the counts gain. -/
structure Swept where
  set : List Byte
  chg : List Bool
  walls : Nat
  ysat : Nat
  clamps : Nat
  deriving DecidableEq, Repr

/-- The transfers within a group at a step: two members each, what the first gains, and clamps (R177, R178). -/
def groupMoves (c : ProbCtx) (n : Nat) (b : List Byte) (h : List Int) (g : List Nat) : List (Nat × Nat × Int × Nat) :=
  (groupPairs g.length n).map fun m =>
    let p := g.getD m.1 0
    let q := g.getD m.2 0
    let d := pairDelta (bytesNat c.img.d 12 2) (bytesNat c.img.d 16 2) (xAt b p) (xAt b q) (h.getD p 0) (h.getD q 0)
    (p, q, d.1, d.2)

/-- A continuous step of a replica (R154, R176 to R181), all of it from the set at its start. -/
def contSweep (c : ProbCtx) (n tau rung r : Nat) (b : List Byte) : Swept :=
  let h := fieldsOf c n b
  let yAt (i : Nat) : Int := signed 16 (bytesNat b (4 * i + 2) 2)
  let outs := (List.range c.img.nvar).map fun i =>
    contStep (bytesNat c.img.d 12 2) (bytesNat c.img.d 14 2) (bytesNat c.img.d 16 2) (scheduleAt c.img 32 tau) (rungSigma c.img tau rung)
      (xAt b i) (yAt i) (h.getD i 0) (noiseOf (probDraw c i r n 0x10))
  let moves := c.groups.flatMap (groupMoves c n b h)
  let gain (i : Nat) : Int := moves.foldl (fun a m => if m.1 = i then a + m.2.2.1 else if m.2.1 = i then a - m.2.2.1 else a) 0
  let plain := (List.range c.img.nvar).filter fun i => !isMember c i
  let out (i : Nat) : StepOut := (outs[i]?).getD ⟨0, 0, false, false, false⟩
  let new := cleanSet c.img ((List.range c.img.nvar).flatMap fun i =>
    if isMember c i then recBytes (xAt b i + gain i) 0 else recBytes (out i).x (out i).y)
  { set := new
    chg := List.zipWith (· != ·) (roundSet c b) (roundSet c new)
    walls := plain.countP fun i => (out i).wall
    ysat := plain.countP fun i => (out i).ysat
    clamps := (moves.map (·.2.2.2)).sum }

/-! ## The discrete modes -/

/-- The doubled field of a variable as the spins now stand (R147, R161); `skip` leaves out couplings of these variables. -/
def doubleField (c : ProbCtx) (sp : List Bool) (skip : List Nat) (i : Nat) : Int :=
  let g := c.data.couplings.foldl (fun (a : Int) x =>
    if x.1 = i ∧ !skip.contains x.2.1 then a + c.data.codebook.getD x.2.2 0 * spinOf (sp.getD x.2.1 false) else a) 0
  signed 64 (unsigned 64 (2 * c.data.bias.getD i 0 + 512 * g))

/-- The acceptance of a variable (R162). -/
def accept (c : ProbCtx) (beta r n : Nat) (sp : List Bool) (i : Nat) : Bool :=
  let e := doubleField c sp [] i
  let u := (probDraw c i r n 0x11).headD 0
  let new := if c.img.mode = 2 then metropolisBy expLut beta c.img.es (spinOf (sp.getD i false)) e u
    else heatBathBy logisticLut beta c.img.es e u
  new == 1

/-- The member that a group's move sets (R183); couplings inside the group are left out (R175; DEDUCED, log entry 91). -/
def groupMove (c : ProbCtx) (beta r n : Nat) (sp : List Bool) (g : List Nat) : Nat :=
  let phi := g.map (doubleField c sp g)
  let set := g.findIdx fun i => sp.getD i false
  let z := phi.map fun p => sat32 (tz (beta * (p - phi.getD set 0)) c.img.es)
  match catsSelect expLut ((List.range g.length).map fun m => (z.getD m 0, m)) g.length 4096 0 ((probDraw c (g.headD 0) r n 0x14).headD 0) with
  | some (cand, _, _) => cand.2
  | none => set

/-- The phase of a colour (R161, R182): every variable and group of it from the spins as they stand. -/
def colourPhase (s : State) (c : ProbCtx) (beta r n col : Nat) (sp : List Bool) : List Bool :=
  let mine (i : Nat) : Bool := colourOf s (imageRegions c.l.params) c.img i == col
  let s1 := (List.range c.img.nvar).foldl (fun q i => if mine i && !isMember c i then q.set i (accept c beta r n sp i) else q) sp
  (c.groups.filter fun g => mine (g.headD 0)).foldl (fun q g =>
    let m := groupMove c beta r n sp g
    (List.range g.length).foldl (fun q k => q.set (g.getD k 0) (k == m)) q) s1

/-- A sweep of a replica: its colours in ascending order. -/
def discSweep (s : State) (c : ProbCtx) (n tau rung r : Nat) (b : List Byte) : Swept :=
  let old := roundSet c b
  let new := (List.range c.img.ncol).foldl (fun sp col => colourPhase s c (rungBeta c.img tau rung) r n col sp) old
  ⟨packSpins c.img new, List.zipWith (· != ·) old new, 0, 0, 0⟩

/-! ## Steps of a problem -/

/-- The next step of a problem, in every replica: step n is the frame's first one and those completed since (R158, R169). -/
def sweepAll (s : State) (c : ProbCtx) (p : ProbSt) : ProbSt :=
  let n := (p.first + p.steps) % 2 ^ 32
  let out := (List.range c.img.replicas).map fun r =>
    let b := p.sets.getD r []
    if c.img.discrete then discSweep s c n p.steps (rungOf p r) r b else contSweep c n p.steps (rungOf p r) r b
  { p with
    steps := p.steps + 1
    sets := out.map (·.set)
    chg := List.zipWith (List.zipWith (· || ·)) p.chg (out.map (·.chg))
    walls := (p.walls + (out.map (·.walls)).sum) % 2 ^ 64
    ysat := (p.ysat + (out.map (·.ysat)).sum) % 2 ^ 64
    clamps := (p.clamps + (out.map (·.clamps)).sum) % 2 ^ 64 }

/-- A number of steps. -/
def sweeps (s : State) (c : ProbCtx) : Nat → ProbSt → ProbSt
  | 0, p => p
  | n + 1, p => sweeps s c n (sweepAll s c p)

end Sys2Proof.Machine
end

