-- ==== Sys2Proof/Machine/Checkpoint.lean ====
section
/-! DEFINITION. What falls after the steps of a problem: checkpoints with valleys, passes, bests, plains and swaps (R160 to R167, R181), frame
outputs (R170), sample points (R210 to R212), learning (R129 to R132, R213 to R215) and drains (R168, R169, R270). Each is a command that
says how far the problem's program has come. -/

namespace Sys2Proof.Machine

/-! ## Checkpoints (R165) -/

/-- Items 3 to 5 for one replica. -/
def traceStep (c : ProbCtx) (r nc : Nat) (changed : Bool) (e : Int) (x : ProbSt × State) : ProbSt × State :=
  let t0 := x.1.reps.getD r ⟨0, false, false, none⟩
  let t1 := if changed then { t0 with last := nc, vdone := false } else t0
  let (t2, x2) := match t1.valley with
    | none => (t1, x)
    | some v =>
      let up := t1.up || decide (v < e)
      if up ∧ e < v then
        let y := putRecord c 2 r nc e v x
        ({ t1 with up := false }, ({ y.1 with passes := y.1.passes + 1 }, y.2))
      else ({ t1 with up := up }, x)
  let (t3, x3) :=
    if 0 < c.img.valleyW ∧ !t2.vdone ∧ c.img.valleyW ≤ nc - t2.last then
      let y := putRecord c 1 r nc e (t2.last : Int) x2
      ({ t2 with valley := some e, up := false, vdone := true }, ({ y.1 with valleys := y.1.valleys + 1 }, y.2))
    else (t2, x2)
  ({ x3.1 with reps := x3.1.reps.set r t3 }, x3.2)

/-- The lowest energy, of the lowest replica on ties. -/
def lowest (es : List Int) : Nat := (es.foldl (fun (a : Nat × Nat) e =>
  (if e < es.getD a.1 0 then a.2 else a.1, a.2 + 1)) (0, 0)).1

/-- Items 6 and 7: best and plain. -/
def bestStep (c : ProbCtx) (nc : Nat) (es : List Int) (sps : List (List Bool)) (x : ProbSt × State) : ProbSt × State :=
  let r := lowest es
  let e := es.getD r 0
  let better := match x.1.best with
    | none => true
    | some b => decide (e < b.energy)
  let x1 := if !better then x else
    let y := putRecord c 4 r nc e 0 x
    let bytes := packSpins c.img (sps.getD r [])
    ({ y.1 with best := some ⟨e, r, nc, bytes, false⟩ }, store (c.addr 2) bytes y.2)
  match x1.1.best with
  | none => x1
  | some b =>
    if 0 < c.img.plainP ∧ !b.plain ∧ c.img.plainP ≤ nc - b.step then
      let y := putRecord c 3 b.replica nc b.energy 0 x1
      ({ y.1 with best := some { b with plain := true }, stop := if c.img.plainStop then some 1 else y.1.stop }, y.2)
    else x1

/-- Whether a checkpoint falls after step n_c (R165). -/
def checkpointAt (x : ProbImg) (nc : Nat) : Bool := decide (0 < nc) && decide (nc ≤ x.steps) && (nc % x.cki == 0 || nc == x.steps)

/-- Every RXI-th checkpoint is a re-execution checkpoint; two are kept (R400). -/
def keepCheckpoint (c : ProbCtx) (q : Nat) (p : ProbSt) (s : State) : State := match c.l.aux.reexec with
  | none => s
  | some r =>
    if r.every = 0 ∨ (q + 1) % r.every ≠ 0 then s
    else
      let k := probKey c.key c.no
      { s with rx := kput s.rx k (((q + 1) / r.every - 1, { p with saved := counterVals p.counters s }) :: (kgetD s.rx k []).take 1) }

/-- The frame output: the rounded state of the lowest energy, that energy, and the group summary (R170, R185, R372). -/
def frameOutput (c : ProbCtx) (p : ProbSt) (es : List Int) (sps : List (List Bool)) : List Byte :=
  let r := lowest es
  let b := (packSpins c.img (sps.getD r [])).take (8 * ((c.img.nvar + 63) / 64)) ++ leBytes 8 (unsigned 64 (es.getD r 0)) ++
    (if c.img.ngroup = 0 then List.replicate 32 0 else groupSummary c p)
  b ++ List.replicate ((64 - b.length % 64) % 64) 0

/-- A real-time problem writes its frame output after the frame's last checkpoint (R170). -/
def putFrameOutput (c : ProbCtx) (nc : Nat) (p : ProbSt) (es : List Int) (sps : List (List Bool)) (s : State) : State :=
  match c.data.output with
  | some a => if c.img.realtime ∧ nc = c.img.steps then store a (frameOutput c p es sps) s else s
  | none => s

/-- A checkpoint of a problem whose steps have come to it. -/
def checkpoint (c : ProbCtx) (p : ProbSt) (s : State) : State :=
  let nc := p.steps
  let sps := p.sets.map (roundSet c)
  let es := sps.map (energyOf c)
  let p0 := { p with chg := p.chg.map (·.map fun _ => false), ties := p.ties + (p.sets.map (roundTies c)).sum }
  let x1 := (List.range c.img.replicas).foldl (fun x r => traceStep c r nc ((p.chg.getD r []).any id) (es.getD r 0) x) (p0, s)
  let x2 := bestStep c nc es sps x1
  let q := x2.1.check
  let p3 := { x2.1 with
    oldPerm := x2.1.perm
    perm := if c.img.temper then swapRound c q (nc - 1) (sps.map (bareEnergy c)) x2.1.perm else x2.1.perm
    lastCheck := nc
    check := (q + 1) % 2 ^ 32
    stop := if nc != c.img.steps then x2.1.stop else if c.img.realtime then (if c.l.drained.isSome then some 2 else none) else some 0 }
  putFrameOutput c nc p3 es sps (keepCheckpoint c q p3 (refresh c p3 x2.2))

/-! ## What falls after a step (R165, R168, R210, R214, R215, R270) -/

/-- Whether a sample point falls after step n_c (R210). -/
def sampleAt (b : SampBlk) (nc : Nat) : Bool := decide (b.burn < nc) && (nc - b.burn) % b.thin == 0
/-- Whether an iteration ends after step n_c (R214). -/
def iterAt (b : SampBlk) (nc : Nat) : Bool := b.learn && decide (b.burn < nc) && (nc - b.burn) % b.iter == 0

/-- Whether anything falls after step n_c. -/
def eventAt (c : ProbCtx) (nc : Nat) : Bool := checkpointAt c.img nc || c.blk.any fun b => sampleAt b nc || iterAt b nc

/-- Everything that falls after the last step completed has been done. -/
def settled (c : ProbCtx) (p : ProbSt) : Bool :=
  (!checkpointAt c.img p.steps || p.lastCheck == p.steps) && match c.blk with
    | none => true
    | some b => (!sampleAt b p.steps || p.lastSamp == p.steps) && (!iterAt b p.steps || p.lastIter == p.steps) &&
      (!b.learn || p.lchecks == p.iters / b.lchk)

/-- The step after which an offline problem drains at the latest: DRAIN_STEP (R325), or that of a notice (R452). -/
def drainLimit (c : ProbCtx) : Option Nat :=
  if c.img.realtime then none
  else match c.l.drainStep with
    | some d => some d
    | none => if pDrainAt c.l.params then some (pDrainStep c.l.params) else none

/-- The problem as it stands after a step, where its program can have come to it: nothing that falls after an earlier step is left to do. -/
def reach (s : State) (c : ProbCtx) (p : ProbSt) (nc : Nat) : Option ProbSt :=
  if nc = p.steps then some p
  else if nc < p.steps ∨ c.img.steps < nc ∨ !settled c p ∨ (span (p.steps + 1) (nc - p.steps - 1)).any (eventAt c) ∨
      (drainLimit c).any fun d => decide (d < nc) then none
  else some (sweeps s c (nc - p.steps) p)

/-- Whether what falls after a step of a problem applies: the launch runs, and no drain took effect after that step (R168). -/
def applies (c : ProbCtx) (p : ProbSt) (nc : Nat) : Bool :=
  c.l.phase == .running && (p.stop.isNone || (p.stop == some 0 && p.steps == nc)) && (drainLimit c).all fun d => decide (nc < d)

/-- The problem of a command that names how far it has come, where what falls there applies. -/
def standOf (s : State) (st : Stand) : Option (ProbCtx × ProbSt) :=
  match probCtx s st.launch st.problem, probOf s st.launch st.problem with
  | some c, some p => if applies c p st.steps then (reach s c p st.steps).map fun q => (c, q) else none
  | _, _ => none

/-- CHECKPOINT (R165). -/
def execCheckpoint (stand : Stand) (s : State) : Result :=
  match standOf s stand with
  | some (c, p) => if checkpointAt c.img p.steps ∧ p.lastCheck < p.steps then .next (checkpoint c p s) else .next s
  | none => .next s

/-! ## Frames of a real-time problem (R165, R167, R169) -/

/-- The checkpoints of a real-time problem's frame that are left are made: it runs exactly STEPS steps. -/
def finishFrame (k j : Nat) : Nat → State → State
  | 0, s => s
  | n + 1, s => match probCtx s k j, probOf s k j with
    | some c, some p =>
      if !c.img.realtime ∨ c.l.phase ≠ .running ∨ p.stop.isSome then s
      else match (span (p.lastCheck + 1) (c.img.steps - p.lastCheck)).find? (checkpointAt c.img) with
        | none => s
        | some nc => finishFrame k j n (match reach s c p nc with
          | some q => checkpoint c q s
          | none => s)
    | _, _ => s

/-- A real-time problem at a frame start: the traces, the best and the ring begin anew; WARM keeps the states and the permutation. One that
a drain has halted does not go on. -/
def frameProb (k j : Nat) (s : State) : State :=
  match probCtx s k j, probOf s k j with
  | some c, some p =>
    if !c.img.realtime ∨ c.l.phase ≠ .running ∨ p.stop.isSome then s
    else
      let q := startProb s c (p.first + c.img.steps) p.check
      setProb k j (if bitOf c.img.flags 1 then { q with perm := p.perm, oldPerm := p.perm, sets := p.sets, resets := 0 } else q) s
  | _, _ => s

/-- Every problem at a frame start. -/
def frameProbs (s : State) : State :=
  s.probs.foldl (fun t p =>
    let k := p.1 / 65536
    let j := p.1 % 65536
    frameProb k j (finishFrame k j ((probCtx t k j).elim 0 fun c => c.img.steps + 1) t)) s

/-! ## Sampling (R210 to R212) -/

/-- What one contributing replica adds to the counters, in their order. -/
def sampleGains (s : State) (c : ProbCtx) (b : SampBlk) (sp : List Bool) : List Nat :=
  [1] ++ (if b.marg then (List.range c.img.nvar).map fun i => ofBool (sp.getD i false) else []) ++
  (if b.pair then (List.range b.npair).map fun i =>
      let (u, v) := pairAt s (imageRegions c.l.params) b i
      ofBool (sp.getD u false == sp.getD v false) else [])

/-- SAMPLE_POINT (R210): the permutation is that before a swap of the same sweep (R215). -/
def execSamplePoint (stand : Stand) (s : State) : Result :=
  match standOf s stand with
  | some (c, p) => match c.blk with
    | none => .next s
    | some b =>
      if !sampleAt b p.steps ∨ p.lastSamp = p.steps ∨ (checkpointAt c.img p.steps ∧ p.lastCheck ≠ p.steps) then .next s
      else
        let perm := if p.lastCheck = p.steps then p.oldPerm else p.perm
        let who := if c.img.temper then [perm.getD 0 0] else List.range c.img.replicas
        let s1 := who.foldl (fun t r => addCounters c.l.glove p.counters (sampleGains s c b (roundSet c (p.sets.getD r []))) t) s
        .next (refresh c { p with lastSamp := p.steps, samples := p.samples + who.length } s1)
  | none => .next s

/-! ## Learning (R213 to R215) -/

/-- An i32 of a table. -/
def i32At (s : State) (a i : Nat) : Int := signed 32 (loadNat s (a + 4 * i) 4)
def putI32 (a i : Nat) (v : Int) (s : State) : State := store (a + 4 * i) (leBytes 4 (unsigned 32 v)) s

/-- An estimate in S32:30 (R214). -/
def estimate (cnt n : Nat) : Int := ((cnt * 2 ^ 31 / n : Nat) : Int) - 0x40000000

/-- A master moved by a rate, with whether it clipped (R214). -/
def moved (m : Int) (rate : Nat) (g : Int) (sh : Nat) : Int × Nat :=
  let v := m + tz ((rate : Int) * g) sh
  (sat32 v, if sat32 v = v then 0 else 1)

/-- The code that a pair's coupling holds. -/
def codeOf (d : ProblemData) (u v : Nat) : Nat := match d.couplings.find? fun x => x.1 == u && x.2.1 == v with
  | some x => x.2.2
  | none => 0

/-- The update of the masters at an iteration's end (R214): the state and how many clipped. -/
def updateMasters (c : ProbCtx) (b : SampBlk) (p : ProbSt) (s : State) : State × Nat :=
  let cnt := counterVals p.counters s
  let n := cnt.headD 0
  let dat := c.addr 6
  let mas := c.addr 7
  let gp (i : Nat) : Int := i32At s dat (c.img.nvar + i) - estimate (cnt.getD (1 + c.img.nvar + i) 0) n
  let (s1, k1) := (List.range b.npair).foldl (fun (x : State × Nat) i =>
    let (v, k) := moved (i32At s mas i) b.lr.1 (gp i) b.sh.1
    (putI32 mas i v x.1, x.2 + k)) (s, 0)
  let (s2, k2) := (List.range c.img.nvar).foldl (fun (x : State × Nat) i =>
    let (v, k) := moved (i32At s mas (b.npair + i)) b.lr.2.1 (i32At s dat i - estimate (cnt.getD (1 + i) 0) n) b.sh.2.1
    (putI32 mas (b.npair + i) v x.1, x.2 + k)) (s1, k1)
  let gc := (List.range b.npair).foldl (fun (a : Int) i =>
    let (u, v) := pairAt s (imageRegions c.l.params) b i
    a + tz (c.data.codebook.getD (codeOf c.data u v) 0 * gp i) 24) 0
  let (v, k3) := moved (i32At s mas (b.npair + c.img.nvar)) b.lr.2.2 (signed 64 (unsigned 64 gc)) b.sh.2.2
  (putI32 mas (b.npair + c.img.nvar) v s2, k2 + k3)

/-- LEARNING_ITERATION (R214): after the sample point of the same sweep (R215). -/
def execLearningIteration (launch problem steps : Nat) (s : State) : Result :=
  match standOf s ⟨launch, problem, steps⟩ with
  | some (c, p) => match c.blk with
    | none => .next s
    | some b =>
      if !iterAt b p.steps ∨ p.lastIter = p.steps ∨ p.lastSamp ≠ p.steps ∨ (counterVals p.counters s).headD 0 = 0 then .next s
      else
        let (s1, k) := updateMasters c b p s
        .next (refresh c { p with lastIter := p.steps, iters := p.iters + 1, sats := p.sats + k } (setCounters c.l.glove p.counters [] s1))
  | none => .next s

/-- The m and s of a rescale (R129), none where the derivation fails (R130). -/
def deriveRescale (cw ca co mant : Nat) (ex : Int) : Option (Nat × Nat) :=
  if cw = 0 ∨ ca = 0 ∨ co = 0 ∨ mant = 0 then none
  else
    let len (v : Nat) : Int := if v = 0 then 0 else (Nat.log2 v : Int) + 1
    let num := cw * ca * mant
    let at_ (k : Int) : Nat := if 0 ≤ k then num * 2 ^ k.toNat / co else num / (co * 2 ^ (-k).toNat)
    let k0 : Int := 32 - len num + len co
    let k := if 2 ^ 32 ≤ at_ k0 then k0 - 1 else k0
    let sh := k - ex
    let (m, sh2) := if 63 < sh then (at_ k / 2 ^ (sh - 63).toNat, 63) else (at_ k, sh)
    if sh2 < 0 ∨ m = 0 then none else some (m, sh2.toNat)

/-- Add to lanes of a tag's statistics row (R130, R131, R138); tag 0xFFFF collects none. -/
def rowAdd (l : Launch) (tag : Nat) (lanes : List Nat) (s : State) : State :=
  match pStatBankNo l.params with
  | none => s
  | some b =>
    if tag = 0xFFFF ∨ pStatRows l.params ≤ tag then s
    else (bankAccess 1 l.glove b tag (.add 0x3F (ofLanes fun i => lanes.getD i 0)) s).2

/-- The code of a learned scale from its master, and whether it was clamped (R131). -/
def scaleCode (m : Int) : Nat × Bool := if 2 ^ 15 ≤ m then (m.toNat / 2 ^ 15, false) else (1, true)

/-- The codebook as a map table: values ascending, each with its code (R133, R136). -/
def bookEntries (d : ProblemData) : List (Int × Nat) :=
  sortBy (fun a b => decide (a.1 ≤ b.1)) ((List.range d.codebook.length).map fun k => (d.codebook.getD k 0, k))

/-- What a learning checkpoint makes of a problem: its data, its scale code, what the mapping adds to the coupling tensor's statistics row,
and the output tensors whose derivations fail (R129 to R132, R215). -/
def relearn (s : State) (c : ProbCtx) (b : SampBlk) : ProblemData × Nat × List Nat × List Nat :=
  let mas := c.addr 7
  let d := c.data
  let (code, clamped) := if c.learned then scaleCode (i32At s mas (b.npair + c.img.nvar)) else (c.code, false)
  let es := bookEntries d
  let maps := (List.range b.npair).map fun i => mapValue es (code * 2 ^ c.fm) (i32At s mas i)
  let pairs := (List.range b.npair).map fun i => (pairAt s (imageRegions c.l.params) b i, (es.getD (maps.getD i (0, 0, false)).1 (0, 0)).2)
  let couplings := d.couplings.map fun x => match pairs.find? fun y => y.1 == (x.1, x.2.1) || y.1 == (x.2.1, x.1) with
    | some y => (x.1, x.2.1, y.2)
    | none => x
  let ss := ((scaleOf s c.l.params d.tag).map (·.2)).getD 0
  let resc := d.rescales.map fun r => if code = c.code then (r, false)
    else match deriveRescale code (imageCode s c.l.params r.act) (imageCode s c.l.params r.out) (fld ss 8 24) (signed 8 (fld ss 0 8)) with
      | some (m, sh) => ({ r with m := m, s := sh }, false)
      | none => (r, true)
  ({ d with
      couplings := couplings
      bias := (List.range c.img.nvar).map fun i => i32At s mas (b.npair + i)
      rescales := resc.map (·.1) }, code,
    [(maps.map (·.2.1)).sum % 2 ^ 64, b.npair, maps.countP (·.2.2), 0, 0, ofBool clamped], (resc.filter (·.2)).map (·.1.out))

/-- Step 5 of R132: the new biases, codes and descriptors are written with the launch's glove where they stand. -/
def writeLearned (c : ProbCtx) (d : ProblemData) (s : State) : State :=
  (Config.learnedBytes (imageBytes s c.l.params) (placeBytes s c.l.params) c.l.set c.no d).foldl
    (fun t x => meshWrite c.l.glove x.1 x.2 2 1116 t) s

/-- LEARNING_CHECKPOINT (R132, R215). -/
def execLearningCheckpoint (launch problem steps : Nat) (s : State) : Result :=
  match standOf s ⟨launch, problem, steps⟩ with
  | some (c, p) => match c.blk with
    | none => .next s
    | some b =>
      if !b.learn ∨ p.lastIter ≠ p.steps ∨ p.iters = 0 ∨ p.iters % b.lchk ≠ 0 ∨ p.lchecks = p.iters / b.lchk then .next s
      else
        let (d, code, sums, fails) := relearn s c b
        let s1 := fails.foldl (fun t tag => rowAdd c.l tag [0, 0, 0, 0, 0, 1] t) (rowAdd c.l c.data.tag sums s)
        .next (refresh c { p with data := d, code := code, lchecks := p.lchecks + 1 } (writeLearned c d s1))
  | none => .next s

/-! ## Drains (R168, R169) -/

/-- An offline problem halts after its present step and writes what it has; nothing else of that step applies (R168). One whose program
has come further than it can have stays where it stands. -/
def drainProb (k j : Nat) (st : Option Stand) (s : State) : State :=
  match probCtx s k j, probOf s k j with
  | some c, some p =>
    if c.img.realtime ∨ p.stop.isSome then s
    else
      let at_ := match drainLimit c with
        | some d => d
        | none => (st.map (·.steps)).getD p.steps
      refresh c { (reach s c p at_).getD p with stop := some 2 } s
  | _, _ => s

/-- The problems of a launch that are drained. -/
def drainProbs (k : Nat) (l : Launch) (stands : List Stand) (s : State) : State :=
  (List.range (pNprob l.params)).foldl (fun t j =>
    drainProb k j (stands.find? fun x => x.launch == k && x.problem == j) t) s

end Sys2Proof.Machine
end

