-- ==== Sys2Proof/Machine/DriftW.lean ====
section
/-! DEFINITION. Drift watches (R143 to R146). Watch w has its entries at 0x2410 + w and interrupt source 384 + w. -/

namespace Sys2Proof.Machine

def watchIdx (w : Nat) : Nat := 0x2410 + w
def watchGlove (s : State) (w : Nat) : Nat := odGet s (watchIdx w) 1
def watchTag (s : State) (w : Nat) : Nat := odGet s (watchIdx w) 2

/-- Whether a watch applies to a launch: of its glove, with a statistics table whose row count is above its tag (R143). -/
def watchFits (s : State) (w : Nat) (l : Launch) : Bool :=
  admitted l && l.glove == watchGlove s w && decide (watchTag s w < pStatRows l.params)

/-- The earliest-admitted launch that a watch applies to. -/
def watchLaunch (s : State) (w : Nat) : Option Nat :=
  (s.launches.foldl (fun (a : Option (Nat × Nat)) p =>
    if !watchFits s w p.2 then a
    else match a with
      | some (_, n) => if p.2.order < n then some (p.1, p.2.order) else a
      | none => some (p.1, p.2.order)) none).map (·.1)

/-- A watch returns to waiting, or to unused, and its baseline goes (R143). -/
def watchRestart (w : Nat) (s : State) : State :=
  odSet { s with drift := kdel s.drift w } (watchIdx w) 11 (if watchGlove s w = 0 then 0 else 1)

/-- A watch whose launch has gone waits again; one that waits takes the launch that has appeared (R143). -/
def watchRefresh (w : Nat) (s : State) : State :=
  let gone := match kget s.drift w with
    | none => true
    | some d => match kget s.launches d.launch with
      | some l => !admitted l
      | none => true
  let s1 := if gone then watchRestart w s else s
  if !gone ∨ watchGlove s w = 0 then s1
  else match watchLaunch s1 w with
    | none => s1
    | some k => odSet { s1 with drift := kput s1.drift w ⟨k, none⟩ } (watchIdx w) 11 2

def driftRefresh (s : State) : State := (List.range 64).foldl (fun t w => watchRefresh w t) s

/-- A comparison of two reads of a row, exact (R144): events, and the new LastMse and LastSat where there are any. -/
structure DriftCmp where
  mse : Bool
  sat : Bool
  lastMse : Option Nat
  lastSat : Option Nat
  deriving DecidableEq, Repr

def driftCompare (en mseLimit satLimit : Nat) (p r : List Nat) : DriftCmp :=
  let d (i : Nat) : Nat := (r.getD i 0 + 2 ^ 64 - p.getD i 0) % 2 ^ 64
  let dall := (d 1 + d 3) % 2 ^ 64
  let dsat := (d 2 + d 4) % 2 ^ 64
  { mse := bitOf en 0 && d 1 != 0 && decide (mseLimit * d 1 < d 0 * 2 ^ 16)
    sat := bitOf en 1 && dall != 0 && decide (satLimit * dall < dsat * 2 ^ 32)
    lastMse := if d 1 = 0 then none else some (min (d 0 * 2 ^ 16 / d 1) 0xFFFFFFFFFFFFFFFF)
    lastSat := if dall = 0 then none else some (min (dsat * 2 ^ 32 / dall) 0xFFFFFFFF) }

/-- Store a value where there is one. -/
def odSetOpt (s : State) (index sub : Nat) : Option Nat → State
  | some v => odSet s index sub v
  | none => s

/-- The outcome of a check (R145, R146). -/
def driftOutcome (w : Nat) (c : DriftCmp) (s : State) : State :=
  let i := watchIdx w
  let s1 := odBump (odSetOpt (odSetOpt s i 6 c.lastMse) i 7 c.lastSat) i 8 32 1
  if c.mse ∨ c.sat then raise (384 + w) (odBump (odSet s1 i 10 (ofBool c.mse + 2 * ofBool c.sat)) i 9 32 1) else s1

/-- The read of a watch's row, with the identity of the bank's glove and against glove 0's VC2 budget; the first is the baseline. What a
refused or uncorrectable read returns is taken as the row (DESIGN CHOICE, log entry 92). -/
def driftRead (w : Nat) (s : State) : State :=
  match kget s.drift w with
  | none => s
  | some d => match (kget s.launches d.launch).bind fun l => (pStatBankNo l.params).map fun b => (l.glove, b) with
    | none => s
    | some (g, b) =>
      let (r, s1) := bankAccess 1 g b (watchTag s w) .read (budgetAdd 0 4 1 s)
      let row := (List.range 8).map (lane r.data)
      let s2 := { s1 with drift := kput s1.drift w { d with row := some row } }
      match d.row with
      | none => odSet s2 (watchIdx w) 11 3
      | some p => driftOutcome w (driftCompare (odGet s (watchIdx w) 3) (odGet s (watchIdx w) 4) (odGet s (watchIdx w) 5) p row) s2

/-- The reads of a check, in order; one that meets a spent budget waits for the next frame, and those after it with it (R355). -/
def driftReads : List Nat → State → State
  | [], s => { s with driftRun := { s.driftRun with left := [], stalled := none } }
  | w :: ws, s =>
    if (kget s.drift w).isSome ∧ !budgetOpen s 0 4 then
      budgetStall 0 { s with driftRun := { s.driftRun with left := w :: ws, stalled := some s.frame.boundaries } }
    else driftReads ws (driftRead w s)

/-- DRIFT_CHECK (R144): once every DriftCheckPeriod frames the management complex reads the watches in ascending order; a check that waited
goes on (R355). Which frames those are is not stated: they are counted from reset (DESIGN CHOICE, log entry 92). -/
def execDriftCheck (s : State) : Result :=
  if mgmtAsleep s then .next s
  else if s.driftRun.left ≠ [] then
    .next (if s.driftRun.stalled = some s.frame.boundaries then s else driftReads s.driftRun.left s)
  else if s.frame.boundaries < s.driftRun.began + odGet s 0x2400 1 then .next s
  else .next (driftReads (s.drift.map (·.1)) { s with driftRun := { s.driftRun with began := s.frame.boundaries } })

/-- The entries whose every accepted write restarts the watch (R143). -/
def driftEntry (sub : Nat) : OwnEntry where
  covers := fun r => decide (0x2410 ≤ r.index) && decide (r.index < 0x2450) && r.sub == sub
  rule := fun _ _ => 0
  effect := fun r t => watchRefresh (r.index - 0x2410) (watchRestart (r.index - 0x2410) (odAccept r.index r.sub (reqVal r) t))
  refused := fun _ t => t

/-- DRIFT_GLOVE_WRITE (R143). -/
def execDriftGloveWrite (req : OdReq) (s : State) : Result := .next (odWriteOwn (driftEntry 1) req s)
/-- DRIFT_TENSOR_WRITE (R143). -/
def execDriftTensorWrite (req : OdReq) (s : State) : Result := .next (odWriteOwn (driftEntry 2) req s)
/-- DRIFT_ENABLE_WRITE (R143). -/
def execDriftEnableWrite (req : OdReq) (s : State) : Result := .next (odWriteOwn (driftEntry 3) req s)

end Sys2Proof.Machine
end

