-- ==== Sys2Proof/Machine/Admit.lean ====
section
/-! DEFINITION. Admission of launches (R262, R325 to R328, R343, R344, R353, R400, R447): the reasons, each a check of a parameter
block and a placement set against the state. -/

namespace Sys2Proof.Machine

/-! ## Reason 2: the parameter block (R325 to R328) -/

/-- The header's fields (R325, R328 items 1 and 6). -/
def headerFieldsOk (p : List Byte) : Bool :=
  decide (1 ≤ pNreg p) && decide (pNreg p ≤ 248) && decide (pSeedSrc p ≤ 1) && decide (pFlags p < 8) && decide (pStatRows p ≤ 4096) &&
    decide (pStatCluster p < 24) && decide (pStatBank p < 16) && decide (1 ≤ pModules p) && decide (pModules p ≤ 4096) &&
    decide (pModule p < pModules p) && bytesNat p 14 2 == 0 && (pSeedSrc p == 0 || pSeed p == 0) &&
    (pMulti p || (pCount p == 0 && pModules p == 1)) && bytesNat p 48 16 == 0 && (!pTicket p || pTicketAddr p % 64 == 0)

/-- The first address above the tiers. -/
def tierEnd : Nat := 0x160000000000

/-- Whether a byte range lies in chunks that a glove owns. -/
def ownedRange (s : State) (g a n : Nat) : Bool := decide (a + n ≤ tierEnd) && (chunksIn a n).all (chunkOwnedBy s g)

/-- A region entry (R281, R326, R328 item 3). -/
def regionOk (s : State) (g : Nat) (r : LRegion) : Bool :=
  r.pad == 0 && decide (r.kind ≤ 6) && r.len % 64 == 0 &&
    (if r.kind = 6 then r.base % 64 == 0 else r.base % chunkBytes == 0 && decide (0 < r.len)) && ownedRange s g r.base r.len

/-- A launch's sets and those of another running launch of its glove would feed each other (R266). -/
def feeds (p q : List Byte) : Bool :=
  ((setRegions p 3).any fun r => (hitRegion (setsOf q) r.base r.len).isSome) ||
    (setRegions p 2).any fun r => (hitRegion (setRegions q 3) r.base r.len).isSome

/-- Whether a byte range lies wholly in one region of a list. -/
def inRegions (rs : List LRegion) (a n : Nat) : Bool := rs.any fun r => decide (r.base ≤ a) && decide (a + n ≤ r.base + r.len)

/-- A problem entry (R327): a used address in a region of its sets for the size that the descriptor implies, an unused one 0. -/
def probEntryOk (s : State) (p : List Byte) (j : Nat) : Bool := match probImg s p j with
  | none => true
  | some x =>
    let b := sampBlk s (imageRegions p) x
    let learn := b.any (·.learn)
    let npair := (b.map (·.npair)).getD 0
    let entry (k : Nat) (used : Bool) (rs : List LRegion) (n : Nat) : Bool :=
      if used then inRegions rs (pProb p j k) n else pProb p j k == 0
    let result := setRegions p 3
    entry 0 (x.init == 1) (setRegions p 2) (x.replicas * setBytes x) &&
    entry 1 true result (x.replicas * setBytes x) &&
    entry 2 true result (bitBytes x) &&
    entry 3 (decide (0 < x.recordCap)) result (32 * x.recordCap) &&
    entry 4 (!x.realtime) result (64 + (if x.ngroup = 0 then 0 else 32) + (if b.isSome then 32 else 0)) &&
    entry 5 b.isSome result (8 * (1 + (if b.any (·.marg) then x.nvar else 0) + (if b.any (·.pair) then npair else 0))) &&
    entry 6 learn (setRegions p 1 ++ setRegions p 2) (4 * (x.nvar + npair)) &&
    entry 7 learn ((setRegions p 1).filter fun r => r.kind == 4) (4 * (npair + x.nvar + 1))

/-- The parameter block as a whole (R328). -/
def paramsOk (s : State) (g : Nat) (p : List Byte) : Bool :=
  headerFieldsOk p &&
  (pRegions p).all (regionOk s g) &&
  !((pRegions p).filter fun r => r.kind == 0).isEmpty && ((pRegions p).filter fun r => r.kind == 6).length == 1 &&
  !((kvals s.launches).any fun l => isRunning l && l.glove == g && feeds p l.params) &&
  imgNat s (imageRegions p) 12 2 == pNprob p &&
  (match pStatBankNo p with
    | none => imageStatRows s p == 0
    | some b => bankOwner s b == g && decide (imageStatRows s p ≤ pStatRows p)) &&
  (List.range (pNprob p)).all (probEntryOk s p) &&
  (!pTicket p || (ownedRange s g (pTicketAddr p) 352 && (hitRegion (pRegions p) (pTicketAddr p) 352).isNone))

/-! ## A placement set in numbers -/

/-- The tiles of a set with their windows. -/
def setWindows (s : State) (p : List Byte) (l : List Section) : List (Nat × List WinDesc) :=
  (l.filter fun x => x.kind == 0x10).filterMap fun x =>
    (unitTile s.plat.fuse x.unit).map fun pos => (pos, (elements s (placeRegion p) x).map winOf)

/-- The slot entries of a router of a set. -/
def setSlots (s : State) (p : List Byte) (l : List Section) (pos : Nat) : List Nat :=
  match l.find? fun y => y.kind == 0x13 && y.unit == pos with
  | some y => elements s (placeRegion p) y
  | none => []

/-- The segments of a set by router. -/
def setSegs (s : State) (p : List Byte) (l : List Section) : List (Nat × List Seg) :=
  (l.filter fun x => x.kind == 0x12).map fun x => (x.unit, (elements s (placeRegion p) x).map segOf)

/-- The static use of a set (R352): window cycles, VC0 slots, stream bytes. -/
def setStatic (s : State) (p : List Byte) (g : Nat) (l : List Section) : Nat × Nat × Nat :=
  let cycles := ((setWindows s p l).map fun t => (t.2.map fun w => w.stop - w.start).sum).sum
  let slots := ((setSegs s p l).map fun r =>
    let es := setSlots s p l r.1
    (r.2.map fun x => x.rep * ((List.range (5 * x.period)).countP fun i => (slotOf (es.getD (x.base + i) (g * 2 ^ 20))).op != 0)).sum).sum
  let words := ((l.filter fun x => x.kind == 0x14).map fun x => ((elements s (placeRegion p) x).map fun e => (streamOf 0 e).nw).sum).sum
  (cycles, slots, 64 * words)

/-- The banks that a set's windows declare. -/
def setBanks (s : State) (p : List Byte) (l : List Section) : List Nat :=
  ((setWindows s p l).flatMap fun t => t.2.flatMap fun w =>
    ((List.range 4).filter fun b => bitOf w.decl b).map (tileBank t.1) ++
    ((List.range 16).filter fun k => bitOf w.cdecl k).map (cmnBank (clusterOf t.1))).eraseDups

/-- The entries of a kind of section on a unit, of the admitted launches. -/
def countAt (s : State) (kind unit : Nat) : Nat :=
  ((admittedLaunches s).map fun l => ((l.sections.filter fun x => x.set == l.set && x.kind == kind && x.unit == unit).map fun x =>
    x.len / elemOf kind).sum).sum

/-- The admitted launches that have a slot on a tile. -/
def launchesAt (s : State) (pos : Nat) : Nat := ((admittedLaunches s).filter fun l => l.tiles.any fun t => t.1 == pos).length

/-- The position that a section of tiles or ports names. -/
def unitPos (s : State) (x : Section) : Option Nat := match x.kind with
  | 0x10 => unitTile s.plat.fuse x.unit
  | 0x11 => unitTile s.plat.fuse x.unit
  | 0x14 => some x.unit
  | 0x15 => some x.unit
  | _ => none

/-! ## What rests on the programs (R108, R139, R225, R230, R237) -/

/-- The lowest place from which n words are free, among the start and the ends of what is stored. -/
def firstFit (used : List Nat) (n : Nat) : Nat :=
  let starts := 0 :: (used.map (· + 1))
  match (starts.filter fun a => !used.any fun u => decide (a ≤ u) && decide (u < a + n)) with
  | [] => 0
  | a :: l => l.foldl min a

/-- A window descriptor joins a table by its START. -/
def addWin (w : WinDesc) : List WinDesc → List WinDesc
  | [] => [w]
  | x :: l => if w.start < x.start then w :: x :: l else x :: addWin w l

/-- A launch's descriptor as it stands in the table of a tile. -/
def placedWin (base : Nat) (w : WinDesc) : WinDesc := { w with entry := base + w.entry }

/-- The program words of a tile in a set. -/
def setProgram (s : State) (p : List Byte) (l : List Section) (pos : Nat) : List Nat :=
  (l.filter fun x => x.kind == 0x11 && unitTile s.plat.fuse x.unit == some pos).flatMap (elements s (placeRegion p))

/-- A program beside what a tile's store holds: where it begins, and the store with it. -/
def storeWith (store : KMap Nat) (words : List Nat) : Nat × KMap Nat :=
  let base := firstFit (store.map (·.1)) words.length
  (base, (List.range words.length).foldl (fun m i => kput m (base + i) (words.getD i 0)) store)

/-- The slot entry of an output in a plan tc, of the segments and entries that a set gives its router. -/
def plannedEntry (segs : List Seg) (slots : List Nat) (out tc : Nat) : Option SlotEnt :=
  (segs.find? fun g => segCovers g tc).bind fun g => (slots[g.base + 5 * ((tc - g.start) % g.period) + out]?).map slotOf

/-- The entries of an output in a plan tc, of a set and of the launches whose plans its router holds. -/
def entriesAt (s : State) (p : List Byte) (l : List Section) (pos out tc : Nat) : List SlotEnt :=
  let r := kgetD s.routers pos Router.blank
  (((setSegs s p l).filter fun x => x.1 == pos).filterMap fun x => plannedEntry x.2 (setSlots s p l pos) out tc) ++
    r.segs.filterMap fun g => if !segCovers g.2 tc then none
      else (kget r.slots (g.2.base + 5 * ((tc - g.2.start) % g.2.period) + out)).map (·.2)

/-- The barrier TAGs that a program waits for. -/
def barrierTags (store : KMap Nat) : List Nat := (store.filter fun x => fld x.2 58 6 == 9).map fun x => fld x.2 20 12

/-- A tile of a set keeps R108 and R237 beside the launches that it holds. Flits of TAGs that a BARW waits for are no RECV's. -/
def tileBound (s : State) (p : List Byte) (l : List Section) (x : Nat × List WinDesc) : Bool :=
  let t := tileOf s x.1
  let (base, store) := storeWith t.store (setProgram s p l x.1)
  let tags := barrierTags store
  boundOk (kindOf x.1) (frameTc (periodOf (odForce s 0x2100 1) (odForce s 0x2100 2))) store
    ((x.2.map (placedWin base)).foldl (fun a w => addWin w a) t.wins) fun tc =>
      (entriesAt s p l x.1 4 tc).any fun e => e.op != 0 && e.op != 4 && !tags.contains e.tag

/-- The tags that stand in program words, those of QMAP, are below R_n or collect nothing (R139). -/
def tagsOk (s : State) (p : List Byte) (l : List Section) : Bool :=
  (setWindows s p l).all fun x => kindOf x.1 != .v || (setProgram s p l x.1).all fun w =>
    fld w 58 6 != 0x28 || fld w 34 16 == 0xFFFF || decide (fld w 34 16 < pStatRows p)

/-! ## What rests on the stream tables (R296 items 3 and 4) -/

/-- The VC0 words that a memory port tile hands and takes in a plan tc (R73). -/
def planWords (s : State) (p : List Byte) (l : List Section) (pos tc : Nat) : Nat :=
  ((List.range 5).map fun o => ((entriesAt s p l pos o tc).map fun e =>
    if e.op = 0 then 0
    else if o < 4 then ofBool (bitOf e.src 4)
    else if e.op = 1 then (List.range 4).countP (bitOf e.src)
    else 1).sum).sum

def isHbm (pos : Nat) : Bool := match portFn pos with
  | .hbm _ _ => true
  | _ => false

/-- Item 3: at most 3,584 words of an HBM port tile, 1,440 of a capacity port tile, over every 1,024 plan tc. -/
def portRateOk (s : State) (p : List Byte) (l : List Section) (planLen pos : Nat) : Bool :=
  let most : Nat := if isHbm pos then 3584 else 1440
  (List.range planLen).all fun t => decide (((span t 1024).map (planWords s p l pos)).sum ≤ most)

/-- The streams of a TAG in one direction, in table order, as one run of word addresses; none where the table has none. -/
def tagWords (es : List Stream) (tag : Nat) (write : Bool) : List (Nat × Nat) :=
  (es.filter fun x => x.tag == tag && (x.op == 3) == write).map fun x => (x.addr, x.nw)

/-- Word n of such a run, which begins again after its last word (R297). -/
def runAddr : List (Nat × Nat) → Nat → Option Nat
  | [], _ => none
  | x :: l, n => if n < x.2 then some (x.1 + 64 * n) else runAddr l (n - x.2)

/-- The plan tc of the slots that use the streams of a TAG, in order, one for each word. -/
def tagSlots (s : State) (p : List Byte) (l : List Section) (g planLen pos tag : Nat) (write : Bool) : List Nat :=
  (List.range planLen).flatMap fun tc => (List.range 5).flatMap fun o => (entriesAt s p l pos o tc).flatMap fun e =>
    if e.op = 0 ∨ e.tag ≠ tag ∨ e.glove ≠ g then []
    else if write then (if o < 4 then [] else List.replicate (if e.op = 1 then (List.range 4).countP (bitOf e.src) else 1) tc)
    else if o < 4 ∧ bitOf e.src 4 then [tc] else []

/-- Item 4 for a read TAG and a write TAG: in no frame does a slot read a word too soon after an earlier slot wrote it. The places go on
from frame to frame, and come round together after as many frames as both runs have words. -/
def readAfterOk (rs ws : List (Nat × Nat)) (rt wt : List Nat) (dist : Nat) : Bool :=
  let nr := (rs.map (·.2)).sum
  let nw := (ws.map (·.2)).sum
  (List.range (nr * nw)).all fun f => (List.range rt.length).all fun i => (List.range wt.length).all fun j =>
    match rt[i]?, wt[j]? with
    | some a, some b => decide (a < b) || decide (b + dist ≤ a) ||
      runAddr rs ((f * rt.length + i) % nr) != runAddr ws ((f * wt.length + j) % nw)
    | _, _ => true

/-- The port tiles of a set keep items 3 and 4. -/
def streamsOk (s : State) (p : List Byte) (l : List Section) (g planLen : Nat) : Bool :=
  (l.filter fun x => x.kind == 0x14).all fun x =>
    let es := (elements s (placeRegion p) x).map (streamOf 0)
    let dist : Nat := if isHbm x.unit then 4096 else 8192
    let tags (write : Bool) : List Nat := ((es.filter fun e => (e.op == 3) == write).map (·.tag)).eraseDups
    portRateOk s p l planLen x.unit && (tags false).all fun r => (tags true).all fun w =>
      readAfterOk (tagWords es r false) (tagWords es w true) (tagSlots s p l g planLen x.unit r false)
        (tagSlots s p l g planLen x.unit w true) dist

/-! ## What rests on the problems (R171, R209) -/

/-- Bytes of the launch's image and parameter regions in a tier: 0 the HBM, 1 the capacity tier (R171). -/
def tierBytes (p : List Byte) (tier : Nat) : Nat :=
  (((setRegions p 0 ++ setRegions p 1).filter fun r => (r.base / 0x100000000000) == tier).map (·.len)).sum

/-- The coupling codes of a problem, of 4 or 8 bits, fit the regions of the tier that the image names for them (R171). -/
def couplingsFit (p : List Byte) (d : ProblemData) : Bool := match d.tier with
  | none => true
  | some t => decide ((d.couplings.length * (if d.codebook.length ≤ 16 then 4 else 8) + 7) / 8 ≤ tierBytes p t)

/-- Bytes of the banks that a glove owns. -/
def gloveBankBytes (s : State) (g : Nat) : Nat := ((allBanks.filter fun b => bankOwner s b == g).map fun b => 64 * bankWords b).sum

/-- The problems' data is as the image's descriptors ask: couplings that fit (R171), the counters in the glove's banks, and a statistics
table that covers a learning problem's tag (R209 items 5 and 6). -/
def problemsOk (s : State) (g : Nat) (p : List Byte) : Bool :=
  let data (j : Nat) : ProblemData := Config.problemData (imageBytes s p) (paramBytes s p) j
  (List.range (pNprob p)).all (fun j => couplingsFit p (data j)) &&
  decide (((List.range (pNprob p)).map fun j => match probImg s p j with
    | some x => ((sampBlk s (imageRegions p) x).map fun b => 8 * counterCount x b).getD 0
    | none => 0).sum ≤ gloveBankBytes s g) &&
  (List.range (pNprob p)).all fun j => match probImg s p j with
    | some x => !(sampBlk s (imageRegions p) x).any (·.learn) || decide ((data j).tag < pStatRows p)
    | none => true

/-! ## Domains (R495) -/

/-- Every tile, bank, stream and exchange entry of a set, and what sends, lies in a domain that is ON. A transmit object's domain is
PD_TSN (DEDUCED, log entry 90). -/
def domainsUp (s : State) (p : List Byte) (aux : LaunchAux) (l : List Section) : Bool :=
  (l.all fun x => match unitPos s x with
    | some pos => domainOn s (tileDomain pos)
    | none => true) &&
  (setBanks s p l).all (fun b => domainOn s (bankDomain b)) && (match pStatBankNo p with
    | some b => domainOn s (bankDomain b)
    | none => true) && (!aux.sends || domainOn s 50)

/-! ## Reasons 3 to 8 for one set -/

/-- Whether a launch-table slot of a tile is one that no admitted launch has, with the seed of R188 in it on a V-tile (R221, R223). -/
def slotFree (s : State) (pos lslot : Nat) : Bool :=
  (admittedLaunches s).all fun a => a.tiles.all fun t => t.1 != pos || t.2.all fun v => v.lslot != lslot

/-- The programs have a free run of words in their stores (R220), launch-table slots are free, and exchange tables have room (R448). -/
def roomOk (s : State) (p : List Byte) (l : List Section) : Bool :=
  l.all fun x => match x.kind with
    | 0x10 => (match unitTile s.plat.fuse x.unit with
      | some pos => ((elements s (placeRegion p) x).map winOf).all fun w => slotFree s pos w.lslot
      | none => true)
    | 0x11 => (match unitTile s.plat.fuse x.unit with
      | some pos => decide (firstFit ((tileOf s pos).store.map (·.1)) (x.len / 8) + x.len / 8 ≤ storeWords (kindOf pos))
      | none => true)
    | 0x15 =>
      let old := kgetD s.plx x.unit PlxPort.blank
      let words (es : List XEnt) : Nat := (es.map fun e => e.nw * (e.lag + 1)).sum
      decide (old.ents.length + x.len / 16 ≤ 256) && decide (words old.ents + words ((elements s (placeRegion p) x).map (xentOf 0)) ≤ 16384)
    | _ => true

/-- Reason 4: every declared bank is the glove's, and none has a handover pending. -/
def banksFree (s : State) (g : Nat) (p : List Byte) (l : List Section) : Bool :=
  (setBanks s p l).all (fun b => bankOwner s b == g && !bankPendingHandover s b) &&
    match pStatBankNo p with
    | some b => !bankPendingHandover s b
    | none => true

/-- Reason 5: no fenced tile, and none of the management complex. -/
def unitsFree (s : State) (l : List Section) : Bool :=
  l.all fun x => match unitPos s x with
    | some pos => !isFenced s pos && !mgmtTiles.contains pos
    | none => true

/-- Windows of a tile in their order, each with whether it clears (R224); the first follows the last of the frame before. -/
def clearsOf (ws : List (WinDesc × Bool)) : List (WinDesc × Bool × Bool) :=
  (List.range ws.length).filterMap fun i => match ws[i]?, ws[if i = 0 then ws.length - 1 else i - 1]? with
    | some a, some b => some (a.1, a.2, a.1.glove != b.1.glove)
    | _, _ => none

def insWin (w : WinDesc × Bool) : List (WinDesc × Bool) → List (WinDesc × Bool)
  | [] => [w]
  | x :: l => if w.1.start < x.1.start then w :: x :: l else x :: insWin w l

/-- R344 on a tile: `old` the windows of admitted launches, `new` the launch's. -/
def tileConflict (old new : List WinDesc) : Bool :=
  let o := old.foldl (fun a w => insWin (w, false) a) []
  let all := new.foldl (fun a w => insWin (w, true) a) o
  let before := (clearsOf o).map fun x => (x.1, x.2.2)
  let after := clearsOf all
  (new.any fun w => old.any fun v => decide (w.start < v.stop) && decide (v.start < w.stop)) ||
    (((after.filter fun x => !x.2.1).map fun x => (x.1, x.2.2)) != before) ||
    after.any fun x => x.2.1 && x.2.2 && decide (x.1.stop - x.1.start < 65)

/-- Reason 6: a conflict with an admitted launch (R344). -/
def conflicts (s : State) (p : List Byte) (l : List Section) : Bool :=
  ((setWindows s p l).any fun t =>
    tileConflict ((admittedLaunches s).flatMap fun a => (a.tiles.filter fun u => u.1 == t.1).flatMap (·.2)) t.2) ||
  (setSegs s p l).any fun r => r.2.any fun x => (kgetD s.routers r.1 Router.blank).segs.any fun y =>
    decide (x.start < y.2.start + y.2.rep * y.2.period) && decide (y.2.start < x.start + x.rep * x.period)

/-- Reason 7: the tables have room for the admitted launches and this one. -/
def tablesOk (s : State) (l : List Section) : Bool :=
  l.all fun x =>
    let n := countAt s x.kind x.unit + x.len / elemOf x.kind
    match x.kind with
    | 0x10 => decide (n ≤ 64) && (match unitTile s.plat.fuse x.unit with
      | some pos => decide (launchesAt s pos < 16)
      | none => true)
    | 0x12 => decide (n ≤ 1024)
    | 0x13 => decide (n ≤ 4096)
    | 0x14 => decide (n ≤ 256)
    | _ => true

/-- Reason 8: the static use stays within the budget row (R353); `own` is static use of the launch that moves, which it gives up. -/
def staticOk (s : State) (g : Nat) (own new : Nat × Nat × Nat) : Bool :=
  let u := staticUse s g
  decide (u.1 - own.1 + new.1 ≤ odGet s (0x3100 + g) 1) && decide (u.2.1 - own.2.1 + new.2.1 ≤ odGet s (0x3100 + g) 2) &&
    decide (u.2.2 - own.2.2 + new.2.2 ≤ odGet s (0x3100 + g) 5)

/-- What R447 asks of a MULTI launch. -/
def multiOk (s : State) (p : List Byte) (aux : LaunchAux) (l : List Section) : Bool :=
  !pMulti p ||
    (aux.period == periodOf (odForce s 0x2100 1) (odForce s 0x2100 2) &&
      !((List.range (pNprob p)).any fun j => (probImg s p j).any (·.realtime)) && !aux.sends && aux.reexec.isNone &&
      (match (setWindows s p l).map fun t => t.2.map fun w => (w.start, w.stop) with
        | [] => true
        | t :: ts => ts.all (· == t)) &&
      odGet s 0x2600 3 == 1 &&
      (l.all fun x => x.kind != 0x15 || halfState s x.unit == 2) &&
      !(admittedLaunches s).any fun a => pMulti a.params && pCount a.params == pCount p)

/-- Whether an alternate meets the reasons that are checked at the first admission: all but 6 and 7 (R400). -/
def alternateOk (s : State) (g : Nat) (p : List Byte) (l : List Section) : Bool :=
  banksFree s g p l && unitsFree s l && staticOk s g (0, 0, 0) (setStatic s p g l)

/-- What reason 3 asks of a set's programs, streams and places. -/
def setAdmits (s : State) (g : Nat) (p : List Byte) (aux : LaunchAux) (l : List Section) : Bool :=
  roomOk s p l && domainsUp s p aux l && tagsOk s p l && streamsOk s p l g aux.planLen && (setWindows s p l).all (tileBound s p l)

/-- The image and its placement (reason 3). A plan is judged by the frame period in force, not by one that an accepted write has set for
the next boundary (R18; DESIGN CHOICE, log entry 82). -/
def imageAdmits (s : State) (g : Nat) (p : List Byte) (aux : LaunchAux) : Bool :=
  let secs := placeSections s p
  decide (aux.planLen ≤ maxPlan (frameTc (periodOf (odForce s 0x2100 1) (odForce s 0x2100 2)))) &&
    imageOk s p aux && placementOk s p aux g && problemsOk s g p && aux.stepsFit && (match aux.safety with
      | some t => safetyOk s g t
      | none => true) &&
    multiOk s p aux (inSet 0 secs) && setAdmits s g p aux (inSet 0 secs) &&
    [1, 2].all fun i => (inSet i secs).isEmpty || (setAdmits s g p aux (inSet i secs) && alternateOk s g p (inSet i secs))

/-- Reasons 4 to 8 for a set. -/
def setReason (s : State) (g : Nat) (p : List Byte) (own : Nat × Nat × Nat) (l : List Section) : Option Nat :=
  if !banksFree s g p l then some 4
  else if !unitsFree s l then some 5
  else if conflicts s p l then some 6
  else if !tablesOk s l then some 7
  else if !staticOk s g own (setStatic s p g l) then some 8
  else none

/-- The first reason for which a launch is refused (R343). -/
def admitReason (s : State) (g : Nat) (p : List Byte) (aux : LaunchAux) : Option Nat :=
  if !gloveActive s g then some 1
  else if !paramsOk s g p then some 2
  else if !imageAdmits s g p aux then some 3
  else setReason s g p (0, 0, 0) (inSet 0 (placeSections s p))

/-! ## LAUNCH -/

/-- A launch is refused (R343). -/
def refuseLaunch (k g reason : Nat) (s : State) : State :=
  completeOp k stAdmissionRefused (raise 64 (odSet s 0x3003 g reason))

/-- The identity keys of a launch's modules in index order (R282); its own is the module's. -/
def peerKeys (s : State) (p : List Byte) (peers : List (List Byte)) : List (List Byte) :=
  (List.range (pModules p)).map fun i =>
    if i = pModule p then edPublic (identitySecret s.plat.fuse) else peers.getD i (List.replicate 32 0)

/-- The digest PEERS (R282). -/
def peersDigest (keys : List (List Byte)) : List Byte := sha384 (0x04 :: leBytes 2 keys.length ++ keys.flatten)

/-- A launch as it is admitted. -/
def newLaunch (s : State) (k : Nat) (o : Op) (p : List Byte) (aux : LaunchAux) (peers : List (List Byte)) : Launch :=
  let secs := placeSections s p
  let own := inSet 0 secs
  let (a, b, c) := setStatic s p o.glove own
  { id := launchIdOf k
    order := (kvals s.launches).foldl (fun n l => max n (l.order + 1)) 0
    glove := o.glove
    phase := if pSeedSrc p = 1 then .seed else .loading
    params := p
    aux := aux
    set := 0
    tiles := setWindows s p own
    sections := secs
    placed := []
    peers := peerKeys s p peers
    statCycles := a
    statSlots := b
    statBytes := c
    realtime := imageRealtime s p aux
    relaxed := o.glove != 0 && odGet s 0x3400 o.glove == 1
    seed := pSeed p
    tried := none
    since := s.frame.boundaries
    drainReq := none
    drainStep := none
    recordSent := false
    limitDrained := false
    drained := none
    killStatus := stKilled
    faulted := false
    ending := false
    status := stOk
    nd := 0
    digests := [[], [], [], [], peersDigest (peerKeys s p peers)]
    count := 0
    stretched := false
    late := false
    startFrame := 0
    toZero := []
    sentinel := ⟨[], [], 0, false, false, [], false⟩
    reexecuted := false
    reexDue := false
    started := false
    released := false
    hold := [] }

/-- Admission of a launch whose constant buffer has been read (R324, R343). -/
def admitLaunch (k : Nat) (o : Op) (p : List Byte) (aux : LaunchAux) (peers : List (List Byte)) (s : State) : State :=
  if p.length < 64 + 16 * pNreg p + 64 * pNprob p then completeOp k stDescriptorInvalid s
  else match admitReason s o.glove p aux with
    | some r => refuseLaunch k o.glove r s
    | none => driftRefresh { s with launches := kput s.launches k (newLaunch s k o p aux peers) }

/-- Whether the launch unit admits or loads a launch (R319). -/
def launchBusy (s : State) : Bool :=
  (kvals s.launches).any (fun l => l.phase == .seed || l.phase == .loading) ||
    s.fe.ops.any fun p => dKind p.2.bytes == 3 && p.2.phase == .started && (kget s.launches p.1).isNone

/-- A LAUNCH op starts: its constant buffer is read (R324, R342). -/
def startLaunch (k : Nat) (o : Op) (aux : LaunchAux) (peers : List (List Byte)) (s : State) : State :=
  let a := dAddr o.bytes
  let n := dConstLen o.bytes
  if !gloveActive s o.glove then refuseLaunch k o.glove 1 s
  else if dConstHost o.bytes then hostRead (.const k) a n s
  else
    let (st, s1) := dmaCheck o.glove a n false s
    if st ≠ stOk then completeOp k stDescriptorInvalid s1
    else
      let (r, s2) := dmaRead o.glove a n s1
      if r.status ≠ stOk then completeOp k stDescriptorInvalid s2
      else admitLaunch k o r.data aux peers (setOp k { o with const := some r.data } s2)

/-- LAUNCH (R319, R324, R329): the op starts; one whose constant buffer has come from the host enters admission. -/
def execLaunch (op : Nat) (aux : LaunchAux) (peers : List (List Byte)) (s : State) : Result :=
  match kget s.fe.ops op with
  | none => .next s
  | some o =>
    if dKind o.bytes ≠ 3 ∨ (kget s.launches op).isSome then .next s
    else if o.phase = .started then
      match o.const with
      | some p => .next (admitLaunch op o p aux peers s)
      | none => .next s
    else if launchBusy s ∨ (dConstHost o.bytes ∧ !s.host.busMaster) then .next s
    else match startOp s op 3 [3] with
      | none => .next s
      | some (o1, s1) => .next (startLaunch op o1 aux peers s1)

end Sys2Proof.Machine
end

