-- ==== Sys2Proof/Machine/Launch.lean ====
section
/-! DEFINITION. The life of a launch after its admission (R23, R24, R195, R279 to R284, R299, R329 to R332, R402, R451): seed,
loading, start, drains, end, release, tickets, re-execution and held windows. A boundary's effects are commands that follow it. -/

namespace Sys2Proof.Machine

/-- Apply a function to every launch, as the state then stands. -/
def eachLaunch (f : Nat → Launch → State → State) (s : State) : State :=
  (s.launches.map (·.1)).foldl (fun t k => match kget t.launches k with
    | some l => f k l t
    | none => t) s

/-- Whether a boundary has passed since the launch entered its phase. -/
def pastBoundary (s : State) (l : Launch) : Bool := decide (l.since < s.frame.boundaries)

/-! ## The stretch of a frame (R91 to R93, R280, R393) -/

/-- tc of the frame that a plan of n tc takes under the stretch in force (R91). -/
def stretchedTc (s : State) (n : Nat) : Nat := (n * odGet s 0x2300 3 + 15) / 16

/-- Whether deadlines are at risk: by a stretched plan (R93), or by a reduced CK_TILE (R393). -/
def atRisk (s : State) : Bool :=
  let period := periodOf (odForce s 0x2100 1) (odForce s 0x2100 2)
  (decide (16 < odGet s 0x2300 3) && decide (maxPlan (frameTc period) < stretchedTc s (planTc (liveLaunches s)))) ||
    (decide (0 < s.frame.tileStep) && decide (maxPlan (period * stepMHz s.frame.tileStep / 1000) <
      planTc ((liveLaunches s).filter fun l => l.realtime)))

/-- Whether an armed launch starts at the boundary that has passed (R23, R274). -/
def startsNow (s : State) (l : Launch) : Bool :=
  l.phase == .armed && pastBoundary s l && !(pMulti l.params && decide (s.frame.sysNs < pCount l.params))

/-- Whether a launch releases its windows at the boundary that has passed (R24, R332). -/
def releasesNow (s : State) (l : Launch) : Bool :=
  !l.released && pastBoundary s l && (l.phase == .killing || l.phase == .release)

/-- A launch as the frame that begins will have it, once it has started, released or left its placement (R23, R24, R402). -/
def comingLaunch (s : State) (l : Launch) : Launch :=
  if startsNow s l then { l with started := true }
  else if releasesNow s l then { l with released := true }
  else if l.reexDue && l.phase == .running && canReexecute l then { l with started := false }
  else l

/-- The launches of the frame that begins. -/
def comingFrame (s : State) : State := { s with launches := s.launches.map fun p => (p.1, comingLaunch s p.2) }

/-- Source 137, once deadlines come to be at risk in the coming frame. -/
def warnRisk (before : Bool) (s : State) : State := if atRisk (comingFrame s) && !before then raise 137 s else s

/-- At a frame boundary M takes the value that the slots of the coming frame need; a change is counted and raised, and a stretched frame
marks its launches (R92, R96, R280). -/
def stretchFrame (s : State) : State :=
  let (cause, m) := stretchOf (comingFrame s)
  let s1 := odSet s 0x2300 4 cause
  let s2 := if odGet s 0x2300 3 = m then s1 else raise 320 (odBump (odSet s1 0x2300 3 m) 0x2300 5 32 1)
  if m ≤ 16 then s2
  else { s2 with launches := s2.launches.map fun p =>
    if (comingLaunch s p.2).started && !(comingLaunch s p.2).released then (p.1, { p.2 with stretched := true }) else p }

/-! ## Digests (R281, R282) -/

def treeLevel : List (List Byte) → List (List Byte)
  | a :: b :: l => sha384 (0x01 :: a ++ b) :: treeLevel l
  | l => l

/-- The root of a list of leaves; `fuel` bounds the levels. -/
def treeRoot : Nat → List (List Byte) → List Byte
  | 0, l => l.headD []
  | fuel + 1, l => if l.length ≤ 1 then l.headD [] else treeRoot fuel (treeLevel l)

def regionRoot (s : State) (r : LRegion) : List Byte :=
  treeRoot 64 ((List.range ((r.len + chunkBytes - 1) / chunkBytes)).map fun j =>
    sha384 (0x00 :: load s (r.base + chunkBytes * j) (min chunkBytes (r.len - chunkBytes * j))))

/-- SET of R281. -/
def setDigest (s : State) (rs : List LRegion) : List Byte :=
  sha384 (0x02 :: leBytes 4 rs.length ++ rs.flatMap fun r => leBytes 8 r.len ++ regionRoot s r)

/-- The partial last chunks of a set are read back when its digest is formed (R299, R300). -/
def readBack (rs : List LRegion) (s : State) : State :=
  rs.foldl (fun t r => ownReads (r.base + r.len / chunkBytes * chunkBytes) (r.len % chunkBytes) t) s

/-- The digest of a launch's result set is fixed (R282). -/
def fixResult (k : Nat) (l : Launch) (s : State) : State :=
  readBack (setRegions l.params 3) (setLaunch k { l with digests := l.digests.set 3 (setDigest s (setRegions l.params 3)) } s)

/-- IMAGE, PARAMS and INPUT as the sets stand (R282). -/
def fixedDigests (s : State) (l : Launch) : List (List Byte) :=
  [setDigest s (setRegions l.params 0), setDigest s (setRegions l.params 1),
    sha384 (0x03 :: setDigest s (setRegions l.params 2) ++ leBytes 8 l.seed)]

/-! ## Seed (R195, R423) -/

/-- Whether a glove's DRBG allowance covers a drawn seed (R423). -/
def seedCovered (s : State) (g : Nat) : Bool := match allowance s g 7 with
  | none => true
  | some b => decide (spentOf s g 7 < b) && (decide (spentOf s g 7 + 2 ≤ b) || spentOf s g 7 == 0)

/-- The two words of a drawn seed, where both are there in one buffer. -/
def seedWords (s : State) (g : Nat) : Option (Nat × Nat × Drbg × List Nat) := match kget s.sec.inst (pageInst s g) with
  | none => none
  | some d => match d.buf with
    | a :: b :: rest => if drbgMayDeliver s (pageInst s g) then some (a, b, d, rest) else none
    | _ => none

/-- The front end tries to take the seed of a launch, once in a frame (R423). -/
def drawSeed (k : Nat) (l : Launch) (s : State) : State :=
  if l.phase ≠ .seed ∨ l.tried = some s.frame.boundaries then s
  else if !seedCovered s l.glove then budgetStall l.glove (setLaunch k { l with tried := some s.frame.boundaries } s)
  else match seedWords s l.glove with
    | none => setLaunch k { l with tried := some s.frame.boundaries } s
    | some (a, b, d, rest) =>
      budgetAdd l.glove 7 2 (setLaunch k { l with seed := a + 2 ^ 32 * b, phase := .loading, since := s.frame.boundaries }
        (setSec { s.sec with inst := kput s.sec.inst (pageInst s l.glove) { d with buf := rest } } s))

/-- SEED_DRAW (R195). -/
def execSeedDraw (s : State) : Result := .next (eachLaunch drawSeed s)

/-! ## The loader (R41, R51, R221, R329, R520) -/

/-- The window table of a tile changes; the window that runs and the one that ran last keep their entries. -/
def setWins (pos : Nat) (new : List WinDesc) (s : State) : State :=
  adjTile pos (fun t =>
    let at_ (i : Nat) : Option Nat := (t.wins[i]?).bind fun w => new.findIdx? (· == w)
    { t with wins := new, run := t.run.bind at_, lastWin := (at_ t.lastWin).getD 64 }) s

/-- The sections of the launch's set of a kind. -/
def mySections (l : Launch) (kind : Nat) : List Section := l.sections.filter fun x => x.set == l.set && x.kind == kind

/-- A tile's program, launch slot and windows are written. -/
def loadTile (k : Nat) (l : Launch) (pos : Nat) (s : State) : State :=
  let t := tileOf s pos
  let words := setProgram s l.params (inSet l.set l.sections) pos
  let ws := (l.tiles.filter fun x => x.1 == pos).flatMap (·.2)
  let (base, store) := storeWith t.store words
  let sl : SlotSt := ⟨k, l.seed, pStatBankNo l.params, pStatRows l.params, 0, 0, l.drained.isSome, false, 0⟩
  let s1 := setTile pos { t with
    store := store
    slots := match ws with
      | [] => t.slots
      | w :: _ => kput t.slots w.lslot sl } s
  let s2 := setWins pos ((ws.map (placedWin base)).foldl (fun a w => addWin w a) t.wins) s1
  adjLaunch k (fun l => { l with placed := kput l.placed pos base }) s2

/-- The state that a bank's declarations give it at tc 0 of a frame (R51). -/
def codeAtZero (words : Nat) (l : List (WinDesc × Nat × Nat)) : Option Nat := match l, l.getLast? with
  | (w, inn, _) :: _, some (_, _, aft) =>
    some (if w.start = 0 then inn
      else if inn = 3 ∧ w.start < wakeTime words ((warmCodes l).getLastD 0) then 3 else aft)
  | _, _ => none

/-- The banks that a tile's windows declare stand as at tc 0 of a frame (R51). -/
def loadBanks (t : Nat × List WinDesc) (s : State) : State :=
  let put (b : Nat) (l : List (WinDesc × Nat × Nat)) (s : State) : State := match codeAtZero (bankWords b) l with
    | some c => declareBank b c s
    | none => s
  let s1 := (List.range (bankCount (kindOf t.1))).foldl (fun u b => put (tileBank t.1 b) (bankCodes false b t.2) u) s
  if t.1 = commonsTile (clusterOf t.1) then
    (List.range 16).foldl (fun u b => put (cmnBank (clusterOf t.1) b) (bankCodes true b t.2) u) s1
  else s1

def addSeg (x : Nat × Seg) : List (Nat × Seg) → List (Nat × Seg)
  | [] => [x]
  | y :: l => if x.2.start < y.2.start then x :: y :: l else y :: addSeg x l

/-- A router's slot plan is written: the slot entries at a free place, the segments by START. -/
def loadRouter (k : Nat) (l : Launch) (pos : Nat) (s : State) : State :=
  let r := kgetD s.routers pos Router.blank
  let get (kind : Nat) : List Nat := ((mySections l kind).filter fun x => x.unit == pos).flatMap (elements s (placeRegion l.params))
  let es := get 0x13
  let base := firstFit (r.slots.map (·.1)) es.length
  { s with routers := kput s.routers pos { r with
      segs := (((get 0x12).map segOf).map fun g => (k, { g with base := base + g.base })).foldl (fun a x => addSeg x a) r.segs
      slots := (List.range es.length).foldl (fun m i => kput m (base + i) (k, slotOf (es.getD i 0))) r.slots } }

/-- The positions that the launch's sections of some kinds name. -/
def unitsOf (s : State) (l : Launch) (kinds : List Nat) : List Nat :=
  ((kinds.flatMap (mySections l)).filterMap fun x =>
    if x.kind = 0x10 ∨ x.kind = 0x11 then unitTile s.plat.fuse x.unit else some x.unit).eraseDups

/-- Everything that the loader writes (R329, R520). -/
def loadAll (k : Nat) (l : Launch) (s : State) : State :=
  let s1 := (unitsOf s l [0x10, 0x11]).foldl (fun t pos => loadTile k l pos t) s
  let s2 := l.tiles.foldl (fun t x => loadBanks x t) s1
  let s3 := (unitsOf s l [0x12, 0x13]).foldl (fun t pos => loadRouter k l pos t) s2
  let s4 := (mySections l 0x14).foldl (fun t x =>
    let p := kgetD t.ports x.unit PortSt.blank
    let p1 := { p with streams := p.streams ++ (elements s (placeRegion l.params) x).map (streamOf k) }
    { t with ports := kput t.ports x.unit p1 }) s3
  (mySections l 0x15).foldl (fun t x => adjPlx x.unit (fun p =>
    { p with ents := p.ents ++ (elements s (placeRegion l.params) x).map (xentOf k) }) t) s4

/-- Whether every leaf that loading waits for is formed: those of device chunks that regions cover whole (R299). -/
def leavesFormed (s : State) (l : Launch) : Bool :=
  (setRegions l.params 0 ++ setRegions l.params 1 ++ setRegions l.params 2).all fun r =>
    (span (chunkOf r.base) (r.len / chunkBytes)).all fun c => (kget s.leaves c).isNone

/-- The progress of loading: words written and leaves formed (R329). -/
def loadWords (l : Launch) : Nat :=
  ((l.sections.filter fun x => x.set == l.set).map fun x => x.len / elemOf x.kind).sum +
    ((setRegions l.params 0 ++ setRegions l.params 1 ++ setRegions l.params 2).map fun r => r.len / chunkBytes).sum

/-- A launch's loading ends: the stores are written, and the image is the one that was placed (R262, R329). -/
def finishLoading (k : Nat) (l : Launch) (s : State) : State :=
  if l.phase ≠ .loading ∨ !leavesFormed s l then s
  else
    let s0 := feWith (fun e => { e with ops := kadj e.ops k fun o => { o with progress := satAdd (2 ^ 64 - 1) o.progress (loadWords l) } }) s
    let s1 := loadAll k l s0
    if !l.reexecuted ∧ setDigest s (setRegions l.params 0) ≠ imgRead s (placeRegion l.params) 0 48 then
      killLaunch k stAdmissionRefused (raise 64 (odSet s1 0x3003 l.glove 3))
    else adjLaunch k (fun l => { l with phase := .armed, since := s.frame.boundaries }) s1

/-- LOADING_DONE (R329). -/
def execLoadingDone (s : State) : Result := .next (eachLaunch finishLoading s)

/-! ## Start (R23, R274) -/

/-- The ports' places in a launch's streams begin anew. -/
def resetPlaces (k : Nat) (s : State) : State :=
  { s with ports := s.ports.map fun p =>
      let mine := p.2.streams.filter fun x => x.launch == k
      if mine.isEmpty then p
      else (p.1, { p.2 with place := p.2.place.filter fun y => !mine.any fun x =>
        y.1 == 2 * (4096 * x.glove + x.tag) || y.1 == 2 * (4096 * x.glove + x.tag) + 1 }) }

/-- A problem of a moved launch goes on from its re-execution checkpoint, its counters where the new placement has them (R402). -/
def restoreProb (k : Nat) (l : Launch) (x : Nat × ProbSt) (s : State) : State :=
  if x.1 / 65536 ≠ k then s
  else
    let home := ((probOf s k (x.1 % 65536)).map (·.counters)).getD []
    setCounters l.glove home x.2.saved { s with probs := kput s.probs x.1 { x.2 with counters := home, saved := [] } }

/-- The spare set's slots run a faulted dry run from the launch's first frame (R399). -/
def spareDry (k : Nat) (l : Launch) (s : State) : State := match l.aux.safety with
  | some t => drySet k t.setC s
  | none => s

/-- A launch starts at the boundary that has passed; a moved one goes on with what it had (R274, R282, R402). -/
def startNow (k : Nat) (l : Launch) (s : State) : State :=
  let period := periodOf (odForce s 0x2100 1) (odForce s 0x2100 2)
  let l1 := { l with phase := .running, since := s.frame.boundaries, started := true, startFrame := s.frame.boundaries }
  let l2 := if l.reexecuted then l1
    else { l1 with
      digests := fixedDigests s l ++ l.digests.drop 3
      count := s.frame.sysNs
      late := pMulti l.params && decide (pCount l.params + period ≤ s.frame.sysNs) }
  let s0 := if l.reexecuted then s else readBack ((List.range 3).flatMap (setRegions l.params)) s
  let s1 := resetPlaces k (setLaunch k l2 s0)
  let kept := s1.probs
  let s2 := startProbs k l2 s1
  let s3 := if l.reexecuted then kept.foldl (fun t p => restoreProb k l2 p t) s2 else s2
  if l.reexecuted ∧ l.drained.isSome then drainProbs k l2 [] s3 else spareDry k l s3

/-- An armed launch at the present boundary. -/
def startArmed (k : Nat) (l : Launch) (s : State) : State :=
  if startsNow s l then startNow k l s else s

/-- LAUNCH_START (R23, R274). -/
def execLaunchStart (s : State) : Result := .next (eachLaunch startArmed s)

/-! ## Drains (R332) -/

/-- LAUNCHCTL bit 0 on every tile of a launch. -/
def setCtl (k : Nat) (l : Launch) (s : State) : State :=
  l.tiles.foldl (fun t x => adjTile x.1 (fun u =>
    { u with slots := u.slots.map fun p => if p.2.launch = k then (p.1, { p.2 with ctl := true }) else p }) t) s

/-- The steps that a problem of a launch has completed, by its record or by how far its program has come. -/
def stepsOf (s : State) (stands : List Stand) (k j : Nat) : Nat :=
  (((stands.filter fun x => x.launch == k && x.problem == j).map (·.steps)) ++ ((probOf s k j).map (·.steps)).toList).foldl max 0

/-- Whether a problem has come to the step after which it drains: it can go no further. -/
def atLimit (s : State) (stands : List Stand) (k j d : Nat) : Bool :=
  decide (d ≤ stepsOf s stands k j) && match probCtx s k j, probOf s k j with
    | some c, some p => c.img.realtime || (reach s c p d).isSome
    | _, _ => false

/-- Whether a problem has ended. -/
def probEnded (s : State) (k j : Nat) : Bool := match probOf s k j with
  | some p => p.stop.isSome
  | none => true

/-- Whether a launch has reached the step at which it drains, DRAIN_STEP (R325) or that of a notice (R452): every problem that has not ended
is there, and one is. -/
def drainReached (s : State) (stands : List Stand) (k : Nat) (l : Launch) : Bool :=
  let js := List.range (pNprob l.params)
  let there (d : Nat) : Bool :=
    js.all (fun j => probEnded s k j || atLimit s stands k j d) && js.any fun j => !probEnded s k j && atLimit s stands k j d
  match l.drainStep with
  | some d => there d
  | none => pDrainAt l.params && there (pDrainStep l.params)

/-- A drain of a MULTI launch that runs: its peers are told the step after which all of them drain (R452). -/
def announceDrain (stands : List Stand) (k : Nat) (l : Launch) (s : State) : State :=
  let hs := ((plxUnits l).flatMap fun pos => (plxOf s pos).ents.filter fun e => e.launch == k).foldl (fun n e => max n e.lag) 0
  let d := ((List.range (pNprob l.params)).map (stepsOf s stands k)).foldl max 0 + 24 * hs
  sendNotice l 0 d (setLaunch k { l with drainStep := some d } s)

/-- A drain reaches a launch: one that was requested before the boundary that has passed, or that of a step that its problems have come to. -/
def deliverDrain (stands : List Stand) (k : Nat) (l : Launch) (s : State) : State :=
  let told := pMulti l.params && l.phase == .running
  let asked := l.drainReq.any fun b => decide (b < s.frame.boundaries)
  if l.drained.isSome then s
  else if told ∧ asked ∧ l.drainStep.isNone then announceDrain stands k l s
  else if !((asked && !told) || (l.phase == .running && drainReached s stands k l)) then s
  else
    let l1 := { l with drained := some s.frame.boundaries }
    if l.phase = .running then drainProbs k l1 stands (setCtl k l (setLaunch k l1 s))
    else if !endable l then s
    else if l.reexecuted then setCtl k l (setLaunch k l1 s)
    else killLaunch k stKilled s

/-- DRAIN_DELIVERY (R332). -/
def execDrainDelivery (stands : List Stand) (s : State) : Result := .next (eachLaunch (deliverDrain stands) s)

/-! ## End and release (R24, R330) -/

/-- A launch's slots on its tiles. -/
def liveSlots (s : State) (k : Nat) (l : Launch) : List SlotSt :=
  l.tiles.flatMap fun x => ((tileOf s x.1).slots.filter fun p => p.2.launch == k).map (·.2)

/-- The status of an ended launch (R330): any slot that ran a faulted dry run counts, one of a spare set that was never restarted too
(DEDUCED, log entry 95). -/
def endStatus (s : State) (k : Nat) (l : Launch) : Nat :=
  if (liveSlots s k l).any fun x => x.dry == 2 then stLaunchFaulted
  else if l.drained.any fun b => decide (b < s.frame.boundaries) then stDrained
  else stOk

/-- A running launch is examined at a boundary. -/
def examine (k : Nat) (l : Launch) (s : State) : State :=
  if l.phase ≠ .running ∨ l.reexDue ∨ !pastBoundary s l ∨ !(liveSlots s k l).all (fun x => x.dry != 0 && decide (x.dryIn < s.frame.boundaries)) then s
  else
    let l1 := { l with phase := .release, since := s.frame.boundaries, status := endStatus s k l }
    if l.realtime then setLaunch k l1 s else fixResult k l1 s

/-- LAUNCH_END (R330). -/
def execLaunchEnd (s : State) : Result := .next (eachLaunch examine s)

/-- What a launch holds in stores and tables goes (R24, R188, R221). -/
def unloadTile (k : Nat) (l : Launch) (pos : Nat) (s : State) : State :=
  let t := tileOf s pos
  let base := kgetD l.placed pos 0
  let n := ((mySections l 0x11).map fun x => if unitTile s.plat.fuse x.unit = some pos then x.len / 8 else 0).sum
  let ws := (l.tiles.filter fun x => x.1 == pos).flatMap fun x => x.2.map (placedWin base)
  setWins pos (t.wins.filter fun w => !ws.contains w) (setTile pos { t with
    store := kclear t.store base (base + n)
    slots := t.slots.filter fun p => p.2.launch != k } s)

def unload (k : Nat) (l : Launch) (s : State) : State :=
  let s1 := (l.placed.map (·.1)).foldl (fun t pos => unloadTile k l pos t) s
  { s1 with
    routers := s1.routers.map fun r => (r.1, { r.2 with
      segs := r.2.segs.filter fun x => x.1 != k
      slots := r.2.slots.filter fun x => x.2.1 != k })
    ports := s1.ports.map fun p => (p.1, { p.2 with
      streams := p.2.streams.filter fun x => x.launch != k
      buffer := p.2.buffer.filter fun x => x.stream.launch != k })
    plx := s1.plx.map fun p => (p.1, { p.2 with
      ents := p.2.ents.filter fun e => e.launch != k
      notices := if (plxUnits l).contains p.1 then p.2.notices.filter fun x => x.1 != pCount l.params && x.2 != 2 else p.2.notices }) }

/-- A launch leaves the table, its op with its status. -/
def endOp (k st : Nat) (s : State) : State :=
  completeOp k st { s with
    launches := kdel s.launches k
    probs := kclear s.probs (probKey k 0) (probKey k 65536)
    rx := kclear s.rx (probKey k 0) (probKey k 65536) }

/-- A launch releases its windows at the boundary after it ended or was killed (R24, R332). -/
def releaseOne (k : Nat) (l : Launch) (s : State) : State :=
  if !releasesNow s l then s
  else
    let l1 := { l with released := true, since := s.frame.boundaries, placed := [] }
    if l.phase = .killing then
      l.toZero.foldl (fun t b => declareBank b 0 t) (setLaunch k l1 (unload k l (sendNotice l 1 0 s)))
    else
      let s1 := unload k l s
      let s2 := if l.realtime then fixResult k l1 s1 else setLaunch k l1 s1
      if pTicket l.params ∧ goodStatus l.status then adjLaunch k (fun l => { l with phase := .ticket }) s2
      else endOp k l.status s2

/-- LAUNCH_RELEASE (R24). -/
def execLaunchRelease (s : State) : Result := .next (driftRefresh (resetsProceed (eachLaunch releaseOne s)))

/-- The banks of a killed launch have been zeroed. -/
def killedOne (k : Nat) (l : Launch) (s : State) : State :=
  if l.phase ≠ .killing ∨ !l.released then s else endOp k l.killStatus (l.toZero.foldl (fun t b => zeroBank b t) s)

/-- KILL_DONE (R332). -/
def execKillDone (s : State) : Result := .next (eachLaunch killedOne s)

/-! ## Tickets (R279 to R284, R474) -/

/-- The ticket body (R280). -/
def ticketBody (s : State) (l : Launch) : List Byte :=
  let (ma, mi, bu) := s.plat.fwVersion
  let flags := ofBool (isRelaxed s l) + 2 * ofBool (pSeedSrc l.params == 1) + 4 * ofBool l.realtime + 8 * ofBool l.stretched +
    16 * ofBool l.late + 32 * ofBool l.reexecuted
  leBytes 4 0x54525842 ++ [0x01] ++ leBytes 1 flags ++ leBytes 2 l.status ++ leBytes 1 ma ++ leBytes 1 mi ++ leBytes 2 bu ++
    leBytes 2 (pModules l.params) ++ leBytes 2 (pModule l.params) ++ leBytes 1 l.glove ++ leBytes 1 (if s.plat.fuse.c6 then 0 else 1) ++
    List.replicate 6 0 ++ leBytes 8 l.seed ++ leBytes 8 (if isRelaxed s l then l.nd else 0) ++ leBytes 8 l.count ++
    (l.digests.take 3).flatten

/-- RESULT and PEERS, the annex (R283). -/
def ticketAnnex (l : Launch) : List Byte := (l.digests.drop 3).flatten

/-- A write to a tier with the launch's glove, by a unit that R305 gives no source of its own: the source of host DMA (R289, R293; PRESUMED,
log entry 67). -/
def tierWrite (g a : Nat) (d : List Byte) (s : State) : State := match verdict s g a d.length true 348 with
  | .tier => store a d s
  | .refused reason unit => reject g a d.length 1 reason unit s
  | _ => reject g a d.length 1 0 348 s

/-- The ticket and its annex are signed and written, to their address with the launch's glove (R289) and to the slot (R283, R474). -/
def writeTicket (k : Nat) (l : Launch) (s : State) : State :=
  let body := ticketBody s l
  let annex := ticketAnnex l
  let ticket := body ++ edSign (identitySecret s.plat.fuse) (body ++ annex)
  let s1 := odBump (tierWrite l.glove (pTicketAddr l.params) (ticket ++ annex) s) 0x5040 1 64 1
  let s2 := barBytes 0x5100 annex (barBytes 0x5000 ticket s1)
  let s3 := barSet (barSet (barSet s2 0x5204 (l.id % 2 ^ 32)) 0x5208 (l.id / 2 ^ 32)) 0x5200 (barGet s2 0x5200 + 2)
  endOp k l.status s3

/-- TICKET_WRITE (R279). -/
def execTicketWrite (s : State) : Result :=
  if secRuns s then .next (eachLaunch (fun k l t => if l.phase = .ticket then writeTicket k l t else t) s) else .next s

/-! ## Re-execution (R402) -/

/-- Whether an alternate is admitted as the launch's next placement: every reason, with the launch's own place given up. -/
def alternateFits (s : State) (k : Nat) (l : Launch) (i : Nat) : Bool :=
  let t := setLaunch k { l with released := true } s
  let p := l.params
  let secs := inSet i l.sections
  gloveActive t l.glove && paramsOk t l.glove p &&
    decide (l.aux.planLen ≤ maxPlan (frameTc (periodOf (odForce t 0x2100 1) (odForce t 0x2100 2)))) &&
    placeSetOk t p l.glove l.aux.planLen secs && setAdmits t l.glove p l.aux secs && (setReason t l.glove p (0, 0, 0) secs).isNone

/-- The problems of a launch go back to a re-execution checkpoint, or to nothing. -/
def restoreProbs (k : Nat) (l : Launch) (newest : Option Nat) (s : State) : State :=
  (List.range (pNprob l.params)).foldl (fun t j =>
    match newest.bind fun n => (kgetD t.rx (probKey k j) []).find? fun x => decide (x.1 ≤ n) with
    | some x => setProb k j x.2 t
    | none => { t with probs := kdel t.probs (probKey k j) }) s

/-- Step 2 of R402: the number of the checkpoint goes to the first word of RXBASE with the launch's glove. -/
def writeNewest (l : Launch) (newest : Option Nat) (s : State) : State := match l.aux.reexec with
  | none => s
  | some r => tierWrite l.glove r.base (leBytes 8 (newest.getD (2 ^ 64 - 1))) s

/-- Steps 1 to 3 of R402. -/
def reexecute (k : Nat) (l : Launch) (newest : Option Nat) (s : State) : State :=
  let latched := (l.tiles.map (·.1)).filter fun pos => (tileOf s pos).slots.any fun p => p.2.launch == k && p.2.latch
  let s1 := (declaredBanks l).foldl (fun t b => zeroBank b (declareBank b 0 t)) (unload k l s)
  let s2 := restoreProbs k l newest (writeNewest l newest (latched.foldl (fun t pos => fenceTile pos t) s1))
  match (span (l.set + 1) (2 - l.set)).find? fun i => !(inSet i l.sections).isEmpty && alternateFits s2 k l i with
  | none => raise 133 (endOp k stLaunchFaulted s2)
  | some i =>
    let (a, b, c) := setStatic s2 l.params l.glove (inSet i l.sections)
    let l1 := { l with
      set := i, tiles := setWindows s2 l.params (inSet i l.sections), placed := [], statCycles := a, statSlots := b, statBytes := c
      phase := .loading, reexecuted := true, reexDue := false, started := false, since := s.frame.boundaries }
    raise 132 (odBump (setLaunch k l1 s2) (0x4800 + l.glove) 7 32 1)

/-- REEXECUTION (R402): `newest` is the newest sound checkpoint committed before the fault, where there is one. -/
def execReexecution (launch : Nat) (newest : Option Nat) (s : State) : Result :=
  match kget s.launches launch with
  | none => .next s
  | some l =>
    if l.reexDue ∧ l.phase = .running ∧ canReexecute l then .next (driftRefresh (resetsProceed (reexecute launch l newest s)))
    else .next s

/-! ## Held windows (R451) -/

/-- Whether a slot of an entry lies at a port's router in a plan tc: one that takes its local contribution, or hands its result. -/
def entrySlot (s : State) (pos : Nat) (e : XEnt) (tc : Nat) : Bool :=
  (List.range 5).any fun o => match slotEntry s pos o tc with
    | some (_, x) => x.tag == e.tag && x.glove == e.glove && ((o == 4 && e.lin) || (bitOf x.src 4 && e.lout))
    | none => false

/-- The round that begins with the next word of an entry, where one begins. -/
def nextRound (e : XEnt) : Option Nat :=
  let n := if e.lin then e.took else e.gave
  if n % e.nw = 0 then some (n / e.nw) else none

/-- Whether the round of an entry that begins in the window lacks its remote contribution or its credit (R451). -/
def lacks (s : State) (pos : Nat) (e : XEnt) (tc : Nat) : Bool := match nextRound e with
  | none => false
  | some r =>
    entrySlot s pos e tc &&
      ((e.rin && (match plannedChoice e r with
        | 0 => false
        | v + 1 => (roundOf e.theirs v).length != e.nw && halfState s pos != 4)) ||
      (e.rout && decide (e.lag < r) && decide (e.credits < r - e.lag) && halfState s pos != 4))

/-- The contribution of the round that begins in a window is still to come (R273, R451). -/
def awaits (s : State) (pos : Nat) (e : XEnt) (tc : Nat) : Bool := entrySlot s pos e tc && e.rin && match nextRound e with
  | none => false
  | some r => match plannedChoice e r with
    | 0 => false
    | v + 1 => (roundOf e.theirs v).length != e.nw && halfState s pos != 4

/-- A window waits: the steps that wait for version n - HS read it, whatever has come since (R277). -/
def pinWaits (launch pos tc : Nat) (s : State) : State :=
  (List.range (plxOf s pos).ents.length).foldl (fun t i => match (plxOf s pos).ents[i]? with
    | none => t
    | some e => match nextRound e with
      | none => t
      | some r => if e.launch = launch ∧ awaits s pos e tc then entAdj pos i (fun x => { x with pick := some (r, plannedChoice e r) }) t else t) s

/-- WINDOW_HOLD_TEST (R451): the window from `start` to `stop` of a MULTI launch is tested. -/
def execWindowHoldTest (launch start stop : Nat) (s : State) : Result :=
  match kget s.launches launch with
  | none => .next s
  | some l =>
    if !pMulti l.params ∨ l.phase ≠ .running ∨ !(l.tiles.any fun t => t.2.any fun w => w.start == start && w.stop == stop) then .next s
    else
      let by_ := (plxUnits l).filter fun pos => (plxOf s pos).ents.any fun e => e.launch == launch && lacks s pos e start
      let held := !by_.isEmpty
      let old := l.hold.filter fun x => decide (start < x.2 + 64)
      let s1 := setLaunch launch { l with hold := (start, if held then stop else start) :: old } s
      .next (if held then by_.foldl (fun t pos => pinWaits launch pos start (winBump t (tileBase pos + 0xF1008) 0 16 1)) (odBump s1 0x7600 4 64 1) else (plxUnits l).foldl (fun t pos => pumpAll pos t) s1)

end Sys2Proof.Machine
end

