-- ==== Sys2Proof/Machine/Frame.lean ====
section
/-! DEFINITION. Frames (R12 to R22, R354, R363, R481, R484): the boundary, and the synchronisation to the field network. What else
happens at a boundary (starts, drains, ends and releases of launches, fences, the exit of safe state) are commands that follow it. -/

namespace Sys2Proof.Machine

/-! ## Synchronisation (R21, R363, R446) -/

/-- A change of FrameSyncState raises source 324 (R363). -/
def setSync (v : Nat) (s : State) : State := if syncState s = v then s else raise 324 (odSet s 0x2100 5 v)

/-- SYNC_MESSAGE (R363): `offset` is the system count less the grandmaster's time, in ns; every valid message leaves it in PtpOffset. -/
def execSyncMessage (offset : Int) (s : State) : Result :=
  let s0 := odSet s 0x1310 5 (unsigned 64 offset)
  if odGet s 0x2100 1 ≠ 1 then .next s0
  else
    let good := decide (-100 ≤ offset) && decide (offset ≤ 100)
    let s1 := { s0 with frame := { s.frame with goodSync := if good then min 8 (s.frame.goodSync + 1) else 0 } }
    .next (refreshSysTime (if syncState s = 2 then setSync 3 s1 else s1))

/-- SYNC_TIMEOUT (R21, R363). -/
def execSyncTimeout (s : State) : Result :=
  if odGet s 0x2100 1 ≠ 1 then .next s
  else .next (refreshSysTime (setSync 2 { s with frame := { s.frame with goodSync := 0 } }))

/-- GRANDMASTER_CHANGE (R363): PtpGrandmaster takes the clock identity of the new grandmaster. -/
def execGrandmasterChange (identity : List Byte) (s : State) : Result :=
  let s0 := odSet s 0x1310 6 (leNat (identity.take 8))
  if odGet s 0x2100 1 ≠ 1 then .next s0
  else .next (refreshSysTime (setSync 3 { s0 with frame := { s.frame with goodSync := 0 } }))

/-- Slewing ends at a boundary with the error below one tc and the lock condition met (R21, R363, R446). -/
def endSlew (err : Int) (s : State) : State :=
  let s1 := if syncState s = 3 ∧ err = 0 ∧ 8 ≤ s.frame.goodSync then setSync 1 s else s
  let s2 := if followsCells s1 ∧ sysTimeState s1 = 3 ∧ err = 0 ∧ 8 ≤ s1.frame.goodCells then setSysTime 1 s1 else s1
  refreshSysTime s2

/-! ## FrameSource and FramePeriod (R12, R18) -/

/-- Whether an admitted launch forbids the period that a write would bring (R18). -/
def periodRefused (s : State) (period : Nat) : Bool :=
  (admittedLaunches s).any fun l => l.realtime || pMulti l.params || decide (maxPlan (frameTc period) < l.aux.planLen)

/-- The entry FrameSource. -/
def frameSourceEntry : OwnEntry where
  covers := fun r => reqAt r 0x2100 1
  rule := fun r t => if periodRefused t (periodOf (reqVal r) (odGet t 0x2100 2)) then abState else 0
  effect := fun r t =>
    let t1 := odAccept 0x2100 1 (reqVal r) { t with frame := { t.frame with goodSync := 0 } }
    refreshSysTime (setSync (if reqVal r = 1 then 2 else 0) t1)
  refused := fun _ t => t

/-- FRAME_SOURCE_WRITE (R18). -/
def execFrameSourceWrite (req : OdReq) (s : State) : Result := .next (odWriteOwn frameSourceEntry req s)

/-- The entry FramePeriod. -/
def framePeriodEntry : OwnEntry where
  covers := fun r => reqAt r 0x2100 2
  rule := fun r t => if periodRefused t (periodOf (odGet t 0x2100 1) (reqVal r)) then abState else 0
  effect := fun r t => odAccept 0x2100 2 (reqVal r) t
  refused := fun _ t => t

/-- FRAME_PERIOD_WRITE (R18). -/
def execFramePeriodWrite (req : OdReq) (s : State) : Result := .next (odWriteOwn framePeriodEntry req s)

/-! ## The boundary (R13, R20, R22) -/

/-- A tile at tc 0: its words handed in the frame before wait on (R236). -/
def tileFrame (pos : Nat) (t : Tile) : Tile :=
  if mgmtTiles.contains pos then t
  else { t with
    run := none, clearing := false, tc := 0, ready := [], recv := none, barw := none, stalled := [], inj := t.inj.map fun x => (0, x.2)
    m := { t.m with hist := [], parSaid := 0, meshRd := none } }

/-- A router at tc 0. -/
def routerFrame (r : Router) : Router := { r with latch := [], own := none, topk := [] }

/-- A port tile's ledger at a boundary: what stalled is tested again (R355). -/
def portFrame (p : PortSt) : PortSt := { p with pend := p.pend.map fun x => { x with stalled := false } }

/-- Every tile, router and port tile at tc 0. -/
def unitsFrame (s : State) : State :=
  { s with
    now := 0
    tiles := s.tiles.map fun p => (p.1, tileFrame p.1 p.2)
    routers := s.routers.map fun p => (p.1, routerFrame p.2)
    ports := s.ports.map fun p => (p.1, portFrame p.2)
    launches := s.launches.map fun p => (p.1, { p.2 with hold := [] }) }

/-- The CK_TILE step of the coming frame (R484). -/
def applyStep (s : State) : State :=
  if s.plat.nextStep = s.frame.tileStep then s
  else raise 480 (odSet (odSet { s with frame := { s.frame with tileStep := s.plat.nextStep } } 0x2800 4 s.plat.nextStep) 0x2800 5
    (stepMHz s.plat.nextStep))

/-- The exchange goes on where windows were held in the frame before. -/
def resumeExchange (s : State) : State := (s.plx.map (·.1)).foldl (fun t pos => pumpAll pos t) s

/-- A frame begins. -/
def beginFrame (crc : List Nat) (err : Int) (tcs : Nat) (s : State) : State :=
  let f := { s.frame with boundaries := s.frame.boundaries + 1, gone := 0, base := s.frame.base + s.frame.gone + tcs }
  let s1 := odBump { s with frame := f } 0x2100 3 64 1
  let s2 := forceAll (budgetRepay s1)
  let s3 := stretchFrame (applyRates (applyStep (endFaulted (unitsFrame s2))))
  let s4 := resumeExchange (warnRisk (atRisk s) s3)
  endSlew err (frameProbs (sentinelBoundary (fieldBoundary crc s (resetsProceed s4))))

/-- The running program is not over: the boundary is skipped (R20, R392). -/
def overrun (tcs : Nat) (s : State) : State :=
  let s1 := raise 138 (odBump { s with frame := { s.frame with gone := s.frame.gone + tcs } } 0x2100 4 32 1)
  if (admittedLaunches s).any (·.realtime) then enterSafe 2 (dangerous s1) else s1

/-- The boundary of suspended frames (R481). -/
def suspendedBoundary (tcs : Nat) (s : State) : State :=
  odBump { s with frame := { s.frame with gone := s.frame.gone + tcs } } 0x2800 8 32 1

/-- Frames that were suspended resume once a reference is valid and the root PLL has locked (R481). -/
def resumeFrames (s : State) : State :=
  if s.plat.suspended && refBit s 4 && !refBit s 3 then raise 490 { s with plat := { s.plat with suspended := false } } else s

/-- FRAME_BOUNDARY (R13, R20, R22): without CK_TILE there is no edge at which a frame begins. Where one begins, what was under way in the
frame before has been done (log entry 12). -/
def execFrameBoundary (env : BoundaryEnv) (s : State) : Result :=
  let tick (t : State) : State := { t with frame := { t.frame with sysNs := (t.frame.sysNs + env.ns) % 2 ^ 64 } }
  if muxStopped s 0 then .next (tick s)
  else
    let s1 := resumeFrames (tick s)
    if s1.plat.suspended then .next (suspendedBoundary env.tcs s1)
    else if s1.frame.gone + env.tcs < stretchedTc s1 (planTc (liveLaunches s1)) then .next (overrun env.tcs s1)
    else .next (beginFrame env.crc env.err env.tcs (resumeFrames (tick (drainAgenda (2 ^ 40) s))))

end Sys2Proof.Machine
end

