-- ==== Sys2Proof/Machine/Prolux.lean ====
section
/-! DEFINITION. Prolux links (R439 to R459): training, cells as they come, replay, credits, time cells, notices and records, and the
failure of a link. A half-link is named by the position of its port tile. -/

namespace Sys2Proof.Machine

/-! ## States (R443, R444, R456, R457) -/

/-- The entries of a link. -/
def linkIdx (l : Nat) : Nat := 0x2700 + l

/-- The position of a half-link's register PLX_LINK. -/
def plxReg (pos : Nat) : Nat := tileBase pos + 0xF1000

/-- PlxState and PlxLanes follow the half-links; a change raises source 328 (R459). -/
def refreshLink (l : Nat) (s : State) : State :=
  let st (h : Nat) : Nat := halfState s (plxTile l h)
  let ln (h : Nat) : Nat := fld (winGet s (plxReg (plxTile l h))) 4 3
  let code := if st 0 = 4 ∨ st 1 = 4 then 4 else if st 0 = 3 ∨ st 1 = 3 then 3 else if st 0 = 1 ∨ st 1 = 1 then 1 else min (st 0) (st 1)
  let lanes := ln 0 + 16 * ln 1
  if odGet s (linkIdx l) 2 = code ∧ odGet s (linkIdx l) 3 = lanes then s
  else raise 328 (odSet (odSet s (linkIdx l) 2 code) (linkIdx l) 3 lanes)

/-- A half-link takes a state and its lanes. -/
def setHalf (pos st lanes : Nat) (s : State) : State := winPut (winPut s (plxReg pos) 0 3 st) (plxReg pos) 4 3 lanes

/-- Both half-links of a link. -/
def halves (l : Nat) : List Nat := [plxTile l 0, plxTile l 1]

/-- A half-link begins to train with its sequence numbers at 0 and its buffers empty. -/
def linkOn (l : Nat) (s : State) : State :=
  (halves l).foldl (fun t pos => setHalf pos 1 0 (adjPlx pos (fun p => { PlxPort.blank with ents := p.ents, notices := p.notices }) t)) s

/-- The entry PlxEnable (R456): a link starts where it was off and its domain is on. -/
def plxEnableEntry : OwnEntry where
  covers := fun r => decide (0x2700 ≤ r.index) && decide (r.index ≤ 0x2705) && r.sub == 1
  rule := fun _ _ => 0
  effect := fun r t =>
    let l := r.index - 0x2700
    let t1 := odAccept r.index 1 (reqVal r) t
    if reqVal r = 0 then refreshLink l ((halves l).foldl (fun u pos => setHalf pos 0 0 u) t1)
    else if odGet t r.index 2 = 0 ∧ domainOn t (43 + l) then refreshLink l (linkOn l t1)
    else t1
  refused := fun _ t => t

/-- PLX_ENABLE (R456). -/
def execPlxEnable (req : OdReq) (s : State) : Result := .next (odWriteOwn plxEnableEntry req s)

/-- Whether a neighbour's TorusCoord is the one that a link's direction gives (R439). -/
def coordOk (own nbr link : Nat) : Bool :=
  (List.range 3).all fun a =>
    let v := fld own (4 * a) 4
    let d := fld own (12 + 4 * a) 4 + 1
    fld nbr (4 * a) 4 == (if a = link / 2 then (if link % 2 = 1 then (v + 1) % d else (v + d - 1) % d) else v)

/-- A link fails (R455): a half-link could not train a lane, or broke; launches that are held go on, and fault on poisoned words. -/
def linkFailed (l h : Nat) (s : State) : State :=
  let s1 := (halves l).foldl (fun t pos => setHalf pos 4 0 t) s
  let s2 := report (plxTile l h) 0x0902 (plxTile l h) h 0 (leBytes 1 l) s1
  let mine := ((halves l).flatMap fun pos => (plxOf s pos).ents.map (·.launch)).eraseDups
  let s3 := mine.foldl (fun t k => adjLaunch k (fun x => { x with hold := [] }) t) s2
  let s4 := (halves l).foldl (fun t pos => pumpAll pos ((List.range (plxOf t pos).ents.length).foldl (fun u i => combineEnt pos i u) t)) s3
  let s5 := if followsCells s4 ∧ odGet s4 0x2600 2 = l then setSysTime 2 { s4 with frame := { s4.frame with goodCells := 0 } } else s4
  refreshLink l s5

/-- The widths at which a half-link runs (R443). -/
def laneCount (n : Nat) : Bool := n == 1 || n == 2 || n == 4

/-- PLX_TRAINING_DONE (R443, R444): the lanes that each half trained, and what the neighbour said. -/
def execPlxTrainingDone (link lanes0 lanes1 serial coord peer : Nat) (s : State) : Result :=
  if 6 ≤ link then .next s
  else if !(halves link).all (fun pos => halfState s pos == 1) then .next s
  else if !laneCount lanes0 then .next (linkFailed link 0 s)
  else if !laneCount lanes1 then .next (linkFailed link 1 s)
  else
    let good := coordOk (odGet s 0x2600 6) coord link && peer == link + 1 - 2 * (link % 2)
    let st := if good then 2 else 3
    let s1 := odSet (odSet s (linkIdx link) 4 (serial % 2 ^ 32)) (linkIdx link) 5 (coord % 2 ^ 32)
    let s2 := setHalf (plxTile link 0) st lanes0 (setHalf (plxTile link 1) st lanes1 s1)
    let s3 := if good then (halves link).foldl (fun t pos => releaseHeld pos (plxOf t pos).held.length t) s2
      else report (plxTile link 0) 0x0904 (plxTile link 0) 0 0 (leBytes 4 serial ++ leBytes 4 coord) s2
    .next (refreshLink link s3)

/-- PLX_RETRAIN (R443): more than 16 replays in 1 ms, or lane lock lost. -/
def execPlxRetrain (pos : Nat) (s : State) : Result :=
  if !isPlx pos then .next s
  else if halfState s pos ≠ 2 then .next s
  else .next (refreshLink (plxLink pos).1 (odBump (winBump (winPut s (plxReg pos) 0 3 1) (plxReg pos) 8 8 1) (linkIdx (plxLink pos).1) 6 32 1))

/-- The cells that wait for an acknowledgement leave again. -/
def replayAll (pos : Nat) (s : State) : State :=
  { s with out := ((plxOf s pos).replay.map fun x => Out.plxCell pos (cellOf (plxOf s pos).seqIn x.2)).reverse ++ s.out }

/-- PLX_RETRAIN_DONE (R443): at 4, 2 or 1 lanes; with none the link fails. -/
def execPlxRetrainDone (pos lanes : Nat) (s : State) : Result :=
  if !isPlx pos then .next s
  else if halfState s pos ≠ 1 then .next s
  else
    let (l, h) := plxLink pos
    let old := fld (winGet s (plxReg pos)) 4 3
    if !laneCount lanes then .next (linkFailed l h s)
    else
      let s1 := setHalf pos 2 lanes s
      let s2 := if lanes = old then s1 else report pos 0x0901 pos h 0 (leBytes 1 old ++ leBytes 1 lanes) s1
      let s3 := replayAll pos s2
      .next (refreshLink l (releaseHeld pos (plxOf s3 pos).held.length s3))

/-- PLX_LINK_FAILED (R455). -/
def execPlxLinkFailed (pos : Nat) (s : State) : Result :=
  if !isPlx pos then .next s
  else if halfState s pos = 0 ∨ halfState s pos = 4 then .next s
  else .next (linkFailed (plxLink pos).1 (plxLink pos).2 s)

/-! ## Cells that come (R441, R442, R449) -/

/-- The fields of a cell. -/
def cellTag (c : List Byte) : Nat := bytesNat c 64 2 % 4096
def cellPoison (c : List Byte) : Bool := bitOf (bytesNat c 64 2) 12
def cellKind (c : List Byte) : Nat := bytesNat c 64 2 / 8192
def cellGlove (c : List Byte) : Nat := bytesNat c 66 1
def cellVersion (c : List Byte) : Nat := bytesNat c 68 2
def cellSeq (c : List Byte) : Nat := bytesNat c 70 2
def cellAck (c : List Byte) : Nat := bytesNat c 72 2

/-- Whether a cell's CRC is right. -/
def cellSound (c : List Byte) : Bool := c.length == 80 && bytesNat c 76 4 == crc32c (c.take 76)

/-- A negative acknowledgement goes out for the cell that is awaited (R442). -/
def sendNak (pos : Nat) (s : State) : State :=
  { adjPlx pos (fun p => { p with nak := true }) s with out := .plxNak pos (((plxOf s pos).seqIn + 1) % 2 ^ 16) :: s.out }

/-- Cells that the neighbour has are kept no longer, and held ones leave. -/
def acked (pos ack : Nat) (s : State) : State :=
  let p := plxOf s pos
  match p.replay.findIdx? fun x => x.1 == ack with
  | none => s
  | some i => releaseHeld pos p.held.length (setPlx pos { p with replay := p.replay.drop (i + 1) } s)

/-- A cell at a half-link: refused with a negative acknowledgement, known already, or the next in order; then what it does. -/
def cellIn (pos : Nat) (c : List Byte) (f : State → State) (s : State) : State :=
  let p := plxOf s pos
  let st := halfState s pos
  if st ≠ 2 ∧ st ≠ 3 then s
  else if !cellSound c then sendNak pos s
  else if st = 3 then (if cellKind c = kindTime then f s else s)
  else
    let s1 := acked pos (cellAck c) s
    if cellSeq c = (p.seqIn + 1) % 2 ^ 16 then f (adjPlx pos (fun p => { p with seqIn := cellSeq c, nak := false }) s1)
    else if p.nak ∨ (p.seqIn + 2 ^ 16 - cellSeq c) % 2 ^ 16 < 2 ^ 15 then s1
    else sendNak pos s1

/-- A cell that names no entry is counted (R449). -/
def discardCell (pos : Nat) (s : State) : State := winBump s (tileBase pos + 0xF1008) 16 8 1

/-- An exchange word joins its round (R448, R449). -/
def exchangeIn (pos : Nat) (c : List Byte) (s : State) : State :=
  let p := plxOf s pos
  match turnOf p (cellTag c) (cellGlove c) (·.rin) (·.got) with
  | none => discardCell pos s
  | some i => pumpEnt pos i 32768 (entAdj pos i (fun e =>
      let r := e.freed + (cellVersion c + 2 ^ 16 - e.freed % 2 ^ 16) % 2 ^ 16
      { e with got := e.got + 1, theirs := roundAdd e.theirs r (bytesNat c 0 64, cellPoison c) }) s)

/-- A credit: one more round has been freed at the receiver (R449). -/
def creditIn (pos : Nat) (c : List Byte) (s : State) : State :=
  let p := plxOf s pos
  match turnOf p (bytesNat c 0 2 % 4096) (cellGlove c) (·.rout) (fun e => e.credits * e.nw) with
  | none => discardCell pos s
  | some i => pumpEnt pos i 32768 (entAdj pos i (fun e =>
      { e with credits := e.credits + (bytesNat c 2 2 + 1 + 2 ^ 16 - e.credits % 2 ^ 16) % 2 ^ 16 }) s)

/-- A negative acknowledgement comes: the cell it names and every later one are sent again (R442), and the replay is counted (R456, R457). -/
def replayFrom (pos seq : Nat) (s : State) : State :=
  let p := plxOf s pos
  let cs := p.replay.dropWhile fun x => x.1 != seq
  if halfState s pos ≠ 2 ∨ cs = [] then s
  else { odBump (winBump s (tileBase pos + 0xF1004) 16 16 1) 0x7600 5 64 1 with
    out := (cs.map fun x => Out.plxCell pos (cellOf p.seqIn x.2)).reverse ++ s.out }

/-- PLX_CELL (R441, R442, R449): a cell comes, with the codewords that were corrected; or a negative acknowledgement of a cell. -/
def execPlxCell (pos : Nat) (cell : List Byte) (corrected : Nat) (nak : Option Nat) (s : State) : Result :=
  if !isPlx pos then .next s
  else
    let s1 := winBump s (tileBase pos + 0xF1004) 0 16 corrected
    match nak with
    | some seq => .next (replayFrom pos seq s1)
    | none =>
      if cellSound cell ∧ [kindTime, kindNotice, kindRecord].contains (cellKind cell) then .next s1
      else .next (cellIn pos cell (fun t =>
        if cellKind cell = kindExchange then exchangeIn pos cell t
        else if cellKind cell = kindCredit then creditIn pos cell t
        else t) s1)

/-! ## Time cells (R445, R446) -/

/-- TIME_CELL_SEND (R445): `now` is the system count at transmission. -/
def execTimeCellSend (now : Nat) (s : State) : Result :=
  .next ((List.range 6).foldl (fun t l =>
    let pos := plxTile l 0
    if odGet t (linkIdx l) 2 = 2 ∨ odGet t (linkIdx l) 2 = 3 then
      sendCell pos kindTime 0 false 0 0 (leBytes 8 now ++ leBytes 8 (plxOf t pos).echo.1 ++ leBytes 8 (plxOf t pos).echo.2) t
    else t) s)

/-- The neighbour's count less this module's at receipt, in ns, once the delay is known both ways. -/
def cellOffset (c : List Byte) (now : Nat) : Int :=
  let sent : Int := bytesNat c 0 8
  let mine : Int := bytesNat c 8 8
  let there : Int := bytesNat c 16 8
  let delay := (((now : Int) - mine) - (sent - there)) / 2
  sent + delay - now

/-- What the module makes of a time cell from its up-link. -/
def followCell (off : Int) (hops : Nat) (s : State) : State :=
  let good := decide (-2 ≤ off) && decide (off ≤ 2)
  let s1 := odSet (odSet s 0x2600 4 (unsigned 32 off)) 0x2600 5 ((hops + 1) % 256)
  let s2 := { s1 with frame := { s1.frame with goodCells := if good then min 8 (s1.frame.goodCells + 1) else 0 } }
  if sysTimeState s = 2 ∨ sysTimeState s = 0 then setSysTime 3 s2 else s2

/-- TIME_CELL (R446): `now` is the local count at receipt, `hops` the neighbour's distance from its root. -/
def execTimeCell (pos : Nat) (cell : List Byte) (now hops : Nat) (s : State) : Result :=
  if !isPlx pos then .next s
  else if cellSound cell ∧ cellKind cell ≠ kindTime then .next s
  else .next (cellIn pos cell (fun t =>
    let off := cellOffset cell now
    let t1 := winSet (adjPlx pos (fun p => { p with echo := (bytesNat cell 0 8, now) }) t) (tileBase pos + 0xF100C) (unsigned 32 off)
    if followsCells t1 ∧ odGet t1 0x2600 2 = (plxLink pos).1 ∧ halfState t1 pos = 2 then followCell off hops t1 else t1) s)

/-- SYSTIME_HOLDOVER (R446): no time cell for 8 µs. -/
def execSystimeHoldover (s : State) : Result :=
  if followsCells s then .next (setSysTime 2 { s with frame := { s.frame with goodCells := 0 } }) else .next s

/-! ## Notices and records (R452) -/

/-- The MULTI launch of a system count. -/
def launchOfCount (s : State) (count : Nat) : Option (Nat × Launch) :=
  s.launches.find? fun p => admitted p.2 && pMulti p.2.params && pCount p.2.params == count

/-- A notice does its work, and goes on once. -/
def noticeIn (c : List Byte) (s : State) : State :=
  let s1 := raise 331 s
  match launchOfCount s1 (bytesNat c 0 8) with
  | none => s1
  | some (k, l) =>
    if bytesNat c 8 1 = 1 then killLaunch k stKilled (sendNotice l 1 0 s1)
    else
      let s2 := sendNotice l 0 (bytesNat c 16 8) s1
      if l.phase = .running then setLaunch k { l with drainStep := some (l.drainStep.getD (bytesNat c 16 8)) } s2
      else if endable l then killLaunch k stKilled s2
      else s2

/-- PLX_NOTICE (R452). -/
def execPlxNotice (pos : Nat) (cell : List Byte) (s : State) : Result :=
  if !isPlx pos then .next s
  else if cellSound cell ∧ cellKind cell ≠ kindNotice then .next s
  else .next (cellIn pos cell (noticeIn cell) s)

/-- A record goes to the Helmet with one hop more, and on once: by the launches that have an entry at the port for its glove. -/
def recordIn (pos : Nat) (c : List Byte) (s : State) : State :=
  let r := vc3Of (c.take 64)
  let r1 := { r with hop := (r.hop + 1) % 256 }
  if (plxOf s pos).notices.contains (recordKey r) then s
  else
    let ls := (kvals s.launches).filter fun l => admitted l && pMulti l.params && l.glove == cellGlove c && (plxUnits l).contains pos
    ls.foldl (fun t l => sendOnce l (recordKey r) kindRecord (vc3Bytes r1) t) (vc3Raise pos r1 s)

/-- PLX_RECORD (R452). -/
def execPlxRecord (pos : Nat) (cell : List Byte) (s : State) : Result :=
  if !isPlx pos then .next s
  else if cellSound cell ∧ cellKind cell ≠ kindRecord then .next s
  else .next (cellIn pos cell (recordIn pos cell) s)

end Sys2Proof.Machine
end

