-- ==== Sys2Proof/Machine/Dict.lean ====
section
/-! DEFINITION. The object dictionary's service (R377 to R387): reads with the entries that are views of other state, writes to entries
without a command of their own, nonces and sessions, the audit log, the mailbox's doorbell (R473), and the waking of PD_MGMT (R494). -/

namespace Sys2Proof.Machine

/-! ## Reads (R381, R383) -/

/-- The oldest record held and the newest (R385, R387). -/
def auditOldest (s : State) : Nat := (s.serv.auditCount - 65536) % 2 ^ 32
def auditHead (s : State) : Nat := (s.serv.auditCount - 1) % 2 ^ 32

/-- A number in decimal, as text. -/
def decimal (n : Nat) : List Byte := (Nat.toDigits 10 n).map fun c => BitVec.ofNat 8 c.toNat

/-- SoftwareVersion: major.minor.build (R387). -/
def versionText (s : State) : List Byte :=
  let (a, b, c) := s.plat.fwVersion
  decimal a ++ [0x2E] ++ decimal b ++ [0x2E] ++ decimal c

/-- The usable links across the cluster-row boundary below cluster row j (R65). -/
def bandLinks (f : Fuse) (j : Nat) : Nat :=
  ((List.range 48).filter fun c => isLogical f (posAt c (8 * j + 7)) && isLogical f (posAt c (8 * j + 8))).length

/-- The usable links of the Col (R65). -/
def colLinks (f : Fuse) : Nat := ((List.range 32).filter fun r => isLogical f (posAt 23 r) && isLogical f (posAt 24 r)).length

/-- Identity and grid entries: from fuses and firmware (R38, R94, R387). -/
def fuseView (s : State) (index sub : Nat) : Option Nat :=
  let f := s.plat.fuse
  let (a, b, _) := s.plat.fwVersion
  if index = 0x1018 ∧ sub = 2 then some (if f.c6 then 0x1056 else 0x768)
  else if index = 0x1018 ∧ sub = 3 then some (a * 2 ^ 16 + b)
  else if index = 0x1018 ∧ sub = 4 then some f.serial
  else if index = 0x113F ∧ sub = 2 then some (leNat f.vendorKey)
  else if 0x1200 ≤ index ∧ index ≤ 0x1207 ∧ sub = 2 then some (f.macs.getD (index - 0x1200) 0)
  else if index = 0x2200 ∧ sub = 1 then some (ofBool !f.c6)
  else if index = 0x2200 ∧ sub = 2 then some ((List.range 1536).filter (isBad f)).length
  else if index = 0x2200 ∧ sub = 3 then some ((List.range 1536).filter fun p => !isBad f p && !isLogical f p).length
  else if index = 0x2201 ∧ sub ≠ 0 then some (logicalMask f (sub - 1))
  else if index = 0x2202 ∧ sub ≠ 0 then some (clusterMask (sub - 1) (isBad f))
  else if index = 0x2300 ∧ sub = 1 then some (colLinks f)
  else if index = 0x2300 ∧ sub = 2 then some (min (bandLinks f 0) (min (bandLinks f 1) (bandLinks f 2)))
  else none

/-- Entries that show what other state holds (R17, R146, R303, R359, R407, R437, R505). -/
def stateView (s : State) (index sub : Nat) : Option Nat :=
  if index = 0x2100 ∧ sub = 6 then some (planTc (admittedLaunches s))
  else if index = 0x2400 ∧ sub = 2 then some ((List.range 64).filter fun w => odGet s (watchIdx w) 11 != 0).length
  else if index = 0x2500 ∧ sub = 7 then
    some (totalChunks s.plat.fuse.c6 - (s.chunks.filter fun p => p.2.st != .free).length)
  else if index = 0x2800 ∧ sub = 2 then some (refState s)
  else if index = 0x3000 ∧ sub = 5 then some ((span 1 255).filter fun g => odGet s 0x3001 g != 0).length
  else if index = 0x4000 ∧ sub = 1 then some (ofBool (isSafe s))
  else if index = 0x4000 ∧ sub = 2 then some s.safety.causes
  else if index = 0x5000 ∧ sub = 1 then some (secCode s.sec.mode)
  else if index = 0x5010 ∧ sub ≠ 0 then some (drbgCalls s (256 + sub))
  else if index = 0x5011 ∧ sub ≠ 0 then some (drbgCalls s sub)
  else if index = 0x5020 ∧ sub = 1 then some (leNat (edPublic (identitySecret s.plat.fuse)))
  else if index = 0x5020 ∧ sub = 2 then some (leNat (ecPublic (identityScalar s.plat.fuse)))
  else if index = 0x5020 ∧ sub = 3 then some (leNat s.plat.fuse.endorsement)
  else if index = 0x8000 ∧ sub = 1 then some (auditHead s)
  else if index = 0x8000 ∧ sub = 2 then some (leNat s.serv.chain)
  else if index = 0x8000 ∧ sub = 3 then some (auditOldest s)
  else none

/-- A session's place in the audit log (R386, R387). -/
def auditCursor (s : State) (k : Nat) : Nat := kgetD s.serv.cursor k (auditOldest s)

/-- Entries kept for each session (R386, R431). -/
def sessionView (s : State) (k index sub : Nat) : Option Nat :=
  let a := kgetD s.serv.attest k ⟨0, 0, 0, 0⟩
  if index = 0x5030 ∧ sub = 1 then some a.challenge
  else if index = 0x5030 ∧ sub = 2 then some a.alg
  else if index = 0x5030 ∧ sub = 4 then some a.state
  else if index = 0x5030 ∧ sub = 5 then some (if a.state = 2 then a.report else 0)
  else if index = 0x8100 ∧ sub = 1 then some (auditCursor s k)
  else if index = 0x8100 ∧ sub = 2 then some (leNat (kgetD s.serv.audit (auditCursor s k) []))
  else none

/-- The value that a read of an entry returns to a session. -/
def odValue (s : State) (req : OdReq) : Nat :=
  match sessionView s (sessionKey req) req.index req.sub with
  | some v => v
  | none => match fuseView s req.index req.sub with
    | some v => v
    | none => (stateView s req.index req.sub).getD (odGet s req.index req.sub)

/-- The data of a read. -/
def odBytes (s : State) (req : OdReq) : List Byte :=
  if req.index = 0x100A then versionText s
  else match odRow req.index req.sub with
    | some r => leBytes r.bytes (odValue s req)
    | none => []

/-- A READ as it is served. -/
def serveRead (req : OdReq) (s : State) : State :=
  let a := odReadAbort s req
  respond req req.session a (if a = 0 then odBytes s req else []) s

/-! ## Writes to entries without a command of their own (R365, R366, R371, R382) -/

/-- Whether a stream of which an object or safety connection is a part is enabled. -/
def refBusy (s : State) (ref : Nat) : Bool :=
  (List.range 128).any fun k => streamBusy s k && (pieces s k).any fun p => p.ref == ref

/-- Whether R366 keeps an entry as it is. -/
def streamHeld (s : State) (index : Nat) : Bool :=
  if 0x6800 ≤ index ∧ index ≤ 0x687F then streamBusy s (index - 0x6800)
  else if 0x6A00 ≤ index ∧ index ≤ 0x6A7F then streamBusy s (index - 0x6A00)
  else if 0x6000 ≤ index ∧ index ≤ 0x63FF then refBusy s (index - 0x6000)
  else if 0x4100 ≤ index ∧ index ≤ 0x44FF then refBusy s (0x8000 + (index - 0x4100))
  else false

/-- Whether an entry takes part in what R365 demands of mappings. -/
def mapsPieces (index : Nat) : Bool :=
  (decide (0x6000 ≤ index) && decide (index ≤ 0x6A7F)) || (decide (0x4100 ≤ index) && decide (index ≤ 0x44FF))

/-- A mapping entry that names neither an object nor a safety connection (R365). -/
def strayRef (req : OdReq) : Bool :=
  decide (0x6A00 ≤ req.index) && decide (req.index ≤ 0x6A7F) && req.sub != 0 &&
    (let r := fld (reqVal req) 16 16
     decide (0x400 ≤ r) && (decide (r < 0x8000) || decide (0x8400 ≤ r)))

/-- The rule of an entry without a command of its own. -/
def plainRule (req : OdReq) (s : State) : Nat :=
  if strayRef req then abRange
  else if req.index = 0x2500 ∧ assignBusy s then abState
  else if req.index = 0x2600 ∧ (admittedLaunches s).any (fun l => pMulti l.params) then abState
  else if streamHeld s req.index then abState
  else if mapsPieces req.index ∧ !mappingOk (odAccept req.index req.sub (reqVal req) s) then abState
  else if 0x6840 ≤ req.index ∧ req.index ≤ 0x687F ∧ req.sub = 8 ∧ reqVal req = 1 ∧ 7480 < odGet s req.index 6 then abState
  else 0

/-- The entry AuditSignRequest. -/
def signEntry : OwnEntry where
  covers := fun r => reqAt r 0x8000 4
  rule := fun _ _ => 0
  effect := fun _ t => auditSign t
  refused := fun _ t => t

/-- Every entry whose writes have a command of their own. -/
def ownEntries : List OwnEntry := [frameSourceEntry, framePeriodEntry, driftEntry 1, driftEntry 2, driftEntry 3, assignEntry,
  plxEnableEntry, domEntry false, domEntry true, gloveOpenEntry, gloveResetEntry, gloveCloseEntry, relaxedEntry, budgetEntry,
  safeAckEntry, safeTripEntry, ackEntry, enableEntry, gclEntry, katEntry, reseedEntry, attestEntry, signEntry]

def isCredential (req : OdReq) : Bool := decide (0x1101 ≤ req.index) && decide (req.index ≤ 0x113F) && req.sub != 0

/-- A write to an entry without a command of its own, as it is served: decided; a logged one then waits for its record, another takes
effect and is answered (R383, R385). -/
def servePlain (req : OdReq) (s : State) : State :=
  let a0 := odWriteAbort s req
  let a := if a0 = 0 then plainRule req s else a0
  if needsRecord req a then { s with serv := { s.serv with queue := s.serv.queue ++ [auditOf s req a] } }
  else respond req req.session a [] (if a = 0 then applyWrite req s else s)

/-- A WRITE of any entry, as the mailbox serves it. -/
def serveWrite (req : OdReq) (s : State) : State :=
  match ownEntries.find? (fun e => e.covers req) with
  | some e => odWriteOwn e req s
  | none => servePlain req s

/-! ## Nonces and sessions (R379) -/

/-- The instance that gives nonces. -/
def nonceInst (s : State) : Nat := systemInst s 1

/-- Whether a time lies no more than 1 s back. -/
def nonceFresh (s : State) (t : Nat) : Bool := decide (sysNow s ≤ t + 1000000000)

/-- A NONCE as it is served: 16 bytes from a system instance, refused until it delivers. -/
def serveNonce (req : OdReq) (s : State) : State :=
  if req.rsvd ≠ 0 then respond req req.session abOp [] s
  else if (sessionRoles s req).isNone then respond req req.session abAuth [] s
  else if req.data ≠ [] then respond req req.session abLength [] s
  else if !(secRuns s && drbgMayDeliver s (nonceInst s)) then respond req req.session abState [] s
  else
    let (d, s1) := drbgDraw (nonceInst s) s
    respond req req.session 0 (d.take 16)
      { s1 with serv := { s1.serv with
        nonces := (d.take 16, sysNow s1) :: s1.serv.nonces.filter fun p => nonceFresh s1 p.2 } }

/-- The parts of an OPEN's data (R381). -/
def openCredNo (d : List Byte) : Nat := leNat (d.take 2)
def openRoles (d : List Byte) : Nat := leNat ((d.drop 2).take 1)
def openNonce (d : List Byte) : List Byte := (d.drop 4).take 16
def openSig (d : List Byte) : List Byte := d.drop 20

/-- Whether a nonce was given no more than 1 s ago and is not spent. -/
def nonceGood (s : State) (n : List Byte) : Bool := s.serv.nonces.any fun p => p.1 == n && nonceFresh s p.2

/-- A credential's public key. -/
def credKey (s : State) (c : Nat) : List Byte :=
  if c = 63 then s.plat.fuse.vendorKey else leBytes 32 (odGet s (0x1100 + c) 2)

/-- What the public-key engine verifies. -/
def openGood (s : State) (d : List Byte) : Bool :=
  edVerify (credKey s (openCredNo d)) (0x07 :: openNonce d ++ leBytes 2 (openCredNo d) ++ leBytes 1 (openRoles d)) (openSig d)

/-- Whether every role of one mask is in another. -/
def rolesWithin (a m : Nat) : Bool := (List.range 8).all fun i => !bitOf a i || bitOf m i

def freeSession (s : State) : Option Nat := (span 1 16).find? fun n => (kget s.serv.sessions n).isNone

/-- The check of an OPEN that is well formed, its nonce spent: its abort code. -/
def openAbort (s : State) (good : Bool) (d : List Byte) : Nat :=
  let c := openCredNo d
  if c = 0 ∨ 63 < c ∨ !nonceGood s (openNonce d) ∨ !good ∨ !rolesWithin (openRoles d) (odGet s (0x1100 + c) 1) then abAuth
  else if (freeSession s).isNone then abState else 0

/-- An OPEN as it is served. -/
def serveOpen (req : OdReq) (s : State) : State :=
  let d := req.data
  if req.rsvd ≠ 0 then respond req req.session abOp [] s
  else if (sessionRoles s req).isNone then respond req req.session abAuth [] s
  else if d.length ≠ 84 then respond req req.session abLength [] s
  else if (d.drop 3).head? ≠ some 0 then respond req req.session abOp [] s
  else
    let good := secRuns s && openGood s d
    let a := openAbort s good d
    let s1 := if secRuns s ∧ nonceGood s (openNonce d) then
        let s2 := odBump s 0x5040 1 64 1
        if good then s2 else raise 456 (odBump s2 0x5040 2 32 1)
      else s
    let s2 := { s1 with serv := { s1.serv with nonces := s1.serv.nonces.filter fun p => p.1 != openNonce d } }
    match freeSession s with
    | some n =>
      if a = 0 then
        let x : Session := ⟨req.via, openRoles d ||| 1, openCredNo d⟩
        respond req n 0 [] { s2 with serv := { s2.serv with sessions := kput s2.serv.sessions n x, openCred := false } }
      else respond req req.session a [] s2
    | none => respond req req.session a [] s2

/-- A CLOSE as it is served; session 0 is always there. -/
def serveClose (req : OdReq) (s : State) : State :=
  if req.rsvd ≠ 0 then respond req req.session abOp [] s
  else if (sessionRoles s req).isNone then respond req req.session abAuth [] s
  else if req.data ≠ [] then respond req req.session abLength [] s
  else if req.session = 0 then respond req 0 abState [] s
  else respond req req.session 0 [] (endSessions (fun n _ => n == req.session) s)

/-! ## The mailbox (R473) -/

/-- A byte string from BAR0. -/
def barLoad (s : State) (off n : Nat) : List Byte := ((List.range ((n + 3) / 4)).flatMap fun i => leBytes 4 (barGet s (off + 4 * i))).take n

/-- The request copied at a write of GO: its OP and the rest (R381); data longer than 1,024 bytes stands for any greater LENGTH. -/
def mailboxRequest (s : State) : Nat × OdReq :=
  let h := barLoad s 0x3200 16
  let at_ := fun i n => leNat ((h.drop i).take n)
  (at_ 0 1, ⟨0, at_ 2 2, at_ 4 2, at_ 6 2, at_ 8 1, at_ 1 1 + 256 * at_ 9 1 + 65536 * at_ 12 4, barLoad s 0x3210 (min (at_ 10 2) 1025)⟩)

/-- A request of any OP, as it is served. -/
def serveOp (op : Nat) (req : OdReq) (s : State) : State :=
  if 1024 < req.data.length then respond req req.session abLength [] s
  else match op with
    | 1 => serveRead req s
    | 2 => serveWrite req s
    | 3 => serveNonce req s
    | 4 => serveOpen req s
    | 5 => serveClose req s
    | _ => respond req req.session abOp [] s

/-- The mailbox's request is served once the management complex runs (R383, R494). -/
def serveMailbox (s : State) : State := match s.serv.odm with
  | some (op, req) => if mgmtAsleep s || !s.plat.ready then s else serveOp op req (auditFlush s)
  | none => s

/-- A write of ODM_DOORBELL (R473). -/
def doorbellWrite (d : Nat) (s : State) : State :=
  if !bitOf d 0 then s
  else if s.serv.odm.isSome then barPut s 0x3004 2 1 1
  else serveMailbox { barPut s 0x3004 0 1 1 with serv := { s.serv with odm := some (mailboxRequest s) } }

/-- PD_MGMT wakes, and a request that waited in the mailbox is served. -/
def wakeServe (s : State) : State := serveMailbox (mgmtWake s)

/-! ## Meanings -/

/-- One request that arrives on a transport: nothing before the dictionary is available (R501), nor on a port without the service (R381). -/
def onRequest (f : OdReq → State → State) (req : OdReq) (s : State) : Result :=
  .next (if carries s req.via then f req (serveNext s) else s)

/-- READ (R381). -/
def execReadEntry (req : OdReq) (s : State) : Result := onRequest serveRead req s

/-- WRITE (R383); one that names an entry with behaviour of its own is that entry's command. -/
def execWriteEntry (req : OdReq) (s : State) : Result := onRequest serveWrite req s

/-- CREDENTIAL_WRITE (R380). -/
def execCredentialWrite (req : OdReq) (s : State) : Result :=
  if isCredential req then onRequest servePlain req s else .next s

/-- NONCE (R379). -/
def execNonceRequest (req : OdReq) (s : State) : Result := onRequest serveNonce req s

/-- OPEN (R379). -/
def execOpenSession (req : OdReq) (s : State) : Result := onRequest serveOpen req s

/-- CLOSE (R379). -/
def execCloseSession (req : OdReq) (s : State) : Result := onRequest serveClose req s

/-- SESSION_IDLE_TIMEOUT (R379). -/
def execSessionIdleTimeout (session : Nat) (s : State) : Result := .next (endSessions (fun n _ => n == session) s)

/-- AUDIT_RECORD_STORED (R385). -/
def execAuditRecordStored (s : State) : Result := .next (auditNext s)

/-- AUDIT_SIGN_REQUEST (R386). -/
def execAuditSignRequest (req : OdReq) (s : State) : Result := .next (odWriteOwn signEntry req s)

/-- ODM_DOORBELL (R473): a write of the host, or of the management complex, to the doorbell. -/
def execOdmDoorbell (data : Reg) (s : State) : Result := .next (doorbellWrite data.toNat s)

/-- MGMT_WAKE (R494): by the watch set, the mailbox doorbell, or a service frame that arrives. -/
def execMgmtWake (frame : Bool) (s : State) : Result :=
  .next (if mgmtAsleep s && (frame || watchHit s || s.serv.odm.isSome) then wakeServe s else s)

/-- PWR_WAKE_EXPIRY (R494): the wake timer, counting while it is not 0, has reached 0. -/
def execPwrWakeExpiry (s : State) : Result :=
  .next (if winGet s pwrWake = 0 then s else
    let s1 := raise 488 (winSet s pwrWake 0)
    if mgmtAsleep s1 then wakeServe s1 else s1)

end Sys2Proof.Machine
end

