-- ==== Sys2Proof/Machine/Bar0.lean ====
section
/-! DEFINITION. The host link (R460 to R479): registers of BAR0 as they read and are written, claims, BAR2, completions of the module's
own host reads, Bus Master Enable, and the function-level reset. -/

namespace Sys2Proof.Machine

/-! ## Claims (R476, R477) -/

/-- Whether a processor is in a source's target mask: 0 the host, 1 + c management core c. -/
def isTarget (s : State) (p n : Nat) : Bool :=
  let r := routeOf s n
  if p = 0 then routeHost r else bitOf (routeMgmt r) (p - 1)

/-- A read of IC_CLAIMn by processor p. -/
def claim (p n : Nat) (s : State) : Nat × State :=
  match kget s.host.irq n with
  | some c =>
    if isTarget s p n then (n + 2 ^ 16 * c, vectorStep { s with host := { s.host with irq := kdel s.host.irq n } })
    else (0x3FF, s)
  | none => (0x3FF, s)

/-- The processor that a path stands for. -/
def procOf : Path → Nat
  | .host => 0
  | .mgmt c => 1 + c

/-- IC_CLAIM (R477). -/
def execIcClaim (proc n : Nat) (s : State) : Result :=
  if 4 < proc ∨ 511 < n then .next s
  else
    let (v, s1) := claim proc n s
    .next { s1 with out := .readData (leBytes 4 v) :: s1.out }

/-! ## BAR0 reads (R8, R336, R424, R462, R472 to R479) -/

/-- Bits 32k to 32k + 31 of IC_PEND. -/
def pendView (s : State) (k : Nat) : Nat := (List.range 32).foldl (fun a j => if irqPending s (32 * k + j) then a + 2 ^ j else a) 0
/-- IC_COUNTk. -/
def countView (s : State) (k : Nat) : Nat := (List.range 4).foldl (fun a b => a + kgetD s.host.irq (4 * k + b) 0 * 256 ^ b) 0
/-- PWR_STATUS. -/
def pwrStatus (s : State) : Nat := (if s.plat.linkUp then 10 else s.plat.step) + 16 * ofBool (isSafe s) + 32 * secCode s.sec.mode

/-- A register of BAR0 that shows other state. -/
def barView (s : State) (off : Nat) : Option Nat :=
  let (a, b, c) := s.plat.fwVersion
  if off = 0x0 then some ((if s.plat.fuse.c6 then 0x1056 else 0x768) + 0xB10000)
  else if off = 0x4 then some (c % 2 ^ 16 + 2 ^ 16 * (b % 256) + 2 ^ 24 * (a % 256))
  else if off = 0x8 then some (pwrStatus s)
  else if off = 0xC00 then some (s.host.pba % 2 ^ 32)
  else if off = 0xC04 then some (s.host.pba / 2 ^ 32)
  else if off = 0x1014 then some (hqStatus s)
  else if 0x2000 ≤ off ∧ off < 0x2040 then some (pendView s ((off - 0x2000) / 4))
  else if off = 0x20C0 then some (s.host.vpend % 2 ^ 32)
  else if off = 0x20C4 then some (s.host.vpend / 2 ^ 32)
  else if 0x2100 ≤ off ∧ off < 0x2300 then some (countView s ((off - 0x2100) / 4))
  else none

/-- A read of a register in a DRBG page (R422, R424). -/
def pageRead (off : Nat) (s : State) : Nat × State :=
  let g := (off - 0x4000) / 16
  match off % 16 with
  | 0 => (drbgStatus s g, s)
  | 4 => drbgRead g s
  | 8 => (if pageLive s g then drbgCalls s (pageInst s g) else 0, s)
  | _ => (0, s)

/-- A 32-bit read of BAR0 with its side effects. -/
def bar0Read (p : Path) (off : Nat) (s : State) : Nat × State :=
  if 0x2800 ≤ off ∧ off < 0x3000 then claim (procOf p) ((off - 0x2800) / 4) s
  else if 0x4000 ≤ off ∧ off < 0x5000 then pageRead off s
  else match barView s off, regFind bar0Regs off with
    | some v, _ => (v, s)
    | none, some (r, _) => (barGet s off &&& (2 ^ 32 - 1 - r.wo), if r.rc = 0 then s else barSet s off (regCleared r (barGet s off)))
    | none, none => (0, s)

/-! ## BAR0 writes -/

/-- A register with RWL fields: the management path and an unlocked host write them; another host write of them is ignored and
logged, with a reason that the manual does not number (R8, R466). -/
def rwlWrite (p : Path) (off : Nat) (r : RegSpec) (d : Nat) (s : State) : State :=
  let old := barGet s off
  let open_ := p != .host || odGet s 0x2000 1 == 1
  let s1 := barSet s off (regWritten r open_ old d)
  if open_ then s1
  else
    let (x, s2) := drawFree s1
    accessLog false off 0xF (x.toNat % 8) s2

/-- A 32-bit write of BAR0 (R336, R424, R462, R473, R478, R479). -/
def bar0Write (p : Path) (off d : Nat) (s : State) : State :=
  if off = 0x1008 then after (execHqReset (BitVec.ofNat 32 d) s) s
  else if off = 0x100C then after (execHqTailWrite (BitVec.ofNat 32 d) s) s
  else if off = 0x3000 then doorbellWrite d s
  else if 0x4000 ≤ off ∧ off < 0x5000 then (if off % 16 = 0 ∧ bitOf d 1 then barPut s off 1 1 0 else s)
  else match regFind bar0Regs off with
    | none => s
    | some (r, _) =>
      if (off = 0x1000 ∨ off = 0x1004 ∨ off = 0x101C ∨ off = 0x1020) ∧ hqEnable s then hqError 2 s
      else if r.rwl ≠ 0 then vectorStep (rwlWrite p off r d s)
      else
        let s1 := barSet s off (regWritten r false (barGet s off) d)
        if 0x800 ≤ off ∧ off < 0xC00 then msixFlush s1 else s1

/-! ## The classes of R463 -/

/-- One 32-bit read of a register on a path. -/
def regRead (p : Path) (at_ : RegAt) (s : State) : Nat × State := match at_ with
  | .bar0 off => bar0Read p off s
  | .dev a => devRead p (p != .host) a s

/-- One 32-bit write of a register on a path. -/
def regWrite (p : Path) (at_ : RegAt) (d : Nat) (s : State) : State := match at_ with
  | .bar0 off => bar0Write p off d s
  | .dev a => devWrite p a d s

/-- The register 4 bytes on. -/
def regNext : RegAt → RegAt
  | .bar0 off => .bar0 (off + 4)
  | .dev a => .dev (a + 4)

def regOff : RegAt → Nat
  | .bar0 off => off
  | .dev a => a

def regIsDev : RegAt → Bool
  | .bar0 _ => false
  | .dev _ => true

/-- A refused width or alignment of the host's is logged; the management path has no log (R466). `off` is the offset inside the BAR. -/
def logAccess (p : Path) (bar2 : Bool) (off be reason : Nat) (s : State) : State := if p = .host then accessLog bar2 off be reason s else s

/-- A read of registers as its class says (R463). -/
def classRead (p : Path) (at_ : RegAt) (off dws be : Nat) (s : State) : State :=
  let put := fun (l : List Byte) (t : State) => { t with out := .readData l :: t.out }
  match accessClass (regOff at_) dws be with
  | .full =>
    let (v, s1) := regRead p at_ s
    put (leBytes 4 v) s1
  | .narrow =>
    let (v, s1) := regRead p at_ s
    put (leBytes 4 (beMask v be)) s1
  | .wide =>
    let (v, s1) := regRead p at_ s
    let (w, s2) := regRead p (regNext at_) s1
    put (leBytes 4 v ++ leBytes 4 w) s2
  | .unaligned => logAccess p (regIsDev at_) off be 2 { s with out := .completerAbort :: s.out }

/-- Whether an offset of BAR0 holds a register of some table, a DRBG page's among them (R424, R462). -/
def bar0Listed (off : Nat) : Bool :=
  (regFind bar0Regs off).isSome || (decide (0x4000 ≤ off) && decide (off < 0x5000) && decide (off % 16 < 12))

/-- Whether an ignored write is logged: in BAR0 only where it touches a register (R462, R463). -/
def writeLogged (at_ : RegAt) (dws : Nat) : Bool := match at_ with
  | .bar0 off => (List.range dws).any fun i => bar0Listed (off + 4 * i)
  | .dev _ => true

/-- A refused write of registers. -/
def writeIgnored (p : Path) (at_ : RegAt) (off dws be reason : Nat) (s : State) : State :=
  if writeLogged at_ dws then logAccess p (regIsDev at_) off be reason s else s

/-- A write of registers as its class says (R463). -/
def classWrite (p : Path) (at_ : RegAt) (off dws be data : Nat) (s : State) : State :=
  match accessClass (regOff at_) dws be with
  | .full => regWrite p at_ (data % 2 ^ 32) s
  | .narrow => writeIgnored p at_ off dws be 1 s
  | .wide => regWrite p (regNext at_) (data / 2 ^ 32 % 2 ^ 32) (regWrite p at_ (data % 2 ^ 32) s)
  | .unaligned => writeIgnored p at_ off dws be 3 s

/-- Whether what a register command addresses is there: a doubleword of BAR0, or of a register area of the address map (R42, R43). -/
def regThere (s : State) : RegAt → Bool
  | .bar0 off => decide (off < 0x10000) && off % 4 == 0
  | .dev a => a % 4 == 0 && match regionOf s.plat.fuse a with
    | .regs _ => true
    | _ => false

/-- The host, or one of the four cores of the management complex (R41). -/
def pathThere : Path → Bool
  | .host => true
  | .mgmt c => decide (c < 4)

/-- A read of a register on a path. -/
def readCommand (path : Path) (at_ : RegAt) (dws be : Nat) (s : State) : Result :=
  if pathThere path && regThere s at_ then .next (classRead path at_ (regOff at_ % 2 ^ 32) dws be s) else .next s

/-- REGISTER_WRITE (R463). -/
def execRegisterWrite (path : Path) (at_ : RegAt) (dws be data : Nat) (s : State) : Result :=
  if pathThere path && regThere s at_ then .next (classWrite path at_ (regOff at_ % 2 ^ 32) dws be data s) else .next s

/-- RC_READ (R463, R469): through BAR2 the field is returned and not cleared. -/
def execRcRead (path : Path) (at_ : RegAt) (dws be : Nat) (s : State) : Result := readCommand path at_ dws be s

/-- COUNTER_LO_READ (R464). -/
def execCounterLoRead (path : Path) (at_ : RegAt) (dws be : Nat) (s : State) : Result := readCommand path at_ dws be s

/-! ## BAR2 (R467 to R470) -/

/-- Where an offset of BAR2 leads: the segment's glove, and the device address unless the segment is off or the address does not exist. -/
def segment (s : State) (off : Nat) : Nat × Nat × Bool :=
  let lo := barGet s (0x100 + 8 * (off / 2 ^ 28))
  let hi := barGet s (0x104 + 8 * (off / 2 ^ 28))
  let a := fld lo 22 10 * 2 ^ 22 + fld hi 0 16 * 2 ^ 32 + off % 2 ^ 28
  (fld lo 8 8, a, bitOf lo 0 && decide (a < 2 ^ 48))

/-- The places of the enabled bytes of a request, in order. -/
def enabled (r : BusReq) : List Nat :=
  (List.range (4 * r.dws)).filter fun i =>
    let dw := i / 4
    if dw = 0 then bitOf r.be (i % 4) else if dw + 1 = r.dws then bitOf r.be (4 + i % 4) else true

/-- The first enabled byte and the length of the range up to the last. -/
def enabledRange (r : BusReq) : Nat × Nat := match enabled r, (enabled r).getLast? with
  | i :: _, some j => (i, j - i + 1)
  | _, _ => (0, 0)

/-- What R292, R276 and R299 make of a BAR2 access. -/
def bar2Verdict (s : State) (g a n : Nat) (ok write : Bool) : Verdict :=
  if !ok then .refused 0 dmaTile
  else match verdict s g a n false dmaTile with
    | .refused reason unit => .refused reason unit
    | v => match (if write then writeHold s g a n else none) with
      | some (some reason, at_) => .refused reason (rejectUnit s.plat.fuse at_ dmaTile)
      | some (none, at_) => .refused ((drawFree s).1.toNat % 256) (rejectUnit s.plat.fuse at_ dmaTile)
      | none => v

/-- The number of free values that a verdict takes. -/
def bar2Draw (s : State) (g a n : Nat) (ok write : Bool) : State :=
  match (if ok && write then writeHold s g a n else none), verdict s g a n false dmaTile with
  | _, .refused _ _ => s
  | some (none, _), _ => (drawFree s).2
  | _, _ => s

/-- The bytes of a range in their place among a request's bytes; disabled lanes read zero. -/
def placeData (r : BusReq) (first : Nat) (d : List Byte) : List Byte :=
  (List.range (4 * r.dws)).map fun i => if (enabled r).contains i then d.getD (i - first) 0 else 0

/-- BAR2_READ (R467 to R469). -/
def bar2Read (r : BusReq) (s : State) : State :=
  let (g, base, ok) := segment s r.off
  let (first, n) := enabledRange r
  let put := fun (d : List Byte) (t : State) => { t with out := .readData (placeData r first d) :: t.out }
  if n = 0 then put [] s
  else match bar2Verdict s g (base + first) n ok false with
    | .tier => put (load s (base + first) n) (tierReadChecks g (base + first) n s)
    | .bank b =>
      let (x, s1) := portRead g b (base + first) n s
      put x.data s1
    | .regs _ => classRead .host (.dev base) r.off r.dws r.be s
    | .refused reason unit => put [] (reject g (base + first) n 0 reason unit s)

/-- Runs of consecutive places. -/
def runs : List Nat → List (List Nat)
  | [] => []
  | i :: l => match runs l with
    | (j :: x) :: y => if j = i + 1 then (i :: j :: x) :: y else [i] :: (j :: x) :: y
    | y => [i] :: y

/-- The runs of enabled bytes: each its place and its data. -/
def dataRuns (r : BusReq) (d : List Byte) : List (Nat × List Byte) :=
  (runs (enabled r)).map fun l => (l.headD 0, l.map fun i => d.getD i 0)

/-- BAR2_WRITE (R467, R468, R469). -/
def bar2Write (r : BusReq) (d : List Byte) (s : State) : State :=
  let (g, base, ok) := segment s r.off
  let (first, n) := enabledRange r
  if n = 0 then s
  else match bar2Verdict s g (base + first) n ok true with
    | .tier =>
      (dataRuns r d).foldl (fun t x => store (base + x.1) x.2 t) s |> ndHostWrite g (base + first) n
    | .bank b =>
      let (st, s1) := bankCheck g 1 true b (base + first) s
      if st ≠ stOk then s1
      else (dataRuns r d).foldl (fun t x => (portStore g b x.2 (bankPieces b (base + x.1) x.2.length) t).2) s1
    | .regs _ => classWrite .host (.dev base) r.off r.dws r.be (leNat d) s
    | .refused reason unit => reject g (base + first) n 0 reason unit (bar2Draw s g (base + first) n ok true)

/-- A request that PCI Express can carry: inside BAR2, aligned, and inside one 4 KiB page (R467). -/
def busReqOk (r : BusReq) : Bool :=
  r.off % 4 == 0 && decide (0 < r.dws) && decide (r.off % 4096 + 4 * r.dws ≤ 4096) && decide (r.off < 2 ^ 32) && decide (r.be < 256)

/-- BAR2_READ (R467). -/
def execBar2Read (req : BusReq) (tc : Option Nat) (s : State) : Result :=
  if busReqOk req then atTc? tc s (bar2Read req) else .next s

/-- BAR2_WRITE (R467). -/
def execBar2Write (req : BusReq) (data : List Byte) (tc : Option Nat) (s : State) : Result :=
  if busReqOk req ∧ data.length = 4 * req.dws then atTc? tc s (bar2Write req data) else .next s

/-! ## The module as requester (R461) -/

/-- An op's host read ends: its data, or an error. -/
def opData (k : Nat) (what : ReadFor) (data : Option (List Byte)) (tc : Option Nat) (s : State) : State :=
  match kget s.fe.ops k with
  | none => s
  | some o => match data with
    | none => completeOp k stAccessFault s
    | some d => match what with
      | .const _ => setOp k { o with const := some d } s
      | .copy _ => copyData k o d tc s
      | .sem _ => semValue k o (leNat d) false s
      | _ => s

/-- A host read ends. -/
def readEnds (tag : Nat) (ok : Bool) (data : List Byte) (tc : Option Nat) (s : State) : State := match kget s.fe.reads tag with
  | none => s
  | some r =>
    if ok ∧ data.length ≠ r.len then s
    else
      let s1 := feWith (fun e => { e with reads := kdel e.reads tag }) s
      let d := if ok then some data else none
      match readOp r.what with
      | some k => opData k r.what d tc s1
      | none => bufferData r.what d s1

/-- HOST_READ_COMPLETION (R461): `ok` where it brings data, false for Unsupported Request, Completer Abort or Completion Timeout. -/
def execHostReadCompletion (tag : Nat) (ok : Bool) (data : List Byte) (tc : Option Nat) (s : State) : Result :=
  atTc? tc s (readEnds tag ok data tc)

/-- Posted writes that waited for Bus Master Enable go, in order. -/
def sendHeld (s : State) : State :=
  if s.host.busMaster then
    { s with host := { s.host with held := [] }, out := (s.host.held.map fun p => Out.hostWrite p.1 p.2).reverse ++ s.out }
  else s

/-- BUS_MASTER_ENABLE_WRITE (R461, R478). -/
def execBusMasterEnableWrite (cfg : CfgWrite) (s : State) : Result :=
  .next (msixFlush (sendHeld { s with host := { s.host with
    busMaster := cfg.busMaster, msixEnable := cfg.msixEnable, msixMask := cfg.msixMask } }))

/-! ## Function-level reset (R471, R472, R504) -/

/-- Registers that step 5 of R471 returns to their reset values: HQ, ODM, DRBG pages, BNK_HW_SEG, and the MSI-X table. -/
def flrClears (off : Nat) : Bool :=
  (decide (0x100 ≤ off) && decide (off < 0x180)) || (decide (0x800 ≤ off) && decide (off < 0xC08)) ||
    (decide (0x1000 ≤ off) && decide (off < 0x2000)) || (decide (0x3000 ≤ off) && decide (off < 0x5000))

/-- The HOST bits of IC_ROUTE clear. -/
def clearHost (p : Nat × Nat) : Nat × Nat := if 0x2400 ≤ p.1 ∧ p.1 < 0x2800 then (p.1, putFld (putFld p.2 6 1 0) 22 1 0) else p

/-- The function-level reset; `held` posted writes were still held after 100 µs. -/
def functionReset (held : Nat) (s : State) : State :=
  let s1 := barBump (auditFlush s) 0x18 16 16 1
  let s2 := if held = 0 then s1 else raise 333 (barBump s1 0x18 0 16 held)
  let s3 := ringResetDone (if s2.fe.resetting then s2 else ringReset s2)
  let s4 := endSessions (fun _ x => x.via == 0) { s3 with serv := { s3.serv with odm := none } }
  let s5 := { s4 with
    bar0 := (s4.bar0.filter fun p => !flrClears p.1).map clearHost
    host := { s4.host with busMaster := false, msixEnable := false, msixMask := false, pba := 0, held := [] } }
  let s6 := vectorStep s5
  { s6 with host := { s6.host with pba := 0 } }

/-- FLR (R471). -/
def execFlr (held : Nat) (s : State) : Result := .next (functionReset held s)

/-- PERST_ASSERT (R504): after start-up it acts as a function-level reset, and the link goes down. -/
def execPerstAssert (held : Nat) (s : State) : Result :=
  let s1 := if s.plat.ready then functionReset held s else s
  .next { s1 with plat := { s1.plat with perst := false, linkUp := false } }

/-- PERST_RELEASE (R504). -/
def execPerstRelease (s : State) : Result := .next { s with plat := { s.plat with perst := true } }

/-- Put the duration of start-up step n in StartupStepTimes (R501). -/
def stepTime (n us : Nat) (s : State) : State := odSet s 0x2A00 2 (putFld (odGet s 0x2A00 2) (32 * (n - 1)) 32 (min us 0xFFFFFFFF))

/-- PCIE_LINK_TRAINING_DONE (R501, R504): start-up step 10 completes, or the link retrains after PERST#. -/
def execPcieLinkTrainingDone (us : Nat) (s : State) : Result :=
  if s.plat.ready ∧ s.plat.perst ∧ !s.plat.linkUp then
    let s1 := { s with plat := { s.plat with linkUp := true, step := 10 } }
    .next (if s.plat.step = 9 then stepTime 10 us s1 else s1)
  else .next s

end Sys2Proof.Machine
end

