-- ==== Sys2Proof/Machine/MIssue.lean ====
section
/-! DEFINITION. The instructions of M-tiles as they issue (R100 to R117, R240, R241, R518): the checks at issue, the units they hold, and
the first of the acts that follow. -/

namespace Sys2Proof.Machine

/-- LAC (R100 to R104): it holds the array from its first vector's entry to its last one's. -/
def execLac (pos tc : Nat) (s : State) : Result :=
  runInstr s pos tc 0x10 (bits 0 0) fun c t =>
    let l := lacOf c.word
    let (b, w) := addrBank c.pos (l.src == 2) l.addr
    if !l.formOk ∨ (l.src ≠ 3 ∧ bankWords b < w + l.words) then early c excOperand t
    else
      let t1 := holdUnits c 0 (stepOn c 1 t)
      if l.src = 3 then adjTile c.pos (fun u => { u with m := { u.m with meshRd := some ⟨c, none⟩ } }) t1
      else startRead c (l.src == 2) l.addr [] 0 t1

/-- What the three forms of LDC share: the checks, the load unit, and the reads (R105, R241, R518). -/
def ldc (pos tc kind : Nat) (s : State) : Result :=
  let k := fld (nextWord s pos tc) 38 2
  if k ≠ kind ∧ k ≠ 3 then .next s
  else runInstr s pos tc 0x11 (bits 27 0) fun c t =>
    if k = 3 then early c excIllegal t
    else
      let cmn := c.f 56 2 == 2
      let n := ldcWords kind
      let (b, w) := addrBank c.pos cmn (c.f 40 16)
      if (c.f 56 2 ≠ 0 ∧ c.f 56 2 ≠ 2) ∨ bankWords b < w + n then early c excOperand t
      else holdUnits c 0 (startRead c cmn (c.f 40 16) [] 0 (stepOn c 1 t))

/-- LDC.A (R105). -/
def execLdcA (pos tc : Nat) (s : State) : Result := ldc pos tc 0 s
/-- LDC.B (R99, R105). -/
def execLdcB (pos tc : Nat) (s : State) : Result := ldc pos tc 1 s
/-- LDC.S (R109). -/
def execLdcS (pos tc : Nat) (s : State) : Result := ldc pos tc 2 s

/-- RSC (R110 to R114): its descriptor is read at issue; it holds the rescale unit to its last row read. -/
def execRsc (pos tc : Nat) (s : State) : Result :=
  runInstr s pos tc 0x12 (bits 10 0) fun c t =>
    let u := tileOf t c.pos
    let d := pmGet u (c.f 23 4)
    let r := rescaleOf d
    let send := bitOf c.word 43
    let n := slotCount c
    let (b, w) := addrBank c.pos false (c.f 27 16)
    let need := if r.fmt = 1 ∨ r.fmt = 2 then 2 * n else fmtBits r.fmt / 4 * n
    match issueCause c [(r.bad, excOperand), (!send && decide (bankWords b < w + need), excOperand), (pmBad u (c.f 23 4), excPoison),
        (!tagOk t c r.tag, excTag)] with
    | some x => early c x t
    | none => holdUnits c r.fmt (sched c 2 (.rows ⟨d, 0, 0, [], 0, false⟩) (stepOn c 1 t))

/-- TOPK (R115 to R117, R241): it holds the rescale unit to its last row read or list read. -/
def execTopk (pos tc : Nat) (s : State) : Result :=
  runInstr s pos tc 0x13 (bits 17 0) fun c t =>
    let u := tileOf t c.pos
    let pmd := c.f 30 4
    let d := pmGet u pmd
    let p1 := pmGet u (pmd + 1)
    let send := bitOf c.word 43
    let merge := bitOf c.word 34
    let nout := topkWords c
    let (lb, lw) := addrBank c.pos false (fld p1 32 16)
    let (db, dw) := addrBank c.pos false (fld p1 48 16)
    match issueCause c [(pmd % 2 == 1, excOperand), ((rescaleOf d).bad, excOperand),
        (merge && decide (bankWords lb < lw + nout), excOperand), (!send && decide (bankWords db < dw + nout), excOperand),
        (pmBad u pmd || pmBad u (pmd + 1), excPoison), (!tagOk t c (rescaleOf d).tag, excTag)] with
    | some x => early c x t
    | none => holdUnits c 0
        (sched c 2 (.rows ⟨d, p1, 0, [], 0, false⟩) (stepOn c 1 t))

end Sys2Proof.Machine
end

