-- ==== Sys2Proof/Machine/Start.lean ====
section
/-! DEFINITION. Resets of the compute die, supplies, and the start-up sequence (R481, R496 to R504, R513). -/

namespace Sys2Proof.Machine

/-! ## What a reset of the die keeps (R385, R387, R408, R496, R505) -/

/-- The fences of tiles (R36). -/
def fenceEntry (key : Nat) : Bool := key / 256 == 0x2203 || key == odKey 0x2200 4

/-- Entries that a power-on reset and RESET_n leave: credentials, the audit entries, PowerOnCount, StartupFailRecord, what the Helmet
recorded of start-up, and the strap; and the fences, which last until a power-on reset (R36). -/
def keptEntry (key : Nat) : Bool :=
  let i := key / 256
  let j := key % 256
  (decide (0x1101 ≤ i) && decide (i ≤ 0x113F)) || (i == 0x8000 && decide (5 ≤ j) && decide (j ≤ 8)) ||
    (i == 0x2A00 && decide (1 ≤ j) && decide (j ≤ 4)) || (i == 0x2800 && j == 7) || fenceEntry key

/-- A power-on reset ends every fence (R36). -/
def dropFences (s : State) : State :=
  { s with od := s.od.filter fun p => !fenceEntry p.1, force := s.force.filter fun p => !fenceEntry p.1 }

/-- The Helmet's registers (R408). -/
def helmetReg (a : Nat) : Bool := decide (tileBase 1116 + 0xF1000 ≤ a) && decide (a < tileBase 1116 + 0xF1010)

/-- The compute die at power-on reset or RESET_n (R496): every domain off, everything at its reset value but what is non-volatile and
the Helmet. -/
def dieReset (s : State) : State :=
  let od := s.od.filter fun p => keptEntry p.1
  { State.reset with
    plat := { s.plat with
      ready := false, linkUp := false, relock := none, suspended := false, muxWait := none, measuring := false,
      nextStep := 0, domReq := 0, waiting := none }
    od := od
    force := od
    win := s.win.filter fun p => helmetReg p.1
    rom := s.rom
    serv := { State.reset.serv with
      audit := s.serv.audit, auditCount := s.serv.auditCount, chain := s.serv.chain, signDue := s.serv.signDue, openCred := s.serv.openCred }
    safety := { s.safety with outs := false }
    out := s.out
    freeCtr := s.freeCtr
    pending := s.pending }

def setStep (n : Nat) (s : State) : State := { s with plat := { s.plat with step := n } }

/-! ## The steps (R501 to R504) -/

/-- Step 2: the main rails are up, and PD_AON is on. -/
def startRails (s : State) : State := odBump { s with plat := { s.plat with v48 := true } } 0x2A00 3 32 1

/-- Step 3: the root PLL locks to the valid reference that RefSelect prefers (R480). -/
def startClocks (env : StartEnv) (s : State) : State :=
  winSet s clkRef (ofBool env.refA + 2 * ofBool env.refB + 4 * ofBool (!env.refA) + 16)

/-- Step 5: the stacks and packages are trained (R490). -/
def startTiers (s : State) : State := (span 25 18).foldl (fun t d => setDomain t d 2) s

/-- BNK_STATE and BNK_CMN_STATE of every logical tile and commons: ON (R53). -/
def banksOn (f : Fuse) : KMap Nat :=
  ((List.range 1536).filterMap fun p =>
    if kindOf p = .port ∨ !isLogical f p then none else some (tileBase p + 0xF0004, 4 ^ bankCount (kindOf p) - 1)) ++
  (List.range 24).map fun cl => (cmnBase cl + 0xFF0000, 4 ^ 16 - 1)

/-- Step 6: mesh and clusters are on, failed tiles are fenced, banks are ON and read zero, the Col's links come up at their rates
(R36, R53, R94). -/
def startMesh (env : StartEnv) (s : State) : State :=
  let f := s.plat.fuse
  let s1 := { s with
    win := s.win.foldl (fun m p => kput m p.1 p.2) (banksOn f)
    bank := (allBanks.filter fun b => bankIsCmn b || isLogical f (b / 4)).map fun b => (b, ⟨false, none, []⟩) }
  let s2 := (List.range 25).foldl (fun t d => setDomain t d 2) s1
  let s3 := env.badTiles.foldl (fun t p => fenceTile p t) s2
  (List.range 32).foldl (fun t r =>
    if isLogical f (posAt 23 r) && isLogical f (posAt 24 r) then odSet t 0x2301 (r + 1) (kgetD env.colRate r 1) else t) s3

/-- Step 7: PD_SEC is on and entropy start-up begins (R410). -/
def startSec (s : State) : State := secPowerUp (setDomain s 51 2)

/-- Whether a slot's image verifies (R503). -/
def slotGood (f : Fuse) (x : FwSlot) : Bool := edVerify f.firmwareKey x.image x.sig

/-- A management core's part of the firmware image: its instruction store, word by word. -/
def firmwareWords (image : List Byte) (i : Nat) : KMap Nat :=
  ((List.range 8192).zip ((chunksOf 8192 8 ((image.drop (65536 * i)).take 65536)).map leNat)).filter fun p => p.2 != 0

/-- Step 8: the first slot that verifies is loaded into the management complex (R41, R503). -/
def loadFirmware (slot : Nat) (x : FwSlot) (s : State) : State :=
  let s1 := odSet { s with plat := { s.plat with
    fwDigest := sha384 x.image, fwVersion := (x.major, x.minor, x.build) } } 0x2A00 5 slot
  (List.range 4).foldl (fun t i =>
    setTile (mgmtTiles.getD i 0) { Tile.blank with store := firmwareWords x.image i } t) s1

def startFirmware (env : StartEnv) (s : State) : State :=
  if slotGood s.plat.fuse env.slotA then loadFirmware 0 env.slotA s else loadFirmware 1 env.slotB s

/-- Step 9: firmware runs, the dictionary is available, READY rises, and a kept failure is reported (R501, R502). -/
def startReady (s : State) : State :=
  let s1 := ([43, 44, 45, 46, 47, 48, 49, 50, 52] : List Nat).foldl (fun t d => setDomain t d 2) s
  let s2 := if s.plat.failRec = 0 then s1 else odSet s1 0x2A00 4 s.plat.failRec
  refreshSysTime { s2 with plat := { s2.plat with ready := true, failRec := 0 } }

/-- What a step does. -/
def stepWork (n : Nat) (env : StartEnv) (s : State) : State := match n with
  | 2 => startRails s
  | 3 => startClocks env s
  | 5 => startTiers s
  | 6 => startMesh env s
  | 7 => startSec s
  | 8 => startFirmware env s
  | 9 => startReady s
  | 10 => { s with plat := { s.plat with linkUp := true } }
  | _ => s

/-- Whether a step halts: it fails in this pass, a tile that may not fail does, a Col link does not come up, or no firmware slot verifies. -/
def stepHalts (n fail : Nat) (env : StartEnv) (s : State) : Bool :=
  n == fail && n != 3 && n != 7 && n != 10 ||
  n == 6 && (env.badTiles.any (fun p => mgmtTiles.contains p || kindOf p == .port) || env.colRate.any fun p => decide (4 ≤ p.2) || p.2 == 0) ||
  n == 8 && !slotGood s.plat.fuse env.slotA && !slotGood s.plat.fuse env.slotB

/-- Whether a step waits: for the main supply, for a reference, for PERST# or the link (R501, R504, R513). -/
def stepWaits (n : Nat) (env : StartEnv) : Bool :=
  n == 2 && !env.v48 || n == 3 && !env.refA && !env.refB || n == 10 && !(env.perstReleased && env.linkTrains)

/-- The steps in turn: the step that halts, if one does. -/
def runSteps (fail : Nat) (env : StartEnv) : List Nat → State → State × Option Nat
  | [], s => (s, none)
  | n :: l, s =>
    if stepHalts n fail env s then (s, some n)
    else if stepWaits n env then (if n = 3 then { s with plat := { s.plat with waiting := some env } } else s, none)
    else runSteps fail env l (stepTime n (env.times.getD (n - 1) 0) (setStep n (stepWork n env s)))

/-- The first halt: every domain but PD_AON off, and start-up again from step 3 (R502). -/
def firstHalt (s : State) : State :=
  let s1 := dieReset s
  odSet { s1 with plat := { s1.plat with step := 2, halts := 1 } } 0x2A00 1 3

/-- The second halt: the module stops, with the step on the fault-code outputs (R502). -/
def secondHalt (n : Nat) (s : State) : State :=
  { s with plat := { s.plat with halts := 2, faultPins := n, failRec := n + 2 * 256, ready := false } }

/-- Start-up from a step, with its one retry. -/
def startUp (first : Nat) (env : StartEnv) (s : State) : State :=
  let s0 := { s with plat := { s.plat with perst := env.perstReleased } }
  match runSteps (env.fails.getD s0.plat.halts 0) env (span first (11 - first)) s0 with
  | (s1, none) => s1
  | (s1, some n) =>
    if s1.plat.halts = 0 then
      match runSteps (env.fails.getD 1 0) env (span 3 8) (firstHalt s1) with
      | (s2, none) => s2
      | (s2, some m) => secondHalt m s2
    else secondHalt n s1

/-! ## Meanings -/

/-- POWER_ON (R500, R501): the Helmet comes up, and start-up runs from step 1. -/
def execPowerOn (env : StartEnv) (s : State) : Result :=
  if s.plat.aux then .next s
  else
    let s1 := dropFences (dieReset s)
    let s2 := { s1 with
      plat := { Plat.initial with fuse := s.plat.fuse, aux := true, commission := env.commission, failRec := s.plat.failRec }
      win := []
      safety := State.reset.safety
      serv := { s1.serv with openCred := env.commission } }
    .next (startUp 1 env (odSet (odSet s2 0x2A00 1 0) 0x2800 7 (env.oscDly % 8)))

/-- MAIN_SUPPLY_LOSS (R499): every domain but PD_AON goes off at once. -/
def execMainSupplyLoss (s : State) : Result :=
  if !s.plat.aux ∨ !s.plat.v48 then .next s
  else
    let s1 := dieReset (enterSafe 4 s)
    .next (odSet { s1 with plat := { s1.plat with v48 := false, step := 1, halts := 0 } } 0x2A00 1 2)

/-- MAIN_SUPPLY_RETURN (R499, R513): start-up runs from step 2. -/
def execMainSupplyReturn (env : StartEnv) (s : State) : Result :=
  if !s.plat.aux ∨ s.plat.v48 ∨ s.plat.rst then .next s
  else
    let s1 := dropFences (dieReset (enterSafe 0 s))
    .next (startUp 2 { env with v48 := true } { s1 with plat := { s1.plat with halts := 0, faultPins := 0 } })

/-- AUX_SUPPLY_LOSS (R391, R513): the Helmet is gone, both outputs fall, and the die goes off. -/
def execAuxSupplyLoss (s : State) : Result :=
  let s1 := dieReset s
  .next { s1 with
    plat := { Plat.initial with fuse := s.plat.fuse, failRec := s.plat.failRec }
    win := []
    safety := State.reset.safety }

/-- A valid assertion of RESET_n (R496, R497). -/
def resetPin (s : State) : State :=
  let s1 := dieReset (enterSafe 0 (auditFlush s))
  odSet { s1 with
    plat := { s1.plat with rst := true, step := min s1.plat.step 2, halts := 0, faultPins := 0 }
    safety := { s1.safety with lastKick := 0 } } 0x2A00 1 1

/-- RESET_N (R497): an assertion of `ns` ns; one shorter than 1 µs is ignored, one of 10 µs or more is valid, and between the two the
manual does not say. -/
def execResetN (ns : Nat) (s : State) : Result :=
  if !s.plat.aux ∨ s.plat.rst ∨ ns < 1000 then .next s
  else if 10000 ≤ ns then .next (resetPin s)
  else
    let (x, s1) := drawFree s
    .next (if x.getLsbD 0 then resetPin s1 else s1)

/-- RESET_N_RELEASE (R497): start-up runs from step 3. -/
def execResetNRelease (env : StartEnv) (s : State) : Result :=
  if !s.plat.rst then .next s
  else
    let s1 := { s with plat := { s.plat with rst := false } }
    .next (if s.plat.v48 then startUp 3 { env with v48 := true } s1 else s1)

/-- REF_VALID (R480); a start-up that waits for a reference goes on (R501). -/
def execRefValid (b : Bool) (s : State) : Result :=
  match s.plat.waiting with
  | none => .next (refValid b s)
  | some env =>
    let env1 := { env with refA := env.refA || !b, refB := env.refB || b }
    .next (startUp 3 env1 { s with plat := { s.plat with waiting := none } })

end Sys2Proof.Machine
end

