-- ==== Sys2Proof/Machine/VIssue.lean ====
section
/-! DEFINITION. The instructions of V-tiles as they issue (R243 to R248): the checks at issue, the units they hold, and the registers that
land in their tc. -/

namespace Sys2Proof.Machine

/-! ## Loads, stores, operations (R244, R245) -/

/-- VLD (R244). -/
def execVld (pos tc : Nat) (s : State) : Result :=
  runInstr s pos tc 0x20 (bits 31 0) fun c t =>
    if 2 ≤ c.f 56 2 then early c excIllegal t
    else holdUnits c 0 (startRead c (c.f 56 2 == 1) (c.f 40 16) [] 0 (stepOn c 1 t))

/-- VST (R244): its words are those of the register at issue. -/
def execVst (pos tc : Nat) (s : State) : Result :=
  runInstr s pos tc 0x21 (bits 31 0) fun c t =>
    let u := tileOf t c.pos
    if 2 ≤ c.f 56 2 then early c excIllegal t
    else match issueCause c [(vxPoison u (c.f 36 4), excPoison)] with
      | some x => early c x t
      | none =>
        let n := c.f 32 4 + 1
        let (b, w) := addrBank c.pos (c.f 56 2 == 1) (c.f 40 16)
        holdUnits c 0 ((List.range n).foldl (fun v j =>
          sched c (2 + j) (.store b (w + j) (.write 0 (leBytes 64 (vxRead u (c.f 36 4) j)))) v) (stepOn c 1 t))

/-- VOP (R245). -/
def execVop (pos tc : Nat) (s : State) : Result :=
  runInstr s pos tc 0x22 0 fun c t =>
    if 21 < c.f 52 6 then early c excIllegal t else landIn c 3 (vopLand c (tileOf t c.pos)) (stepOn c 1 t)

/-- VLUT (R199, R200, R244). -/
def execVlut (pos tc : Nat) (s : State) : Result :=
  runInstr s pos tc 0x23 (bits 56 52 ||| bits 43 8) fun c t =>
    romCheck c (bitOf c.word 57) (vlutReads c (tileOf t c.pos)) (landIn c 4 (vlutLand c t) (stepOn c 1 t))

/-! ## SAMP (R196 to R198, R246) -/

/-- What the forms of SAMP share: KIND, the checks at issue, the draws counted. `need` are further causes, `looks` the ROM words read. -/
def samp (pos tc kind : Nat) (need : Ctx → Tile → List (Bool × Nat)) (reads : Ctx → List Nat)
    (looks : Ctx → Tile → List Nat) (land : State → Ctx → Bool → Tile → List Landing) (s : State) : Result :=
  let k := fld (nextWord s pos tc) 55 3
  if k ≠ kind ∧ k < 5 then .next s
  else runInstr s pos tc 0x24 (bits 31 0) fun c t =>
    if 5 ≤ k then early c excIllegal t
    else
      let u := tileOf t c.pos
      match issueCause c ((decide (8 ≤ c.f 40 4), excOperand) :: need c u) with
      | some x => early c x t
      | none =>
        let poison := (reads c).any (vxPoison u) || pmBad u (8 + c.f 44 3) || (kind != 0 && kind != 2 && pmBad u (c.f 40 4))
        let t1 := countDraws c (lanesOn (c.f 32 8)).length (stepOn c 1 t)
        romCheck c (kind == 4) (looks c u) (landIn c 12 (land t c poison u) (if poison then vtFault c 2 t1 else t1))

/-- SAMP_UNIFORM (R246). -/
def execSampUniform (pos tc : Nat) (s : State) : Result :=
  samp pos tc 0 (fun c _ => [(decide (12 < c.f 51 4), excOperand)]) (fun _ => []) (fun _ _ => []) (fun _ => uniformLand) s

/-- SAMP_BERNOULLI (R197). -/
def execSampBernoulli (pos tc : Nat) (s : State) : Result :=
  samp pos tc 1 (fun c u => [((drawOf u (c.f 44 3)).base % 4 != 0, excOperand)]) (fun _ => []) (fun _ _ => []) (fun _ => bernoulliLand) s

/-- SAMP_GAUSSIAN (R198). -/
def execSampGaussian (pos tc : Nat) (s : State) : Result :=
  samp pos tc 2 (fun _ _ => []) (fun _ => []) (fun _ _ => []) (fun _ => gaussianLand) s

/-- SAMP_METROPOLIS (R162). -/
def execSampMetropolis (pos tc : Nat) (s : State) : Result :=
  samp pos tc 3 (fun c _ => [(c.f 47 4 == 15, excOperand)]) (fun c => [c.f 51 4, c.f 47 4, c.f 47 4 + 1]) (acceptReads false)
    (fun t => acceptLand (metropolisBy (tileExp t pos))) s

/-- SAMP_HEAT_BATH (R162). -/
def execSampHeatBath (pos tc : Nat) (s : State) : Result :=
  samp pos tc 4 (fun c _ => [(c.f 47 4 == 15, excOperand)]) (fun c => [c.f 51 4, c.f 47 4, c.f 47 4 + 1]) (acceptReads true)
    (fun t => acceptLand fun beta es _ e u => heatBathBy (tileLogistic t pos) beta es e u) s

/-! ## DYN (R154, R178, R181, R247) -/

/-- What the modes of DYN share. -/
def dyn (pos tc mode : Nat) (need : Tile → List (Bool × Nat)) (land : Ctx → Bool → Tile → List Landing) (s : State) : Result :=
  let k := fld (nextWord s pos tc) 56 2
  if k ≠ mode ∧ k ≠ 3 then .next s
  else runInstr s pos tc 0x25 (bits 28 0) fun c t =>
    if k = 3 then early c excIllegal t
    else
      let u := tileOf t c.pos
      match issueCause c ((decide (8 ≤ c.f 37 4), excOperand) :: need u) with
      | some x => early c x t
      | none =>
        let poison := vxPoison u (c.f 52 4) || (mode == 2 && vxPoison u (c.f 44 4)) ||
          (mode != 2 && (vxPoison u (c.f 48 4) || pmBad u (c.f 37 4) || pmBad u (8 + c.f 41 3)))
        let t1 := countDraws c (if mode = 0 then (lanesOn (c.f 29 8)).length else 0) (stepOn c 1 t)
        landIn c 14 (land c poison u) (if poison then vtFault c 2 t1 else t1)

/-- DYN_STEP (R154 to R156). -/
def execDynStep (pos tc : Nat) (s : State) : Result := dyn pos tc 0 (fun _ => []) stepLand s
/-- DYN_GROUP_TRANSFER (R177 to R179). -/
def execDynGroupTransfer (pos tc : Nat) (s : State) : Result := dyn pos tc 1 (fun u => [(shortGroup u, excOperand)]) transferLand s
/-- DYN_GROUP_ROUND (R181). -/
def execDynGroupRound (pos tc : Nat) (s : State) : Result := dyn pos tc 2 (fun u => [(shortGroup u, excOperand)]) roundLand s

/-! ## CATS, QLD, QMAP, DINC (R133 to R137, R202 to R205, R244, R248) -/

/-- CATS (R203 to R205): the sampler for 64 tc, port A for its list. -/
def execCats (pos tc : Nat) (s : State) : Result :=
  runInstr s pos tc 0x26 (bits 12 0) fun c t =>
    let u := tileOf t c.pos
    let pmc := c.f 20 4
    let dd := 8 + c.f 17 3
    if 2 ≤ c.f 56 2 then early c excIllegal t
    else match issueCause c [(decide (8 ≤ pmc), excOperand), (pmBad u pmc || pmBad u dd, excPoison)] with
      | some x => early c x (if x = excPoison then vtFault c 2 t else t)
      | none => holdUnits c 0
          (startRead c (c.f 56 2 == 1) (c.f 40 16) [(pmGet u pmc, pmGet u dd)] 0 (stepOn c 1 t))

/-- QLD (R133, R134, R248): G is read at issue. -/
def execQld (pos tc : Nat) (s : State) : Result :=
  runInstr s pos tc 0x27 (bits 25 0) fun c t =>
    let u := tileOf t c.pos
    let pmg := c.f 26 4
    if 2 ≤ c.f 56 2 then early c excIllegal t
    else match issueCause c [(decide (8 ≤ pmg), excOperand), (pmBad u pmg, excPoison)] with
      | some x => early c x t
      | none => holdUnits c 0 (startRead c (c.f 56 2 == 1) (c.f 40 16) [(fld (pmGet u pmg) 0 32, 0)] 0 (stepOn c 1 t))

/-- QMAP (R135 to R137, R140): codes at t + 6, the record at t + 7. -/
def execQmap (pos tc : Nat) (s : State) : Result :=
  runInstr s pos tc 0x28 (bits 25 0) fun c t =>
    let u := tileOf t c.pos
    let tag := c.f 34 16
    let mask := c.f 26 8
    match issueCause c [(vxPoison u (c.f 54 4), excPoison), (!tagOk t c tag, excTag), (u.v.map.isNone, excMapTable)] with
    | some x => early c x t
    | none => match u.v.map with
      | none => stepOn c 1 t
      | some m =>
        let outs := mapLanes m mask (vxGet u (c.f 54 4))
        statAt c (c.tc + 7) tag (mapRecord mask outs)
          (sched c 6 (.land (codesLand m (c.f 50 4) outs (vxPoison u (c.f 54 4)))) (stepOn c 1 t))

/-- DINC (R244). -/
def execDinc (pos tc : Nat) (s : State) : Result :=
  runInstr s pos tc 0x29 (bits 19 0) fun c t =>
    let dd := 8 + c.f 55 3
    if 5 ≤ c.f 52 3 then early c excIllegal t
    else match issueCause c [(pmBad (tileOf t c.pos) dd, excPoison)] with
      | some x => early c x t
      | none =>
        let (lo, w) := ddField (c.f 52 3)
        sched c 1 (.land (.dd dd lo w (signed 32 (c.f 20 32)))) (stepOn c 1 t)

end Sys2Proof.Machine
end

