-- ==== Sys2Proof/Machine/Dispatch.lean ====
section
/-! DEFINITION. The dispatch of a command to its meaning, one arm per row of spec/opcode_table.json. -/

namespace Sys2Proof.Machine

/-- The effect of one command on everything but the queue of waiting commands. -/
def exec (i : Instr) (s : State) : Host.Outcome State Fault Refusal :=
  match i with
  | .powerOn env => Sys2Proof.Machine.execPowerOn env s
  | .resetN ns => Sys2Proof.Machine.execResetN ns s
  | .mainSupplyLoss => Sys2Proof.Machine.execMainSupplyLoss s
  | .auxSupplyLoss => Sys2Proof.Machine.execAuxSupplyLoss s
  | .perstRelease => Sys2Proof.Machine.execPerstRelease s
  | .perstAssert held => Sys2Proof.Machine.execPerstAssert held s
  | .flr held => Sys2Proof.Machine.execFlr held s
  | .refLoss b => Sys2Proof.Machine.execRefLoss b s
  | .refValid b => Sys2Proof.Machine.execRefValid b s
  | .pllRelock => Sys2Proof.Machine.execPllRelock s
  | .holdoverExpiry => Sys2Proof.Machine.execHoldoverExpiry s
  | .dieTempRead temp => Sys2Proof.Machine.execDieTempRead temp s
  | .frameBoundary env => Sys2Proof.Machine.execFrameBoundary env s
  | .frameSourceWrite req => Sys2Proof.Machine.execFrameSourceWrite req s
  | .framePeriodWrite req => Sys2Proof.Machine.execFramePeriodWrite req s
  | .syncMessage offset => Sys2Proof.Machine.execSyncMessage offset s
  | .syncTimeout => Sys2Proof.Machine.execSyncTimeout s
  | .windowStart pos win => Sys2Proof.Machine.execWindowStart pos win s
  | .windowEnd pos => Sys2Proof.Machine.execWindowEnd pos s
  | .bankWake bank => Sys2Proof.Machine.execBankWake bank s
  | .bankScrubVisit bank word => Sys2Proof.Machine.execBankScrubVisit bank word s
  | .commonsQueuedService cluster bank => Sys2Proof.Machine.execCommonsQueuedService cluster bank s
  | .slotFwd pos out tc errs => Sys2Proof.Machine.execSlotFwd pos out tc errs s
  | .combineAdd pos out tc errs => Sys2Proof.Machine.execCombineAdd pos out tc errs s
  | .combineTopk pos out tc errs => Sys2Proof.Machine.execCombineTopk pos out tc errs s
  | .combineBar pos out tc errs => Sys2Proof.Machine.execCombineBar pos out tc errs s
  | .combineFlag pos out tc errs => Sys2Proof.Machine.execCombineFlag pos out tc errs s
  | .vcFlitForward pos out tc err => Sys2Proof.Machine.execVcFlitForward pos out tc err s
  | .vc3RecordRelease pos tc err => Sys2Proof.Machine.execVc3RecordRelease pos tc err s
  | .ledgerRequest pos op => Sys2Proof.Machine.execLedgerRequest pos op s
  | .ledgerGrant pos => Sys2Proof.Machine.execLedgerGrant pos s
  | .colRetrain row rate => Sys2Proof.Machine.execColRetrain row rate s
  | .nop pos tc => Sys2Proof.Machine.execNop pos tc s
  | .waitt pos tc => Sys2Proof.Machine.execWaitt pos tc s
  | .loop pos tc => Sys2Proof.Machine.execLoop pos tc s
  | .yield pos tc => Sys2Proof.Machine.execYield pos tc s
  | .haltf pos tc => Sys2Proof.Machine.execHaltf pos tc s
  | .send pos tc => Sys2Proof.Machine.execSend pos tc s
  | .recv pos tc => Sys2Proof.Machine.execRecv pos tc s
  | .sendm pos tc => Sys2Proof.Machine.execSendm pos tc s
  | .bar pos tc => Sys2Proof.Machine.execBar pos tc s
  | .barw pos tc => Sys2Proof.Machine.execBarw pos tc s
  | .barwTimeout pos tc => Sys2Proof.Machine.execBarwTimeout pos tc s
  | .flag pos tc => Sys2Proof.Machine.execFlag pos tc s
  | .ldp pos tc => Sys2Proof.Machine.execLdp pos tc s
  | .lac pos tc => Sys2Proof.Machine.execLac pos tc s
  | .ldcA pos tc => Sys2Proof.Machine.execLdcA pos tc s
  | .ldcB pos tc => Sys2Proof.Machine.execLdcB pos tc s
  | .ldcS pos tc => Sys2Proof.Machine.execLdcS pos tc s
  | .rsc pos tc => Sys2Proof.Machine.execRsc pos tc s
  | .topk pos tc => Sys2Proof.Machine.execTopk pos tc s
  | .vld pos tc => Sys2Proof.Machine.execVld pos tc s
  | .vst pos tc => Sys2Proof.Machine.execVst pos tc s
  | .vop pos tc => Sys2Proof.Machine.execVop pos tc s
  | .vlut pos tc => Sys2Proof.Machine.execVlut pos tc s
  | .sampUniform pos tc => Sys2Proof.Machine.execSampUniform pos tc s
  | .sampBernoulli pos tc => Sys2Proof.Machine.execSampBernoulli pos tc s
  | .sampGaussian pos tc => Sys2Proof.Machine.execSampGaussian pos tc s
  | .sampMetropolis pos tc => Sys2Proof.Machine.execSampMetropolis pos tc s
  | .sampHeatBath pos tc => Sys2Proof.Machine.execSampHeatBath pos tc s
  | .dynStep pos tc => Sys2Proof.Machine.execDynStep pos tc s
  | .dynGroupTransfer pos tc => Sys2Proof.Machine.execDynGroupTransfer pos tc s
  | .dynGroupRound pos tc => Sys2Proof.Machine.execDynGroupRound pos tc s
  | .cats pos tc => Sys2Proof.Machine.execCats pos tc s
  | .qld pos tc => Sys2Proof.Machine.execQld pos tc s
  | .qmap pos tc => Sys2Proof.Machine.execQmap pos tc s
  | .dinc pos tc => Sys2Proof.Machine.execDinc pos tc s
  | .alu pos tc => Sys2Proof.Machine.execAlu pos tc s
  | .alui pos tc => Sys2Proof.Machine.execAlui pos tc s
  | .fpu pos tc => Sys2Proof.Machine.execFpu pos tc s
  | .ld pos tc => Sys2Proof.Machine.execLd pos tc s
  | .st pos tc => Sys2Proof.Machine.execSt pos tc s
  | .br pos tc => Sys2Proof.Machine.execBr pos tc s
  | .sys pos tc => Sys2Proof.Machine.execSys pos tc s
  | .li pos tc => Sys2Proof.Machine.execLi pos tc s
  | .fls pos tc => Sys2Proof.Machine.execFls pos tc s
  | .checkpoint stand => Sys2Proof.Machine.execCheckpoint stand s
  | .samplePoint stand => Sys2Proof.Machine.execSamplePoint stand s
  | .learningIteration launch problem steps => Sys2Proof.Machine.execLearningIteration launch problem steps s
  | .learningCheckpoint launch problem steps => Sys2Proof.Machine.execLearningCheckpoint launch problem steps s
  | .driftCheck => Sys2Proof.Machine.execDriftCheck s
  | .driftGloveWrite req => Sys2Proof.Machine.execDriftGloveWrite req s
  | .driftTensorWrite req => Sys2Proof.Machine.execDriftTensorWrite req s
  | .driftEnableWrite req => Sys2Proof.Machine.execDriftEnableWrite req s
  | .hqTailWrite data => Sys2Proof.Machine.execHqTailWrite data s
  | .hqReset data => Sys2Proof.Machine.execHqReset data s
  | .hqResetDone => Sys2Proof.Machine.execHqResetDone s
  | .bufferPrefetch => Sys2Proof.Machine.execBufferPrefetch s
  | .bufferCurrent => Sys2Proof.Machine.execBufferCurrent s
  | .opDispatch => Sys2Proof.Machine.execOpDispatch s
  | .nopOp op => Sys2Proof.Machine.execNopOp op s
  | .copy op => Sys2Proof.Machine.execCopy op s
  | .fill op => Sys2Proof.Machine.execFill op s
  | .dmaBurst op tc => Sys2Proof.Machine.execDmaBurst op tc s
  | .launch op aux peers => Sys2Proof.Machine.execLaunch op aux peers s
  | .seedDraw => Sys2Proof.Machine.execSeedDraw s
  | .loadingDone => Sys2Proof.Machine.execLoadingDone s
  | .launchStart => Sys2Proof.Machine.execLaunchStart s
  | .launchEnd => Sys2Proof.Machine.execLaunchEnd s
  | .launchRelease => Sys2Proof.Machine.execLaunchRelease s
  | .ticketWrite => Sys2Proof.Machine.execTicketWrite s
  | .waitSem op tc => Sys2Proof.Machine.execWaitSem op tc s
  | .waitSemPoll op tc => Sys2Proof.Machine.execWaitSemPoll op tc s
  | .signalSem op tc => Sys2Proof.Machine.execSignalSem op tc s
  | .drain op => Sys2Proof.Machine.execDrain op s
  | .kill op => Sys2Proof.Machine.execKill op s
  | .drainDelivery stands => Sys2Proof.Machine.execDrainDelivery stands s
  | .killDone => Sys2Proof.Machine.execKillDone s
  | .opTrigger => Sys2Proof.Machine.execOpTrigger s
  | .bufferRetire => Sys2Proof.Machine.execBufferRetire s
  | .noProgressLimit op => Sys2Proof.Machine.execNoProgressLimit op s
  | .budgetStallRetry op => Sys2Proof.Machine.execBudgetStallRetry op s
  | .memRead pos => Sys2Proof.Machine.execMemRead pos s
  | .memWrite pos => Sys2Proof.Machine.execMemWrite pos s
  | .eccWriteBack addr => Sys2Proof.Machine.execEccWriteBack addr s
  | .streamReadAhead pos tag => Sys2Proof.Machine.execStreamReadAhead pos tag s
  | .hashPassStart pos quiet => Sys2Proof.Machine.execHashPassStart pos quiet s
  | .hashPassDone pos chunk => Sys2Proof.Machine.execHashPassDone pos chunk s
  | .patrolScrubVisit addr => Sys2Proof.Machine.execPatrolScrubVisit addr s
  | .memTempRead pos temp => Sys2Proof.Machine.execMemTempRead pos temp s
  | .memAssignCommit req => Sys2Proof.Machine.execMemAssignCommit req s
  | .memAssignTransit => Sys2Proof.Machine.execMemAssignTransit s
  | .chunkScrubDone chunk => Sys2Proof.Machine.execChunkScrubDone chunk s
  | .memAssignDone => Sys2Proof.Machine.execMemAssignDone s
  | .bar2Read req tc => Sys2Proof.Machine.execBar2Read req tc s
  | .bar2Write req data tc => Sys2Proof.Machine.execBar2Write req data tc s
  | .registerWrite path at_ dws be data => Sys2Proof.Machine.execRegisterWrite path at_ dws be data s
  | .rcRead path at_ dws be => Sys2Proof.Machine.execRcRead path at_ dws be s
  | .counterLoRead path at_ dws be => Sys2Proof.Machine.execCounterLoRead path at_ dws be s
  | .gloveOpenRequest req => Sys2Proof.Machine.execGloveOpenRequest req s
  | .gloveReset req => Sys2Proof.Machine.execGloveReset req s
  | .gloveResetDone g => Sys2Proof.Machine.execGloveResetDone g s
  | .gloveClose req => Sys2Proof.Machine.execGloveClose req s
  | .gloveRelaxedWrite req => Sys2Proof.Machine.execGloveRelaxedWrite req s
  | .gloveBudgetWrite req => Sys2Proof.Machine.execGloveBudgetWrite req s
  | .bankHandoverRequest bank data => Sys2Proof.Machine.execBankHandoverRequest bank data s
  | .bankOwnerChange bank => Sys2Proof.Machine.execBankOwnerChange bank s
  | .bankHandoverScrubDone bank => Sys2Proof.Machine.execBankHandoverScrubDone bank s
  | .rxFrame port late ns data => Sys2Proof.Machine.execRxFrame port late ns data s
  | .portLinkChange port up => Sys2Proof.Machine.execPortLinkChange port up s
  | .txFetch stream tc => Sys2Proof.Machine.execTxFetch stream tc s
  | .replicaComparison launch agree => Sys2Proof.Machine.execReplicaComparison launch agree s
  | .txDataDeadline stream => Sys2Proof.Machine.execTxDataDeadline stream s
  | .txFrame stream crc => Sys2Proof.Machine.execTxFrame stream crc s
  | .gclCommit req => Sys2Proof.Machine.execGclCommit req s
  | .safetyAck req => Sys2Proof.Machine.execSafetyAck req s
  | .streamEnableWrite req => Sys2Proof.Machine.execStreamEnableWrite req s
  | .arpRequest port data => Sys2Proof.Machine.execArpRequest port data s
  | .readEntry req => Sys2Proof.Machine.execReadEntry req s
  | .writeEntry req => Sys2Proof.Machine.execWriteEntry req s
  | .nonceRequest req => Sys2Proof.Machine.execNonceRequest req s
  | .openSession req => Sys2Proof.Machine.execOpenSession req s
  | .closeSession req => Sys2Proof.Machine.execCloseSession req s
  | .sessionIdleTimeout session => Sys2Proof.Machine.execSessionIdleTimeout session s
  | .credentialWrite req => Sys2Proof.Machine.execCredentialWrite req s
  | .auditRecordStored => Sys2Proof.Machine.execAuditRecordStored s
  | .auditSignRequest req => Sys2Proof.Machine.execAuditSignRequest req s
  | .odmDoorbell data => Sys2Proof.Machine.execOdmDoorbell data s
  | .healthFlit launch pos => Sys2Proof.Machine.execHealthFlit launch pos s
  | .replicaFence launch => Sys2Proof.Machine.execReplicaFence launch s
  | .spareRestart launch => Sys2Proof.Machine.execSpareRestart launch s
  | .faultRecord => Sys2Proof.Machine.execFaultRecord s
  | .reexecution launch newest => Sys2Proof.Machine.execReexecution launch newest s
  | .icClaim proc n => Sys2Proof.Machine.execIcClaim proc n s
  | .mgmtWake frame => Sys2Proof.Machine.execMgmtWake frame s
  | .monitorSample mv48 mv33 rails temp tileDev aonDev helmet => Sys2Proof.Machine.execMonitorSample mv48 mv33 rails temp tileDev aonDev helmet s
  | .hlmKick data => Sys2Proof.Machine.execHlmKick data s
  | .watchdogExpiry => Sys2Proof.Machine.execWatchdogExpiry s
  | .frameWatchdogExpiry => Sys2Proof.Machine.execFrameWatchdogExpiry s
  | .safeStateAck req => Sys2Proof.Machine.execSafeStateAck req s
  | .safeTestTrip req => Sys2Proof.Machine.execSafeTestTrip req s
  | .safeStateExit => Sys2Proof.Machine.execSafeStateExit s
  | .selfTest pos step secs wrong silent => Sys2Proof.Machine.execSelfTest pos step secs wrong silent s
  | .cellStartupTestDone cell => Sys2Proof.Machine.execCellStartupTestDone cell s
  | .cellRetest cell => Sys2Proof.Machine.execCellRetest cell s
  | .conditioningCall => Sys2Proof.Machine.execConditioningCall s
  | .secStartupTimeout => Sys2Proof.Machine.execSecStartupTimeout s
  | .recoveryTimeout => Sys2Proof.Machine.execRecoveryTimeout s
  | .katRequest req => Sys2Proof.Machine.execKatRequest req s
  | .katDone wrong => Sys2Proof.Machine.execKatDone wrong s
  | .drbgGenerate inst => Sys2Proof.Machine.execDrbgGenerate inst s
  | .drbgReseed => Sys2Proof.Machine.execDrbgReseed s
  | .drbgReseedRequest req => Sys2Proof.Machine.execDrbgReseedRequest req s
  | .drbgDataRead g be => Sys2Proof.Machine.execDrbgDataRead g be s
  | .attestRequest req => Sys2Proof.Machine.execAttestRequest req s
  | .ed25519Sign msg => Sys2Proof.Machine.execEd25519Sign msg s
  | .ed25519Verify key msg sig => Sys2Proof.Machine.execEd25519Verify key msg sig s
  | .ecdsaSign hash => Sys2Proof.Machine.execEcdsaSign hash s
  | .ecdsaVerify key hash sig => Sys2Proof.Machine.execEcdsaVerify key hash sig s
  | .pkeComplete => Sys2Proof.Machine.execPkeComplete s
  | .plxEnable req => Sys2Proof.Machine.execPlxEnable req s
  | .plxTrainingDone link lanes0 lanes1 serial coord peer => Sys2Proof.Machine.execPlxTrainingDone link lanes0 lanes1 serial coord peer s
  | .plxCell pos cell corrected nak => Sys2Proof.Machine.execPlxCell pos cell corrected nak s
  | .plxRetrain pos => Sys2Proof.Machine.execPlxRetrain pos s
  | .plxRetrainDone pos lanes => Sys2Proof.Machine.execPlxRetrainDone pos lanes s
  | .plxLinkFailed pos => Sys2Proof.Machine.execPlxLinkFailed pos s
  | .timeCellSend now => Sys2Proof.Machine.execTimeCellSend now s
  | .timeCell pos cell now hops => Sys2Proof.Machine.execTimeCell pos cell now hops s
  | .systimeHoldover => Sys2Proof.Machine.execSystimeHoldover s
  | .windowHoldTest launch start stop => Sys2Proof.Machine.execWindowHoldTest launch start stop s
  | .exchangeCombine pos tag => Sys2Proof.Machine.execExchangeCombine pos tag s
  | .plxNotice pos cell => Sys2Proof.Machine.execPlxNotice pos cell s
  | .plxRecord pos cell => Sys2Proof.Machine.execPlxRecord pos cell s
  | .clkMuxSwitch data => Sys2Proof.Machine.execClkMuxSwitch data s
  | .clkMuxDone => Sys2Proof.Machine.execClkMuxDone s
  | .freqMeasure data => Sys2Proof.Machine.execFreqMeasure data s
  | .freqMeasureDone edges => Sys2Proof.Machine.execFreqMeasureDone edges s
  | .clkGateRequest data => Sys2Proof.Machine.execClkGateRequest data s
  | .domainOffRequest req => Sys2Proof.Machine.execDomainOffRequest req s
  | .domainOnRequest req => Sys2Proof.Machine.execDomainOnRequest req s
  | .domainOffDone d => Sys2Proof.Machine.execDomainOffDone d s
  | .domainOnDone d failed => Sys2Proof.Machine.execDomainOnDone d failed s
  | .tileReset data => Sys2Proof.Machine.execTileReset data s
  | .pwrWakeExpiry => Sys2Proof.Machine.execPwrWakeExpiry s
  | .mainSupplyReturn env => Sys2Proof.Machine.execMainSupplyReturn env s
  | .resetNRelease env => Sys2Proof.Machine.execResetNRelease env s
  | .entropyCellSample bits => Sys2Proof.Machine.execEntropyCellSample bits s
  | .grandmasterChange identity => Sys2Proof.Machine.execGrandmasterChange identity s
  | .pcieLinkTrainingDone us => Sys2Proof.Machine.execPcieLinkTrainingDone us s
  | .hostReadCompletion tag ok data tc => Sys2Proof.Machine.execHostReadCompletion tag ok data tc s
  | .busMasterEnableWrite cfg => Sys2Proof.Machine.execBusMasterEnableWrite cfg s

end Sys2Proof.Machine
end

