-- ==== Sys2Proof/WellFormed.lean ====
section
/-! DEFINITION. Which commands are well formed: their operands name units that the module has (R7, R26, R28, R33, R40, R90, R361, R441,
R490). -/

namespace Sys2Proof

/-- A position of the grid (R26). -/
def onGrid (p : Nat) : Bool := decide (p < 1536)
/-- An output of a router (R61). -/
def isOutput (o : Nat) : Bool := decide (o < 5)

/-- What a register command addresses, as far as the address itself says (R42, R462). -/
def RegAt.wf : RegAt → Bool
  | .bar0 off => decide (off < 0x10000) && off % 4 == 0
  | .dev a => a % 4 == 0

/-- A path has one of the four cores of the management complex, or the host (R41). -/
def Path.wf : Path → Bool
  | .host => true
  | .mgmt c => decide (c < 4)

/-- Well-formedness. -/
def Instr.wf : Instr → Bool
  | .commonsQueuedService cl b => decide (cl < 24) && decide (b < 16)
  | .bankHandoverRequest b _ => Machine.bankExists b
  | .bankOwnerChange b => Machine.bankExists b
  | .bankHandoverScrubDone b => Machine.bankExists b
  | .bankWake b => Machine.bankExists b
  | .bankScrubVisit b w => Machine.bankExists b && decide (w < Machine.bankWords b)
  | .windowStart p _ => onGrid p
  | .windowEnd p => onGrid p
  | .slotFwd p o _ _ => onGrid p && isOutput o
  | .combineAdd p o _ _ => onGrid p && isOutput o
  | .combineTopk p o _ _ => onGrid p && isOutput o
  | .combineBar p o _ _ => onGrid p && isOutput o
  | .combineFlag p o _ _ => onGrid p && isOutput o
  | .vcFlitForward p o _ _ => onGrid p && isOutput o
  | .vc3RecordRelease p _ _ => onGrid p
  | .ledgerRequest p _ => onGrid p
  | .ledgerGrant p => onGrid p
  | .colRetrain r _ => decide (r < 32)
  | .nop p _ => onGrid p
  | .waitt p _ => onGrid p
  | .loop p _ => onGrid p
  | .yield p _ => onGrid p
  | .haltf p _ => onGrid p
  | .send p _ => onGrid p
  | .recv p _ => onGrid p
  | .sendm p _ => onGrid p
  | .bar p _ => onGrid p
  | .barw p _ => onGrid p
  | .barwTimeout p _ => onGrid p
  | .flag p _ => onGrid p
  | .ldp p _ => onGrid p
  | .lac p _ => onGrid p
  | .ldcA p _ => onGrid p
  | .ldcB p _ => onGrid p
  | .ldcS p _ => onGrid p
  | .rsc p _ => onGrid p
  | .topk p _ => onGrid p
  | .vld p _ => onGrid p
  | .vst p _ => onGrid p
  | .vop p _ => onGrid p
  | .vlut p _ => onGrid p
  | .sampUniform p _ => onGrid p
  | .sampBernoulli p _ => onGrid p
  | .sampGaussian p _ => onGrid p
  | .sampMetropolis p _ => onGrid p
  | .sampHeatBath p _ => onGrid p
  | .dynStep p _ => onGrid p
  | .dynGroupTransfer p _ => onGrid p
  | .dynGroupRound p _ => onGrid p
  | .cats p _ => onGrid p
  | .qld p _ => onGrid p
  | .qmap p _ => onGrid p
  | .dinc p _ => onGrid p
  | .alu p _ => onGrid p
  | .alui p _ => onGrid p
  | .fpu p _ => onGrid p
  | .ld p _ => onGrid p
  | .st p _ => onGrid p
  | .br p _ => onGrid p
  | .sys p _ => onGrid p
  | .li p _ => onGrid p
  | .fls p _ => onGrid p
  | .memRead p => onGrid p
  | .memWrite p => onGrid p
  | .streamReadAhead p _ => onGrid p
  | .hashPassStart p _ => onGrid p
  | .hashPassDone p _ => onGrid p
  | .memTempRead p _ => onGrid p && Machine.isMemPort p
  | .registerWrite path at_ _ _ _ => path.wf && at_.wf
  | .rcRead path at_ _ _ => path.wf && at_.wf
  | .counterLoRead path at_ _ _ => path.wf && at_.wf
  | .icClaim proc n => decide (proc ≤ 4) && decide (n < 512)
  | .rxFrame p _ _ _ => decide (p < 8)
  | .portLinkChange p _ => decide (p < 8)
  | .arpRequest p _ => decide (p < 8)
  | .txFetch k _ => decide (k < 64)
  | .txDataDeadline k => decide (k < 64)
  | .txFrame k _ => decide (k < 64)
  | .healthFlit _ p => onGrid p
  | .selfTest p _ _ _ _ => onGrid p
  | .drbgDataRead g _ => decide (g < 256)
  | .plxTrainingDone link _ _ _ _ _ => decide (link < 6)
  | .plxCell p _ _ _ => Machine.isPlx p
  | .plxRetrain p => Machine.isPlx p
  | .plxRetrainDone p _ => Machine.isPlx p
  | .plxLinkFailed p => Machine.isPlx p
  | .timeCell p _ _ _ => Machine.isPlx p
  | .exchangeCombine p _ => Machine.isPlx p
  | .plxNotice p _ => Machine.isPlx p
  | .plxRecord p _ => Machine.isPlx p
  | .domainOffDone d => decide (d ≤ 52)
  | .domainOnDone d _ => decide (d ≤ 52)
  | _ => true

end Sys2Proof
end

