-- ==== Sys2Proof/Safety.lean ====
section
/-! DEFINITION. What claims call a well-kept state, and the words that claims about commands share: that an instruction issues, that a
request is granted, and what a command leaves as it was. -/

namespace Sys2Proof.Machine

/-! ## Well-kept states -/

/-- The memory keeps its canonical form. -/
def State.memOk (s : State) : Prop := memWf s.mem = true

/-- The tables that are kept by key list their keys in rising order: equal tables are equal data. -/
def State.keyed (s : State) : Prop :=
  keysRise s.od = true ∧ keysRise s.bar0 = true ∧ keysRise s.spent = true ∧ keysRise s.chunks = true ∧ keysRise s.host.irq = true ∧
    keysRise s.serv.sessions = true ∧ keysRise s.vc3Held = true

/-- While any cause of R392 is set, both safety outputs are low (R391, R393). -/
def State.outsOk (s : State) : Prop := s.safety.causes ≠ 0 → s.safety.outs = false

/-- The byte at a device address. -/
def byteAt (s : State) (a : Nat) : Byte := memRead s.mem a

/-! ## What a command leaves as it was -/

/-- Nothing but interrupts and what is sent out. -/
def OnlyHost (s t : State) : Prop := t = { s with host := t.host, out := t.out }

/-- Every register of a tile or commons window but those of a list reads as before. -/
def WinKept (except : List Nat) (s t : State) : Prop := ∀ a, regHome a ∉ except.map regHome → winGet t a = winGet s a

/-- Every dictionary entry but those of a list is as before. -/
def OdKept (except : List (Nat × Nat)) (s t : State) : Prop :=
  ∀ k, k ∉ except.map (fun p => odKey p.1 p.2) → kget t.od k = kget s.od k

/-- Every BAR0 register but those of a list reads as before. -/
def BarKept (except : List Nat) (s t : State) : Prop := ∀ a, a ∉ except → barGet t a = barGet s a

/-- Every tile but one is as before. -/
def TilesKept (pos : Nat) (s t : State) : Prop := ∀ q, q ≠ pos → kget t.tiles q = kget s.tiles q

/-- Every byte of memory outside n bytes at an address is as before. -/
def MemKept (a n : Nat) (s t : State) : Prop := ∀ i, (i < a ∨ a + n ≤ i) → byteAt t i = byteAt s i

/-- Every byte of memory outside a list of ranges (address and length) is as before. -/
def MemKeptAll (l : List (Nat × Nat)) (s t : State) : Prop :=
  ∀ i, (∀ r ∈ l, i < r.1 ∨ r.1 + r.2 ≤ i) → byteAt t i = byteAt s i

/-- Arrivals of a list of interrupt sources, and no other change of the interrupt controller (R476). -/
def Arrived (l : List Nat) (s t : State) : Prop :=
  t.host = { s.host with irq := t.host.irq, vpend := t.host.vpend, pba := t.host.pba } ∧
    ∀ n, kgetD t.host.irq n 0 = if n ∈ l then satAdd 255 (kgetD s.host.irq n 0) (l.count n) else kgetD s.host.irq n 0

/-! ## Instructions of tiles (R226 to R232) and what comes due (log entry 12) -/

/-- The state that an instruction of a plan tc meets: the frame has reached that tc. The management complex runs in no plan tc (R261). -/
def reached (s : State) (pos tc : Nat) : State := if mgmtTiles.contains pos then s else advance tc s

/-- The next instruction of the tile at a position is the one with this opcode, its reserved bits are zero, and it issues in the plan
tc, in the context c: no earlier tc than the frame has reached, and the first in which its registers and units are ready (R226). -/
def Issues (s : State) (pos tc opc reserved : Nat) (c : Ctx) : Prop :=
  pos < 1536 ∧ (mgmtTiles.contains pos = false → s.now ≤ tc) ∧ fetch (reached s pos tc) pos tc opc reserved = .go c ∧
    (c.free = false → issueTc (reached s pos tc) c = some tc)

/-- Acts of an instruction under way, each so many tc after its issue. -/
def underWay (c : Ctx) (l : List (Nat × Act)) (s : State) : State := l.foldl (fun t x => sched c x.1 x.2 t) s

/-- Acts under way, each so many tc from now. -/
def dueIn (c : Ctx) (l : List (Nat × Act)) (s : State) : State := l.foldl (fun t x => schedIn c x.1 x.2 t) s

/-- An instruction has issued, and its acts are under way; those of the management complex are done at once (R261). -/
def issued (c : Ctx) (l : List (Nat × Act)) (s : State) : State := if c.free then settle (underWay c l s) else underWay c l s

/-- A tile whose instruction has issued: the next one stands after it and issues `cost` tc later at the earliest (R226, R228). -/
def tileAfter (c : Ctx) (cost : Nat) (t : Tile) : Tile :=
  { t with pc := (nextPc t.pc t.loops).1, loops := (nextPc t.pc t.loops).2, tc := c.tc + cost, clearing := false }

/-- An instruction that issues changes its own tile and no other: beside it only the tile's counters and its launch's progress. -/
def TileFrame (pos : Nat) (s t : State) : Prop :=
  t = { s with tiles := t.tiles, win := t.win, fe := t.fe } ∧ TilesKept pos s t ∧
    t.fe = { s.fe with ops := t.fe.ops } ∧
    ∀ a, (a < tileBase pos ∨ tileBase pos + 0x100000 ≤ a) → kget t.win a = kget s.win a

/-- One item of a tile that runs in plan time is what comes due next, in a tc in which nothing else does; the rest of the agenda is
later. -/
def Alone (s : State) (x : Item) (l : List Item) : Prop :=
  s.agenda = x :: l ∧ s.now ≤ x.tc ∧ (∀ y ∈ l, x.tc < y.tc) ∧ x.c.pos < 1536 ∧ x.c.free = false

/-- The state in which it comes due: the frame has reached its tc, and the item is no longer under way. -/
def dueState (s : State) (x : Item) (l : List Item) : State := { s with now := x.tc, agenda := l }

/-- Port A serves an access of a glove to a word: the word is there, the bank is ON, and the glove owns it (R44,
R52, R351). -/
def Served (s : State) (g b w : Nat) : Prop := w < bankWords b ∧ bankState s b = 3 ∧ bankOwner s b = g

/-- The word that a read finds, and its uncorrectable lanes (R45). -/
def wordAt (s : State) (b w : Nat) : Nat × Nat := (loadNat s (wordAddr b w) 64, eccMask s (wordAddr b w))

/-- A read of port A has been served: beside what port B of that bank has yet to meet, uncorrectable lanes alone leave a trace, the check
latch and source 141 (R47, R397, R409). -/
def AfterRead (s : State) (x : Item) (l : List Item) (bad : Nat) (u : State) : Prop :=
  u = { dueState s x l with bank := u.bank, tiles := u.tiles, host := u.host, out := u.out } ∧
    (bad = 0 → u.tiles = s.tiles ∧ u.host = s.host ∧ u.out = s.out) ∧ (bad ≠ 0 → irqPending u 141 = true) ∧
    ∀ k, tileOf u k = { tileOf s k with slots := (tileOf u k).slots }

/-! ## Requests of the dictionary service (R378 to R385) -/

/-- The state in which a request is decided: what waited before it is finished. -/
def decided (s : State) : State := serveNext s

/-- A write to an entry with behaviour of its own is granted: its transport carries the service, the checks of R382 pass, and the
entry's own rule does. -/
def Granted (e : OwnEntry) (req : OdReq) (s : State) : Prop :=
  e.covers req = true ∧ carries s req.via = true ∧ odWriteAbort (decided s) req = 0 ∧ e.rule req (decided s) = 0

/-- The state in which an accepted request takes effect: what waited before it is finished, and its record is stored where its entry is
logged (R383, R385). -/
def recorded (req : OdReq) (s : State) : State :=
  if needsRecord req 0 then auditStore (auditOf (decided s) req 0) (decided s) else decided s

/-- After the effect of a request, its answer may change the mailbox and raise source 334, and nothing else (R381, R473). -/
def AnswerOf (u t : State) : Prop := t = { u with serv := { u.serv with odm := t.serv.odm }, bar0 := t.bar0, host := t.host, out := t.out }

/-- A request is answered: one response, with the request's fields, goes out. -/
def Answered (req : OdReq) (abort : Nat) (data : List Byte) (t : State) : Prop :=
  .odResponse req.via req.tag req.session req.index req.sub abort data ∈ t.out

/-! ## Host writes and ops (R315, R461) -/

/-- The module has posted a write of host memory: sent, or held while Bus Master Enable is 0 (R461). -/
def Posted (a : Nat) (d : List Byte) (t : State) : Prop :=
  if t.host.busMaster then .hostWrite a d ∈ t.out else (a, d) ∈ t.host.held

/-- An op has left the table with a status: unless it is an orphan, the status is written to its descriptor (R315). -/
def OpDone (k st : Nat) (o : Op) (s t : State) : Prop :=
  kget t.fe.ops k = none ∧
    ∀ b, s.fe.bufs.find? (fun x => x.seq == keySeq k) = some b → o.orphan = false → Posted (b.addr + 64 * keyIdx k + 14) (leBytes 2 st) t

/-! ## Problems (R165 to R168, R210 to R216) -/

/-- Where a problem's checkpoints and its end write (R170, R327): its states, its best state, its ring, its summaries, its statistics,
and its frame output. -/
def outputRanges (c : ProbCtx) : List (Nat × Nat) :=
  [(c.addr 1, c.img.replicas * setBytes c.img), (c.addr 2, bitBytes c.img), (c.addr 3, 32 * c.img.recordCap), (c.addr 4, 128)] ++
    (match c.blk with
      | some b => [(c.addr 5, 8 * counterCount c.img b)]
      | none => []) ++
    (match c.data.output with
      | some a => [(a, 64 * ((8 * ((c.img.nvar + 63) / 64) + 103) / 64))]
      | none => [])

/-- The energies of a problem's rounded states, replica by replica, without and with OFFSET (R147, R160). -/
def bareEnergies (c : ProbCtx) (sets : List (List Byte)) : List Int := sets.map fun x => bareEnergy c (roundSet c x)
def energies (c : ProbCtx) (sets : List (List Byte)) : List Int := sets.map fun x => energyOf c (roundSet c x)

/-- The words of a problem's counters, as ranges. -/
def counterRanges (p : ProbSt) : List (Nat × Nat) := p.counters.map fun x => (wordAddr x.1 x.2, 64)

end Sys2Proof.Machine
end

