-- ==== Sys2Proof/Certificates/Slice0/Obligations.lean ====
section
/-! DEFINITION. What is claimed of the model, for the provers: the rules of the manual that say what a command does. -/

open Sys2Proof Sys2Proof.Machine

/-- A step runs the command at the front of the queue, first in, first out; on an empty queue the block idles (00_scope.md, 95_what_each_step_holds.md). -/
def Obligations.StepRunsFrontCommand : Prop :=
  (∀ (c : Instr) (s : State) (rest : List Instr), step { s with pending := c :: rest } = exec c { s with pending := rest }) ∧
    ∀ s : State, step { s with pending := [] } = .next { s with pending := [] }

/-- Before start-up nothing runs: no domain is on, both safety outputs are low for the cause START, and registers hold their reset values (R8, R53, R391, R395, R460, R490, R501). -/
def Obligations.ResetLeavesTheManualsValues : Prop :=
  State.reset.pending = [] ∧ State.reset.plat.aux = false ∧ State.reset.plat.ready = false ∧ State.reset.mem = [] ∧
    (∀ d, d ≤ 52 → domainState State.reset d = 0) ∧ domainState State.reset 53 = 2 ∧
    State.reset.safety.outs = false ∧ State.reset.safety.causes = 1 ∧ (∀ b, bankState State.reset b = 0) ∧
    (∀ g, 1 ≤ g → g ≤ 255 → odGet State.reset 0x3001 g = 0) ∧ admittedLaunches State.reset = [] ∧
    (∀ n, irqPending State.reset n = false) ∧ (∀ off, barGet State.reset off = barReset off) ∧
    (∀ a, winGet State.reset a = winReset (regHome a)) ∧ State.reset.memOk ∧ State.reset.keyed ∧ State.reset.outsOk

/-- Every step, whatever its command, keeps the canonical form of the memory and of the keyed tables (R43, R44, R287, R378, 02_tile_grid_and_banks.md, 11_memory_tiers.md). -/
def Obligations.EveryStepKeepsMemorysForm : Prop :=
  ∀ s t : State, step s = .next t → (s.memOk → t.memOk) ∧ (s.keyed → t.keyed)

/-- No step raises the safety outputs while a cause of safe state is set (R391, R393, R394, R395). -/
def Obligations.SafetyOutputsStayLowWhileACauseIsSet : Prop :=
  ∀ s t : State, s.outsOk → step s = .next t → t.outsOk

/-- No step changes a fuse or takes a record from the audit log's count (R31, R384, R385, R429, R496). -/
def Obligations.FusesStayAndTheAuditLogOnlyGrows : Prop :=
  ∀ (c : Instr) (s t : State), exec c s = .next t →
    t.plat.fuse = s.plat.fuse ∧ s.serv.auditCount ≤ t.serv.auditCount ∧ t.pending = s.pending

/-- Every command completes in every state, and one that names a unit the module has not changes nothing (R7, R26, R28, R42, R412, R464, 95_what_each_step_holds.md). -/
def Obligations.EveryCommandCompletesInEveryState : Prop :=
  ∀ (c : Instr) (s : State), (∃ t, exec c s = .next t) ∧ (c.wf = false → exec c s = .next s)

/-- NOP, WAITT, LOOP, YIELD and HALTF complete with the tile's next place, its next tc and nothing else (R226, R228, R231, R233, R259, R261, R263). -/
def Obligations.ControlInstructionsComplete : Prop :=
  ∀ (s : State) (pos tc : Nat) (c : Ctx),
    let r := reached s pos tc
    let T := tileOf r pos
    (Issues s pos tc 0x00 (bits 57 16) c →
      ∃ t u, exec (.nop pos tc) s = .next t ∧ t = issued c [] u ∧ tileOf u pos = tileAfter c (c.f 0 16 + 1) T ∧ TileFrame pos r u) ∧
    (Issues s pos tc 0x01 (bits 57 32) c → c.f 0 32 < c.stop →
      ∃ t, exec (.waitt pos tc) s = .next t ∧ TileFrame pos r t ∧
        (c.tc ≤ c.f 0 32 → tileOf t pos = tileAfter c (max 1 (c.f 0 32 - c.tc)) T) ∧
        (c.f 0 32 < c.tc → tileOf t pos = tileAfter c 1 T ∧
          fld (winGet t (tileBase pos + 0xF2018)) 24 8 = satAdd 255 (fld (winGet r (tileBase pos + 0xF2018)) 24 8) 1)) ∧
    (Issues s pos tc 0x03 (bits 57 0) c →
      ∃ t u, exec (.yield pos tc) s = .next t ∧ t = issued c [] u ∧ tileOf u pos = { tileAfter c 1 T with ended := true } ∧ TileFrame pos r u) ∧
    (Issues s pos tc 0x04 (bits 57 9) c →
      ∃ t, exec (.haltf pos tc) s = .next t ∧ TileFrame pos r t ∧
        tileOf t pos = if bitOf T.fl (c.f 0 9) then
            { tileAfter c 1 T with slots := kadj T.slots c.lslot fun x =>
                { x with dry := max x.dry 1, dryIn := if x.dry = 0 then r.frame.boundaries else x.dryIn } }
          else tileAfter c 1 T) ∧
    (T.loops.length < 4 → T.pc + (c.f 24 12 + 1) < storeWords (kindOf pos) →
      (Issues s pos tc 0x02 (bits 57 36) c → (mgmtTiles.contains pos && bitOf c.word 0) = false →
        ∃ t u, exec (.loop pos tc) s = .next t ∧ t = issued c [] u ∧ TileFrame pos r u ∧
          tileOf u pos = { T with
            pc := T.pc + 1, tc := c.tc + 1, clearing := false
            loops := ⟨T.pc + 1, T.pc + (c.f 24 12 + 1), c.f 0 24⟩ :: T.loops }) ∧
      (Issues s pos tc 0x02 (bits 57 42 ||| bits 36 36) c → mgmtTiles.contains pos = true → bitOf c.word 0 = true →
        gPoison T (c.f 37 5) = false →
        ∃ t u, exec (.loop pos tc) s = .next t ∧ t = issued c [] u ∧ TileFrame pos r u ∧
          tileOf u pos = if gGet T (c.f 37 5) = 0 then { T with
              pc := (nextPc (T.pc + (c.f 24 12 + 1)) T.loops).1
              loops := (nextPc (T.pc + (c.f 24 12 + 1)) T.loops).2
              tc := c.tc + 1, clearing := false }
            else { T with
              pc := T.pc + 1, tc := c.tc + 1, clearing := false
              loops := ⟨T.pc + 1, T.pc + (c.f 24 12 + 1), gGet T (c.f 37 5) - 1⟩ :: T.loops }))

/-- BAR, FLAG and SEND hand their flits to the router at the tc the manual gives (R84, R85, R105, R233, R235, R236, R259, R263). -/
def Obligations.HandOffInstructionsComplete : Prop :=
  (∀ (s : State) (pos tc : Nat) (c : Ctx),
    let r := reached s pos tc
    let T := tileOf r pos
    let flit (bar poison : Bool) (data : Nat) : Flit := ⟨c.glove, c.f 20 12, poison || c.dry == 2, bar, data, false⟩
    (Issues s pos tc 0x08 (bits 57 32 ||| bits 19 16) c →
      ∃ t u, exec (.bar pos tc) s = .next t ∧ tileOf u pos = tileAfter c 1 T ∧ TileFrame pos r u ∧
        t = issued c [(1, .hand (flit true false (1 + 2 ^ 64 * ((sysAt r tc % 2 ^ 48) * 2 ^ 16 + c.f 0 16))))] u) ∧
    (Issues s pos tc 0x0A (bits 57 32 ||| bits 19 0) c →
      ∃ t u, exec (.flag pos tc) s = .next t ∧ t = issued c [(1, .hand (flit false false T.fl))] u ∧ tileOf u pos = tileAfter c 1 T ∧
        TileFrame pos r u) ∧
    (Issues s pos tc 0x05 (bits 19 0) c → c.f 56 2 = 2 → c.f 32 8 = 0 →
      ∃ t u, exec (.send pos tc) s = .next t ∧ t = issued c [(1, .hand (flit false false T.fl))] u ∧ tileOf u pos = tileAfter c 1 T ∧
        TileFrame pos r u) ∧
    (Issues s pos tc 0x05 (bits 19 0) c → c.f 56 2 = 3 → blockHas (kindOf pos) (c.f 32 8 + 1) = true →
      ∃ t u, exec (.send pos tc) s = .next t ∧ tileOf u pos = tileAfter c 1 T ∧ TileFrame pos r u ∧
        t = issued c ((List.range (c.f 32 8 + 1)).map fun j =>
          let w := if kindOf pos = .v then (vxRead T (c.f 40 4) j, vxPoison T (c.f 40 4)) else (gBlock T, (span 24 8).any (gPoison T))
          (1 + j, .hand (flit false w.2 w.1))) u) ∧
    (Issues s pos tc 0x05 (bits 19 0) c → c.f 56 2 < 2 →
      let a := addrBank pos (c.f 56 2 == 1) (c.f 40 16)
      ∃ t u, exec (.send pos tc) s = .next t ∧ tileOf u pos = tileAfter c 1 T ∧ TileFrame pos r u ∧
        t = issued c [(if c.f 56 2 = 1 then 2 else 1, .read a.1 a.2 0 [] 0)] u)) ∧
  (∀ (s : State) (x : Item) (l : List Item) (b w j arg : Nat) (got : List (Nat × Nat)), Alone s x l → x.c.f 58 6 = 0x05 → x.act = .read b w j got arg →
    Served s x.c.glove b w →
    let d := wordAt s b w
    ∃ u, AfterRead s x l d.2 u ∧
      advance x.tc s = dueIn x.c ((if x.c.f 56 2 = 1 then 3 else 1, .hand ⟨x.c.glove, x.c.f 20 12, d.2 != 0 || x.c.dry == 2, false, d.1, false⟩) ::
        if j < x.c.f 32 8 then [(1, .read b (w + 1) (j + 1) (got ++ [(0, d.2)]) arg)] else []) u) ∧
  ∀ (s : State) (x : Item) (l : List Item) (f : Flit), Alone s x l → x.act = .hand f →
    let pos := x.c.pos
    let t := advance x.tc s
    let u := dueState s x l
    ((tileOf s pos).inj.length < 8 → TileFrame pos u t ∧ tileOf t pos = { tileOf s pos with inj := (tileOf s pos).inj ++ [(x.tc + 2, f)] }) ∧
    (8 ≤ (tileOf s pos).inj.length → t.tiles = s.tiles ∧ t.agenda = l ∧ t.mem = s.mem ∧
      fld (winGet t (tileBase pos + 0xF2018)) 20 4 = satAdd 15 (fld (winGet s (tileBase pos + 0xF2018)) 20 4) 1)

/-- RECV, BARW and its time-out, LDP and SENDM complete (R105, R233, R235, R239, R242, R263, R518). -/
def Obligations.WaitingInstructionsComplete : Prop :=
  (∀ (s : State) (pos tc : Nat) (c : Ctx),
    let r := reached s pos tc
    let T := tileOf r pos
    (Issues s pos tc 0x06 (bits 31 0) c →
      (c.f 56 2 = 0 ∨ (c.f 56 2 = 1 ∧ c.f 32 8 = 0) ∨ (c.f 56 2 = 2 ∧ blockHas (kindOf pos) (c.f 32 8 + 1) = true)) →
      ∃ t, exec (.recv pos tc) s = .next t ∧ TileFrame pos r t ∧
        tileOf t pos = { tileAfter c 1 T with recv := some ⟨c, 0, c.f 32 8 + 1, false⟩ }) ∧
    (Issues s pos tc 0x09 (bits 57 56 ||| bits 19 0) c →
      ∃ t, exec (.barw pos tc) s = .next t ∧ TileFrame pos r t ∧
        tileOf t pos = { T with barw := some (c.f 20 12), tc := c.tc, clearing := false }) ∧
    (Issues s pos tc 0x0B (bits 33 0) c → c.f 56 2 < 2 → c.f 36 4 + 4 * (c.f 34 2 + 1) ≤ 16 →
      let a := addrBank pos (c.f 56 2 == 1) (c.f 40 16)
      let n := c.f 34 2 + 1
      ∃ t u, exec (.ldp pos tc) s = .next t ∧ tileOf u pos = tileAfter c 1 T ∧ TileFrame pos r u ∧
        t = issued c [(if c.f 56 2 = 1 then 2 else 1, .read a.1 a.2 0 [] 0),
          if kindOf pos = .v then (n, .free unitPortA) else (if c.f 56 2 = 1 then n else n + 1, .free unitLoad)] u) ∧
    (Issues s pos tc 0x07 (bits 39 0) c →
      let a := addrBank pos (bitOf c.word 56) (c.f 40 16)
      ∃ t u, exec (.sendm pos tc) s = .next t ∧ tileOf u pos = tileAfter c 1 T ∧ TileFrame pos r u ∧
        t = issued c [(if bitOf c.word 56 then 2 else 1, .read a.1 a.2 0 [] T.msgq.length)] u)) ∧
  (∀ (s : State) (pos tc : Nat) (c : Ctx), pos < 1536 → s.now ≤ tc → muxStopped s 0 = false →
    let r := advance tc s
    let T := tileOf r pos
    T.barw.isSome = true → arrivalCtx r pos tc = some c → dryNow r c = 0 → tc = T.tc + fld (kgetD T.store T.pc 0) 32 24 →
    bitOf (winGet r (tileBase pos + 0xF2000)) 31 = false → c.glove < 256 → c.win < 64 → c.lslot < 16 →
    ∃ t, exec (.barwTimeout pos tc) s = .next t ∧ (tileOf t pos).barw = none ∧ (tileOf t pos).tc = tc + 1 ∧
      (tileOf t pos).pc = (nextPc T.pc T.loops).1 ∧ (tileOf t pos).loops = (nextPc T.pc T.loops).2 ∧
      fld (winGet t (tileBase pos + 0xF2000)) 0 8 = 11 ∧ bitOf (winGet t (tileBase pos + 0xF2000)) 31 = true ∧ t.mem = r.mem) ∧
  (∀ (s : State) (x : Item) (l : List Item) (b w j arg : Nat) (got : List (Nat × Nat)), Alone s x l → x.act = .read b w j got arg →
    Served s x.c.glove b w →
    let c := x.c
    let d := wordAt s b w
    (c.f 58 6 = 0x0B →
      ∃ u, AfterRead s x l d.2 u ∧
        advance x.tc s = dueIn c (((List.range 4).map fun k =>
            (if c.f 56 2 = 1 then 5 else 2, .land (.pm (c.f 36 4 + 4 * j + k) (fld d.1 (128 * k) 128) (d.2 != 0)))) ++
          if j < c.f 34 2 then [(1, .read b (w + 1) (j + 1) (got ++ [(0, d.2)]) arg)] else []) u) ∧
    (c.f 58 6 = 0x07 → j = 0 → got = [] →
      let h := msgHead d.1
      h.bad = false → 1 ≤ h.ndata → h.ndata ≤ 256 → h.kind = 0 → c.dry = 0 →
      (arg + h.ndata + 1 ≤ 512 →
        ∃ u, AfterRead s x l d.2 u ∧ advance x.tc s = dueIn c [(1, .read b (w + 1) 1 [d] arg)] u) ∧
      (512 < arg + h.ndata + 1 →
        (advance x.tc s).agenda = l ∧ tileOf (advance x.tc s) c.pos = { tileOf s c.pos with slots := (tileOf (advance x.tc s) c.pos).slots } ∧
        fld (winGet (advance x.tc s) (tileBase c.pos + 0xF2018)) 8 8 = satAdd 255 (fld (winGet s (tileBase c.pos + 0xF2018)) 8 8) 1)) ∧
    (∀ hd words, c.f 58 6 = 0x07 → 0 < j → got = hd :: words →
      let h := msgHead hd.1
      (j < h.ndata → ∃ u, AfterRead s x l d.2 u ∧ advance x.tc s = dueIn c [(1, .read b (w + 1) (j + 1) (got ++ [d]) arg)] u) ∧
      (h.ndata = j → h.kind = 0 → c.dry = 0 → h.dead s.plat.fuse c.pos = [] →
        ∃ u, AfterRead s x l d.2 u ∧
          advance x.tc s = queueFlits c.pos (messageFlits u c (c.f 57 1 + 1) h (hd.2 != 0) (words ++ [d])) u))) ∧
  ∀ (s : State) (x : Item) (l : List Item) (i v : Nat) (p : Bool), Alone s x l → x.act = .land (.pm i v p) →
    advance x.tc s = setTile x.c.pos { pmSet i v p (tileOf s x.c.pos) with
      ready := kput (tileOf s x.c.pos).ready (16 + i) x.tc } (dueState s x l)

/-- ALU, ALUI, LI, FLS and SYS write their result register and nothing but their tile (R226, R249, R250, R253, R254, R255, R261, R277). -/
def Obligations.IntegerInstructionsWriteTheirResult : Prop :=
  (∀ (s : State) (pos tc x : Nat) (c : Ctx),
    let r := reached s pos tc
    let T := tileOf r pos
    let fine (l : List Nat) : Prop := c.dry ≠ 0 ∨ readsPoison c r l = false
    (Issues s pos tc 0x30 (bits 36 0) c → fine [c.f 42 5, c.f 37 5] →
      aluResult (c.f 52 6) (gGet T (c.f 42 5)) (gGet T (c.f 37 5)) = some x →
      ∃ t u, exec (.alu pos tc) s = .next t ∧ tileOf u pos = tileAfter c 1 T ∧ TileFrame pos r u ∧
        t = issued c [(if c.f 52 6 = 8 ∨ c.f 52 6 = 9 ∨ c.f 52 6 = 10 then 3 else if 11 ≤ c.f 52 6 ∧ c.f 52 6 ≤ 14 then 34 else 1,
          .land (.g (c.f 47 5) x (readsPoison c r [c.f 42 5, c.f 37 5])))] u) ∧
    (Issues s pos tc 0x31 (bits 9 0) c → fine [c.f 42 5] →
      aluResult (c.f 52 6) (gGet T (c.f 42 5)) (unsigned 64 (signed 32 (c.f 10 32))) = some x →
      ∃ t u, exec (.alui pos tc) s = .next t ∧ tileOf u pos = tileAfter c 1 T ∧ TileFrame pos r u ∧
        t = issued c [(if c.f 52 6 = 8 ∨ c.f 52 6 = 9 ∨ c.f 52 6 = 10 then 3 else if 11 ≤ c.f 52 6 ∧ c.f 52 6 ≤ 14 then 34 else 1,
          .land (.g (c.f 47 5) x (readsPoison c r [c.f 42 5])))] u) ∧
    (Issues s pos tc 0x37 (bits 57 53 ||| bits 46 32) c → bitOf c.word 47 = true → fine [c.f 48 5] →
      ∃ t u, exec (.li pos tc) s = .next t ∧ tileOf u pos = tileAfter c 1 T ∧ TileFrame pos r u ∧
        t = issued c [(1, .land (.g (c.f 48 5) (fld (gGet T (c.f 48 5)) 0 32 + c.f 0 32 * 2 ^ 32) (readsPoison c r [c.f 48 5])))] u) ∧
    (Issues s pos tc 0x37 (bits 57 53 ||| bits 46 32) c → bitOf c.word 47 = false →
      ∃ t u, exec (.li pos tc) s = .next t ∧ tileOf u pos = tileAfter c 1 T ∧ TileFrame pos r u ∧
        t = issued c [(1, .land (.g (c.f 48 5) (unsigned 64 (signed 32 (c.f 0 32))) false))] u) ∧
    (Issues s pos tc 0x38 (bits 42 0) c → bitOf c.word 43 = true →
      ∃ t u, exec (.fls pos tc) s = .next t ∧ tileOf u pos = tileAfter c 1 T ∧ TileFrame pos r u ∧
        t = issued c [(1, .land (.g (c.f 44 5) (ofBool (bitOf T.fl (c.f 49 9))) false))] u) ∧
    (Issues s pos tc 0x38 (bits 42 0) c → bitOf c.word 43 = false → fine [c.f 44 5] →
      ∃ t u, exec (.fls pos tc) s = .next t ∧ tileOf u pos = tileAfter c 1 T ∧ TileFrame pos r u ∧
        t = issued c [(1, .land (.flBit (c.f 49 9) (gGet T (c.f 44 5) != 0)))] u) ∧
    (Issues s pos tc 0x36 (bits 55 53 ||| bits 31 0) c → (bitOf c.word 56 = true → c.free = true ∧ watchHit r = true) → bitOf c.word 57 = false →
      c.f 32 16 < 5 →
      ∃ t u, exec (.sys pos tc) s = .next t ∧ tileOf u pos = { tileAfter c 1 T with waiti := false } ∧ TileFrame pos r u ∧
        t = issued c [(1, .land (.g (c.f 48 5) (match c.f 32 16 with
          | 0 => c.tc
          | 1 => c.glove
          | 2 => c.win
          | 3 => ofBool (kgetD T.slots c.lslot SlotSt.blank).ctl
          | _ => T.s.fp) false))] u) ∧
    (Issues s pos tc 0x36 (bits 55 53 ||| bits 31 0) c → bitOf c.word 56 = false → bitOf c.word 57 = false → c.f 32 16 = 5 ∨ c.f 32 16 = 6 →
      runsRelaxed c r = true →
      ∃ t u, exec (.sys pos tc) s = .next t ∧ tileOf u pos = { tileAfter c 1 T with waiti := false } ∧ TileFrame pos r u ∧
        t = { issued c [(1, .land (.g (c.f 48 5) (if c.f 32 16 = 5 then odGet r 0x2100 3 else sysAt r c.tc) false))] u with
          launches := t.launches, od := t.od } ∧
        (∀ l, kget r.launches c.launch = some l → kget t.launches c.launch = some { l with nd := satAdd (2 ^ 64 - 1) l.nd 1 }) ∧
        ∀ k, k ≠ c.launch → kget t.launches k = kget r.launches k) ∧
    (Issues s pos tc 0x36 (bits 55 53 ||| bits 31 0) c → (bitOf c.word 56 = true → c.free = true ∧ watchHit r = true) → bitOf c.word 57 = true →
      c.f 32 16 = 4 → fine [c.f 48 5] →
      ∃ t u, exec (.sys pos tc) s = .next t ∧ tileOf u pos = { tileAfter c 1 T with waiti := false } ∧ TileFrame pos r u ∧
        t = issued c [(1, .land (.fp (gGet T (c.f 48 5) % 32)))] u) ∧
    (Issues s pos tc 0x36 (bits 55 53 ||| bits 31 0) c → bitOf c.word 56 = true → c.free = true → watchHit r = false →
      ∃ t u, exec (.sys pos tc) s = .next t ∧ t = issued c [] u ∧ tileOf u pos = { T with waiti := true } ∧ TileFrame pos r u) ∧
    (Issues s pos tc 0x30 (bits 36 0) c → c.free = true → (∀ y ∈ s.agenda, s.now < y.tc) → readsPoison c s [c.f 42 5, c.f 37 5] = false →
      aluResult (c.f 52 6) (gGet T (c.f 42 5)) (gGet T (c.f 37 5)) = some x →
      ∃ t, exec (.alu pos tc) s = .next t ∧ t.agenda = s.agenda ∧ t.mem = s.mem ∧ TilesKept pos s t ∧
        tileOf t pos = { gSet (c.f 47 5) x false (tileAfter c 1 T) with ready := kput T.ready (32 + c.f 47 5) s.now })) ∧
  ∀ (s : State) (x : Item) (l : List Item), Alone s x l →
    let T := tileOf s x.c.pos
    let put (key : Nat) (u : Tile) : State := setTile x.c.pos { u with ready := kput T.ready key x.tc } (dueState s x l)
    (∀ i v p, x.act = .land (.g i v p) → advance x.tc s = put (32 + i) (gSet i v p T)) ∧
    (∀ b v, x.act = .land (.flBit b v) → advance x.tc s = put 64 { T with fl := putFld T.fl b 1 (ofBool v) }) ∧
    (∀ v, x.act = .land (.fp v) → advance x.tc s = put 68 { T with s := { T.s with fp := v } })

/-- The integer functions: wrapping sums, signed and unsigned order, and division that never faults (R6, R250). -/
def Obligations.IntegerFunctionsOfR250 : Prop :=
  ∀ a b : Nat, a < 2 ^ 64 → b < 2 ^ 64 →
    (∃ d, aluResult 0 a b = some ((a + b) % 2 ^ 64) ∧ aluResult 1 ((a + b) % 2 ^ 64) b = some d ∧ d = a) ∧
    (aluResult 5 a b = some (a * 2 ^ (b % 64) % 2 ^ 64) ∧ aluResult 6 a b = some (a / 2 ^ (b % 64))) ∧
    (∃ v, aluResult 7 a b = some v ∧ signed 64 v = signed 64 a / 2 ^ (b % 64)) ∧
    (∃ lo hi, aluResult 8 a b = some lo ∧ aluResult 10 a b = some hi ∧ hi * 2 ^ 64 + lo = a * b) ∧
    (b = 0 → aluResult 11 a b = some (2 ^ 64 - 1) ∧ aluResult 12 a b = some (2 ^ 64 - 1) ∧
      aluResult 13 a b = some a ∧ aluResult 14 a b = some a) ∧
    (b ≠ 0 → ∃ q r, aluResult 12 a b = some q ∧ aluResult 14 a b = some r ∧ q * b + r = a ∧ r < b) ∧
    (a = 2 ^ 63 → b = 2 ^ 64 - 1 → aluResult 11 a b = some (2 ^ 63) ∧ aluResult 13 a b = some 0) ∧
    (aluResult 15 a b = some 1 ↔ signed 64 a < signed 64 b) ∧ (aluResult 16 a b = some 1 ↔ a < b) ∧
    (aluResult 17 a b = some 1 ↔ a = b) ∧ ∀ fn, 17 < fn → aluResult fn a b = none

/-- FPU, LD, ST and BR complete with their result, their stored bytes, or their target (R46, R105, R227, R229, R250, R251, R252, R261). -/
def Obligations.FloatLoadStoreAndBranchComplete : Prop :=
  (∀ (s : State) (pos tc : Nat) (c : Ctx),
    let r := reached s pos tc
    let T := tileOf r pos
    let a := addrPlace pos (c.f 56 2 == 1) (memAddr c T)
    let lag := if c.f 56 2 = 1 then 2 else 1
    (∀ o, Issues s pos tc 0x32 (bits 36 0) c → c.dry ≠ 0 ∨ readsPoison c r (fpuReads c) = false →
      fpuResult (c.f 52 6) (gGet T (c.f 42 5)) (gGet T (c.f 37 5)) = some o →
      ∃ t u k, exec (.fpu pos tc) s = .next t ∧ (k = 0 ∨ (o.tiny = true ∧ k = fpUnderflow)) ∧
        TileFrame pos { r with freeCtr := r.freeCtr + ofBool o.tiny } u ∧ tileOf u pos = tileAfter c 1 T ∧
        t = issued c [(fpuLatency (c.f 52 6), .land (.g (c.f 47 5) o.bits (readsPoison c r (fpuReads c)))),
          (fpuLatency (c.f 52 6), .land (.fpOr (o.flags + k)))] u) ∧
    (Issues s pos tc 0x33 (bits 18 0) c → issueCause c (memCauses c r [c.f 43 5]) = none →
      ∃ t u, exec (.ld pos tc) s = .next t ∧ t = issued c [(lag, .read a.1 a.2.1 0 [] a.2.2)] u ∧ tileOf u pos = tileAfter c 1 T ∧
        TileFrame pos r u) ∧
    (Issues s pos tc 0x34 (bits 18 0 ||| bits 53 53) c → issueCause c (memCauses c r [c.f 43 5, c.f 48 5]) = none →
      ∃ t u, exec (.st pos tc) s = .next t ∧ tileOf u pos = tileAfter c 1 T ∧ TileFrame pos r u ∧
        t = issued c [(lag, .store a.1 a.2.1 (.write a.2.2 (leBytes (2 ^ c.f 54 2) (gGet T (c.f 48 5)))))] u) ∧
    (∀ taken, Issues s pos tc 0x35 (bits 31 0) c → c.free = false →
      brTaken (c.f 54 4) (gGet T (c.f 49 5)) (gGet T (c.f 44 5)) = some taken →
      (c.f 54 4 ≠ 0 → c.dry = 0 → readsPoison c r [c.f 49 5, c.f 44 5] = false) → c.f 32 12 ≠ 0 →
      T.pc + 1 + c.f 32 12 < 8192 → (∀ f, T.loops.head? = some f → f.first ≤ T.pc + 1 + c.f 32 12 ∧ T.pc + 1 + c.f 32 12 ≤ f.last) →
      ∃ t, exec (.br pos tc) s = .next t ∧ TileFrame pos r t ∧
        tileOf t pos = if taken then { tileAfter c 3 T with pc := T.pc + 1 + c.f 32 12, loops := T.loops } else tileAfter c 3 T) ∧
    (∀ taken, Issues s pos tc 0x35 (bits 31 0) c → c.free = true → c.f 54 4 ≠ 8 →
      brTaken (c.f 54 4) (gGet T (c.f 49 5)) (gGet T (c.f 44 5)) = some taken →
      (c.f 54 4 ≠ 0 → readsPoison c r [c.f 49 5, c.f 44 5] = false) →
      ∃ t u, exec (.br pos tc) s = .next t ∧ t = issued c [] u ∧ TileFrame pos r u ∧
        tileOf u pos = if taken then { tileAfter c 3 T with pc := (((T.pc : Int) + 1 + signed 12 (c.f 32 12)) % 8192).toNat, loops := T.loops }
          else tileAfter c 3 T) ∧
    (Issues s pos tc 0x35 (bits 31 0) c → c.free = true → c.f 54 4 = 8 → readsPoison c r [c.f 49 5] = false →
      ∃ t u, exec (.br pos tc) s = .next t ∧ t = issued c [] u ∧ TileFrame pos r u ∧
        tileOf u pos = { tileAfter c 3 T with pc := gGet T (c.f 49 5) % 8192, loops := T.loops })) ∧
  ∀ (s : State) (x : Item) (l : List Item) (b w : Nat), Alone s x l → Served s x.c.glove b w →
    let c := x.c
    (∀ off, c.f 58 6 = 0x33 → x.act = .read b w 0 [] off → off < 64 →
      let d := wordAt s b w
      let size := 2 ^ c.f 54 2
      bitOf d.2 (off / 8) = false →
      ∃ u, AfterRead s x l d.2 u ∧
        advance x.tc s = dueIn c [(if c.f 56 2 = 1 then 3 else 2, .land (.g (c.f 48 5)
          (if bitOf c.word 53 then unsigned 64 (signed (8 * size) (fld d.1 (8 * off) (8 * size))) else fld d.1 (8 * off) (8 * size)) false))] u) ∧
    (∀ off d, x.act = .store b w (.write off d) → c.dry = 0 → s.memOk →
      let t := advance x.tc s
      MemKept (wordAddr b w + off) d.length s t ∧ (∀ j, j < d.length → byteAt t (wordAddr b w + off + j) = d.getD j 0) ∧
        t = { dueState s x l with mem := t.mem, ecc := t.ecc, leaves := t.leaves, bank := t.bank })

/-- LAC and the three forms of LDC complete: their reads, the entry of each vector, its row sums, and the words that load (R97, R99, R100, R103, R104, R105, R109, R121, R124, R241, R518). -/
def Obligations.LookupAccumulateCompletes : Prop :=
  (∀ (s : State) (pos tc : Nat) (c : Ctx),
    let r := reached s pos tc
    let T := tileOf r pos
    (Issues s pos tc 0x10 (bits 0 0) c → (lacOf c.word).formOk = true →
      let q := lacOf c.word
      let a := addrBank pos (q.src == 2) q.addr
      let last := (match q.src with
        | 2 => if q.wide then 7 else 6
        | 3 => if q.wide then 4 else 3
        | _ => 3) + (if q.wide && q.src != 1 then 2 * (q.n - 1) else q.n - 1)
      (q.src = 3 →
        ∃ t u, exec (.lac pos tc) s = .next t ∧ t = issued c [(last + 1, .free unitArray)] u ∧ TileFrame pos r u ∧
          tileOf u pos = { tileAfter c 1 T with m := { T.m with meshRd := some ⟨c, none⟩ } }) ∧
      (q.src ≠ 3 → a.2 + q.words ≤ bankWords a.1 →
        ∃ t u, exec (.lac pos tc) s = .next t ∧ tileOf u pos = tileAfter c 1 T ∧ TileFrame pos r u ∧
          t = issued c [(last + 1, .free unitArray), (if q.src = 2 then 2 else 1, .read a.1 a.2 0 [] 0)] u)) ∧
    (∀ kind, Issues s pos tc 0x11 (bits 27 0) c → c.f 38 2 = kind → kind < 3 → (c.f 56 2 = 0 ∨ c.f 56 2 = 2) →
      let n := if kind = 0 then 64 else if kind = 1 then 1 else 16
      let a := addrBank pos (c.f 56 2 == 2) (c.f 40 16)
      a.2 + n ≤ bankWords a.1 →
      ∃ t u, exec (if kind = 0 then .ldcA pos tc else if kind = 1 then .ldcB pos tc else .ldcS pos tc) s = .next t ∧
        tileOf u pos = tileAfter c 1 T ∧ TileFrame pos r u ∧
        t = issued c [(if c.f 56 2 = 2 then 2 else 1, .read a.1 a.2 0 [] 0), (if c.f 56 2 = 2 then n else n + 1, .free unitLoad)] u)) ∧
  (∀ (s : State) (x : Item) (l : List Item) (b w j arg : Nat) (got : List (Nat × Nat)), Alone s x l → x.act = .read b w j got arg →
    Served s x.c.glove b w →
    let c := x.c
    let d := wordAt s b w
    let bad := d.2 != 0
    let q := lacOf c.word
    let lag := if q.src = 2 then 4 else 2
    (c.f 58 6 = 0x10 → q.src = 0 ∨ q.src = 2 →
      ∃ u tag, AfterRead s x l d.2 { u with freeCtr := s.freeCtr } ∧ u.freeCtr = s.freeCtr + ofBool q.fwd ∧ tag < 4096 ∧
        advance x.tc s = dueIn c (
          (if q.fwd then [(lag, .hand ⟨c.glove, tag, bad || c.dry == 2, false, d.1, false⟩)] else []) ++
          (if !q.wide then [(lag, .vector j d.1 0 bad)]
            else match got.getLast? with
              | some p => if j % 2 = 1 then [(lag, .vector (j / 2) p.1 d.1 (p.2 != 0 || bad))] else []
              | none => []) ++
          if j + 1 < q.slots then [(1, .read b (w + 1) (j + 1) [d] arg)] else []) u) ∧
    (c.f 58 6 = 0x10 → q.src = 1 →
      let b2 := 4 * c.pos + Nat.xor (b % 4) 1
      let e := wordAt s b2 w
      Served s c.glove b2 w →
      ∃ u tag tag2, AfterRead s x l (d.2 ||| e.2) { u with freeCtr := s.freeCtr } ∧ u.freeCtr = s.freeCtr + 2 * ofBool q.fwd ∧ tag < 4096 ∧ tag2 < 4096 ∧
        advance x.tc s = dueIn c (
          (if q.fwd then [(1, .hand ⟨c.glove, tag, bad || c.dry == 2, false, d.1, false⟩), (2, .hand ⟨c.glove, tag2, e.2 != 0 || c.dry == 2, false, e.1, false⟩)]
            else []) ++
          [(2, .vector j d.1 e.1 (bad || e.2 != 0))] ++
          if j + 1 < q.n then [(1, .read b (w + 1) (j + 1) [d] arg)] else []) u) ∧
    (c.f 58 6 = 0x11 → c.f 38 2 < 3 →
      let n := if c.f 38 2 = 0 then 64 else if c.f 38 2 = 1 then 1 else 16
      ∃ u, AfterRead s x l d.2 u ∧
        advance x.tc s = dueIn c ((if c.f 56 2 = 2 then 5 else 2, .load j d.1 d.2 (j + 1 == n && !bad && got.all fun k => k.2 == 0)) ::
          if j + 1 < n then [(1, .read b (w + 1) (j + 1) (got ++ [(0, d.2)]) arg)] else []) u)) ∧
  ∀ (s : State) (x : Item) (l : List Item), Alone s x l → kindOf x.c.pos = .m →
    let c := x.c
    let T := tileOf s c.pos
    let q := lacOf c.word
    let put (m : MState) : State := setTile c.pos { T with m := m } (dueState s x l)
    (∀ b w0 w1 bad, x.act = .vector b w0 w1 bad →
      ∃ u, TileFrame c.pos (dueState s x l) u ∧ tileOf u c.pos = T ∧ advance x.tc s = dueIn c [(q.cols + 3, .sums b w0 w1 bad x.tc)] u ∧
        winGet u (tileBase c.pos + 0xF1010) + 2 ^ 32 * winGet u (tileBase c.pos + 0xF1014) =
          satAdd (2 ^ 64 - 1) (winGet s (tileBase c.pos + 0xF1010) + 2 ^ 32 * winGet s (tileBase c.pos + 0xF1014)) 1) ∧
    (∀ b w0 w1 bad e, x.act = .sums b w0 w1 bad e →
      let cols := q.columns T.m e (q.elements w0 w1)
      (∀ k ∈ cols, ∀ y ∈ k.codes, codeParity y.val = y.check) →
      advance x.tc s = put (q.apply b cols bad T.m)) ∧
    (∀ j w bad all, x.act = .load j w bad all → c.f 38 2 < 3 →
      advance x.tc s = put (if c.f 38 2 = 0 then loadCode j w (bad != 0) (remember x.tc j T.m)
        else if c.f 38 2 = 1 then loadBook (c.f 36 2) w (bad != 0) (remember x.tc (64 + c.f 36 2) T.m)
        else loadRows (c.f 29 7) j w (bitOf c.word 28) (bad != 0) all T.m))

/-- A vector entered with SET leaves in each row of its slot the sum of element differences times codebook entries (R97, R98, R99, R101, R102, R103, R105, R119, R122). -/
def Obligations.AccumulatorsHoldTheRowSums : Prop :=
  ∀ (q : Lac) (b w0 w1 entered : Nat) (poison : Bool) (m : MState), q.set = true → m.hist = [] →
    let slot := (q.slot + b) % 128
    let els := q.elements w0 w1
    let t := q.apply b (q.columns m entered els) poison m
    let entry (i j : Nat) : Int :=
      if q.cw then
        let k := fld (kgetD m.codes (2 * j + i / 64) 0) (8 * (i % 64)) 8
        signed 8 (fld (kgetD m.book (k / 64) 0) (8 * (k % 64)) 8)
      else signed 8 (fld (kgetD m.book (q.cbsel / 4) 0) (8 * (16 * (q.cbsel % 4) + fld (kgetD m.codes j 0) (4 * i) 4)) 8)
    (∀ i, i < 128 → (accRows t slot).getD i 0 =
      unsigned 64 ((List.range els.length).map fun j => ((els.getD j 0 : Int) - (q.za : Int)) * entry i j).sum) ∧
    (∀ k, k ≠ slot → kget t.acc k = kget m.acc k) ∧ t.codes = m.codes ∧ t.book = m.book ∧
    (t.slotPoison.contains slot = true ↔ poison = true ∨
      ∃ j, j < els.length ∧ ((∃ k ∈ q.codeKeys j, m.codePoison.contains k = true) ∨ ∃ k ∈ q.bookKeys, m.bookPoison.contains (k - 64) = true))

/-- RSC and TOPK: their row reads, the words they pack, and the list of the best k entries (R110, R111, R112, R113, R114, R115, R116, R117, R120, R139, R518). -/
def Obligations.RescaleAndTopKComplete : Prop :=
  (∀ (s : State) (pos tc : Nat) (c : Ctx),
    let r := reached s pos tc
    let T := tileOf r pos
    let n := c.f 44 7 + 1
    (Issues s pos tc 0x12 (bits 10 0) c →
      let d := pmGet T (c.f 23 4)
      let q := rescaleOf d
      let a := addrBank pos false (c.f 27 16)
      q.bad = false → (bitOf c.word 43 = false → a.2 + (if q.fmt = 1 ∨ q.fmt = 2 then 2 * n else fmtBits q.fmt / 4 * n) ≤ bankWords a.1) →
      pmBad T (c.f 23 4) = false → q.tag = 0xFFFF ∨ q.tag < (statBankOf r c).2 →
      ∃ t u, exec (.rsc pos tc) s = .next t ∧ tileOf u pos = tileAfter c 1 T ∧ TileFrame pos r u ∧
        t = issued c [(2, .rows ⟨d, 0, 0, [], 0, false⟩), (2 + (if q.fmt = 4 then 16 else 8) * n, .free unitRescale)] u) ∧
    (Issues s pos tc 0x13 (bits 17 0) c →
      let pmd := c.f 30 4
      let q := rescaleOf (pmGet T pmd)
      let p1 := pmGet T (pmd + 1)
      let lb := addrBank pos false (fld p1 32 16)
      let db := addrBank pos false (fld p1 48 16)
      let words := (c.f 35 8 + 8) / 8
      pmd % 2 = 0 → q.bad = false → (bitOf c.word 34 = true → lb.2 + words ≤ bankWords lb.1) → (bitOf c.word 43 = false → db.2 + words ≤ bankWords db.1) →
      pmBad T pmd = false → pmBad T (pmd + 1) = false → q.tag = 0xFFFF ∨ q.tag < (statBankOf r c).2 →
      ∃ t u, exec (.topk pos tc) s = .next t ∧ tileOf u pos = tileAfter c 1 T ∧ TileFrame pos r u ∧
        t = issued c [(2, .rows ⟨pmGet T pmd, p1, 0, [], 0, false⟩), (2 + 8 * n + (if bitOf c.word 34 then words else 0), .free unitRescale)] u)) ∧
  ∀ (s : State) (x : Item) (l : List Item) (g : RowsSt), Alone s x l → kindOf x.c.pos = .m → x.act = .rows g →
    let c := x.c
    let m := (tileOf s c.pos).m
    let q := rescaleOf g.d0
    let fmt := if c.f 58 6 = 0x13 then 3 else q.fmt
    let per := if fmt = 4 then 8 else 16
    let i0 := g.k * per % 128
    let slot := (c.f 51 7 + g.k * per / 128) % 128
    let rows := (span i0 per).map fun i => rescaleRow q fmt (signed 64 ((accRows m slot).getD i 0))
    let outs := g.outs ++ rows.map (·.1)
    let sat := rows.countP (·.2)
    let next : RowsSt := { g with k := g.k + 1, outs := outs, sat := g.sat + sat }
    let put (d b w tag v : Nat) : Nat × Act :=
      if bitOf c.word 43 then (d, .hand ⟨c.glove, tag, c.dry == 2, false, v, false⟩) else (d, .store b w (.write 0 (leBytes 64 v)))
    m.slotPoison.contains slot = false → q.tag = 0xFFFF →
    (∀ i ∈ span i0 per, (signed 64 ((accRows m slot).getD i 0) % 7).toNat = (resRows m slot).getD i 0) →
    ∃ u, TileFrame c.pos (dueState s x l) u ∧ tileOf u c.pos = tileOf s c.pos ∧
      (0 < sat → fld (winGet u (tileBase c.pos + 0xF100C)) 0 32 = satAdd (2 ^ 32 - 1) (fld (winGet s (tileBase c.pos + 0xF100C)) 0 32) sat) ∧
      (c.f 58 6 = 0x12 →
        let done := decide (512 / fmtBits fmt ≤ outs.length)
        let a := rscPlace c fmt (g.k * per / 128) ((i0 + per - 1) / (512 / fmtBits fmt))
        advance x.tc s = dueIn c ((if done then [put 4 a.1 a.2 (c.f 11 12) (packRows fmt outs)] else []) ++
          if (g.k + 1) * per < 128 * (c.f 44 7 + 1) then [(1, .rows { next with outs := if done then [] else outs })] else []) u) ∧
      (c.f 58 6 = 0x13 → bitOf c.word 34 = false →
        let a := addrBank c.pos false (fld g.d1 48 16)
        let ws := entryWords (topkList (c.f 35 8 + 1) ((List.range outs.length).map fun i =>
          unsigned 32 (outs.getD i 0) * 2 ^ 32 + (fld g.d1 0 32 + i) % 2 ^ 32))
        advance x.tc s = dueIn c (if (g.k + 1) * per < 128 * (c.f 44 7 + 1) then [(1, .rows next)]
          else (List.range ws.length).map fun j => put (12 + j) a.1 (a.2 + j) (c.f 18 12) (ws.getD j 0)) u)

/-- VLD, VST, VOP, VLUT and DINC complete with the registers and bytes the rules give (R199, R200, R201, R243, R244, R245). -/
def Obligations.VectorLoadStoreAndOperateComplete : Prop :=
  (∀ (s : State) (pos tc : Nat) (c : Ctx),
    let r := reached s pos tc
    let T := tileOf r pos
    (Issues s pos tc 0x20 (bits 31 0) c → c.f 56 2 < 2 →
      let a := addrBank pos (c.f 56 2 == 1) (c.f 40 16)
      ∃ t u, exec (.vld pos tc) s = .next t ∧ tileOf u pos = tileAfter c 1 T ∧ TileFrame pos r u ∧
        t = issued c [(if c.f 56 2 = 1 then 2 else 1, .read a.1 a.2 0 [] 0), (c.f 32 4 + 1, .free unitPortA)] u) ∧
    (Issues s pos tc 0x21 (bits 31 0) c → c.f 56 2 < 2 → c.dry ≠ 0 ∨ vxPoison T (c.f 36 4) = false →
      let a := addrBank pos (c.f 56 2 == 1) (c.f 40 16)
      ∃ t u, exec (.vst pos tc) s = .next t ∧ tileOf u pos = tileAfter c 1 T ∧ TileFrame pos r u ∧
        t = issued c (((List.range (c.f 32 4 + 1)).map fun j =>
          (2 + j, .store a.1 (a.2 + j) (.write 0 (leBytes 64 (vxRead T (c.f 36 4) j))))) ++ [(c.f 32 4 + 1, .free unitPortA)]) u) ∧
    (Issues s pos tc 0x22 0 c → c.f 52 6 < 22 →
      let fn := c.f 52 6
      let on := laneOn (c.f 0 8)
      let va := vxGet T (c.f 44 4)
      let e := T.v.ev.getD (c.f 8 32 % 4) 0
      ∃ (t u : State) (L : List Landing), exec (.vop pos tc) s = .next t ∧ t = issued c (L.map fun y => (3, .land y)) u ∧ tileOf u pos = tileAfter c 1 T ∧ TileFrame pos r u ∧
        let v := L.foldl (fun y z => landOn z y) T
        (fn < 17 ∨ fn = 18 → ∀ i, i < 256 → (vxGet v (c.f 48 4)).getD i 0 =
          if on i then w32 (vopLane fn (c.f 8 32) va (va.getD i 0) ((vxGet T (c.f 40 4)).getD i 0)) else (vxGet T (c.f 48 4)).getD i 0) ∧
        (fn = 17 → ∀ i, i < 256 → bitOf v.fl i = (bitOf T.fl i || (on i && va.getD i 0 != 0))) ∧
        (fn = 19 → ∀ i, i < 256 → bitOf v.v.gm i = if on i then va.getD i 0 != 0 else bitOf T.v.gm i) ∧
        (fn = 20 → on 0 = true → (vxGet v (c.f 48 4)).getD 0 0 = fld e 0 32 ∧ (vxGet v (c.f 48 4)).getD 1 0 = fld e 32 32) ∧
        (fn = 21 → v.v.ev = T.v.ev.set (c.f 8 32 % 4) 0) ∧
        (∀ k, k ≠ c.f 48 4 ∨ fn = 17 ∨ fn = 19 ∨ fn = 21 → kget v.v.vx k = kget T.v.vx k)) ∧
    (Issues s pos tc 0x23 (bits 56 52 ||| bits 43 8) c →
      let va := vxGet T (c.f 44 4)
      let looks := (lanesOn (c.f 0 8)).flatMap fun i => if bitOf c.word 57 then tableReads (sl va i).natAbs else expReads (sl va i)
      ∃ (t : State) (L : List Landing), exec (.vlut pos tc) s = .next t ∧ t.mem = r.mem ∧ TilesKept pos r t ∧
        tileOf t pos = { tileAfter c 1 T with slots := (tileOf t pos).slots } ∧ t.agenda = (issued c (L.map fun y => (4, .land y)) r).agenda ∧
        ((∀ k ∈ looks, romFails r pos (bitOf c.word 57) k = false) →
          ∃ u, t = issued c (L.map fun y => (4, .land y)) u ∧ tileOf u pos = tileAfter c 1 T ∧ TileFrame pos r u) ∧
        ((∃ k ∈ looks, romFails r pos (bitOf c.word 57) k = true) → bitOf (winGet t (tileBase pos + 0xF1000)) 0 = true) ∧
        ∀ i, i < 256 → (vxGet (L.foldl (fun y z => landOn z y) T) (c.f 48 4)).getD i 0 =
          if laneOn (c.f 0 8) i then w32 (if bitOf c.word 57 then tileLogistic r pos (sl va i) else tileExp r pos (sl va i))
          else (vxGet T (c.f 48 4)).getD i 0) ∧
    (Issues s pos tc 0x29 (bits 19 0) c → c.f 52 3 < 5 → c.dry ≠ 0 ∨ pmBad T (8 + c.f 55 3) = false →
      let i := 8 + c.f 55 3
      let lo := (ddField (c.f 52 3)).1
      let w := (ddField (c.f 52 3)).2
      ∃ t u y, exec (.dinc pos tc) s = .next t ∧ t = issued c [(1, .land y)] u ∧ tileOf u pos = tileAfter c 1 T ∧ TileFrame pos r u ∧
        ∀ v : Tile, pmGet (landOn y v) i = putFld (pmGet v i) lo w (unsigned w ((fld (pmGet v i) lo w : Int) + signed 32 (c.f 20 32))) % 2 ^ 128 ∧
          (pmBad (landOn y v) i = pmBad v i) ∧ ∀ k, k ≠ i → pmGet (landOn y v) k = pmGet v k)) ∧
  (∀ (s : State) (x : Item) (l : List Item) (b w j arg : Nat) (got : List (Nat × Nat)), Alone s x l → x.c.f 58 6 = 0x20 → x.act = .read b w j got arg →
    Served s x.c.glove b w →
    let c := x.c
    let d := wordAt s b w
    ∃ u, AfterRead s x l d.2 u ∧
      advance x.tc s = dueIn c ((if c.f 56 2 = 1 then 5 else 2, .land (.lanes (c.f 36 4)
          ((List.range 16).map fun k => (16 * j + k, fld d.1 (32 * k) 32))
          (if d.2 != 0 then some true else if j = 15 ∧ got.all (fun k => k.2 == 0) = true then some false else none))) ::
        if j < c.f 32 4 then [(1, .read b (w + 1) (j + 1) (got ++ [(0, d.2)]) arg)] else []) u) ∧
  ∀ (s : State) (x : Item) (l : List Item) (i : Nat) (new : List (Nat × Nat)) (mark : Option Bool), Alone s x l → x.act = .land (.lanes i new mark) →
    (∀ y ∈ new, y.1 < 256) → (new.map (·.1)).Nodup →
    let T := tileOf s x.c.pos
    let t := advance x.tc s
    t = { dueState s x l with tiles := t.tiles } ∧ TilesKept x.c.pos s t ∧
    (∀ y ∈ new, (vxGet (tileOf t x.c.pos) i).getD y.1 0 = y.2) ∧
    (∀ k, k < 256 → (∀ y ∈ new, y.1 ≠ k) → (vxGet (tileOf t x.c.pos) i).getD k 0 = (vxGet T i).getD k 0) ∧
    (vxPoison (tileOf t x.c.pos) i = mark.getD (vxPoison T i)) ∧
    ∀ k, k ≠ i → kget (tileOf t x.c.pos).v.vx k = kget T.v.vx k ∧ vxPoison (tileOf t x.c.pos) k = vxPoison T k

/-- SAMP in its uniform, Bernoulli and Gaussian forms writes the draw of each enabled lane's own counter (R189, R191, R192, R197, R198, R219, R246). -/
def Obligations.DrawsAreKeyedByLogicalIdentity : Prop :=
  ∀ (s : State) (pos tc : Nat) (c : Ctx), Issues s pos tc 0x24 (bits 31 0) c → c.f 40 4 < 8 →
    let r := reached s pos tc
    let T := tileOf r pos
    let d := drawOf T (c.f 44 3)
    let words (e : Nat) : List Nat := steppe (counter e d.replica d.step d.tag d.stream) (seedOf T c)
    let ends (i : Instr) (f : Tile → Prop) : Prop :=
      ∃ (t u : State) (L : List Landing), exec i s = .next t ∧ t = issued c (L.map fun y => (12, .land y)) u ∧ tileOf u pos = tileAfter c 1 T ∧ TileFrame pos r u ∧
        f (L.foldl (fun y z => landOn z y) T)
    (c.f 55 3 = 0 → c.f 51 4 ≤ 12 → ends (.sampUniform pos tc) fun v =>
      ∀ k i, k < 4 → i < 256 → (vxGet v (c.f 51 4 + k)).getD i 0 =
        if laneOn (c.f 32 8) i then w32 ((words (d.base + i)).getD k 0) else (vxGet T (c.f 51 4 + k)).getD i 0) ∧
    (c.f 55 3 = 1 → d.base % 4 = 0 → (∀ y ∈ vxGet T (c.f 51 4), y < 2 ^ 32) → ends (.sampBernoulli pos tc) fun v =>
      ∀ i k, i < 256 → k < 4 → bitOf ((vxGet v (c.f 51 4)).getD ((4 * i + k) / 32) 0) ((4 * i + k) % 32) =
        if laneOn (c.f 32 8) i then decide ((words (d.base / 4 + i)).getD k 0 < fld (pmGet T (c.f 40 4)) 0 32)
        else bitOf ((vxGet T (c.f 51 4)).getD ((4 * i + k) / 32) 0) ((4 * i + k) % 32)) ∧
    (c.f 55 3 = 2 → ends (.sampGaussian pos tc) fun v =>
      ∀ i, i < 256 → (vxGet v (c.f 51 4)).getD i 0 =
        if laneOn (c.f 32 8) i then w32 (unsigned 32 (noiseOf (words (d.base + i)))) else (vxGet T (c.f 51 4)).getD i 0)

/-- SAMP in its Metropolis and heat-bath forms gives each enabled lane the spin its draw accepts and flags the flips (R162, R199, R200, R246). -/
def Obligations.AcceptanceUpdatesSpins : Prop :=
  ∀ (s : State) (pos tc : Nat) (c : Ctx) (heat : Bool), Issues s pos tc 0x24 (bits 31 0) c → c.f 40 4 < 8 → c.f 47 4 ≠ 15 →
    c.f 55 3 = (if heat then 4 else 3) →
    let r := reached s pos tc
    let T := tileOf r pos
    let d := drawOf T (c.f 44 3)
    let p := pmGet T (c.f 40 4)
    let u0 (i : Nat) : Nat := (steppe (counter (d.base + i) d.replica d.step d.tag d.stream) (seedOf T c)).headD 0
    let sp (i : Nat) : Int := signed 32 ((vxGet T (c.f 51 4)).getD i 0)
    let e (i : Nat) : Int := signed 64 ((vxGet T (c.f 47 4)).getD i 0 + 2 ^ 32 * (vxGet T (c.f 47 4 + 1)).getD i 0)
    ∃ (t : State) (L : List Landing), exec (if heat then .sampHeatBath pos tc else .sampMetropolis pos tc) s = .next t ∧ t.mem = r.mem ∧ TilesKept pos r t ∧
      t.agenda = (issued c (L.map fun y => (12, .land y)) r).agenda ∧ tileOf t pos = { tileAfter c 1 T with slots := (tileOf t pos).slots } ∧
      let v := L.foldl (fun y z => landOn z y) T
      (∀ i, i < 256 → (vxGet v (c.f 51 4)).getD i 0 =
        if laneOn (c.f 32 8) i then
          unsigned 32 (if heat then heatBathBy (tileLogistic r pos) (fld p 0 16) (fld p 16 6) (e i) (u0 i)
            else metropolisBy (tileExp r pos) (fld p 0 16) (fld p 16 6) (sp i) (e i) (u0 i))
        else (vxGet T (c.f 51 4)).getD i 0) ∧
      ∀ i, i < 256 → bitOf v.fl i = (bitOf T.fl i ||
        (laneOn (c.f 32 8) i && (vxGet v (c.f 51 4)).getD i 0 != (vxGet T (c.f 51 4)).getD i 0))

/-- DYN advances enabled lanes by the step of R154, moves value between the pairs of groups, and rounds groups (R154, R155, R156, R177, R178, R181, R247). -/
def Obligations.DynamicsStepLanes : Prop :=
  ∀ (s : State) (pos tc : Nat) (c : Ctx), Issues s pos tc 0x25 (bits 28 0) c → c.f 37 4 < 8 →
    let r := reached s pos tc
    let T := tileOf r pos
    let d := drawOf T (c.f 41 3)
    let p := pmGet T (c.f 37 4)
    let vs := vxGet T (c.f 52 4)
    let vh := vxGet T (c.f 48 4)
    let on := laneOn (c.f 29 8)
    let ends (i : Instr) (f : Tile → Prop) : Prop :=
      ∃ (t u : State) (L : List Landing), exec i s = .next t ∧ t = issued c (L.map fun y => (14, .land y)) u ∧ tileOf u pos = tileAfter c 1 T ∧ TileFrame pos r u ∧
        f (L.foldl (fun y z => landOn z y) T)
    let out (i : Nat) : StepOut := contStep (fld p 0 16) (fld p 16 16) (fld p 32 16) (fld p 48 16) (fld p 64 16)
      (recX (vs.getD i 0)) (recY (vs.getD i 0)) (signed 32 (vh.getD i 0)) (noiseOf (steppe (counter (d.base + i) d.replica d.step d.tag d.stream) (seedOf T c)))
    (c.f 56 2 = 0 → c.f 52 4 ≠ c.f 44 4 → ends (.dynStep pos tc) fun v =>
      (∀ i, i < 256 → on i = true →
        (vxGet v (c.f 52 4)).getD i 0 = recOf (out i).x (out i).y ∧ fld ((vxGet v (c.f 44 4)).getD i 0) 0 16 = activation (out i).x ∧
        (bitOf v.fl i = (bitOf T.fl i || (out i).chg))) ∧
      (0 < T.v.ev.length → v.v.ev.getD 0 0 = (T.v.ev.getD 0 0 + (List.range 256).countP fun i => on i && (out i).wall) % 2 ^ 64) ∧
      (1 < T.v.ev.length → v.v.ev.getD 1 0 = (T.v.ev.getD 1 0 + (List.range 256).countP fun i => on i && (out i).ysat) % 2 ^ 64)) ∧
    (c.f 56 2 = 1 → shortGroup T = false → ends (.dynGroupTransfer pos tc) fun v =>
      ∀ g ∈ laneGroups T.v.gm, ∀ q ∈ groupPairs g.2 d.step, on (g.1 + q.1) = true → on (g.1 + q.2) = true →
        let m := (pairDelta (fld p 0 16) (fld p 32 16) (recX (vs.getD (g.1 + q.1) 0)) (recX (vs.getD (g.1 + q.2) 0))
          (signed 32 (vh.getD (g.1 + q.1) 0)) (signed 32 (vh.getD (g.1 + q.2) 0))).1
        fld ((vxGet v (c.f 52 4)).getD (g.1 + q.1) 0) 0 16 = unsigned 16 (recX (vs.getD (g.1 + q.1) 0) + m) ∧
        fld ((vxGet v (c.f 52 4)).getD (g.1 + q.2) 0) 0 16 = unsigned 16 (recX (vs.getD (g.1 + q.2) 0) - m)) ∧
    (c.f 56 2 = 2 → shortGroup T = false → ends (.dynGroupRound pos tc) fun v =>
      ∀ g ∈ laneGroups T.v.gm, ∀ i, i < g.2 → on (g.1 + i) = true →
        fld ((vxGet v (c.f 44 4)).getD (g.1 + i) 0) 0 16 = activation (2 * recX (vs.getD (g.1 + i) 0) - 16384))

/-- CATS, QLD and QMAP complete with the selected position, the checked table and the packed codes (R133, R134, R135, R136, R138, R140, R202, R203, R204, R219, R244, R248). -/
def Obligations.CategoricalDrawAndMappingComplete : Prop :=
  (∀ (s : State) (pos tc : Nat) (c : Ctx),
    let r := reached s pos tc
    let T := tileOf r pos
    let a := addrBank pos (c.f 56 2 == 1) (c.f 40 16)
    let lag := if c.f 56 2 = 1 then 2 else 1
    (Issues s pos tc 0x26 (bits 12 0) c → c.f 56 2 < 2 → c.f 20 4 < 8 → pmBad T (c.f 20 4) = false → pmBad T (8 + c.f 17 3) = false →
      ∃ t u, exec (.cats pos tc) s = .next t ∧ tileOf u pos = tileAfter c 1 T ∧ TileFrame pos r u ∧
        t = issued c [(lag, .read a.1 a.2 0 [(pmGet T (c.f 20 4), pmGet T (8 + c.f 17 3))] 0), (64, .free unitSampler),
          (1 + (c.f 32 8 + 8) / 8, .free unitPortA)] u) ∧
    (Issues s pos tc 0x27 (bits 25 0) c → c.f 56 2 < 2 → c.f 26 4 < 8 → pmBad T (c.f 26 4) = false →
      ∃ t u, exec (.qld pos tc) s = .next t ∧ tileOf u pos = tileAfter c 1 T ∧ TileFrame pos r u ∧
        t = issued c [(lag, .read a.1 a.2 0 [(fld (pmGet T (c.f 26 4)) 0 32, 0)] 0), (8, .free unitPortA)] u) ∧
    (∀ m, Issues s pos tc 0x28 (bits 25 0) c → vxPoison T (c.f 54 4) = false → T.v.map = some m → (∀ e ∈ m.entries, e.2 < if m.w8 then 256 else 16) →
      let w := if m.w8 then 8 else 4
      let z := m.entries.findIdx fun e => e.1 == 0
      let outs := (List.range 256).map fun i =>
        if laneOn (c.f 26 8) i then mapValue m.entries m.g (signed 32 ((vxGet T (c.f 54 4)).getD i 0)) else (z, 0, false)
      let lands (y : Landing) : Prop := ∀ i, i < 256 →
        fld (leNat ((vxGet (landOn y T) (c.f 50 4)).flatMap (leBytes 4))) (w * i) w = (m.entries.getD (outs.getD i (0, 0, false)).1 (0, 0)).2
      (c.f 34 16 = 0xFFFF →
        ∃ t u y, exec (.qmap pos tc) s = .next t ∧ t = issued c [(6, .land y)] u ∧ tileOf u pos = tileAfter c 1 T ∧ TileFrame pos r u ∧ lands y) ∧
      (∀ b, c.f 34 16 ≠ 0xFFFF → (statBankOf r c).1 = some b → c.f 34 16 < (statBankOf r c).2 → bankCluster b = clusterOf pos → c.dry = 0 →
        let on := (List.range 256).filter (laneOn (c.f 26 8))
        ∃ t u y v, exec (.qmap pos tc) s = .next t ∧ t = issued c [(6, .land y), (9, .stat b (c.f 34 16) v)] u ∧ tileOf u pos = tileAfter c 1 T ∧
          TileFrame pos r u ∧ lands y ∧ fld v 0 64 = (on.map fun i => (outs.getD i (0, 0, false)).2.1).sum % 2 ^ 64 ∧ fld v 64 64 = on.length ∧
          fld v 128 64 = on.countP fun i => (outs.getD i (0, 0, false)).2.2))) ∧
  ∀ (s : State) (x : Item) (l : List Item) (got : List (Nat × Nat)) (late : Nat), Alone s x l → kindOf x.c.pos = .v → x.act = .check got late →
    (∀ w ∈ got.drop 1, w.2 = 0) →
    let c := x.c
    let T := tileOf s c.pos
    let ws := (got.drop 1).map (·.1)
    (∀ cand kept rank, c.f 58 6 = 0x26 →
      let p := (got.headD (0, 0)).1
      let d := drawBits (got.headD (0, 0)).2
      let cands := candsOf (c.f 32 8 + 1) ws
      catsSelect (tileExp s c.pos) cands (c.f 24 8 + 1) (fld p 0 16) (fld p 32 32)
        ((steppe (counter d.base d.replica d.step d.tag d.stream) (seedOf T c)).headD 0) = some (cand, kept, rank) →
      (∀ k ∈ catsReads cands (c.f 24 8 + 1) (fld p 0 16), romFails s c.pos false k = false) → x.tc < c.tc + (80 + late) →
      let v := cand.2 + kept * 2 ^ 32 + rank * 2 ^ 48
      ∃ u, TileFrame c.pos (dueState s x l) u ∧ tileOf u c.pos = T ∧
        advance x.tc s = underWay c [(80 + late, .land (.lanes (c.f 13 4) [(0, fld v 0 32), (1, fld v 32 32)] none))] u) ∧
    (c.f 58 6 = 0x27 →
      let g := (got.headD (0, 0)).1
      let es := mapEntries (c.f 31 9) ws
      mapOk (bitOf c.word 30) (c.f 31 9) g es = true → x.tc < c.tc + (11 + late) →
      advance x.tc s = underWay c [(11 + late, .land (.map ⟨bitOf c.word 30, g, es⟩))] (dueState s x l))

/-- An instruction that the tile cannot run has no effect but its exception, and its launch slot runs dry from there (R228, R233, R235, R239, R251, R256, R257, R258, R259, R260, R263, R397). -/
def Obligations.ExceptionsArePrecise : Prop :=
  ∀ (s : State) (pos tc : Nat) (c : Ctx) (x : SlotSt), mgmtTiles.contains pos = false →
    let r := reached s pos tc
    let T := tileOf r pos
    let takes (i : Instr) (cause : Nat) : Prop :=
      ∃ t, exec i s = .next t ∧ t.mem = r.mem ∧ TilesKept pos r t ∧ t.agenda = r.agenda.filter (fun y => !y.of c) ∧
        tileOf t pos = { tileAfter c 1 T with slots := (tileOf t pos).slots } ∧
        kget (tileOf t pos).slots c.lslot = some { x with dry := 2, dryIn := r.frame.boundaries, latch := true } ∧
        (∀ k, k ≠ c.lslot → kget (tileOf t pos).slots k = kget T.slots k) ∧
        t.launches = (if cause = 5 then r.launches else kadj r.launches c.launch fun y => { y with faulted := true }) ∧
        winGet t (tileBase pos + 0xF2000) = cause + 2 ^ 8 * c.glove + 2 ^ 16 * c.win + 2 ^ 22 * c.lslot + 2 ^ 31 ∧
        winGet t (tileBase pos + 0xF2004) = T.pc % 2 ^ 13 ∧ winGet t (tileBase pos + 0xF2008) = tc % 2 ^ 32
    kget T.slots c.lslot = some x → x.dry = 0 → dryNow r c = 0 → c.dry = 0 → bitOf (winGet r (tileBase pos + 0xF2000)) 31 = false →
    c.glove < 256 → c.win < 64 → c.lslot < 16 →
    (pos < 1536 → s.now ≤ tc → T.tc = tc → fetch r pos tc 0x00 (bits 57 16) = .illegal c → takes (.nop pos tc) 1) ∧
    (Issues s pos tc 0x01 (bits 57 32) c → c.stop ≤ c.f 0 32 → takes (.waitt pos tc) 2) ∧
    (Issues s pos tc 0x02 (bits 57 36) c → 4 ≤ T.loops.length ∨ storeWords (kindOf pos) ≤ T.pc + (c.f 24 12 + 1) → takes (.loop pos tc) 13) ∧
    (Issues s pos tc 0x05 (bits 19 0) c → (c.f 56 2 = 2 ∧ c.f 32 8 ≠ 0) ∨ (c.f 56 2 = 3 ∧ blockHas (kindOf pos) (c.f 32 8 + 1) = false) →
      takes (.send pos tc) 1) ∧
    (Issues s pos tc 0x06 (bits 31 0) c → c.f 56 2 = 3 ∨ (c.f 56 2 = 1 ∧ c.f 32 8 ≠ 0) ∨ (c.f 56 2 = 2 ∧ blockHas (kindOf pos) (c.f 32 8 + 1) = false) →
      takes (.recv pos tc) 1) ∧
    (Issues s pos tc 0x0B (bits 33 0) c → 2 ≤ c.f 56 2 → takes (.ldp pos tc) 1) ∧
    (Issues s pos tc 0x0B (bits 33 0) c → c.f 56 2 < 2 → 16 < c.f 36 4 + 4 * (c.f 34 2 + 1) → takes (.ldp pos tc) 2) ∧
    (Issues s pos tc 0x20 (bits 31 0) c → 2 ≤ c.f 56 2 → takes (.vld pos tc) 1) ∧
    (Issues s pos tc 0x21 (bits 31 0) c → c.f 56 2 < 2 → vxPoison T (c.f 36 4) = true → takes (.vst pos tc) 5) ∧
    (Issues s pos tc 0x30 (bits 36 0) c → 18 ≤ c.f 52 6 → takes (.alu pos tc) 1) ∧
    (Issues s pos tc 0x30 (bits 36 0) c → c.f 52 6 < 18 → (gPoison T (c.f 42 5) || gPoison T (c.f 37 5)) = true → takes (.alu pos tc) 5) ∧
    (Issues s pos tc 0x34 (bits 18 0 ||| bits 53 53) c → c.f 56 2 < 2 → readsPoison c r [c.f 43 5, c.f 48 5] = false →
      addrBad (c.f 56 2 == 1) (memAddr c T) = false →
      memAddr c T % 2 ^ c.f 54 2 ≠ 0 → takes (.st pos tc) 9)

/-- REF_LOSS and REF_VALID: holdover, the count of losses, and safe state when both references are lost (R392, R480, R481, R505). -/
def Obligations.ReferencesComeAndGo : Prop :=
  ∀ (s : State) (b : Bool),
    (refBit s (ofBool b) = true →
      ∃ t, exec (.refLoss b) s = .next t ∧ refBit t (ofBool b) = false ∧
        odGet t 0x2800 3 = satAdd (2 ^ 32 - 1) (odGet s 0x2800 3) 1 ∧ OdKept [(0x2800, 3)] s t ∧
        irqPending t 481 = true ∧ WinKept [clkRef, tileBase 1116 + 0xF1008] s t ∧
        t = { s with plat := t.plat, od := t.od, win := t.win, host := t.host, safety := t.safety, out := t.out } ∧
        (refBit s 2 = b → refBit t 3 = true ∧ (refBit s 3 = false → refBit t 4 = false ∧ irqPending t 482 = true)) ∧
        ((refBit s 2 = !b ∨ refBit s 3 = true) → refBit t 3 = refBit s 3 ∧ refBit t 4 = refBit s 4) ∧
        (refBit s (ofBool (!b)) = true → t.safety = s.safety ∧
          t.plat = { s.plat with relock := if refBit s 2 = b then some !b else s.plat.relock }) ∧
        (refBit s (ofBool (!b)) = false → bitOf t.safety.causes 6 = true ∧ bitOf t.safety.holding 6 = true ∧
          t.safety.outs = false ∧ refBit t 5 = true ∧ t.plat = { s.plat with relock := none })) ∧
    (refBit s (ofBool b) = false → exec (.refLoss b) s = .next s) ∧
    (s.plat.waiting = none → refBit s (ofBool b) = true → exec (.refValid b) s = .next s) ∧
    (s.plat.waiting = none → refBit s (ofBool b) = false →
      ∃ t, exec (.refValid b) s = .next t ∧ refBit t (ofBool b) = true ∧ bitOf t.safety.holding 6 = false ∧ Arrived [481] s t ∧
        t.safety = { s.safety with holding := t.safety.holding } ∧ WinKept [clkRef] s t ∧
        t.plat = { s.plat with relock := if refBit s 3 = true ∧ s.plat.relock = none then some b else s.plat.relock } ∧
        t = { s with plat := t.plat, win := t.win, host := t.host, safety := t.safety, out := t.out })

/-- PLL_RELOCK ends holdover, HOLDOVER_EXPIRY suspends frames, and DIE_TEMP_READ chooses the CK_TILE step with hysteresis (R393, R480, R481, R484, R507). -/
def Obligations.RelockAndSuspension : Prop :=
  ∀ (s : State) (b : Bool) (temp : Int),
    let want : Nat := if 110 ≤ temp then 3 else if 105 ≤ temp then 2 else if 100 ≤ temp then 1 else 0
    let near := fun x : Int => decide (95 ≤ x ∧ x ≤ 115)
    let hot := decide (115 ≤ temp)
    let was := bitOf s.safety.holding 16
    (s.plat.relock = some b →
      ∃ t, exec .pllRelock s = .next t ∧ refBit t 2 = b ∧ refBit t 3 = false ∧ refBit t 4 = true ∧ refBit t 5 = false ∧
        refBit t 0 = refBit s 0 ∧ refBit t 1 = refBit s 1 ∧ WinKept [clkRef] s t ∧
        Arrived (if refBit s 3 then [482] else []) s t ∧
        t = { s with plat := { s.plat with relock := none }, win := t.win, host := t.host, out := t.out }) ∧
    (s.plat.relock = none → exec .pllRelock s = .next s) ∧
    (refBit s 0 = false → refBit s 1 = false → refBit s 3 = true → s.plat.suspended = false →
      ∃ t, exec .holdoverExpiry s = .next t ∧ Arrived [490] s t ∧
        t = { s with plat := { s.plat with suspended := true }, host := t.host, out := t.out }) ∧
    ((refBit s 0 = true ∨ refBit s 1 = true ∨ refBit s 3 = false ∨ s.plat.suspended = true) → exec .holdoverExpiry s = .next s) ∧
    ∃ t, exec (.dieTempRead temp) s = .next t ∧ odGet t 0x2800 6 = unsigned 8 temp ∧ OdKept [(0x2800, 6)] s t ∧
      (s.plat.nextStep ≤ want → t.plat.nextStep = want) ∧
      (∀ k, s.plat.nextStep = k → want < k →
        t.plat.nextStep = if temp ≤ (if k = 1 then 95 else if k = 2 then 100 else 105) then k - 1 else k) ∧
      Arrived ((if near temp = true ∧ near (signed 8 (odGet s 0x2800 6)) = false then [489] else []) ++
        (if hot = true ∧ was = false then (if s.safety.outs then [135, 136] else [136]) else if hot = false ∧ was = true then [136] else [])) s t ∧
      bitOf t.safety.holding 16 = hot ∧
      (hot = true → was = false → t.safety.outs = false ∧ t.safety.causes = s.safety.causes ||| 16) ∧
      ((hot = false ∨ was = true) → t.safety.causes = s.safety.causes ∧ t.safety.outs = s.safety.outs) ∧
      WinKept (if hot = true ∧ was = false then [tileBase 1116 + 0xF1008] else []) s t ∧
      t = { s with plat := { s.plat with nextStep := t.plat.nextStep }, od := t.od, win := t.win, host := t.host, safety := t.safety, out := t.out } ∧
      t.safety = { s.safety with holding := t.safety.holding, causes := t.safety.causes, outs := t.safety.outs }

/-- Multiplexer switches, frequency measurements and gate requests complete as R485 to R488 say (R485, R486, R487, R488, R507). -/
def Obligations.ClockControlsComplete : Prop :=
  ∀ (s : State) (d : Reg) (edges : Nat) (w : MuxWait),
    (bitOf d.toNat 4 = true → fld d.toNat 0 3 < 4 → s.plat.muxWait = none →
      (fld d.toNat 0 3 = 1 ∨ fld d.toNat 0 3 = 3 ∨ admittedLaunches s = []) →
      ∃ t, exec (.clkMuxSwitch d) s = .next t ∧ bitOf (winGet t clkMux) 5 = true ∧ fld (winGet t clkMux) 0 4 = fld d.toNat 0 4 ∧
        (∃ h, t.plat = { s.plat with muxWait := some ⟨fld d.toNat 0 3, bitOf d.toNat 3, h⟩ } ∧ (h = true ↔ muxStopped s (fld d.toNat 0 3) = true)) ∧
        WinKept [clkMux] s t ∧ t = { s with plat := t.plat, win := t.win }) ∧
    (s.plat.muxWait = some w → w.hung = false → w.mux < 4 →
      ∃ t, exec .clkMuxDone s = .next t ∧ bitOf (winGet t clkMux) 5 = false ∧ bitOf (winGet t clkMux) (7 + w.mux) = w.bypass ∧
        Arrived [484] s t ∧ WinKept [clkMux] s t ∧
        t = { s with plat := { s.plat with muxWait := none }, win := t.win, host := t.host, out := t.out }) ∧
    (bitOf d.toNat 3 = true →
      ∃ t, exec (.freqMeasure d) s = .next t ∧ fld (winGet t clkFcnt) 0 3 = fld d.toNat 0 3 ∧
        fld (winGet t clkFcnt) 16 16 = fld d.toNat 16 16 ∧ WinKept [clkFcnt] s t ∧
        t = { s with plat := { s.plat with measuring := true }, win := t.win }) ∧
    (s.plat.measuring = true →
      ∃ t, exec (.freqMeasureDone edges) s = .next t ∧ bitOf (winGet t clkFcnt) 4 = true ∧
        winGet t (clkFcnt + 4) = (if measuredStopped s then 0 else edges % 2 ^ 32) ∧ Arrived [483] s t ∧ WinKept [clkFcnt, clkFcnt + 4] s t ∧
        t = { s with plat := { s.plat with measuring := false }, win := t.win, host := t.host, out := t.out }) ∧
    (bitOf d.toNat 4 = true → 1 ≤ fld d.toNat 0 3 → fld d.toNat 0 3 ≤ 5 →
      (bitOf d.toNat 3 = true ∨ ∀ k ∈ pllDomains (fld d.toNat 0 3), domainState s k = 0) →
      ∃ t, exec (.clkGateRequest d) s = .next t ∧ pllOpen t (fld d.toNat 0 3) = bitOf d.toNat 3 ∧
        fld (winGet t clkGate) 16 16 = stOk ∧ WinKept [clkGate] s t ∧ t = { s with win := t.win })

/-- DOMAIN_OFF_REQUEST and DOMAIN_ON_REQUEST start the switch of a domain, by register and by dictionary, or answer CHILD_BUSY (R490, R491, R492, R493, R505, R506). -/
def Obligations.DomainRequestsStartTheirSwitch : Prop :=
  ∀ (s : State) (p : Path) (d : Reg) (req : OdReq),
    let k := fld d.toNat 0 6
    (bitOf d.toNat 7 = true → bitOf d.toNat 6 = false → domSwitchable k (p != .host) = true → domainInUse s k = false →
      (domainState s k = 1 ∨ domainState s k = 2) →
      ∃ t, exec (.domainOffRequest (.reg p d)) s = .next t ∧ domainState t k = 3 ∧ odGet t 0x2900 2 = 0xFFFF ∧
        fld (winGet t pwrDom) 16 16 = 0xFFFF ∧ OdKept [(0x2900, 2), (0x2901, k + 1)] s t ∧ WinKept [pwrDom] s t ∧
        t = { s with plat := { s.plat with domReq := k + 1 }, od := t.od, win := t.win }) ∧
    (bitOf d.toNat 7 = true → bitOf d.toNat 6 = true → domSwitchable k (p != .host) = true → domainState s k = 0 →
      ∃ t, exec (.domainOnRequest (.reg p d)) s = .next t ∧ domainState t k = 1 ∧ odGet t 0x2900 2 = 0xFFFF ∧
        fld (winGet t pwrDom) 16 16 = 0xFFFF ∧ OdKept [(0x2900, 2), (0x2901, k + 1)] s t ∧ WinKept [pwrDom] s t ∧
        t = { s with plat := { s.plat with domReq := k + 1 }, od := t.od, win := t.win }) ∧
    (bitOf d.toNat 7 = true → bitOf d.toNat 6 = false → domainInUse s k = true →
      ∃ t, exec (.domainOffRequest (.reg p d)) s = .next t ∧ odGet t 0x2900 2 = stChildBusy ∧ OdKept [(0x2900, 2)] s t ∧
        fld (winGet t pwrDom) 16 16 = stChildBusy ∧ Arrived [487] s t ∧ t.plat = s.plat) ∧
    (Granted (domEntry false) req s → let u := recorded req s
      (domainState u (reqVal req % 256) = 1 ∨ domainState u (reqVal req % 256) = 2) →
      ∃ t, exec (.domainOffRequest (.od req)) s = .next t ∧ Answered req 0 [] t ∧ domainState t (reqVal req % 256) = 3 ∧
        odGet t 0x2900 2 = 0xFFFF ∧ OdKept [(0x2900, 2), (0x2901, reqVal req % 256 + 1)] u t ∧ t.mem = u.mem ∧ t.safety = u.safety) ∧
    (Granted (domEntry true) req s → let u := recorded req s
      domainState u (reqVal req % 256) = 0 →
      ∃ t, exec (.domainOnRequest (.od req)) s = .next t ∧ Answered req 0 [] t ∧ domainState t (reqVal req % 256) = 1 ∧
        odGet t 0x2900 2 = 0xFFFF ∧ OdKept [(0x2900, 2), (0x2901, reqVal req % 256 + 1)] u t ∧ t.mem = u.mem ∧ t.safety = u.safety)

/-- Domain switches complete, a sleeping PD_MGMT wakes, and TILE_RESET clears a tile that no launch holds (R51, R53, R492, R493, R494, R498, R507). -/
def Obligations.DomainSwitchesAndTileReset : Prop :=
  ∀ (s : State) (d : Nat) (failed : List Nat) (w : Reg) (frame : Bool),
    (s.memOk → d ≤ 52 → domainState s d = 3 →
      ∃ t, exec (.domainOffDone d) s = .next t ∧ domainState t d = 0 ∧ irqPending t 486 = true ∧ t.memOk ∧
        odGet t 0x2900 3 = satAdd (2 ^ 32 - 1) (odGet s 0x2900 3) 1 ∧
        (d < 24 → ∀ b ∈ allBanks, bankDomain b = d → ∀ i, i < 64 * bankWords b → byteAt t (bankBase b + i) = 0) ∧
        (d = 52 → t.mem = s.mem) ∧
        (25 ≤ d → d ≤ 42 → t.mem = s.mem ∧ ∀ p ∈ t.chunks, tileDomain (chunkHome p.1) ≠ d) ∧
        t.launches = s.launches ∧ t.tiles = s.tiles ∧ t.safety = s.safety) ∧
    (d ≤ 52 → domainState s d = 1 →
      ∃ t, exec (.domainOnDone d failed) s = .next t ∧ domainState t d = 2 ∧ irqPending t 486 = true ∧
        odGet t 0x2900 3 = satAdd (2 ^ 32 - 1) (odGet s 0x2900 3) 1 ∧ t.mem = s.mem ∧ t.tiles = s.tiles ∧ t.launches = s.launches ∧
        (d < 24 → ∀ q ∈ failed, tileDomain q = d → isLogical s.plat.fuse q = true → isFenced t q = true)) ∧
    (let pos := fld w.toNat 0 11
     bitOf w.toNat 11 = true → tileHeld s pos = false → isLogical s.plat.fuse pos = true → kindOf pos ≠ .port →
      ∃ t, exec (.tileReset w) s = .next t ∧ TilesKept pos s t ∧ (tileOf t pos).fl = 0 ∧ (tileOf t pos).loops = [] ∧ (kindOf pos ≠ .s → (tileOf t pos).pm = []) ∧
        (∀ x ∈ (tileOf t pos).slots, x.2.dry = 0 ∧ x.2.latch = false) ∧ (tileOf t pos).ready = [] ∧
        t.agenda = (s.agenda.filter fun x => x.c.pos != pos) ∧ (tileOf t pos).store = (tileOf s pos).store ∧
        winGet t (tileBase pos + 0xF2000) = 0 ∧ winGet t (tileBase pos + 0xF2004) = 0 ∧ winGet t (tileBase pos + 0xF2008) = 0 ∧
        fld (winGet t pwrTile) 16 16 = satAdd 0xFFFF (fld (winGet s pwrTile) 16 16) 1 ∧
        WinKept [pwrTile, tileBase pos + 0xF2000, tileBase pos + 0xF2004, tileBase pos + 0xF2008] s t ∧
        t = { s with tiles := t.tiles, win := t.win, agenda := t.agenda }) ∧
    (mgmtAsleep s = true → s.serv.odm = none → (frame = true ∨ watchHit s = true) →
      ∃ t, exec (.mgmtWake frame) s = .next t ∧ domainState t 52 = 2 ∧ odGet t 0x2900 3 = satAdd (2 ^ 32 - 1) (odGet s 0x2900 3) 1 ∧
        OdKept [(0x2900, 3), (0x2901, 53)] s t ∧ Arrived [486] s t ∧ t = { s with od := t.od, host := t.host, out := t.out }) ∧
    (mgmtAsleep s = true → s.serv.odm = none → winGet s pwrWake ≠ 0 →
      ∃ t, exec .pwrWakeExpiry s = .next t ∧ winGet t pwrWake = 0 ∧ domainState t 52 = 2 ∧ OdKept [(0x2900, 3), (0x2901, 53)] s t ∧
        Arrived [488, 486] s t ∧ WinKept [pwrWake] s t ∧ t = { s with od := t.od, win := t.win, host := t.host, out := t.out })

/-- Supplies and RESET_n: what each takes from the die and keeps, and that a start-up in which nothing fails ends READY (R36, R385, R391, R392, R496, R497, R499, R500, R501, R502, R503, R513). -/
def Obligations.SuppliesAndResets : Prop :=
  ∀ (s : State) (ns : Nat) (env : StartEnv), keysRise s.od = true →
    let down := fun (u t : State) => (∀ d, d ≤ 52 → domainState t d = 0) ∧ t.mem = [] ∧ t.launches = [] ∧ t.tiles = [] ∧
      t.plat.ready = false ∧ t.plat.fuse = s.plat.fuse ∧ t.safety.outs = false ∧ odGet t 0x2A00 3 = odGet u 0x2A00 3 ∧
      (∀ c, 0x1101 ≤ c → c ≤ 0x113F → ∀ j, j < 256 → odGet t c j = odGet u c j) ∧
      t.serv.audit = u.serv.audit ∧ t.serv.auditCount = u.serv.auditCount ∧ t.serv.chain = u.serv.chain
    let up := fun (t : State) => t.plat.ready = true ∧ t.plat.step = 10 ∧ t.plat.linkUp = true ∧ t.plat.fuse = s.plat.fuse ∧
      t.plat.fwDigest = sha384 (if slotGood s.plat.fuse env.slotA then env.slotA.image else env.slotB.image)
    (s.plat.aux = true → s.plat.rst = false → 10000 ≤ ns →
      ∃ t, exec (.resetN ns) s = .next t ∧ down (auditFlush s) t ∧ t.plat.rst = true ∧ bitOf t.safety.causes 0 = true ∧ odGet t 0x2A00 1 = 1) ∧
    (s.plat.aux = true → s.plat.rst = false → 1000 ≤ ns → ns < 10000 →
      ∃ t, exec (.resetN ns) s = .next t ∧
        (t = { s with freeCtr := s.freeCtr + 1 } ∨ exec (.resetN 10000) { s with freeCtr := s.freeCtr + 1 } = .next t)) ∧
    (ns < 1000 → exec (.resetN ns) s = .next s) ∧
    (s.plat.aux = true → s.plat.v48 = true →
      ∃ t, exec .mainSupplyLoss s = .next t ∧ down s t ∧ t.plat.v48 = false ∧ bitOf t.safety.causes 4 = true ∧ odGet t 0x2A00 1 = 2) ∧
    (∃ t, exec .auxSupplyLoss s = .next t ∧ down s t ∧ t.plat.aux = false ∧ t.plat.v48 = false ∧ t.safety = State.reset.safety) ∧
    (env.fails = [] → (∀ p ∈ env.badTiles, mgmtTiles.contains p = false ∧ kindOf p ≠ .port) → (∀ p ∈ env.colRate, 1 ≤ p.2 ∧ p.2 < 4) →
      (env.refA = true ∨ env.refB = true) → env.perstReleased = true → env.linkTrains = true →
      (slotGood s.plat.fuse env.slotA = true ∨ slotGood s.plat.fuse env.slotB = true) →
      (s.plat.aux = false → env.v48 = true →
        ∃ t, exec (.powerOn env) s = .next t ∧ up t ∧ t.plat.aux = true ∧ odGet t 0x2A00 1 = 0 ∧
          odGet t 0x2A00 3 = satAdd (2 ^ 32 - 1) (odGet s 0x2A00 3) 1 ∧ t.safety.outs = false) ∧
      (s.plat.aux = true → s.plat.v48 = false → s.plat.rst = false →
        ∃ t, exec (.mainSupplyReturn env) s = .next t ∧ up t ∧ t.plat.v48 = true ∧
          odGet t 0x2A00 3 = satAdd (2 ^ 32 - 1) (odGet s 0x2A00 3) 1) ∧
      (s.plat.rst = true → s.plat.v48 = true →
        ∃ t, exec (.resetNRelease env) s = .next t ∧ up t ∧ t.plat.rst = false ∧ odGet t 0x2A00 3 = odGet s 0x2A00 3)) ∧
    (s.plat.aux = true → exec (.powerOn env) s = .next s) ∧
    (s.plat.v48 = true → exec (.mainSupplyReturn env) s = .next s) ∧
    (s.plat.rst = false → exec (.resetNRelease env) s = .next s)

/-- A switch of the CK_TILE or of the CK_HBM and CK_CAP multiplexer is refused while a launch is admitted (R486). -/
def Obligations.SwitchOfAPlannedClockIsRefusedWhileALaunchIsAdmitted : Prop :=
  ∀ (s : State) (d : Reg), admittedLaunches s ≠ [] → bitOf d.toNat 4 = true → (fld d.toNat 0 3 = 0 ∨ fld d.toNat 0 3 = 2) →
    ∃ t, exec (.clkMuxSwitch d) s = .next t ∧ bitOf (winGet t clkMux) 6 = true ∧ Arrived [485] s t ∧
      bitOf (winGet t clkMux) 5 = bitOf (winGet s clkMux) 5 ∧ fld (winGet t clkMux) 7 4 = fld (winGet s clkMux) 7 4 ∧
      WinKept [clkMux] s t ∧ t = { s with win := t.win, host := t.host, out := t.out }

/-- LDP loads parameter registers of 128 bits, never one beyond the 16th, and no other M-tile instruction writes any (R242). -/
def Obligations.ParameterRegistersAreLoadedByLdpAlone : Prop :=
  let quiet (s : State) : Prop := ∀ x ∈ s.agenda, kindOf x.c.pos = .m →
    x.c.f 58 6 ≠ 0x0B ∧ (∀ i v p, x.act ≠ .land (.pm i v p)) ∧ ∀ i lo w d, x.act ≠ .land (.dd i lo w d)
  (∀ (s t : State) (pos tc : Nat), quiet s →
    ∀ c ∈ [Instr.nop pos tc, .waitt pos tc, .loop pos tc, .yield pos tc, .haltf pos tc, .send pos tc, .recv pos tc, .sendm pos tc,
        .bar pos tc, .barw pos tc, .flag pos tc, .lac pos tc, .ldcA pos tc, .ldcB pos tc, .ldcS pos tc, .rsc pos tc, .topk pos tc],
      exec c s = .next t → quiet t ∧ ∀ q, kindOf q = .m → (tileOf t q).pm = (tileOf s q).pm) ∧
  (∀ (s : State) (pos tc : Nat) (c : Ctx), kindOf pos = .m → Issues s pos tc 0x0B (bits 33 0) c → c.f 56 2 < 2 →
    let a := addrBank pos (c.f 56 2 == 1) (c.f 40 16)
    (c.f 36 4 + 4 * (c.f 34 2 + 1) ≤ 16 →
      ∃ t u d, exec (.ldp pos tc) s = .next t ∧ t = underWay c [(if c.f 56 2 = 1 then 2 else 1, .read a.1 a.2 0 [] 0), (d, .free unitLoad)] u ∧
        u.agenda = (advance tc s).agenda ∧ (tileOf u pos).pm = (tileOf (advance tc s) pos).pm) ∧
    (16 < c.f 36 4 + 4 * (c.f 34 2 + 1) →
      ∃ t, exec (.ldp pos tc) s = .next t ∧ (tileOf t pos).pm = (tileOf (advance tc s) pos).pm ∧
        ∀ y ∈ t.agenda, y ∈ (advance tc s).agenda)) ∧
  (∀ (s : State) (x : Item) (l : List Item) (b w j arg : Nat) (got : List (Nat × Nat)), Alone s x l → kindOf x.c.pos = .m → x.c.f 58 6 = 0x0B →
    x.act = .read b w j got arg → Served s x.c.glove b w →
    let c := x.c
    let d := wordAt s b w
    ∃ u, AfterRead s x l d.2 u ∧
      advance x.tc s = dueIn c (((List.range 4).map fun k =>
          (if c.f 56 2 = 1 then 5 else 2, .land (.pm (c.f 36 4 + 4 * j + k) (fld d.1 (128 * k) 128) (d.2 != 0)))) ++
        if j < c.f 34 2 then [(1, .read b (w + 1) (j + 1) (got ++ [(0, d.2)]) arg)] else []) u) ∧
  ∀ (s : State) (x : Item) (l : List Item) (i v : Nat) (p : Bool), Alone s x l → x.act = .land (.pm i v p) →
    let t := advance x.tc s
    pmGet (tileOf t x.c.pos) i = v % 2 ^ 128 ∧ (∀ k, k ≠ i → pmGet (tileOf t x.c.pos) k = pmGet (tileOf s x.c.pos) k) ∧ TilesKept x.c.pos s t

/-- FRAME_BOUNDARY begins a frame, or is skipped by an overrun, by suspension, or for want of CK_TILE (R13, R17, R20, R22, R354, R383, R392, R393, R481, R484, R490). -/
def Obligations.FrameBoundaryBeginsAFrame : Prop :=
  ∀ (s : State) (env : BoundaryEnv),
    let f := { s.frame with sysNs := (s.frame.sysNs + env.ns) % 2 ^ 64 }
    let overrun := s.frame.gone + env.tcs < stretchedTc s (planTc (liveLaunches s))
    let locked := refBit s 4 = true ∧ refBit s 3 = false
    (muxStopped s 0 = true → exec (.frameBoundary env) s = .next { s with frame := f }) ∧
    (muxStopped s 0 = false → s.plat.suspended = true → ¬ locked →
      ∃ t, exec (.frameBoundary env) s = .next t ∧ odGet t 0x2800 8 = satAdd (2 ^ 32 - 1) (odGet s 0x2800 8) 1 ∧ OdKept [(0x2800, 8)] s t ∧
        t = { s with frame := { f with gone := s.frame.gone + env.tcs }, od := t.od }) ∧
    (muxStopped s 0 = false → s.plat.suspended = false → overrun →
      ∃ t, exec (.frameBoundary env) s = .next t ∧ irqPending t 138 = true ∧ t.frame = { f with gone := s.frame.gone + env.tcs } ∧
        odGet t 0x2100 4 = satAdd (2 ^ 32 - 1) (odGet s 0x2100 4) 1 ∧ odGet t 0x2100 3 = odGet s 0x2100 3 ∧
        t = { s with frame := t.frame, od := t.od, win := t.win, host := t.host, safety := t.safety, out := t.out } ∧
        ((admittedLaunches s).any (·.realtime) = true → t.safety.outs = false ∧ bitOf t.safety.causes 2 = true) ∧
        ((admittedLaunches s).any (·.realtime) = false → t.safety = s.safety)) ∧
    let d := drainAgenda (2 ^ 40) s
    (muxStopped s 0 = false → (s.plat.suspended = false ∨ locked) → ¬ overrun → (d.plat.suspended = false ∨ (refBit d 4 = true ∧ refBit d 3 = false)) →
      ∃ t, exec (.frameBoundary env) s = .next t ∧ t.now = 0 ∧ t.frame.boundaries = d.frame.boundaries + 1 ∧ t.frame.gone = 0 ∧
        t.frame.base = d.frame.base + d.frame.gone + env.tcs ∧ t.frame.sysNs = (d.frame.sysNs + env.ns) % 2 ^ 64 ∧
        t.plat = { d.plat with suspended := false } ∧ (d.plat.suspended = true → irqPending t 490 = true) ∧
        t.frame.tileStep = d.plat.nextStep ∧ odGet t 0x2100 3 = satAdd (2 ^ 64 - 1) (odGet d 0x2100 3) 1 ∧
        (∀ i j, odKey i j ≠ odKey 0x2100 3 → odForce t i j = odGet d i j) ∧
        (keysRise d.spent = true → ∀ g q, q < 16 → spentOf t g q = match allowance d g q with
          | none => 0
          | some b => spentOf d g q - b))

/-- FrameSource and FramePeriod take an admissible write, and gPTP messages move FrameSyncState (R12, R18, R21, R363, R446). -/
def Obligations.FrameSourcesAndSynchronisation : Prop :=
  ∀ (s : State) (req : OdReq) (offset : Int) (who : List Byte),
    (Granted frameSourceEntry req s → let u := recorded req s
      ∃ t, exec (.frameSourceWrite req) s = .next t ∧ Answered req 0 [] t ∧ odGet t 0x2100 1 = reqVal req ∧
        syncState t = (if reqVal req = 1 then 2 else 0) ∧ OdKept [(0x2100, 1), (0x2100, 5), (0x2600, 3)] u t ∧
        t.force = u.force ∧ t.frame = { u.frame with goodSync := 0 } ∧ t.mem = u.mem ∧ t.launches = u.launches) ∧
    (Granted framePeriodEntry req s → let u := recorded req s
      ∃ t, exec (.framePeriodWrite req) s = .next t ∧ Answered req 0 [] t ∧ odGet t 0x2100 2 = reqVal req ∧
        OdKept [(0x2100, 2)] u t ∧ AnswerOf (odSet u 0x2100 2 (reqVal req)) t) ∧
    (odGet s 0x2100 1 = 1 →
      (∃ t, exec (.syncMessage offset) s = .next t ∧ odGet t 0x1310 5 = unsigned 64 offset ∧
        t.frame = { s.frame with goodSync := if -100 ≤ offset ∧ offset ≤ 100 then min 8 (s.frame.goodSync + 1) else 0 } ∧
        syncState t = (if syncState s = 2 then 3 else syncState s) ∧ OdKept [(0x1310, 5), (0x2100, 5), (0x2600, 3)] s t ∧
        t = { s with frame := t.frame, od := t.od, host := t.host, out := t.out }) ∧
      (∃ t, exec .syncTimeout s = .next t ∧ syncState t = 2 ∧ (syncState s ≠ 2 → irqPending t 324 = true) ∧
        OdKept [(0x2100, 5), (0x2600, 3)] s t ∧
        t = { s with frame := { s.frame with goodSync := 0 }, od := t.od, host := t.host, out := t.out }) ∧
      ∃ t, exec (.grandmasterChange who) s = .next t ∧ syncState t = 3 ∧ odGet t 0x1310 6 = leNat (who.take 8) ∧
        (syncState s ≠ 3 → irqPending t 324 = true) ∧ OdKept [(0x1310, 6), (0x2100, 5), (0x2600, 3)] s t ∧
        t = { s with frame := { s.frame with goodSync := 0 }, od := t.od, host := t.host, out := t.out }) ∧
    (odGet s 0x2100 1 ≠ 1 → exec (.syncMessage offset) s = .next (odSet s 0x1310 5 (unsigned 64 offset)) ∧ exec .syncTimeout s = .next s ∧
      exec (.grandmasterChange who) s = .next (odSet s 0x1310 6 (leNat (who.take 8))))

/-- WINDOW_START begins its window, with the register clear at a change of glove; WINDOW_END closes it, with WINDOW_END or RECV_EMPTY where a program is unfinished (R51, R222, R224, R225, R231, R238, R258, R263). -/
def Obligations.WindowsStartAndEnd : Prop :=
  ∀ (s : State) (pos win : Nat) (w : WinDesc) (c : Ctx), pos < 1536 → mgmtTiles.contains pos = false →
    ((tileOf s pos).wins[win]? = some w → (tileOf s pos).run = none → (tileOf s pos).tc ≤ w.start → s.now ≤ w.start →
      winLive s (tileOf s pos) w = true →
      let r := advanceTo w.start s
      let T := tileOf r pos
      let clr := T.lastGlove ≠ some w.glove
      let states (u : State) : Nat := winGet u (tileBase pos + 0xF0004)
      ∃ t, exec (.windowStart pos win) s = .next t ∧ (tileOf t pos).run = some win ∧ (tileOf t pos).pc = w.entry ∧
        (tileOf t pos).loops = [] ∧ (tileOf t pos).ended = false ∧ (tileOf t pos).lastGlove = some w.glove ∧ (tileOf t pos).recv = none ∧
        (clr → (tileOf t pos).tc = w.start + 64 ∧ (tileOf t pos).fl = 0 ∧ (kindOf pos = .s → (tileOf t pos).s = ⟨[], [], 0⟩) ∧
          (kindOf pos = .v → (tileOf t pos).v = Tile.blank.v) ∧ (kindOf pos = .m → (tileOf t pos).m = Tile.blank.m) ∧
          (∀ x ∈ t.agenda, x ∈ r.agenda ∧ (x.c.pos = pos → w.start ≤ x.tc → x.tc < w.start + 64 → ∀ y, x.act ≠ .land y))) ∧
        (¬ clr → (tileOf t pos).tc = w.start ∧ (tileOf t pos).fl = T.fl ∧ (tileOf t pos).s = T.s ∧ (tileOf t pos).v = T.v ∧
          (tileOf t pos).m = T.m ∧ t.agenda = r.agenda) ∧
        (∀ b, b < 4 → bitOf w.decl b = true → bankExists (tileBank pos b) = true → fld w.stIn (2 * b) 2 = 3 → fld (states t) (2 * b) 2 = 3) ∧
        (∀ b, b < 4 → bitOf w.decl b = false → fld (states t) (2 * b) 2 = fld (states r) (2 * b) 2) ∧
        TilesKept pos r t ∧ t = { r with tiles := t.tiles, win := t.win, bank := t.bank, mem := t.mem, ecc := t.ecc, agenda := t.agenda }) ∧
    (curWin (tileOf s pos) = some w → s.now ≤ w.stop →
      let r := advanceTo w.stop s
      let T := tileOf r pos
      let info (u : State) : Nat := winGet u (tileBase pos + 0xF2000)
      arrivalCtx r pos w.stop = some c → dryNow r c = 0 → (kget r.launches c.launch).any (·.phase == .running) = true → bitOf (info r) 31 = false →
      c.glove < 256 → c.win < 64 → c.lslot < 16 →
      ∃ t, exec (.windowEnd pos) s = .next t ∧ (tileOf t pos).run = none ∧ (tileOf t pos).tc = w.stop ∧ (tileOf t pos).recv = none ∧
        TilesKept pos r t ∧
        (∀ b, b < 4 → bitOf w.decl b = true → bankExists (tileBank pos b) = true → fld w.stAfter (2 * b) 2 = 3 →
          fld (winGet t (tileBase pos + 0xF0004)) (2 * b) 2 = 3) ∧
        (T.recv.isSome = true → fld (info t) 0 8 = 10 ∧ bitOf (info t) 31 = true) ∧
        (T.recv = none → T.ended = false → fld (info t) 0 8 = 12 ∧ bitOf (info t) 31 = true) ∧
        (T.recv = none → T.ended = true → info t = info r ∧ t.launches = r.launches ∧ t.vc3Held = r.vc3Held ∧ t.agenda = r.agenda))

/-- BANK_WAKE wakes, BANK_SCRUB_VISIT corrects, and COMMONS_QUEUED_SERVICE goes on to the tc in which a queued request is served (R45, R48, R51, R54, R57, R140, R141). -/
def Obligations.BanksAtRest : Prop :=
  (∀ (s : State) (b word : Nat),
    (bankExists b = true → bankState s b < 2 → domainOn s (bankDomain b) = true → declaredOn s b = true →
      ∃ t, exec (.bankWake b) s = .next t ∧ bankState t b = 2 ∧ WinKept [bankStateAddr b] s t ∧ t = { s with win := t.win }) ∧
    (bankExists b = true → word < bankWords b → bankState s b = 3 →
      ∃ t, exec (.bankScrubVisit b word) s = .next t ∧ t.mem = s.mem ∧ t.win = s.win ∧ t.od = s.od ∧
        (∀ p, p ∈ t.ecc ↔ p ∈ s.ecc ∧ ¬ ((bankBase b + 64 * word) / 8 ≤ p.1 ∧ p.1 < (bankBase b + 64 * word) / 8 + 8 ∧ p.2 = .single)) ∧
        (eccMask s (bankBase b + 64 * word) = 0 → t = { s with ecc := t.ecc }) ∧
        (eccMask s (bankBase b + 64 * word) ≠ 0 → Arrived [141] s t))) ∧
  (∀ (s : State) (x y : Item) (l : List Item) (cl k w v i j a1 a2 : Nat) (g1 g2 : List (Nat × Nat)), cl < 24 → k < 16 →
    s.agenda = x :: y :: l → s.now ≤ x.tc → y.tc = x.tc → x.since = y.since → (∀ z ∈ l, x.tc < z.tc ∧ z.of y.c = false) →
    x.c.pos < 1536 → y.c.pos < 1536 → x.c.free = false → y.c.free = false → x.c.pos ≠ y.c.pos →
    x.act = .read (cmnBank cl k) w i g1 a1 → y.act = .read (cmnBank cl k) v j g2 a2 → w < v → Served s x.c.glove (cmnBank cl k) w →
    let queued (u : State) : Nat := fld (winGet u (cmnBase cl + 0xFF0018)) 0 32
    let t := advance x.tc s
    { y with tc := x.tc + 1 } ∈ t.agenda ∧ queued t = satAdd (2 ^ 32 - 1) (queued s) 1 ∧ t.mem = s.mem) ∧
  ∀ (s : State) (x : Item) (l : List Item) (cl k w : Nat), cl < 24 → k < 16 → Alone s x l → x.since < x.tc → x.c.dry = 0 → s.memOk →
    Served s x.c.glove (cmnBank cl k) w →
    let a := wordAddr (cmnBank cl k) w
    (∀ off d, x.act = .store (cmnBank cl k) w (.write off d) →
      ∃ t, exec (.commonsQueuedService cl k) s = .next t ∧ t.now = x.tc ∧ t.agenda = l ∧ t.tiles = s.tiles ∧
        MemKept (a + off) d.length s t ∧ ∀ j, j < d.length → byteAt t (a + off + j) = d.getD j 0) ∧
    (∀ v, x.act = .stat (cmnBank cl k) w v →
      ∃ t, exec (.commonsQueuedService cl k) s = .next t ∧ t.now = x.tc ∧ t.agenda = l ∧ t.tiles = s.tiles ∧ MemKept a 64 s t ∧
        ∀ j, j < 8 → loadNat t (a + 8 * j) 8 =
          if j < 6 ∧ bitOf (eccMask s a) j = false then (loadNat s (a + 8 * j) 8 + lane v j) % 2 ^ 64 else loadNat s (a + 8 * j) 8)

/-- A bank changes hands in three commands: the request, the change of owner at B + 2, and the end of the scrub (R346, R347, R348, R349, R350). -/
def Obligations.BankHandover : Prop :=
  ∀ (s : State) (b : Nat) (d : Reg), bankExists b = true →
    let o := bankOwnerAddr b
    (bitOf d.toNat 20 = true → handoverRefused s b (fld d.toNat 8 8) = false →
      ∃ t, exec (.bankHandoverRequest b d) s = .next t ∧ fld (winGet t o) 8 9 = fld d.toNat 8 9 ∧ bankPendingHandover t b = true ∧
        bankOwner t b = bankOwner s b ∧ (bankAux t b).hand = some (.asked s.frame.boundaries s.now) ∧ WinKept [o] s t ∧
        t = { s with win := t.win, bank := t.bank }) ∧
    (bitOf d.toNat 20 = true → handoverRefused s b (fld d.toNat 8 8) = true →
      ∃ t, exec (.bankHandoverRequest b d) s = .next t ∧ bitOf (winGet t o) 19 = true ∧ fld (winGet t o) 0 19 = fld (winGet s o) 0 19 ∧
        Arrived [67] s t ∧ WinKept [o] s t ∧ t = { s with win := t.win, host := t.host, out := t.out }) ∧
    (∀ frame tc, (bankAux s b).hand = some (.asked frame tc) →
      (∀ B, tc < B → (∃ w ∈ (tileOf s (bankPos b)).wins, w.start = B ∨ w.stop = B) →
        (∀ w ∈ (tileOf s (bankPos b)).wins, (tc < w.start → B ≤ w.start) ∧ (tc < w.stop → B ≤ w.stop)) → changeAt s b = some (frame, B + 2)) ∧
      ((∀ w ∈ (tileOf s (bankPos b)).wins, w.start ≤ tc ∧ w.stop ≤ tc) → changeAt s b = some (frame + 1, 2))) ∧
    (∀ frame tc, changeAt s b = some (frame, tc) → frame ≤ s.frame.boundaries →
      let r := if s.frame.boundaries = frame then advanceTo tc s else s
      ∃ t, exec (.bankOwnerChange b) s = .next t ∧ bankOwner t b = fld (winGet r o) 8 8 ∧
        (bankOwner r b ≠ fld (winGet r o) 8 8 ∨ bitOf (winGet r o) 16 = true →
          bitOf (winGet t o) 18 = true ∧ (bankAux t b).hand = some .scrubbing ∧ fld (winGet t (bankStateAddr b)) (2 * bankNo b) 2 = 2 ∧
            WinKept [o, bankStateAddr b] r t ∧ t = { r with win := t.win, bank := t.bank }) ∧
        (bankOwner r b = fld (winGet r o) 8 8 → bitOf (winGet r o) 16 = false →
          bankPendingHandover t b = false ∧ (bankAux t b).hand = none ∧ Arrived [66] r t ∧ WinKept [o] r t ∧
            t = { r with win := t.win, bank := t.bank, host := t.host, out := t.out })) ∧
    (s.memOk → (bankAux s b).hand = some .scrubbing →
      ∃ t, exec (.bankHandoverScrubDone b) s = .next t ∧ fld (winGet t (bankStateAddr b)) (2 * bankNo b) 2 = 3 ∧
        (∀ i, i < 64 * bankWords b → byteAt t (bankBase b + i) = 0) ∧ MemKept (bankBase b) (64 * bankWords b) s t ∧
        bankPendingHandover t b = false ∧ bitOf (winGet t o) 18 = false ∧ bankOwner t b = bankOwner s b ∧ (bankAux t b).hand = none ∧
        Arrived [66] s t ∧ WinKept [o, bankStateAddr b] s t ∧
        t = { s with win := t.win, bank := t.bank, mem := t.mem, ecc := t.ecc, host := t.host, out := t.out })

/-- SLOT_FWD hands the flit of its input on unchanged, delivers it to a waiting RECV, and sends poison where it is missing or spoilt (R61, R62, R71, R72, R73, R75, R95, R96, R235, R236, R297). -/
def Obligations.SlotsForwardAndDeliver : Prop :=
  ∀ (s : State) (pos out tc k n : Nat) (e : SlotEnt) (errs : List LinkErr), pos < 1536 → s.now ≤ tc → muxStopped s 0 = false →
    let r := advance tc s
    slotEntry r pos out tc = some (k, e) → e.op = 1 → slotInputs e = [n] →
    let found := (routerOf r pos).latch.find? fun x => x.input == n && x.tc + 2 == tc
    let err := errs.find? fun x => x.input == n
    let T := tileOf r pos
    let at_ := tc + if crossesCol pos out then 4 else 0
    let joined := fun (t : State) (p : Nat) (f : Flit) =>
      routerOf t p = { routerOf r p with latch := (routerOf r p).latch ++ [⟨opposite out, at_, slotUses r p (opposite out) at_, f⟩] } ∧
        ∀ q, q ≠ pos → q ≠ p → kget t.routers q = kget r.routers q
    (∀ (x : Latch) (p : Nat), n < 4 → found = some x → err = none → x.flit.tag = e.tag → x.flit.glove = e.glove → out < 4 →
      neighbour pos out = some p → slotUses r p (opposite out) at_ ≠ 0 →
      ∃ t, exec (.slotFwd pos out tc errs) s = .next t ∧ joined t p x.flit ∧ t = { r with routers := t.routers } ∧
        routerOf t pos = { routerOf r pos with latch := (if x.uses ≤ 1 then (routerOf r pos).latch.erase x
          else (routerOf r pos).latch.map fun y => if y = x then { y with uses := y.uses - 1 } else y) }) ∧
    (∀ (h : Nat) (f : Flit) (l : List (Nat × Flit)) (p : Nat), n = 4 → kindOf pos ≠ .port → ((routerOf r pos).own.all fun o => o.1 != tc) = true →
      T.inj = (h, f) :: l → h ≤ tc → f.tag = e.tag → f.glove = e.glove → out < 4 → neighbour pos out = some p →
      slotUses r p (opposite out) at_ ≠ 0 →
      ∃ t, exec (.slotFwd pos out tc errs) s = .next t ∧ joined t p f ∧ routerOf t pos = { routerOf r pos with own := some (tc, some f) } ∧
        tileOf t pos = { T with inj := l } ∧ TilesKept pos r t ∧ t = { r with routers := t.routers, tiles := t.tiles }) ∧
    (∀ (x : Latch) (c : Ctx) (v : RecvSt), n < 4 → found = some x → err = none → x.flit.tag = e.tag → x.flit.glove = e.glove →
      x.flit.poison = false → x.flit.bar = false → x.flit.stat = false → out = 4 → kindOf pos ≠ .port → arrivalCtx r pos tc = some c →
      T.recv = some v → v.c.pos = pos → v.c.dry = 0 → (T.m.meshRd.any fun m => meshWants m tc) = false →
      let d := x.flit.data
      let a := addrBank pos false (v.c.f 40 16)
      ∃ t u, exec (.slotFwd pos out tc errs) s = .next t ∧ u = { r with routers := u.routers, tiles := u.tiles } ∧ TilesKept pos r u ∧
        tileOf u pos = (if v.left ≤ 1 then { T with recv := none, ready := kput T.ready unitRecv (r.now + 1) }
          else { T with recv := some { v with next := v.next + 1, left := v.left - 1 } }) ∧
        t = dueIn v.c (if v.c.f 56 2 = 0 then [(2, .portB a.1 (a.2 + v.next) (.write 0 (leBytes 64 d)))]
          else if v.c.f 56 2 = 1 then [(2, .land (.fl d))]
          else if kindOf pos = .v then [(2, .land (.lanes (v.c.f 40 4) ((List.range 16).map fun j => (16 * v.next + j, fld d (32 * j) 32))
            (if v.next = 15 ∧ v.bad = false then some false else none)))]
          else (List.range 8).map fun j => (2, .land (.g (24 + j) (lane d j) false))) u) ∧
    (∀ (y : Stream) (b : ReadAhead) (p : Nat), n = 4 → isMemPort pos = true → out < 4 → neighbour pos out = some p →
      slotUses r p (opposite out) at_ ≠ 0 → ((portOf r pos).lanes.any fun x => x.1 == tc) = false →
      (∀ o k' e', o < 4 → o ≠ out → slotEntry r pos o tc = some (k', e') → bitOf e'.src 4 = false) →
      let q := portOf r pos
      let w := kgetD q.place (streamKey e.glove e.tag false) (0, 0)
      let l := streamsOf q e.glove e.tag false
      l[w.1]? = some y → q.buffer.find? (fun b => b.stream == y && b.place == w.2) = some b →
      let f : Flit := ⟨e.glove, e.tag, b.bad, false, b.data, false⟩
      ∃ t, exec (.slotFwd pos out tc errs) s = .next t ∧ joined t p f ∧ (∀ q, q ≠ pos → kget t.ports q = kget r.ports q) ∧
        portOf t pos = { q with place := kput q.place (streamKey e.glove e.tag false) (nextPlace l w)
                                buffer := q.buffer.erase b
                                lanes := [(tc, out, some f)] } ∧ t = { r with routers := t.routers, ports := t.ports }) ∧
    (∀ (x : Latch) (y : Stream), n < 4 → found = some x → err = none → x.flit.tag = e.tag → x.flit.glove = e.glove → x.flit.poison = false →
      x.flit.bar = false → out = 4 → isMemPort pos = true → r.memOk →
      let q := portOf r pos
      let w := kgetD q.place (streamKey e.glove e.tag true) (0, 0)
      (streamsOf q e.glove e.tag true)[w.1]? = some y →
      ∃ t, exec (.slotFwd pos out tc errs) s = .next t ∧ loadNat t (y.addr + 64 * w.2) 64 = x.flit.data % 2 ^ 512 ∧ t.memOk ∧
        MemKept (y.addr + 64 * w.2) 64 r t ∧ t.tiles = r.tiles ∧
        kget (portOf t pos).place (streamKey e.glove e.tag true) = some (nextPlace (streamsOf q e.glove e.tag true) w)) ∧
    (∀ (x : Latch) (p : Nat) (er : LinkErr), n < 4 → found = some x → err = some er → x.flit.tag = e.tag → x.flit.glove = e.glove →
      out < 4 → neighbour pos out = some p → slotUses r p (opposite out) at_ ≠ 0 →
      let a := tileBase pos + 0xFE008
      ∃ t f, exec (.slotFwd pos out tc errs) s = .next t ∧ joined t p f ∧ f = { x.flit with poison := f.poison, data := f.data } ∧
        (er.lanes % 512 = 0 → f = x.flit) ∧ (er.lanes % 512 ≠ 0 → irqPending t 322 = true ∧ f.poison = true) ∧
        (∀ j, j < 8 → bitOf er.lanes j = false → lane f.data j = lane x.flit.data j) ∧
        fld (winGet t a) 0 16 = satAdd 65535 (fld (winGet r a) 0 16) er.fixed ∧
        fld (winGet t a) 16 16 = satAdd 65535 (fld (winGet r a) 16 16) ((List.range 9).countP (bitOf er.lanes)) ∧
        t.mem = r.mem ∧ t.tiles = r.tiles) ∧
    ∀ p : Nat, n < 4 → found = none → out < 4 → neighbour pos out = some p → slotUses r p (opposite out) at_ ≠ 0 →
      let a := tileBase pos + 0xFE004
      ∃ t w, exec (.slotFwd pos out tc errs) s = .next t ∧ irqPending t 321 = true ∧ joined t p ⟨e.glove, e.tag, true, false, w, false⟩ ∧
        fld (winGet t a) 0 8 = satAdd 255 (fld (winGet r a) 0 8) 1 ∧ t.mem = r.mem ∧ t.tiles = r.tiles

/-- COMBINE_ADD, TOPK, BAR and FLAG send the combined word of their link inputs, poisoned if any input is (R72, R81, R82, R83, R84, R85, R86, R140). -/
def Obligations.CombinesComputeTheirWord : Prop :=
  (∀ (s : State) (pos out tc k p : Nat) (e : SlotEnt) (uses : Nat → Nat) (flit : Nat → Flit) (errs : List LinkErr), pos < 1536 → out < 4 →
    s.now ≤ tc → muxStopped s 0 = false →
    let r := advance tc s
    slotEntry r pos out tc = some (k, e) → neighbour pos out = some p →
    let at_ := tc + if crossesCol pos out then 4 else 0
    slotUses r p (opposite out) at_ ≠ 0 →
    (∀ n ∈ slotInputs e, n < 4 ∧ errs.find? (fun x => x.input == n) = none ∧ (flit n).tag = e.tag ∧ (flit n).glove = e.glove ∧
      3 ≤ tc ∧ ((routerOf r pos).latch.find? fun x => x.input == n && x.tc + 3 == tc) = some ⟨n, tc - 3, uses n, flit n⟩) →
    let ws := (slotInputs e).map fun n => (flit n).data
    let bad := (slotInputs e).any fun n => (flit n).poison
    let sent := fun (t : State) (f : Flit) => (routerOf t p).latch =
        (routerOf r p).latch ++ [⟨opposite out, at_, slotUses r p (opposite out) at_, f⟩] ∧
      (∀ q, q ≠ pos → q ≠ p → kget t.routers q = kget r.routers q) ∧ t = { r with routers := t.routers }
    (e.op = 2 → ∃ t, exec (.combineAdd pos out tc errs) s = .next t ∧
      sent t ⟨e.glove, e.tag, bad, false, combineAdd ws, (slotInputs e).all fun n => (flit n).stat⟩) ∧
    (e.op = 3 →
      let m := topkWord (kgetD (routerOf r pos).topk (topkKey out e) TopkSt.blank) ((slotInputs e).map fun n => (n, (flit n).data)) bad
      ∃ t, exec (.combineTopk pos out tc errs) s = .next t ∧ sent t ⟨e.glove, e.tag, m.2.1, false, m.1, false⟩ ∧
        kget (routerOf t pos).topk (topkKey out e) = some m.2.2) ∧
    (e.op = 4 → ∃ t, exec (.combineBar pos out tc errs) s = .next t ∧ sent t ⟨e.glove, e.tag, bad, true, combineBar ws, false⟩) ∧
    (e.op = 5 → ∃ t, exec (.combineFlag pos out tc errs) s = .next t ∧ sent t ⟨e.glove, e.tag, bad, false, combineFlag ws, false⟩)) ∧
  ∀ (ws : List Nat) (j : Nat),
    (j < 8 → lane (combineAdd ws) j = (ws.map (lane · j)).sum % 2 ^ 64) ∧
    lane (combineBar ws) 1 = (ws.map (lane · 1)).foldl max 0 ∧
    (j < 8 → j ≠ 1 → lane (combineBar ws) j = (ws.map (lane · j)).sum % 2 ^ 64) ∧
    (combineFlag ws).testBit j = ws.any (·.testBit j)

/-- VC_FLIT_FORWARD serves the VC and the place whose turn it is, and VC3_RECORD_RELEASE sends a record on toward the Helmet (R61, R63, R67, R68, R69, R77, R78, R80, R87). -/
def Obligations.VirtualChannelsForward : Prop :=
  ∀ (s : State) (pos out k : Nat) (err : Option LinkErr), pos < 1536 → out < 5 → s.now ≤ (planAt s k).1 → muxStopped s 0 = false →
    let r := if (planAt s k).2 then advance (planAt s k).1 s else advanceTo (planAt s k).1 s
    let now := r.frame.base + k
    let T := tileOf r pos
    let n := openNo r pos out k
    openTc r pos out k = true → kgetD (routerOf r pos).linkFree out 0 ≤ now → (∀ f ∈ T.msgq, f.dests ≠ [] ∧ mayInject r f = true) →
    let vc := if n % 8 = 3 then 2 else if n % 8 = 7 then 3 else 1
    let src := (kgetD (routerOf r pos).rr (3 * out + vc) 8 + 1) % 9
    let bad := err.any fun e => e.lanes % 512 != 0
    (∀ p : Nat, out < 4 → neighbour pos out = some p → vc ≠ 3 →
      let inb := fun (input cls : Nat) => qKey (opposite out) vc (leaveClass input cls out)
      let moved := fun (t : State) (input cls : Nat) (f : VcFlit) =>
        kgetD (routerOf t p).q (inb input cls) [] = kgetD (routerOf r p).q (inb input cls) [] ++
          [{ flitCopy pos out now f with poison := f.poison || bad }] ∧
        kgetD (routerOf t pos).rr (3 * out + vc) 8 = src ∧ kgetD (routerOf t pos).linkFree out 0 = now + 1 ∧
        (∀ q, q ≠ pos → q ≠ p → kget t.routers q = kget r.routers q) ∧ (bad = true → irqPending t 322 = true)
      (∀ (f : VcFlit) (l : List VcFlit), src < 8 → kgetD (routerOf r pos).q (qKey (src / 2) vc (src % 2)) [] = f :: l → f.vc = vc →
        f.dests.any (fun w => wayOut w == out) = true → f.since ≤ now → hasCredit r pos (src / 2) vc (src % 2) out = true →
        ∃ t, exec (.vcFlitForward pos out k err) s = .next t ∧ moved t (src / 2) (src % 2) f ∧
          kgetD (routerOf t pos).q (qKey (src / 2) vc (src % 2)) [] = (if (flitRest out f).dests.isEmpty then l else flitRest out f :: l) ∧
          (err = none → WinKept [tileBase pos + 0xFE00C, tileBase pos + 0xFE018] r t ∧ t = { r with routers := t.routers, win := t.win })) ∧
      ∀ (f : VcFlit) (j : Nat), src = 8 →
        (firstOfGloves vc T.msgq).find? (fun x => x.2.dests.any (fun w => wayOut w == out) && mayLeave r pos now x.2) = some (j, f) →
        hasCredit r pos 4 vc 0 out = true →
        ∃ t, exec (.vcFlitForward pos out k err) s = .next t ∧ moved t 4 0 f ∧ TilesKept pos r t ∧
          tileOf t pos = { T with
            msgq := (if (flitRest out f).dests.isEmpty then T.msgq.eraseIdx j else T.msgq.set j (flitRest out f)),
            grants := (match f.pay with
              | .store _ _ => if f.paid then T.grants else kadj T.grants f.glove fun n => n - 1
              | _ => T.grants) } ∧
          spentOf t f.glove (vc + 2) = spentOf r f.glove (vc + 2) + (if f.paid then 0 else 1) ∧
          (err = none → WinKept [tileBase pos + 0xFE00C, tileBase pos + 0xFE018] r t ∧
            t = { r with routers := t.routers, win := t.win, tiles := t.tiles, spent := t.spent })) ∧
    (∀ (e : Vc3Ent) (w : List Nat), vc = 3 → err = none → keysRise r.vc3Held = true → (∀ j, j < 9 → kgetD r.vc3Wait (16 * pos + j) [] = []) →
      (kgetD r.vc3Held pos []).find? (vc3Ready r pos out now) = some e → vc3Way r pos e = some w →
      let left := fun (t : State) => kgetD t.vc3Held pos [] = (kgetD r.vc3Held pos []).erase e ∧
        routerOf t pos = { routerOf r pos with linkFree := kput (routerOf r pos).linkFree out (now + 1) } ∧
        ∀ q, q ≠ pos → kget t.routers q = kget r.routers q
      let sends := fun c : Instr =>
        (out = 4 → ∃ t, exec c s = .next t ∧ left t ∧ (∀ q, q ≠ pos → kget t.vc3Held q = kget r.vc3Held q) ∧
          t.safety = { r.safety with inbox := r.safety.inbox ++ [e.rec_] } ∧ t.out = .record e.rec_ :: r.out ∧
          t = { r with routers := t.routers, safety := t.safety, vc3Held := t.vc3Held, out := t.out }) ∧
        ∀ p : Nat, out < 4 → neighbour pos out = some p →
          let b := leaveClass e.input e.cls out
          kgetD r.vc3Wait (16 * p + 2 * opposite out + b) [] = [] → (kgetD r.vc3Held p []).length < 8 →
          ((kgetD r.vc3Held p []).any fun h => vc3Same e.rec_ h.rec_) = false →
          ∃ t, exec c s = .next t ∧ left t ∧
            kgetD t.vc3Held p [] = kgetD r.vc3Held p [] ++ [⟨e.rec_, some (w.drop 1), opposite out, b, hopTc pos out now⟩] ∧
            (∀ q, q ≠ pos → q ≠ p → kget t.vc3Held q = kget r.vc3Held q) ∧
            t = { r with routers := t.routers, vc3Held := t.vc3Held, win := t.win }
      sends (.vcFlitForward pos out k none) ∧ ((kgetD r.vc3Held pos []).head? = some e → w.headD 4 = out → sends (.vc3RecordRelease pos k none)))

/-- LEDGER_REQUEST queues a request, LEDGER_GRANT grants what the visited glove's deficit covers, COL_RETRAIN changes a link's rate (R78, R90, R94, R96, R292, R293, R294, R353, R354). -/
def Obligations.LedgersShareByDeficit : Prop :=
  (∀ (s : State) (pos op : Nat), pos < 1536 → kindOf pos = .port →
    ((∀ j, portFn pos ≠ .pcie j) → ∀ (r : MemReq) (l : List MemReq), (portOf s pos).arrived = r :: l →
      (r.bad = false → ∃ t, exec (.ledgerRequest pos op) s = .next t ∧
        portOf t pos = { portOf s pos with arrived := l, pend := (portOf s pos).pend ++ [⟨r.glove, r.len, some r, 0, false⟩] } ∧
        (∀ q, q ≠ pos → kget t.ports q = kget s.ports q) ∧ t = { s with ports := t.ports }) ∧
      (r.bad = true → ∃ t, exec (.ledgerRequest pos op) s = .next t ∧ portOf t pos = { portOf s pos with arrived := l } ∧
        irqPending t 258 = true ∧ (∀ q, q ≠ pos → kget t.ports q = kget s.ports q) ∧ t.mem = s.mem)) ∧
    (∀ (j : Nat) (o : Op), portFn pos = .pcie j → kget s.fe.ops op = some o → o.phase = .started → (dKind o.bytes = 1 ∨ dKind o.bytes = 2) →
      o.granted < dLen o.bytes → (s.ports.any fun p => p.2.pend.any fun x => x.req.isNone && x.op == op) = false →
      ∃ t, exec (.ledgerRequest pos op) s = .next t ∧
        portOf t pos = { portOf s pos with pend := (portOf s pos).pend ++ [⟨o.glove, min 4096 (dLen o.bytes - o.granted), none, op, false⟩] } ∧
        (∀ q, q ≠ pos → kget t.ports q = kget s.ports q) ∧ t = { s with ports := t.ports })) ∧
  (∀ (s : State) (pos g : Nat), pos < 1536 →
    let p := portOf s pos
    nextGlove ((pendingGloves p).filter fun g => shareOf s g != 0) p.visit = some g → allowance s g 5 = none →
    let d := kgetD (p.deficit.filter fun x => (pendingGloves p).contains x.1) g 0 + 512 * shareOf s g
    let reqs := covered d (p.pend.filter fun x => x.glove == g)
    let back := reqs.filterMap fun x => x.req.bind fun q => if q.write then (route s.plat.fuse pos q.src).map fun w =>
      ({ vcFlit 2 q.glove [(w, q.src, 0)] (.grant q.words true) false true with since := absNow s + 2 } : VcFlit) else none
    ∃ t, exec (.ledgerGrant pos) s = .next t ∧ (portOf t pos).granted = p.granted ++ reqs.filterMap (·.req) ∧
      (portOf t pos).pend.length + reqs.length = p.pend.length ∧ (portOf t pos).visit = g + 1 ∧
      kgetD (portOf t pos).deficit g 0 = (if (portOf t pos).pend.any (fun x => x.glove == g) then d - (reqs.map (·.size)).sum else 0) ∧
      spentOf t g 5 = spentOf s g 5 + ((reqs.filter (·.req.isSome)).map (·.size)).sum ∧ (∀ q, q ≠ pos → kget t.ports q = kget s.ports q) ∧
      tileOf t pos = { tileOf s pos with msgq := (tileOf s pos).msgq ++ back } ∧ TilesKept pos s t ∧
      t = { s with ports := t.ports, spent := t.spent, tiles := t.tiles, fe := { s.fe with ops := t.fe.ops } }) ∧
  ∀ (s : State) (row rate : Nat), row < 32 → colRate s row ≠ 0 → colRate s row ≠ 4 → 1 ≤ rate → rate ≤ 4 → rate ≠ colRate s row →
    ∃ t, exec (.colRetrain row rate) s = .next t ∧ colRate t row = rate ∧ irqPending t 320 = true ∧ OdKept [(0x2301, row + 1), (0x2300, 6)] s t ∧
      t = { s with od := t.od, win := t.win, vc3Held := t.vc3Held, vc3Wait := t.vc3Wait, host := t.host, out := t.out }

/-- CHECKPOINT keeps the lowest energy seen and advances the permutation; SAMPLE_POINT counts each contributing replica once (R147, R160, R164, R165, R167, R168, R169, R170, R210, R211, R327, R372). -/
def Obligations.CheckpointsAndSamples : Prop :=
  ∀ (s : State) (k j n : Nat) (c : ProbCtx) (p : ProbSt), s.memOk →
    probCtx s k j = some c → probOf s k j = some p → c.l.phase = .running → p.stop = none → p.sets.length = c.img.replicas →
    p.steps ≤ n → n ≤ c.img.steps →
    (p.steps = n ∨ (settled c p = true ∧ (span (p.steps + 1) (n - p.steps - 1)).any (eventAt c) = false)) →
    (∀ d, drainLimit c = some d → n < d) →
    let q := sweeps s c (n - p.steps) p
    (p.lastCheck < n → checkpointAt c.img n = true →
      ∃ t v, exec (.checkpoint ⟨k, j, n⟩) s = .next t ∧ probOf t k j = some v ∧ v.steps = n ∧ v.sets = q.sets ∧ v.data = q.data ∧
        v.lastCheck = n ∧ v.check = (p.check + 1) % 2 ^ 32 ∧ v.oldPerm = p.perm ∧ (∀ x ∈ v.chg, ∀ y ∈ x, y = false) ∧
        (let es := energies c q.sets
         v.perm = (if c.img.temper then swapRound c p.check (n - 1) (bareEnergies c q.sets) p.perm else p.perm) ∧
         v.best.map (·.energy) = some (match p.best with
           | none => es.getD (lowest es) 0
           | some b => min b.energy (es.getD (lowest es) 0))) ∧
        (c.img.realtime = false → n = c.img.steps → v.stop = some 0) ∧
        (c.img.realtime = true → n = c.img.steps → v.stop = if c.l.drained.isSome then some 2 else none) ∧
        (∀ a i, c.img.realtime = true → n = c.img.steps → c.data.output = some a →
          let out := frameOutput c v (energies c q.sets) (q.sets.map (roundSet c))
          i < out.length → byteAt t (a + i) = out.getD i 0) ∧ t.memOk ∧ MemKeptAll (outputRanges c) s t ∧
        (∀ m, m ≠ probKey k j → kget t.probs m = kget s.probs m) ∧
        t = { s with probs := t.probs, rx := t.rx, mem := t.mem, ecc := t.ecc, leaves := t.leaves }) ∧
    (∀ b : SampBlk, c.blk = some b → sampleAt b n = true → p.lastSamp ≠ n → (checkpointAt c.img n = true → p.lastCheck = n) →
      (∀ x ∈ p.counters, Served s c.l.glove x.1 x.2 ∧ accsNow s x.1 = [] ∧ (wordAt s x.1 x.2).2 = 0) → (counterRanges p).Nodup →
      let who := if c.img.temper then [(if p.lastCheck = n then p.oldPerm else p.perm).getD 0 0] else List.range c.img.replicas
      let up := fun r i => (roundSet c (q.sets.getD r [])).getD i false
      let m := if b.marg then c.img.nvar else 0
      ∃ t, exec (.samplePoint ⟨k, j, n⟩) s = .next t ∧
        probOf t k j = some { q with lastSamp := n, samples := q.samples + who.length } ∧ t.memOk ∧ MemKeptAll (counterRanges p) s t ∧
        (∀ i, i < 8 * p.counters.length → (counterVals p.counters t).getD i 0 = ((counterVals p.counters s).getD i 0 +
          (if i = 0 then who.length
           else if i < 1 + m then who.countP fun r => up r (i - 1)
           else if b.pair = true ∧ i < 1 + m + b.npair then who.countP fun r =>
             let y := pairAt s (imageRegions c.l.params) b (i - 1 - m)
             up r y.1 == up r y.2
           else 0)) % 2 ^ 64) ∧
        (∀ m, m ≠ probKey k j → kget t.probs m = kget s.probs m) ∧
        t = { s with probs := t.probs, mem := t.mem, ecc := t.ecc, leaves := t.leaves })

/-- LEARNING_ITERATION moves every master by its rate and zeroes the counts; LEARNING_CHECKPOINT rebuilds the problem from the masters (R131, R132, R136, R213, R214, R215). -/
def Obligations.LearningMovesTheMasters : Prop :=
  ∀ (s : State) (k j : Nat) (c : ProbCtx) (p : ProbSt) (b : SampBlk), s.memOk →
    probCtx s k j = some c → probOf s k j = some p → c.blk = some b → b.learn = true → c.l.phase = .running → p.stop = none →
    (∀ d, drainLimit c = some d → p.steps < d) →
    let mas := c.addr 7
    let cnt := counterVals p.counters s
    (iterAt b p.steps = true → p.lastIter ≠ p.steps → p.lastSamp = p.steps → cnt.headD 0 ≠ 0 →
      (∀ x ∈ p.counters, Served s c.l.glove x.1 x.2 ∧ accsNow s x.1 = []) → (counterRanges p).Nodup →
      (∀ r ∈ counterRanges p, r.1 + r.2 ≤ mas ∨ mas + 4 * (b.npair + c.img.nvar + 1) ≤ r.1) →
      ∃ t v, exec (.learningIteration k j p.steps) s = .next t ∧ probOf t k j = some v ∧
        v = { p with lastIter := p.steps, iters := p.iters + 1, sats := v.sats } ∧
        (∀ x ∈ counterVals v.counters t, x = 0) ∧ t.memOk ∧ MemKeptAll ((mas, 4 * (b.npair + c.img.nvar + 1)) :: counterRanges p) s t ∧
        (∀ i, i < b.npair → i32At t mas i = sat32 (i32At s mas i +
          tz ((b.lr.1 : Int) * (i32At s (c.addr 6) (c.img.nvar + i) - estimate (cnt.getD (1 + c.img.nvar + i) 0) (cnt.headD 0))) b.sh.1)) ∧
        (∀ i, i < c.img.nvar → i32At t mas (b.npair + i) = sat32 (i32At s mas (b.npair + i) +
          tz ((b.lr.2.1 : Int) * (i32At s (c.addr 6) i - estimate (cnt.getD (1 + i) 0) (cnt.headD 0))) b.sh.2.1)) ∧
        (∀ m, m ≠ probKey k j → kget t.probs m = kget s.probs m) ∧
        t = { s with probs := t.probs, mem := t.mem, ecc := t.ecc, leaves := t.leaves }) ∧
    (p.iters ≠ 0 → p.iters % b.lchk = 0 → p.lchecks ≠ p.iters / b.lchk → p.lastIter = p.steps →
      let code := if c.learned then (let m := i32At s mas (b.npair + c.img.nvar); if 2 ^ 15 ≤ m then m.toNat / 2 ^ 15 else 1) else c.code
      let es := bookEntries c.data
      let pair := fun i => pairAt s (imageRegions c.l.params) b i
      ∃ t v, exec (.learningCheckpoint k j p.steps) s = .next t ∧ probOf t k j = some v ∧
        v = { p with data := v.data, code := code, lchecks := p.lchecks + 1 } ∧
        v.data.bias = ((List.range c.img.nvar).map fun i => i32At s mas (b.npair + i)) ∧
        v.data.couplings = c.data.couplings.map (fun x =>
          match (List.range b.npair).find? fun i => pair i == (x.1, x.2.1) || pair i == (x.2.1, x.1) with
          | some i => (x.1, x.2.1, (es.getD (mapValue es (code * 2 ^ c.fm) (i32At s mas i)).1 (0, 0)).2)
          | none => x) ∧
        v.data.codebook = c.data.codebook ∧ v.data.tag = c.data.tag ∧
        ∃ u, t = setProb k j v (writeLearned c v.data u) ∧ u.probs = s.probs ∧ (pStatBankNo c.l.params = none → u = s))

/-- DRIFT_CHECK reads the watch's row, first as the baseline, then against it; an accepted write of a watch's entries restarts it (R143, R144, R145, R146, R354, R355). -/
def Obligations.DriftWatchesCompareReads : Prop :=
  (∀ (s : State) (w : Nat) (d : Drift) (l : Launch) (b : Nat), w < 64 → mgmtAsleep s = false → s.drift = [(w, d)] →
    kget s.launches d.launch = some l → pStatBankNo l.params = some b →
    let due := decide (s.driftRun.began + odGet s 0x2400 1 ≤ s.frame.boundaries)
    let waits := decide (s.driftRun.left = [w] ∧ s.driftRun.stalled ≠ some s.frame.boundaries)
    ((s.driftRun.left = [] ∧ due = true) ∨ waits = true →
      (budgetOpen s 0 4 = true →
        let x := bankAccess 1 l.glove b (watchTag s w) .read (budgetAdd 0 4 1 s)
        let row := (List.range 8).map (lane x.1.data)
        let i := watchIdx w
        ∃ t, exec .driftCheck s = .next t ∧ t.drift = [(w, { d with row := some row })] ∧ spentOf t 0 4 = spentOf s 0 4 + 1 ∧
          t.mem = x.2.mem ∧ t.driftRun.left = [] ∧ t.driftRun.stalled = none ∧
          (waits = false → t.driftRun.began = s.frame.boundaries) ∧
          (d.row = none → odGet t i 11 = 3 ∧ odGet t i 8 = odGet s i 8) ∧
          (∀ p, d.row = some p →
            let c := driftCompare (odGet s i 3) (odGet s i 4) (odGet s i 5) p row
            odGet t i 8 = satAdd (2 ^ 32 - 1) (odGet s i 8) 1 ∧
            (c.mse = true ∨ c.sat = true → irqPending t (384 + w) = true ∧ odGet t i 10 = ofBool c.mse + 2 * ofBool c.sat ∧
              odGet t i 9 = satAdd (2 ^ 32 - 1) (odGet s i 9) 1) ∧
            (c.mse = false → c.sat = false → odGet t i 9 = odGet s i 9 ∧ odGet t i 10 = odGet s i 10))) ∧
      (budgetOpen s 0 4 = false →
        ∃ t, exec .driftCheck s = .next t ∧ t.drift = s.drift ∧ t.driftRun.left = [w] ∧ t.driftRun.stalled = some s.frame.boundaries ∧
          t.spent = s.spent ∧ t.mem = s.mem)) ∧
    (s.driftRun.left = [] → due = false → exec .driftCheck s = .next s)) ∧
  ∀ (s : State) (req : OdReq) (sub : Nat), Granted (driftEntry sub) req s →
    let w := req.index - 0x2410
    let u := recorded req s
    let restarted := fun (t : State) => Answered req 0 [] t ∧ odGet t req.index sub = reqVal req ∧ (kget t.drift w).all (·.row == none) = true ∧
      odGet t req.index 11 = (if watchGlove t w = 0 then 0 else if (watchLaunch t w).isSome then 2 else 1) ∧
      OdKept [(req.index, sub), (req.index, 11)] u t ∧ t.mem = u.mem ∧ t.launches = u.launches
    (sub = 1 → ∃ t, exec (.driftGloveWrite req) s = .next t ∧ restarted t) ∧
    (sub = 2 → ∃ t, exec (.driftTensorWrite req) s = .next t ∧ restarted t) ∧
    (sub = 3 → ∃ t, exec (.driftEnableWrite req) s = .next t ∧ restarted t)

/-- PERST#, the function-level reset, link training and the configuration write leave what R461, R471 and R504 say (R312, R379, R461, R471, R472, R473, R478, R501, R504). -/
def Obligations.LinkResetsAndBusMaster : Prop :=
  ∀ (s : State) (held us : Nat) (cfg : CfgWrite), keysRise s.bar0 = true →
    (exec .perstRelease s = .next { s with plat := { s.plat with perst := true } }) ∧
    (s.plat.ready = true → s.plat.perst = true → s.plat.linkUp = false →
      ∃ t, exec (.pcieLinkTrainingDone us) s = .next t ∧ t.plat = { s.plat with linkUp := true, step := 10 } ∧
        (s.plat.step = 9 → fld (odGet t 0x2A00 2) 288 32 = min us 0xFFFFFFFF) ∧ OdKept [(0x2A00, 2)] s t ∧
        t = { s with plat := t.plat, od := t.od }) ∧
    (∃ t, exec (.busMasterEnableWrite cfg) s = .next t ∧ t.host.busMaster = cfg.busMaster ∧ t.host.msixEnable = cfg.msixEnable ∧
      t.host.msixMask = cfg.msixMask ∧ t.host.irq = s.host.irq ∧ t.host.vpend = s.host.vpend ∧
      (cfg.busMaster = true → t.host.held = [] ∧ ∀ p ∈ s.host.held, Out.hostWrite p.1 p.2 ∈ t.out) ∧
      (cfg.busMaster = false → t.host.held = s.host.held) ∧ t = { s with host := t.host, out := t.out }) ∧
    ∃ u, exec (.flr held) s = .next u ∧ u.fe.resetting = false ∧ (s.fe.resetting = false → u.fe.pre = []) ∧ u.fe.nextSeq = 0 ∧
      (∀ off, flrClears off = true → barGet u off = barReset off) ∧ (∀ n x, kget u.serv.sessions n = some x → x.via ≠ 0) ∧
      u.serv.odm = none ∧ u.host.busMaster = false ∧ u.host.msixEnable = false ∧ u.host.pba = 0 ∧ u.host.held = [] ∧
      fld (barGet u 0x18) 16 16 = satAdd 0xFFFF (fld (barGet (auditFlush s) 0x18) 16 16) 1 ∧
      (held ≠ 0 → irqPending u 333 = true ∧ fld (barGet u 0x18) 0 16 = satAdd 0xFFFF (fld (barGet (auditFlush s) 0x18) 0 16) held) ∧
      (let v := auditFlush s
       u.mem = v.mem ∧ u.tiles = v.tiles ∧ u.launches = v.launches ∧ u.safety = v.safety) ∧
      (s.plat.ready = true → exec (.perstAssert held) s = .next { u with plat := { u.plat with perst := false, linkUp := false } }) ∧
      (s.plat.ready = false → exec (.perstAssert held) s = .next { s with plat := { s.plat with perst := false, linkUp := false } })

/-- The doorbell moves or is flagged, a ring reset orphans what is in flight, and reads of entries begin in order (R306, R308, R309, R310, R311, R312, R336, R337). -/
def Obligations.RingRegistersAndReset : Prop :=
  ∀ (s : State) (d : Reg) (b : Buf) (l : List Buf),
    (let good := s.fe.resetting = false ∧ hqEnable s = true ∧ ringDiff d.toNat (hqHead s) ≤ 4096 ∧ ringDiff d.toNat (hqTail s) ≤ 4096
     (good → ∃ t, exec (.hqTailWrite d) s = .next t ∧ hqTail t = d.toNat ∧ BarKept [0x100C] s t ∧ t = { s with bar0 := t.bar0 }) ∧
     (¬ good → ∃ t, exec (.hqTailWrite d) s = .next t ∧ bitOf (barGet t 0x1018) 0 = true ∧ BarKept [0x1018] s t ∧ Arrived [3] s t ∧
       t = { s with bar0 := t.bar0, host := t.host, out := t.out })) ∧
    (bitOf d.toNat 2 = true → s.fe.resetting = false →
      ∃ t, exec (.hqReset d) s = .next t ∧ t.fe.resetting = true ∧ t.fe.pre = [] ∧ t.fe.nextSeq = 0 ∧ t.fe.epoch = s.fe.epoch + 1 ∧
        (∀ x ∈ t.fe.bufs, x.orphan = true ∧ x.left = []) ∧ (∀ p ∈ t.fe.ops, p.2.orphan = true) ∧
        t = { s with fe := t.fe, bar0 := t.bar0, host := t.host, out := t.out }) ∧
    (s.fe.resetting = true →
      ∃ t, exec .hqResetDone s = .next t ∧ hqHead t = 0 ∧ hqTail t = 0 ∧ hqEnable t = false ∧ Arrived [4] s t ∧ BarKept [0x100C, 0x1010, 0x1008] s t ∧
        t = { s with fe := { s.fe with resetting := false, nextSeq := 0 }, bar0 := t.bar0, host := t.host, out := t.out }) ∧
    (mayRead s = true → s.fe.pre.length < 2 →
      ∃ t, exec .bufferPrefetch s = .next t ∧ t.out = .hostRead s.fe.nextTag (hqBase s + 32 * (s.fe.nextSeq % 4096)) 32 :: s.out ∧
        t.fe.pre.length = s.fe.pre.length + 1 ∧ t.fe.nextSeq = (s.fe.nextSeq + 1) % 2 ^ 32 ∧
        kget t.fe.reads s.fe.nextTag = some ⟨.entry (bufNo s s.fe.nextSeq), hqBase s + 32 * (s.fe.nextSeq % 4096), 32⟩ ∧
        t.fe.bufs = s.fe.bufs ∧ t.fe.ops = s.fe.ops ∧ t = { s with fe := t.fe, out := t.out }) ∧
    (currentBuf s = none → s.fe.resetting = false → s.fe.pre = b :: l → b.read = true → bufReading s b.seq = false →
      (b.bad = false → b.got = b.nops →
        ∃ t, exec .bufferCurrent s = .next t ∧ t.fe.pre = l ∧ t.fe.bufs = s.fe.bufs ++ [{ b with left := checkDescs (b.left.map (·.bytes)) }] ∧
          barGet t 0x1024 = b.seq % 2 ^ 32 ∧ BarKept [0x1024] s t ∧ t = { s with fe := t.fe, bar0 := t.bar0 }) ∧
      (b.bad = true →
        ∃ t, exec .bufferCurrent s = .next t ∧ t.fe.pre = l ∧ t.fe.bufs = s.fe.bufs ++ [{ b with left := [], nops := 0 }] ∧
          barGet t 0x1024 = b.seq % 2 ^ 32 ∧ bitOf (barGet t 0x1018) 1 = true ∧ fld (barGet t 0x1018) 16 12 = b.seq % 4096 ∧
          BarKept [0x1024, 0x1018] s t ∧ Arrived [3] s t ∧ t = { s with fe := t.fe, bar0 := t.bar0, host := t.host, out := t.out }))

/-- Ops are dispatched in order, triggered, completed, drained or killed on request, and their buffer retires with its record (R310, R315, R316, R317, R318, R319, R331, R337). -/
def Obligations.OpsDispatchTriggerAndRetire : Prop :=
  ∀ (s : State) (k : Nat) (b : Buf) (o : Op),
    (∀ (d : Desc) (l : List Desc), currentBuf s = some b → s.fe.ops.length < 4096 → b.left = d :: l → d.invalid = false →
      (dTriggered d.bytes = true ∨ (predStatuses s (opKey b.seq d.idx) d.bytes).all (fun st => st.all goodStatus) = true) →
      ∃ t p, exec .opDispatch s = .next t ∧ kget t.fe.ops (opKey b.seq d.idx) = some p ∧ p.phase = .held ∧ p.bytes = d.bytes ∧
        p.glove = b.glove ∧ t.fe.bufs = (s.fe.bufs.map fun x => if x.seq = b.seq then { x with left := l } else x) ∧
        (∀ n, n ≠ opKey b.seq d.idx → kget t.fe.ops n = kget s.fe.ops n) ∧ t = { s with fe := t.fe }) ∧
    ((s.fe.triggers.find? fun x => (kget s.fe.ops x.1).isSome) = some (k, true) → kget s.fe.ops k = some o → dTriggered o.bytes = true →
      o.invalid = false → o.phase = .held →
      ∃ t, exec .opTrigger s = .next t ∧ t = { s with fe := { s.fe with
        triggers := s.fe.triggers.erase (k, true), ops := kput s.fe.ops k { o with phase := .ready } } }) ∧
    ((startOp s k 0 [0]).isSome = true → kget s.fe.ops k = some o →
      ∃ t, exec (.nopOp k) s = .next t ∧ OpDone k stOk o s t ∧ t.mem = s.mem ∧ t.launches = s.launches) ∧
    (∀ (lk : Nat) (l : Launch), kget s.fe.ops k = some o → findLaunch s (dAddr o.bytes) = some (lk, l) → (o.glove = 0 ∨ l.glove = o.glove) →
      endable l = true →
      ((startOp s k 6 [4, 5, 6, 7]).isSome = true →
        ∃ t, exec (.drain k) s = .next t ∧ OpDone k stOk o s t ∧ kget t.launches lk = some { l with drainReq := some (l.drainReq.getD s.frame.boundaries) } ∧
          (∀ n, n ≠ lk → kget t.launches n = kget s.launches n) ∧ t.mem = s.mem ∧ t.tiles = s.tiles) ∧
      ((startOp s k 7 [4, 5, 6, 7]).isSome = true → kget s.launches lk = some l →
        ∃ t, exec (.kill k) s = .next t ∧ OpDone k stOk o s t ∧ kget t.launches lk = some { l with
            phase := .killing, killStatus := stKilled, since := s.frame.boundaries, toZero := if l.released then [] else declaredBanks l } ∧
          (∀ n, n ≠ lk → kget t.launches n = kget s.launches n) ∧ t.mem = s.mem ∧ t.tiles = s.tiles)) ∧
    ((s.fe.bufs.find? fun x => !x.orphan) = some b → b.left = [] → s.fe.ops.any (fun p => keySeq p.1 == b.seq) = false →
      s.fe.resetting = false →
      ∃ t, exec .bufferRetire s = .next t ∧ hqHead t = (b.seq + 1) % 2 ^ 32 ∧ BarKept [0x1010] s t ∧
        t.fe.bufs = (s.fe.bufs.filter fun x => x.seq != b.seq) ∧ t.fe.ops = s.fe.ops ∧
        (bitOf b.eflags 1 = true → Posted b.doneAddr (completionRecord b) t) ∧
        (bitOf b.eflags 0 = true → irqPending t 1 = true) ∧ t = { s with fe := t.fe, bar0 := t.bar0, host := t.host, out := t.out })

/-- COPY, FILL and their bursts move data, semaphores wait and signal, and limits and stalls end or resume an op (R317, R319, R320, R321, R322, R323, R333, R334, R337, R352, R354, R355). -/
def Obligations.TransfersAndSemaphores : Prop :=
  (∀ (s : State) (k : Nat) (o : Op), s.memOk → kget s.fe.ops k = some o →
    (dmaBusy s < 8 → gloveActive s o.glove = true → ((dmaSides o.bytes).all fun x => (dmaCheck o.glove x.1 (dLen o.bytes) x.2 s).1 == stOk) = true →
      let started := { s with fe := { s.fe with ops := kput s.fe.ops k { o with phase := .started } } }
      ((startOp s k 1 [1, 2]).isSome = true → exec (.copy k) s = .next started) ∧
      ((startOp s k 2 [1, 2]).isSome = true → exec (.fill k) s = .next started)) ∧
    (o.stalled.isSome = true → exec (.noProgressLimit k) s = .next s) ∧
    (o.stalled = none → kget s.launches k = none → (dKind o.bytes = 1 ∨ dKind o.bytes = 2) → (dKillOnLimit o.bytes = true ∨ reading s k = false) →
      ∃ t, exec (.noProgressLimit k) s = .next t ∧ bitOf (barGet t 0x1018) 3 = true ∧ irqPending t 2 = true ∧ t.mem = s.mem ∧
        OpDone k (if dKillOnLimit o.bytes then stKilledNoProgress else stDrained) o s t) ∧
    (∀ l : Launch, o.stalled = none → kget s.launches k = some l → l.phase = .running → dKillOnLimit o.bytes = false → l.limitDrained = false →
      ∃ t, exec (.noProgressLimit k) s = .next t ∧ bitOf (barGet t 0x1018) 3 = true ∧ Arrived [2] s t ∧
        kget t.launches k = some { l with drainReq := some (l.drainReq.getD s.frame.boundaries), limitDrained := true } ∧
        t = { s with launches := t.launches, bar0 := t.bar0, host := t.host, out := t.out }) ∧
    ∀ f, o.stalled = some f → f ≠ s.frame.boundaries →
      ∃ t p, exec (.budgetStallRetry k) s = .next t ∧ kget t.fe.ops k = some p ∧
        p = { o with stalled := if opBudgetOpen s o then none else some s.frame.boundaries } ∧ t.mem = s.mem ∧ t.launches = s.launches) ∧
  ∀ (s : State) (k : Nat) (o : Op) (tc : Option Nat), (∀ x, tc = some x → s.now ≤ x ∧ muxStopped s 0 = false) →
    let r := tc.elim s fun x => advance x s
    r.memOk → kget r.fe.ops k = some o →
    (let n := min 4096 (o.granted - o.moved)
     let a := dDst o.bytes + o.moved
     let filled := fun (m : Nat) (t : State) => t.memOk ∧ MemKept a m r t ∧ spentOf t o.glove 6 = spentOf r o.glove 6 + n ∧
       ∀ i, i < m → byteAt t (a + i) = BitVec.ofNat 8 (fld (dPattern o.bytes) (8 * (i % 8)) 8)
     o.phase = .started → dKind o.bytes = 2 → n ≠ 0 → n % 64 = 0 → o.stalled = none → reading r k = false → bursting r k = false →
     dmaOpen r o = true → (∀ j, 64 * j < n → atTier r (a + 64 * j) = true ∧ tierOn r (a + 64 * j) = true) →
      (tc = none → o.bad = stOk → o.eccSeen = false →
        ∃ t, exec (.dmaBurst k none) s = .next t ∧ filled n t ∧
          (dLen o.bytes ≤ o.moved + n → OpDone k stOk o r t) ∧
          (o.moved + n < dLen o.bytes → o.drainReq = false → ∃ p, kget t.fe.ops k = some p ∧ p.moved = o.moved + n ∧ p.phase = .started)) ∧
      (∀ x, tc = some x → 64 < n →
        ∃ t u, exec (.dmaBurst k tc) s = .next t ∧ filled 64 t ∧ t = schedIn (foreign o.glove x) 1 (.dma k 1 n [] stOk false) u ∧
          u.agenda = r.agenda ∧ u.fe = r.fe)) ∧
    (let a := dAddr o.bytes
     dSemHost o.bytes = false → verdict r o.glove a 8 false dmaTile = .tier → eccBad r a 8 = false →
     dValue o.bytes ≤ semBefore r tc a (loadNat r a 8) →
      ((startOp r k 4 [4, 5, 6, 7]).isSome = true → gloveActive r o.glove = true →
        ∃ t, exec (.waitSem k tc) s = .next t ∧ OpDone k stOk o r t ∧ t.mem = r.mem) ∧
      (o.phase = .started → dKind o.bytes = 4 → ∃ t, exec (.waitSemPoll k tc) s = .next t ∧ OpDone k stOk o r t ∧ t.mem = r.mem)) ∧
    ((startOp r k 5 [4, 5, 6, 7]).isSome = true → gloveActive r o.glove = true → o.stalled = none → o.orphan = false →
      (dSemHost o.bytes = true → r.host.busMaster = true →
        ∃ t, exec (.signalSem k tc) s = .next t ∧ OpDone k stOk o r t ∧ Posted (dAddr o.bytes) (leBytes 8 (dValue o.bytes)) t ∧ t.mem = r.mem) ∧
      (let a := dAddr o.bytes
       dSemHost o.bytes = false → (dmaCheck o.glove a 8 true r).1 = stOk → verdict r o.glove a 8 false dmaTile = .tier →
       budgetOpen r o.glove 6 = true → eccBad r a 8 = false →
        ∃ t, exec (.signalSem k tc) s = .next t ∧ OpDone k stOk o r t ∧ MemKept a 8 r t ∧ spentOf t o.glove 6 = spentOf r o.glove 6 + 8 ∧
          loadNat t a 8 = (if dSemWrite o.bytes then dValue o.bytes % 2 ^ 64 else (loadNat r a 8 + dValue o.bytes) % 2 ^ 64)))

/-- LAUNCH admits or refuses, SEED_DRAW takes the seed, LOADING_DONE arms, LAUNCH_START runs the launch from the boundary that has passed (R23, R195, R274, R282, R319, R324, R329, R343, R344, R423). -/
def Obligations.LaunchesAreAdmittedLoadedAndStarted : Prop :=
  (∀ (s : State) (k r : Nat) (o : Op) (p : List Byte) (aux : LaunchAux) (peers : List (List Byte)), kget s.fe.ops k = some o →
    dKind o.bytes = 3 → kget s.launches k = none → o.phase = .started → o.const = some p → 64 + 16 * pNreg p + 64 * pNprob p ≤ p.length →
    (admitReason s o.glove p aux = none →
      ∃ t l, exec (.launch k aux peers) s = .next t ∧ kget t.launches k = some l ∧ l.glove = o.glove ∧ l.params = p ∧ l.aux = aux ∧
        l.phase = (if pSeedSrc p = 1 then .seed else .loading) ∧ l.started = false ∧ l.released = false ∧ l.since = s.frame.boundaries ∧
        (∀ n, n ≠ k → kget t.launches n = kget s.launches n) ∧ t = { s with launches := t.launches, od := t.od, drift := t.drift }) ∧
    (admitReason s o.glove p aux = some r →
      ∃ t, exec (.launch k aux peers) s = .next t ∧ t.launches = s.launches ∧ OpDone k stAdmissionRefused o s t ∧ irqPending t 64 = true ∧
        odGet t 0x3003 o.glove = r ∧ t.mem = s.mem ∧ t.tiles = s.tiles)) ∧
  (∀ (s : State) (k a b : Nat) (l : Launch) (d : Drbg) (rest : List Nat), s.launches = [(k, l)] → l.phase = .seed →
    l.tried ≠ some s.frame.boundaries → seedCovered s l.glove = true → seedWords s l.glove = some (a, b, d, rest) →
      ∃ t, exec .seedDraw s = .next t ∧
        t.launches = [(k, { l with seed := a + 2 ^ 32 * b, phase := .loading, since := s.frame.boundaries })] ∧
        spentOf t l.glove 7 = spentOf s l.glove 7 + 2 ∧ kget t.sec.inst (pageInst s l.glove) = some { d with buf := rest } ∧
        t = { s with launches := t.launches, spent := t.spent, sec := { s.sec with inst := t.sec.inst } }) ∧
  (∀ (s : State) (k : Nat) (l : Launch), s.launches = [(k, l)] → l.phase = .loading → leavesFormed s l = true →
      ∃ t m, exec .loadingDone s = .next t ∧ t.launches = [(k, m)] ∧ m.since = s.frame.boundaries ∧ m.glove = l.glove ∧
        m.seed = l.seed ∧ m.params = l.params ∧
        (let u := loadAll k l { s with fe := t.fe }
         t.tiles = u.tiles ∧ t.routers = u.routers ∧ t.ports = u.ports ∧ t.plx = u.plx ∧ t.mem = u.mem ∧ t.win = u.win) ∧
        (let same := l.reexecuted = true ∨ setDigest s (setRegions l.params 0) = imgRead s (placeRegion l.params) 0 48
         (same → m.phase = .armed) ∧
         (¬ same → m.phase = .killing ∧ m.killStatus = stAdmissionRefused ∧ irqPending t 64 = true ∧ odGet t 0x3003 l.glove = 3))) ∧
  ∀ (s : State) (k : Nat) (l : Launch), s.launches = [(k, l)] → l.phase = .armed → l.since < s.frame.boundaries →
    (pMulti l.params = true → pCount l.params ≤ s.frame.sysNs) →
      ∃ t m, exec .launchStart s = .next t ∧ t.launches = [(k, m)] ∧ m.phase = .running ∧ m.started = true ∧ m.startFrame = s.frame.boundaries ∧
        m.glove = l.glove ∧ m.seed = l.seed ∧ m.tiles = l.tiles ∧ (l.aux.safety = none → t.tiles = s.tiles) ∧
        (l.reexecuted = false → (s.memOk → MemKeptAll (t.probs.flatMap fun p => counterRanges p.2) s t) ∧ m.count = s.frame.sysNs ∧ m.digests.take 3 = fixedDigests s l ∧
          ∀ x, l.aux.safety = some x → ∀ pos ∈ x.setC, ∀ p ∈ (tileOf t pos).slots, p.2.launch = k → 2 ≤ p.2.dry)

/-- Drains reach programs, launches end with their status, release their windows, write their ticket, and killed launches leave zeroed banks (R24, R51, R279, R280, R283, R299, R330, R332, R474). -/
def Obligations.LaunchesDrainEndAndRelease : Prop :=
  ∀ (s : State) (k : Nat) (l : Launch) (o : Op) (stands : List Stand), s.memOk → s.launches = [(k, l)] → kget s.fe.ops k = some o →
    (∀ b, l.phase = .running → pMulti l.params = false → l.drained = none → l.drainReq = some b → b < s.frame.boundaries →
      ∃ t m, exec (.drainDelivery stands) s = .next t ∧ t.launches = [(k, m)] ∧ m = { l with drained := some s.frame.boundaries } ∧
        (∀ x ∈ l.tiles, ∀ p ∈ (tileOf t x.1).slots, p.2.launch = k → p.2.ctl = true) ∧ t.fe = s.fe ∧ t.win = s.win ∧
        (∀ c p, pNprob l.params = 1 → probCtx s k 0 = some c → probOf s k 0 = some p → c.img.realtime = false → p.stop = none →
          (probOf t k 0).map (·.stop) = some (some 2))) ∧
    (l.phase = .running → l.reexDue = false → l.since < s.frame.boundaries →
      (liveSlots s k l).all (fun x => x.dry != 0 && decide (x.dryIn < s.frame.boundaries)) = true →
      ∃ t m, exec .launchEnd s = .next t ∧ t.launches = [(k, m)] ∧ m.phase = .release ∧ m.since = s.frame.boundaries ∧
        m.status = (if (liveSlots s k l).any (fun x => x.dry == 2) then stLaunchFaulted
          else if l.drained.any (fun b => decide (b < s.frame.boundaries)) then stDrained else stOk) ∧
        (l.realtime = false → m.digests = l.digests.set 3 (setDigest s (setRegions l.params 3))) ∧ t.mem = s.mem ∧ t.tiles = s.tiles ∧
        t.fe = s.fe ∧ (l.realtime = true → t = { s with launches := t.launches })) ∧
    (l.phase = .release → l.released = false → l.since < s.frame.boundaries →
      ∃ t, exec .launchRelease s = .next t ∧ t.mem = s.mem ∧
        (∀ x ∈ l.placed, ∀ p ∈ (tileOf t x.1).slots, p.2.launch ≠ k) ∧
        (pTicket l.params = true → goodStatus l.status = true → ∃ m, t.launches = [(k, m)] ∧ m.phase = .ticket ∧ m.released = true) ∧
        ((pTicket l.params = false ∨ goodStatus l.status = false) → t.launches = [] ∧ OpDone k l.status o s t)) ∧
    (l.phase = .ticket → secRuns s = true → l.digests.length = 5 → (∀ d ∈ l.digests, d.length = 48) →
      let body := ticketBody s l
      let bytes := body ++ edSign (identitySecret s.plat.fuse) (body ++ ticketAnnex l) ++ ticketAnnex l
      let at_ := pTicketAddr l.params
      let held := verdict s l.glove at_ bytes.length true 348
      ∃ t, exec .ticketWrite s = .next t ∧ t.launches = [] ∧ OpDone k l.status o s t ∧
        (held = .tier → load t at_ bytes.length = bytes ∧ MemKept at_ bytes.length s t) ∧
        (held ≠ .tier → t.mem = s.mem ∧ irqPending t 258 = true) ∧ barGet t 0x5200 = (barGet s 0x5200 + 2) % 2 ^ 32 ∧
        odGet t 0x5040 1 = satAdd (2 ^ 64 - 1) (odGet s 0x5040 1) 1) ∧
    (l.phase = .killing → l.released = true →
      ∃ t, exec .killDone s = .next t ∧ t.launches = [] ∧ OpDone k l.killStatus o s t ∧ t.memOk ∧
        (∀ b ∈ l.toZero, ∀ i, i < 64 * bankWords b → byteAt t (bankBase b + i) = 0) ∧
        MemKeptAll (l.toZero.map fun b => (bankBase b, 64 * bankWords b)) s t)

/-- MEM_READ queues the words read, MEM_WRITE stores its words and its completion, STREAM_READ_AHEAD reads ahead, ECC_WRITE_BACK corrects (R75, R292, R293, R294, R297, R300, R301). -/
def Obligations.TierRequestsMoveData : Prop :=
  ∀ (s : State) (pos tag addr : Nat), s.memOk → pos < 1536 →
    let T := tileOf s pos
    let words := fun (r : MemReq) (live : Bool) => (List.range (min r.len 4096 / 64)).flatMap fun j => r.dests.filterMap fun d =>
      (route s.plat.fuse pos d.1).map fun w => (⟨2, r.glove, [(w, d.1, d.2.1 + 64 * j)],
        .word (if live then loadNat s (r.addr + 64 * j) 64 else 0) (some (r.launch, d.2.2)), live && eccMask s (r.addr + 64 * j) != 0,
        false, absNow s + 2⟩ : VcFlit)
    (∀ r : MemReq, nextGranted false (portOf s pos) = some r →
      let live := (requestFault s r).isNone
      ∃ t, exec (.memRead pos) s = .next t ∧ portOf t pos = { portOf s pos with granted := (portOf s pos).granted.erase r } ∧
        tileOf t pos = { T with msgq := T.msgq ++ words r live } ∧ TilesKept pos s t ∧ t.mem = s.mem ∧ t.ecc = s.ecc ∧
        (live = false → irqPending t 258 = true)) ∧
    (∀ r : MemReq, nextGranted true (portOf s pos) = some r → requestFault s r = none →
      ∃ t, exec (.memWrite pos) s = .next t ∧ portOf t pos = { portOf s pos with granted := (portOf s pos).granted.erase r } ∧
        TilesKept pos s t ∧ t.memOk ∧ MemKept r.addr (64 * r.data.length) s t ∧
        (∀ j i, j < r.data.length → i < 64 → byteAt t (r.addr + 64 * j + i) =
          if (r.data.getD j (0, false)).2 then byteAt s (r.addr + 64 * j + i)
          else BitVec.ofNat 8 (fld (r.data.getD j (0, false)).1 (8 * i) 8)) ∧
        (∀ d w, r.adds = true → r.dests.head? = some d → route s.plat.fuse pos d.1 = some w →
          tileOf t pos = { T with msgq := T.msgq ++ [⟨2, r.glove, [(w, d.1, d.2.1)], .add 1, false, false, absNow s + 2⟩] } ∧
          t = { s with ports := t.ports, tiles := t.tiles, mem := t.mem, ecc := t.ecc, leaves := t.leaves }) ∧
        (r.adds = false → t = { s with ports := t.ports, mem := t.mem, ecc := t.ecc, leaves := t.leaves })) ∧
    (∀ r : MemReq, nextGranted true (portOf s pos) = some r → requestFault s r ≠ none →
      ∃ t, exec (.memWrite pos) s = .next t ∧ portOf t pos = { portOf s pos with granted := (portOf s pos).granted.erase r } ∧
        irqPending t 258 = true ∧ t.mem = s.mem ∧ t.tiles = s.tiles) ∧
    (∀ (x : Stream) (w : Nat),
      let p := portOf s pos
      let n := groupWords x.op
      nextUnread p (streamsOf p (tag / 4096) (tag % 4096) false) 2049
        (kgetD p.place (streamKey (tag / 4096) (tag % 4096) false) (0, 0)) = some (x, w) → p.buffer.length + n ≤ 2048 →
      ∃ t, exec (.streamReadAhead pos tag) s = .next t ∧ (portOf t pos).buffer = p.buffer ++
          ((span (w / n * n) n).filter fun v => !p.buffer.any fun b => b.stream == x && b.place == v).map (readAheadWord s x) ∧
        (∀ q, q ≠ pos → kget t.ports q = kget s.ports q) ∧ t.mem = s.mem ∧ t.ecc = s.ecc ∧ t.tiles = s.tiles) ∧
    (inTier s addr = true →
      ∃ t, exec (.eccWriteBack addr) s = .next t ∧ (∀ p, p ∈ t.ecc ↔ p ∈ s.ecc ∧ ¬ (p.1 / 8 = addr / 64 ∧ p.2 = .single)) ∧
        t = { s with ecc := t.ecc })

/-- Leaves are hashed, words patrolled, temperatures kept, and chunks assigned in four commands with their scrub (R288, R290, R291, R298, R301, R302, R304). -/
def Obligations.TierUpkeepAndAssignment : Prop :=
  ∀ (s : State) (pos k addr : Nat) (quiet l : List Nat) (temp : Int) (a : Assign) (req : OdReq), s.memOk → keysRise s.chunks = true →
    (pos < 1536 → (s.leaves.filter fun p => chunkHome p.1 == pos && p.2 == .stale && quiet.contains p.1).map (·.1) = k :: l →
      (hashingOf s pos).length < 8 → domainOn s (tileDomain pos) = true →
      exec (.hashPassStart pos quiet) s = .next { s with leaves := kput s.leaves k .hashing }) ∧
    (pos < 1536 → k ∈ hashingOf s pos →
      ∃ t, exec (.hashPassDone pos k) s = .next t ∧ kget t.leaves k = none ∧ (∀ p, p.1 ≠ k → (p ∈ t.leaves ↔ p ∈ s.leaves)) ∧
        t.mem = s.mem ∧ t.ecc = s.ecc ∧ t.chunks = s.chunks ∧ t.tiles = s.tiles ∧
        ((∀ p ∈ s.ecc, p.1 < k * chunkBytes / 8 ∨ (k + 1) * chunkBytes / 8 ≤ p.1) → t = { s with leaves := t.leaves })) ∧
    (inTier s addr = true →
      ∃ t, exec (.patrolScrubVisit addr) s = .next t ∧ (∀ p, p ∈ t.ecc ↔ p ∈ s.ecc ∧ ¬ (p.1 / 8 = addr / 64 ∧ p.2 = .single)) ∧
        t.mem = s.mem ∧ t.leaves = s.leaves ∧ t.chunks = s.chunks) ∧
    (pos < 1536 → isMemPort pos = true →
      ∃ t, exec (.memTempRead pos temp) s = .next t ∧ fld (winGet t (tileBase pos + 0xF1004)) 8 8 = unsigned 8 temp ∧
        fld (winGet t (tileBase pos + 0xF1004)) 0 8 = fld (winGet s (tileBase pos + 0xF1004)) 0 8 ∧
        WinKept [tileBase pos + 0xF1004] s t ∧ t = { s with win := t.win }) ∧
    (Granted assignEntry req s → let u := recorded req s
      ∃ t, exec (.memAssignCommit req) s = .next t ∧ Answered req 0 [] t ∧ odGet t 0x2500 6 = 1 ∧ OdKept [(0x2500, 6)] u t ∧
        t.assign = some ⟨odGet u 0x2500 1 / chunkBytes, odGet u 0x2500 2, odGet u 0x2500 3, odGet u 0x2500 4 == 1, false, u.frame.boundaries, []⟩ ∧
        t.chunks = u.chunks ∧ t.mem = u.mem) ∧
    (s.assign = some a → a.transit = false → a.boundary < s.frame.boundaries →
      ∃ t, exec .memAssignTransit s = .next t ∧ odGet t 0x2500 6 = 2 ∧ OdKept [(0x2500, 6)] s t ∧
        (∀ c, c ∈ span a.first a.count → chunkSt t c = .transit ∧ (chunkAt t c).last = (chunkAt s c).last) ∧
        (∀ c, c ∉ span a.first a.count → kget t.chunks c = kget s.chunks c) ∧
        t.assign = some { a with transit := true, boundary := s.frame.boundaries, todo := (span a.first a.count).filter fun c =>
          a.scrub || (chunkAt s c).last != assignOwner a } ∧ t = { s with chunks := t.chunks, assign := t.assign, od := t.od }) ∧
    (s.assign = some a → k ∈ a.todo → domainOn s (tileDomain (chunkHome k)) = true →
      ∃ t, exec (.chunkScrubDone k) s = .next t ∧ t.memOk ∧ (∀ i, i < chunkBytes → byteAt t (k * chunkBytes + i) = 0) ∧
        MemKept (k * chunkBytes) chunkBytes s t ∧ kget t.leaves k = none ∧
        t.assign = some { a with todo := a.todo.erase k, boundary := s.frame.boundaries } ∧
        t = { s with mem := t.mem, ecc := t.ecc, leaves := t.leaves, assign := t.assign }) ∧
    (s.assign = some a → a.transit = true → a.todo = [] → a.boundary < s.frame.boundaries →
      ∃ t, exec .memAssignDone s = .next t ∧ odGet t 0x2500 6 = 3 ∧ OdKept [(0x2500, 6)] s t ∧ t.assign = none ∧
        (∀ c, c ∈ span a.first a.count →
          chunkAt t c = (if a.glove = 0x100 then ⟨.free, none⟩ else ⟨.owned a.glove, some a.glove⟩)) ∧
        (∀ c, c ∉ span a.first a.count → kget t.chunks c = kget s.chunks c) ∧
        t = { s with chunks := t.chunks, assign := none, od := t.od })

/-- REGISTER_WRITE, RC_READ, COUNTER_LO_READ, IC_CLAIM and ODM_DOORBELL act by the class and the field they meet (R8, R9, R381, R462, R463, R464, R466, R473, R476, R477, R494). -/
def Obligations.RegistersClaimsAndTheDoorbell : Prop :=
  ∀ (s : State) (p : Path) (x : RegAt) (be pos proc n data : Nat) (d : Reg),
    (regThere s x = true → regOff x % 4 = 0 →
      (narrowBe be = true → writeLogged x 1 = false → exec (.registerWrite .host x 1 be data) s = .next s) ∧
      (narrowBe be = true → writeLogged x 1 = true →
        ∃ t, exec (.registerWrite .host x 1 be data) s = .next t ∧ fld (barGet t 0x10) 0 8 = satAdd 255 (fld (barGet s 0x10) 0 8) 1 ∧
          fld (barGet t 0x10) 8 3 = 1 ∧ bitOf (barGet t 0x10) 11 = regIsDev x ∧ fld (barGet t 0x10) 16 8 = be ∧
          barGet t 0x14 = regOff x % 2 ^ 32 ∧ BarKept [0x10, 0x14] s t ∧ Arrived [332] s t ∧
          t = { s with bar0 := t.bar0, host := t.host, out := t.out }) ∧
      ∃ t, exec (.rcRead .host x 1 5) s = .next t ∧ .completerAbort ∈ t.out ∧ fld (barGet t 0x10) 8 3 = 2 ∧
        BarKept [0x10, 0x14] s t ∧ Arrived [332] s t ∧ t = { s with bar0 := t.bar0, host := t.host, out := t.out }) ∧
    (let off := 0x2040 + 4 * n
     n < 32 → odGet s 0x2000 1 ≠ 1 →
      ∃ t, exec (.registerWrite .host (.bar0 off) 1 15 data) s = .next t ∧ (∀ j, bitOf 0x800003FF j = true → bitOf (barGet t off) j = bitOf (barGet s off) j) ∧
        fld (barGet t 0x10) 0 8 = satAdd 255 (fld (barGet s 0x10) 0 8) 1 ∧ barGet t 0x14 = off ∧ BarKept [0x10, 0x14, off] s t ∧
        irqPending t 332 = true ∧ t = { s with bar0 := t.bar0, host := t.host, out := t.out, freeCtr := t.freeCtr }) ∧
    (let a := tileBase pos + 0xF0000
     pathThere p = true → pos < 1536 → kindOf pos ≠ .port → regThere s (.dev a) = true →
      ∃ t, exec (.rcRead p (.dev a) 1 15) s = .next t ∧ t.out = .readData (leBytes 4 (winGet s a)) :: s.out ∧ WinKept [a] s t ∧
        winGet t a = (if p = .host then winGet s a else 0) ∧ t = { s with win := t.win, out := t.out }) ∧
    (let a := tileBase pos + 0xF1010
     pathThere p = true → pos < 1536 → kindOf pos = .m → regThere s (.dev a) = true →
      ∃ t, exec (.counterLoRead p (.dev a) 1 15) s = .next t ∧ t.out = .readData (leBytes 4 (winGet s a)) :: s.out ∧
        t = { s with snap := t.snap, out := t.out } ∧
        ∀ u : State, u.snap = t.snap → regThere u (.dev (a + 4)) = true →
          exec (.rcRead p (.dev (a + 4)) 1 15) u = .next { u with out := .readData (leBytes 4 (winGet s (a + 4))) :: u.out }) ∧
    (proc ≤ 4 → n < 512 → keysRise s.host.irq = true →
      (∀ c, kget s.host.irq n = some c → isTarget s proc n = true →
        ∃ t, exec (.icClaim proc n) s = .next t ∧ .readData (leBytes 4 (n + 2 ^ 16 * c)) ∈ t.out ∧ kget t.host.irq n = none ∧
          (∀ m, m ≠ n → kget t.host.irq m = kget s.host.irq m) ∧ t = { s with host := t.host, out := t.out }) ∧
      ((kget s.host.irq n = none ∨ isTarget s proc n = false) →
        exec (.icClaim proc n) s = .next { s with out := .readData (leBytes 4 0x3FF) :: s.out })) ∧
    (bitOf d.toNat 0 = true →
      (s.serv.odm.isSome = true →
        ∃ t, exec (.odmDoorbell d) s = .next t ∧ bitOf (barGet t 0x3004) 2 = true ∧ BarKept [0x3004] s t ∧ t = { s with bar0 := t.bar0 }) ∧
      (s.serv.odm = none → mgmtAsleep s = true →
        ∃ t, exec (.odmDoorbell d) s = .next t ∧ bitOf (barGet t 0x3004) 0 = true ∧ BarKept [0x3004] s t ∧
          t = { s with bar0 := t.bar0, serv := { s.serv with odm := some (mailboxRequest s) } }) ∧
      (let r := (mailboxRequest s).2
       s.serv.odm = none → mgmtAsleep s = false → s.plat.ready = true → s.serv.queue = [] → (mailboxRequest s).1 = 1 → r.data.length ≤ 1024 →
        ∃ t, exec (.odmDoorbell d) s = .next t ∧ bitOf (barGet t 0x3004) 0 = false ∧ bitOf (barGet t 0x3004) 1 = true ∧
          Answered r (odReadAbort s r) (if odReadAbort s r = 0 then odBytes s r else []) t ∧ irqPending t 334 = true ∧
          t = { s with bar0 := t.bar0, host := t.host, out := t.out }))

/-- BAR2 reads and writes the enabled bytes its segment allows, and a host read completion brings data or an error (R293, R311, R317, R461, R463, R467, R468, R469). -/
def Obligations.Bar2AccessesAndHostReadCompletions : Prop :=
  ∀ (s0 : State) (r : BusReq) (tc : Option Nat) (d : List Byte) (tag : Nat) (h : HostRead),
    (∀ x, tc = some x → s0.now ≤ x ∧ muxStopped s0 0 = false) →
    let s := tc.elim s0 fun x => advance x s0
    s.memOk →
    (busReqOk r = true → (enabledRange r).2 ≠ 0 →
      let g := (segment s r.off).1
      let base := (segment s r.off).2.1
      let first := (enabledRange r).1
      let n := (enabledRange r).2
      ((segment s r.off).2.2 = true → verdict s g (base + first) n false dmaTile = .tier →
        (∃ t, exec (.bar2Read r tc) s0 = .next t ∧ .readData (placeData r first (load s (base + first) n)) ∈ t.out ∧ t.mem = s.mem ∧
          ((∀ l ∈ lanesOf (base + first) n, kget s.ecc l = none) → t = { s with out := t.out })) ∧
        (d.length = 4 * r.dws → writeHold s g (base + first) n = none →
          ∃ t, exec (.bar2Write r d tc) s0 = .next t ∧ t.memOk ∧ (∀ i ∈ enabled r, byteAt t (base + i) = d.getD i 0) ∧
            (∀ a, (∀ i ∈ enabled r, a ≠ base + i) → byteAt t a = byteAt s a) ∧
            t = { s with mem := t.mem, ecc := t.ecc, leaves := t.leaves, launches := t.launches, od := t.od })) ∧
      ((segment s r.off).2.2 = false →
        (∃ t, exec (.bar2Read r tc) s0 = .next t ∧ .readData (List.replicate (4 * r.dws) 0) ∈ t.out ∧
          odGet t 0x7500 1 = satAdd (2 ^ 64 - 1) (odGet s 0x7500 1) 1 ∧ irqPending t 258 = true ∧ t.mem = s.mem) ∧
        (d.length = 4 * r.dws →
          ∃ t, exec (.bar2Write r d tc) s0 = .next t ∧ odGet t 0x7500 1 = satAdd (2 ^ 64 - 1) (odGet s 0x7500 1) 1 ∧
            irqPending t 258 = true ∧ t.mem = s.mem))) ∧
    (kget s.fe.reads tag = some h →
      (∀ (k : Nat) (o : Op), readOp h.what = some k → kget s.fe.ops k = some o →
        ∃ t, exec (.hostReadCompletion tag false d tc) s0 = .next t ∧ OpDone k stAccessFault o s t ∧ kget t.fe.reads tag = none ∧
          t.mem = s.mem ∧ t.launches = s.launches) ∧
      (∀ (k : Nat) (o : Op), h.what = .const k → kget s.fe.ops k = some o → d.length = h.len →
        exec (.hostReadCompletion tag true d tc) s0 = .next { s with fe := { s.fe with
          reads := kdel s.fe.reads tag, ops := kput s.fe.ops k { o with const := some d } } }) ∧
      (∀ q, h.what = .entry q → d.length = h.len → entryBad d = true →
        exec (.hostReadCompletion tag true d tc) s0 = .next { s with fe := { s.fe with
          reads := kdel s.fe.reads tag, pre := s.fe.pre.map fun b => if b.seq = q then entryBuf q d else b } }) ∧
      (∀ q, h.what = .descs q → d.length = h.len →
        exec (.hostReadCompletion tag true d tc) s0 = .next { s with fe := { s.fe with
          reads := kdel s.fe.reads tag
          pre := s.fe.pre.map fun b => if b.seq = q then { b with
              got := b.got + (chunksOf 16384 64 d).length
              left := b.left ++ (chunksOf 16384 64 d).map fun x => ⟨0, x, false⟩ } else b } })) ∧
    (kget s.fe.reads tag = none → exec (.hostReadCompletion tag true d tc) s0 = .next s)

/-- Gloves open with their defaults, take their relaxed flag and budgets, reset in two commands, and close (R275, R338, R339, R340, R341, R342, R349, R353, R354, R356, R420). -/
def Obligations.GlovesOpenResetAndClose : Prop :=
  ∀ (s : State) (req : OdReq) (g : Nat),
    let u := recorded req s
    (Granted gloveOpenEntry req s → freeGlove (decided s) = some g →
      ∃ t, exec (.gloveOpenRequest req) s = .next t ∧ Answered req 0 [] t ∧ gloveState t g = 1 ∧ odGet t 0x3002 g = reqVal req ∧
        odGet t 0x3400 g = 0 ∧ odGet t 0x3000 2 = reqVal req + 2 ^ 32 * g ∧
        (∀ q, 1 ≤ q → q ≤ 8 → odGet t (0x3100 + g) q = odDefault (0x3100 + g) q) ∧
        (256 + g ∈ t.sec.want ∨ (kget t.sec.inst (256 + g)).isSome = true) ∧
        (keysRise u.od = true → ∀ k, k ≠ g → k ≤ 255 → gloveState t k = gloveState u k ∧ odGet t 0x3002 k = odGet u 0x3002 k) ∧
        t.mem = u.mem ∧ t.launches = u.launches ∧ t.bank = u.bank ∧ t.chunks = u.chunks) ∧
    (Granted relaxedEntry req s →
      ∃ t, exec (.gloveRelaxedWrite req) s = .next t ∧ Answered req 0 [] t ∧ AnswerOf (odSet u 0x3400 req.sub (reqVal req)) t) ∧
    (Granted budgetEntry req s →
      ∃ t, exec (.gloveBudgetWrite req) s = .next t ∧ Answered req 0 [] t ∧ AnswerOf (odSet u req.index req.sub (reqVal req)) t ∧
        t.force = u.force) ∧
    (Granted gloveResetEntry req s → reqVal req = g →
      ∃ t, exec (.gloveReset req) s = .next t ∧ Answered req 0 [] t ∧ gloveState t g = 2 ∧
        (∀ k l, kget u.launches k = some l → l.glove = g → ∃ m, kget t.launches k = some m ∧ m.phase = .killing) ∧
        (∀ b, bankExists b = true → bankOwner u b = g → bankPendingHandover t b = true ∧ bankOwner t b = g) ∧
        (∀ b, bankExists b = true → bankOwner u b ≠ g → winGet t (bankOwnerAddr b) = winGet u (bankOwnerAddr b)) ∧
        (∀ q, q < 16 → spentOf t g q = 0) ∧ t.mem = u.mem ∧ t.chunks = u.chunks ∧
        ∀ d, kget u.sec.inst (256 + g) = some d →
          256 + g ∈ t.sec.dues ∧ ∃ e, kget t.sec.inst (256 + g) = some e ∧ e.buf = [] ∧ e.key = d.key ∧ e.v = d.v ∧ e.calls = d.calls) ∧
    (1 ≤ g → g ≤ 255 → gloveState s g = 2 → (∀ b ∈ banksOf s g, bankPendingHandover s b = false) →
      ∃ t, exec (.gloveResetDone g) s = .next t ∧ gloveState t g = 1 ∧ OdKept [(0x3001, g)] s t ∧ Arrived [68] s t ∧
        t = { s with od := t.od, host := t.host, out := t.out }) ∧
    (Granted gloveCloseEntry req s → reqVal req = g →
      ∃ t, exec (.gloveClose req) s = .next t ∧ Answered req 0 [] t ∧ gloveState t g = 0 ∧ odGet t 0x3002 g = 0 ∧ odGet t 0x3400 g = 0 ∧
        (∀ q, 1 ≤ q → q ≤ 8 → odGet t (0x3100 + g) q = odDefault (0x3100 + g) q) ∧ kget t.sec.inst (256 + g) = none ∧
        256 + g ∉ t.sec.want ∧ t.mem = u.mem ∧ t.launches = u.launches ∧ t.bank = u.bank ∧ t.chunks = u.chunks)

/-- Frames of the field network are kept for their stream, answered, read for, and sent, and its entries take effect as said (R361, R362, R364, R366, R367, R369, R370, R375, R376, R379, R381, R389). -/
def Obligations.FieldFramesArriveAndLeave : Prop :=
  ∀ (s : State) (port k i tc : Nat) (crc : List Nat) (late : Bool) (ns : Nat) (d : List Byte) (f : RxFrame) (req : OdReq),
    (port < 8 → portUp s port = true → rxParse d = some f → f.etype = odGet s 0x1300 1 → filterOf s f = some i →
      d.length + 4 ≤ odGet s (0x1600 + i) 2 → odGet s (0x1600 + i) 3 = 0 → rxStream s port f = some k → (f.header.headD 0).toNat = 1 →
      f.header.length = 8 → odGet s (0x6800 + k) 4 ≤ f.payload.length → odGet s (0x6800 + k) 5 = 0 →
      let x := some (leNat (f.header.drop 4), f.payload.take (odGet s (0x6800 + k) 4))
      ∃ t, exec (.rxFrame port late ns d) s = .next t ∧
        rxOf t k = (if late then { rxOf s k with next := x } else { rxOf s k with due := x }) ∧
        odGet t (0x7100 + port) 1 = satAdd (2 ^ 64 - 1) (odGet s (0x7100 + port) 1) 1 ∧
        ((if late then (rxOf s k).next else (rxOf s k).due) = none →
          OdKept [(0x7100 + port, 1)] s t ∧ t = { s with od := t.od, field := t.field }) ∧
        t.field = { s.field with rx := t.field.rx } ∧ ∀ q, q ≠ k → rxOf t q = rxOf s q) ∧
    (port < 8 →
      (portUp s port = true →
        ∃ t, exec (.portLinkChange port false) s = .next t ∧ portUp t port = false ∧ irqPending t 323 = true ∧
          (∀ n x, kget t.serv.sessions n = some x → x.via ≠ port + 1) ∧ t.mem = s.mem ∧ t.field = s.field) ∧
      (portUp s port = false → odGet s (0x1200 + port) 1 ≠ 0 → domainOn s 50 = true →
        ∃ t, exec (.portLinkChange port true) s = .next t ∧ portUp t port = true ∧ Arrived [323] s t ∧ OdKept [(0x1200 + port, 3)] s t ∧
          fld (winGet t (tileBase (tsnTile port) + 0xF1000)) (2 * (port % 4)) 2 = odGet s (0x1200 + port) 1 % 4 ∧
          t = { s with od := t.od, win := t.win, host := t.host, out := t.out }) ∧
      (portUp s port = true →
        (∀ a, arpReply s port d = some a → 42 ≤ d.length →
          exec (.arpRequest port d) s = .next { s with out := .frame port a :: s.out } ∧ a.take 6 = (d.drop 22).take 6) ∧
        (arpReply s port d = none → exec (.arpRequest port d) s = .next s))) ∧
    (let v := advance tc s
     k < 64 → s.now ≤ tc → muxStopped s 0 = false → streamOn v (64 + k) = true → (txOf v k).fetched = false →
      ∃ t, exec (.txFetch k tc) s = .next t ∧ (txOf t k).fetched = true ∧ (∀ q, q ≠ k → txOf t q = txOf v q) ∧
        t.field = { v.field with tx := t.field.tx } ∧
        ∀ (o b : Nat) (a : Nat × Nat) (w : DestWin) (r : PortRes) (u : State), txObjects v k = [o] → objectDests v o = [a] →
          destWin a.1 = some w →
          let g := odGet v (0x6000 + o) 1
          let n := odGet v (0x6000 + o) 7
          let s1 := setTx k { txOf v k with fetched := true } v
          repliesOpen s1 g ((n + 63) / 64) = (n + 63) / 64 → verdict s1 g (w.base + a.2) n false w.pos = .bank b →
          portRead g b (w.base + a.2) n (budgetAdd g 3 ((n + 63) / 64) s1) = (r, u) → r.status = stOk →
          kget (txOf t k).chosen o = some r.data) ∧
    (k < 64 → streamOn s (64 + k) = true →
      ((txOf s k).noData = none →
        ∃ t, exec (.txDataDeadline k) s = .next t ∧ (txOf t k).noData = some (txMissing s k) ∧ (∀ q, q ≠ k → txOf t q = txOf s q) ∧
          (txMissing s k = true → odGet t (0x6840 + k) 9 = satAdd (2 ^ 32 - 1) (odGet s (0x6840 + k) 9) 1 ∧ irqPending t 325 = true) ∧
          (txMissing s k = false → t = { s with field := t.field })) ∧
      (∀ nd, (txOf s k).sent = false → (txOf s k).noData = some nd →
        let zero := List.replicate (payloadLen s (64 + k)) (0 : Byte)
        let data := if nd then zero else (txPayload crc k (pieces s (64 + k)) zero s).1
        let ports := (List.range 8).filter fun p => bitOf (streamMask s (64 + k)) p
        ∃ t, exec (.txFrame k crc) s = .next t ∧ (txOf t k).sent = true ∧ t.mem = s.mem ∧
          (∀ p ∈ ports, portUp s p = true → .frame p (txFrame s k p (decide (1 < ports.length)) nd data) ∈ t.out ∧
            odGet t (0x7100 + p) 2 = satAdd (2 ^ 64 - 1) (odGet s (0x7100 + p) 2) 1))) ∧
    (let u := recorded req s
     let c := req.index - 0x4100
     let p := req.index - 0x1400
     (Granted gclEntry req s →
        ∃ t, exec (.gclCommit req) s = .next t ∧ Answered req 0 [] t ∧
          AnswerOf { u with field := { u.field with gclDue := p :: u.field.gclDue.filter (· != p) } } t) ∧
      (Granted ackEntry req s →
        ∃ t, exec (.safetyAck req) s = .next t ∧ Answered req 0 [] t ∧
          ((connOf u c).state = 4 → connOf t c = { connOf u c with ack := true } ∧ ∀ q, q ≠ c → connOf t q = connOf u q) ∧
          ((connOf u c).state ≠ 4 → AnswerOf u t)) ∧
      (Granted enableEntry req s →
        ∃ t, exec (.streamEnableWrite req) s = .next t ∧ Answered req 0 [] t ∧ AnswerOf (odSet u req.index 1 (reqVal req)) t ∧
          t.force = u.force))

/-- Health flits, comparison, fencing, the spare's restart, the reaction to a fault record, and re-execution (R259, R392, R396, R397, R398, R399, R401, R402, R403, R452). -/
def Obligations.ReplicasAreComparedFencedAndReplaced : Prop :=
  ∀ (s : State) (k pos : Nat) (l : Launch) (t0 : SafetyTable), kget s.launches k = some l →
    (l.aux.safety = some t0 → isRunning l = true →
      let os := comparedObjects s l t0.port
      let g := l.glove
      let chosen := fun (t : State) (w : Nat) => ∀ o ∈ os, kget (txOf t o.1).chosen o.2 = (copyAt s o w).map (·.1)
      (let ht := ((t0.ht.find? fun x => x.1 == pos).map (·.2)).getD s.now
       let v := advanceTo ht s
       pos < 1536 → pos ∈ t0.setA ++ t0.setB ++ t0.setC → s.now ≤ ht → ∀ w, route v.plat.fuse pos t0.port = some w →
        ∃ t, exec (.healthFlit k pos) s = .next t ∧ TilesKept pos v t ∧ t = { v with tiles := t.tiles } ∧
          (∀ p ∈ (tileOf t pos).slots, p.2.launch = k → p.2.latch = false) ∧
          (tileOf t pos).msgq = (tileOf v pos).msgq ++ [⟨1, 0, [(w, t0.port, 0)],
            .health k pos ((tileOf v pos).slots.any fun p => p.2.launch == k && p.2.latch), false, true, absNow v + 2⟩]) ∧
      (∃ t, exec (.replicaComparison k false) s = .next t ∧ t.safety.outs = false ∧ bitOf t.safety.causes 3 = true ∧
        irqPending t 139 = true ∧ irqPending t 130 = true ∧ t.field = s.field ∧ t.launches = s.launches) ∧
      (l.sentinel.stopped = false → ∀ a b, activeSets l.sentinel = [a, b] →
        (setFlagged s l t0 os a = false → setFlagged s l t0 os b = false → copiesEqual s os = true →
          ∃ t, exec (.replicaComparison k true) s = .next t ∧ chosen t a.2 ∧ t = { s with field := { s.field with tx := t.field.tx } }) ∧
        (setFlagged s l t0 os a = true → setFlagged s l t0 os b = false →
          ∃ t m, exec (.replicaComparison k true) s = .next t ∧ chosen t b.2 ∧ kget t.launches k = some m ∧ a.1 ∈ m.sentinel.fenceDue ∧
            m.sentinel.fencedAt = s.frame.boundaries ∧ m.sentinel.fenced = l.sentinel.fenced ∧ odGet t (0x4800 + g) 3 = 0x0021 ∧
            Arrived [128] s t ∧ t.safety = s.safety) ∧
        (setFlagged s l t0 os a = false → setFlagged s l t0 os b = false → copiesEqual s os = false →
          ∃ t, exec (.replicaComparison k true) s = .next t ∧ t.field = s.field ∧ t.launches = s.launches ∧
            odGet t (0x4800 + g) 6 = satAdd (2 ^ 32 - 1) (odGet s (0x4800 + g) 6) 1 ∧ odGet t (0x4800 + g) 3 = 0x0022 ∧ irqPending t 130 = true ∧
            (odForce s (0x4800 + g) 1 = 1 → t.safety.outs = false ∧ bitOf t.safety.causes 1 = true) ∧
            (odForce s (0x4800 + g) 1 ≠ 1 → t.safety = s.safety))) ∧
      (let xs := l.sentinel.fenceDue.filter fun x => decide (x < 8)
       xs ≠ [] → l.sentinel.fencedAt < s.frame.boundaries →
        ∃ t, exec (.replicaFence k) s = .next t ∧
          kget t.launches k = some { l with sentinel := { l.sentinel with
            fenced := l.sentinel.fenced ++ xs, fenceDue := [], fencedAt := s.frame.boundaries } } ∧
          (∀ q ∈ xs.flatMap (setTiles t0), ∀ p ∈ (tileOf t q).slots, p.2.launch = k → 2 ≤ p.2.dry) ∧
          (∀ q, q ∉ xs.flatMap (setTiles t0) → kget t.tiles q = kget s.tiles q) ∧ t.mem = s.mem ∧ t.safety = s.safety) ∧
      (t0.setC ≠ [] → l.sentinel.spareUsed = false → l.sentinel.fenced.length = 1 → l.sentinel.stopped = false →
       l.sentinel.fencedAt < s.frame.boundaries →
        ∃ t, exec (.spareRestart k) s = .next t ∧
          kget t.launches k = some { l with sentinel := { l.sentinel with partnerC := true, spareUsed := true } } ∧
          (∀ q ∈ t0.setC, ∀ p ∈ (tileOf t q).slots, p.2.launch = k → p.2.dry = 0 ∧ p.2.latch = false) ∧
          odGet t (0x4800 + g) 5 = satAdd (2 ^ 32 - 1) (odGet s (0x4800 + g) 5) 1 ∧ odGet t (0x4800 + g) 8 = 0 ∧ Arrived [129] s t ∧
          (∀ q, q ∉ t0.setC → kget t.tiles q = kget s.tiles q) ∧
          WinKept (pwrTile :: t0.setC.flatMap fun q => [tileBase q + 0xF2000, tileBase q + 0xF2004, tileBase q + 0xF2008]) s t ∧
          t.agenda = s.agenda.filter (fun x => !t0.setC.contains x.c.pos) ∧
          t = { s with launches := t.launches, tiles := t.tiles, win := t.win, od := t.od, host := t.host, out := t.out, agenda := t.agenda })) ∧
    (∀ (r : Vc3) (rest : List Vc3), s.safety.inbox = r :: rest →
      (r.hop ≠ 0 → exec .faultRecord s = .next { s with safety := { s.safety with inbox := rest } }) ∧
      (r.hop = 0 → r.code ∈ [0x0301, 0x0302, 0x0303, 0x0304, 0x0305, 0x0602, 0x0604, 0x0703] →
        ∃ t m, exec .faultRecord s = .next t ∧ t.safety = { s.safety with inbox := rest } ∧ t.mem = s.mem ∧
          odGet t 0x4000 6 = satAdd (2 ^ 32 - 1) (odGet s 0x4000 6) 1 ∧ odGet t 0x4000 7 = satAdd (2 ^ 32 - 1) (odGet s 0x4000 7) 1 ∧
          kget t.launches k = some m ∧
          (isRunning l = true → l.aux.safety = none → l.glove = r.glove → launchAt l r.unit = true →
            if canReexecute l then m.reexDue = true else m.faulted = true))) ∧
    (l.reexDue = true → l.phase = .running → canReexecute l = true →
      ∃ t, exec (.reexecution k none) s = .next t ∧
        ((∃ m, kget t.launches k = some m ∧ m.phase = .loading ∧ m.reexecuted = true ∧ m.reexDue = false ∧ l.set < m.set ∧
            irqPending t 132 = true) ∨ (kget t.launches k = none ∧ irqPending t 133 = true)))

/-- Monitors, watchdogs and the test trip drop the outputs; acknowledgement and exit raise them only when no cause is left; tiles are tested in turn (R391, R392, R393, R394, R395, R405, R407, R408, R409). -/
def Obligations.TheHelmetGuardsTheOutputs : Prop :=
  ∀ (s : State) (mv48 mv33 pos step secs : Nat) (rails : List Int) (temp tileDev aonDev : Int) (helmet : Bool) (d : Reg) (req : OdReq) (wrong silent : Bool),
    (let bad : Nat → Bool := fun b => match b with
        | 9 => !helmet
        | 16 => decide (115 ≤ temp)
        | 17 => decide (mv48 < 40000) || decide (57600 < mv48)
        | 18 => decide (mv33 < 2970) || decide (3630 < mv33)
        | 19 => rails.any fun x => decide (x < -50) || decide (50 < x)
        | 20 => decide (tileDev < -10) || decide (10 < tileDev)
        | 21 => decide (aonDev < -20) || decide (20 < aonDev)
        | b => bitOf s.safety.holding b
     ∃ t, exec (.monitorSample mv48 mv33 rails temp tileDev aonDev helmet) s = .next t ∧ (∀ b, bitOf t.safety.holding b = bad b) ∧
       (∀ b, bitOf s.safety.holding b = false → bad b = true → t.safety.outs = false ∧
         (if b = 9 then bitOf t.safety.causes 9 = true else bitOf t.safety.causes 4 = true ∧ irqPending t 136 = true)) ∧
       ((∀ b, bad b = bitOf s.safety.holding b) → t = s) ∧
       t = { s with safety := t.safety, win := t.win, host := t.host, out := t.out }) ∧
    ((d.toNat = 0x5A5AA5A5 ∨ d.toNat = 0xA5A55A5A) → d.toNat ≠ s.safety.lastKick →
      exec (.hlmKick d) s = .next { s with safety := { s.safety with lastKick := d.toNat } }) ∧
    ((d.toNat ≠ 0x5A5AA5A5 ∧ d.toNat ≠ 0xA5A55A5A ∨ d.toNat = s.safety.lastKick) → exec (.hlmKick d) s = exec .watchdogExpiry s) ∧
    (∃ t, exec .watchdogExpiry s = .next t ∧ t.safety.outs = false ∧ bitOf t.safety.causes 5 = true ∧ t.safety.lastKick = 0 ∧
      fld (winGet t (tileBase 1116 + 0xF1008)) 24 8 = satAdd 255 (fld (winGet s (tileBase 1116 + 0xF1008)) 24 8) 1 ∧
      (∀ p ∈ mgmtTiles, (tileOf t p).pc = 0 ∧ (tileOf t p).loops = [] ∧ (tileOf t p).ended = false ∧ (tileOf t p).waiti = false) ∧
      (∀ p, p ∉ mgmtTiles → kget t.tiles p = kget s.tiles p) ∧ WinKept [tileBase 1116 + 0xF1008] s t ∧
      t = { s with safety := t.safety, win := t.win, tiles := t.tiles, host := t.host, out := t.out }) ∧
    (∃ t, exec .frameWatchdogExpiry s = .next t ∧ t.safety = { s.safety with causes := s.safety.causes ||| 2 ^ 5, outs := false } ∧
      (s.safety.outs = true → Arrived [135] s t ∧ fld (winGet t (tileBase 1116 + 0xF1008)) 16 8 = 5) ∧
      WinKept [tileBase 1116 + 0xF1008] s t ∧ t = { s with safety := t.safety, win := t.win, host := t.host, out := t.out }) ∧
    (let u := recorded req s
     (Granted safeAckEntry req s →
       ∃ t, exec (.safeStateAck req) s = .next t ∧ Answered req 0 [] t ∧
         (∀ b, bitOf t.safety.causes b = (decide (b < 10) && bitOf u.safety.causes b && causeHolds u b)) ∧
         AnswerOf { u with safety := { u.safety with causes := t.safety.causes } } t) ∧
     (Granted safeTripEntry req s →
       ∃ t, exec (.safeTestTrip req) s = .next t ∧ Answered req 0 [] t ∧
         t.safety = { u.safety with causes := u.safety.causes ||| 2 ^ 8, outs := false } ∧ t.mem = u.mem ∧ t.launches = u.launches)) ∧
    (let clear := s.safety.causes = 0 ∧ (∀ b, b < 10 → causeHolds s b = false) ∧ s.plat.ready = true
     (s.safety.outs = false → clear →
       ∃ t, exec .safeStateExit s = .next t ∧ Arrived [135] s t ∧
         t = { s with safety := { s.safety with outs := true }, host := t.host, out := t.out }) ∧
     (s.safety.outs = true ∨ ¬ clear → exec .safeStateExit s = .next s)) ∧
    (pos < 1536 → testable s pos = true →
      let a := tileBase 1116 + 0xF100C
      let done := (pos :: s.safety.bistDone).eraseDups
      ∃ t, exec (.selfTest pos step secs wrong silent) s = .next t ∧ fld (winGet t a) 0 16 = done.length % 2 ^ 16 ∧
        fld (winGet t a) 16 16 = satAdd 0xFFFF (fld (winGet s a) 16 16) (ofBool wrong + ofBool silent) ∧
        ((∀ p, p < 1536 → testable s p = true → p ∈ done) → t.safety.bistDone = [] ∧ odGet t 0x4000 8 = secs) ∧
        (¬ (∀ p, p < 1536 → testable s p = true → p ∈ done) → t.safety.bistDone = done) ∧
        (∀ p ∈ (tileOf t pos).slots, p.2.latch = false ∧ p.2.dry = 0) ∧ TilesKept pos s t ∧
        (wrong = false → silent = false →
          WinKept [a, pwrTile, tileBase pos + 0xF2000, tileBase pos + 0xF2004, tileBase pos + 0xF2008] s t ∧
          t = { s with safety := t.safety, win := t.win, od := t.od, tiles := t.tiles, agenda := s.agenda.filter fun x => x.c.pos != pos }))

/-- The dictionary service answers reads and writes, stores a record before a logged write acts, and opens and closes sessions (R378, R379, R380, R381, R382, R383, R384, R385, R386, R435). -/
def Obligations.TheServiceReadsWritesAndOpensSessions : Prop :=
  ∀ (s : State) (req : OdReq) (n : Nat),
    let u := decided s
    let roles := sessionRoles u req
    (carries s req.via = false →
      ∀ c ∈ [Instr.readEntry req, .writeEntry req, .credentialWrite req, .nonceRequest req, .openSession req, .closeSession req],
        exec c s = .next s) ∧
    (carries s req.via = true →
      (∃ t, exec (.readEntry req) s = .next t ∧ AnswerOf u t ∧
        Answered req (odReadAbort u req) (if odReadAbort u req = 0 then odBytes u req else []) t) ∧
      (ownEntries.find? (fun e => e.covers req) = none → odWriteAbort u req = 0 → plainRule req u = 0 →
        (needsRecord req 0 = false → ∃ t, exec (.writeEntry req) s = .next t ∧ Answered req 0 [] t ∧ AnswerOf (applyWrite req u) t) ∧
        (needsRecord req 0 = true →
          exec (.writeEntry req) s = .next { u with serv := { u.serv with queue := u.serv.queue ++ [auditOf u req 0] } })) ∧
      (isCredential req = true → odWriteAbort u req = 0 → plainRule req u = 0 → needsRecord req 0 = true →
        exec (.credentialWrite req) s = .next { u with serv := { u.serv with queue := u.serv.queue ++ [auditOf u req 0] } }) ∧
      (req.rsvd = 0 → roles.isSome = true → req.data = [] → secRuns u = true → drbgMayDeliver u (nonceInst u) = true →
        ∃ t d, exec (.nonceRequest req) s = .next t ∧ Answered req 0 d t ∧ nonceGood t d = true ∧ t.serv.sessions = u.serv.sessions ∧
          t.mem = u.mem ∧ t.od = u.od) ∧
      (req.rsvd = 0 → roles.isSome = true → req.data.length = 84 → (req.data.drop 3).head? = some 0 → secRuns u = true →
       openAbort u (openGood u req.data) req.data = 0 → freeSession u = some n →
        ∃ t, exec (.openSession req) s = .next t ∧ .odResponse req.via req.tag n req.index req.sub 0 [] ∈ t.out ∧
          kget t.serv.sessions n = some ⟨req.via, openRoles req.data ||| 1, openCredNo req.data⟩ ∧
          (∀ k, k ≠ n → kget t.serv.sessions k = kget u.serv.sessions k) ∧ nonceGood t (openNonce req.data) = false ∧
          odGet t 0x5040 1 = satAdd (2 ^ 64 - 1) (odGet u 0x5040 1) 1 ∧ OdKept [(0x5040, 1)] u t ∧ t.mem = u.mem) ∧
      (req.rsvd = 0 → roles.isSome = true → req.data = [] → req.session ≠ 0 →
        ∃ t, exec (.closeSession req) s = .next t ∧ Answered req 0 [] t ∧ kget t.serv.sessions req.session = none ∧
          (keysRise u.serv.sessions = true → ∀ k, k ≠ req.session → kget t.serv.sessions k = kget u.serv.sessions k) ∧
          OdKept [(0x2000, 1)] u t ∧ t.mem = u.mem)) ∧
    (∃ t, exec (.sessionIdleTimeout n) s = .next t ∧ kget t.serv.sessions n = none ∧
      ((kget s.serv.sessions n).isSome = true → s.serv.unlocker = n → n ≠ 0 → odGet t 0x2000 1 = 0 ∧ t.serv.unlocker = 0) ∧
      (s.serv.unlocker ≠ n → t.od = s.od) ∧ t = { s with serv := t.serv, od := t.od }) ∧
    (∀ (w : AuditWait) (l : List AuditWait), s.serv.queue = w :: l →
      let seq := s.serv.auditCount % 2 ^ 32
      ∃ t, exec .auditRecordStored s = .next t ∧ t.serv.queue = l ∧ t.serv.auditCount = s.serv.auditCount + 1 ∧
        t.serv.chain = (sha384 (0x05 :: s.serv.chain ++ auditBytes seq w)).take 16 ∧
        kget t.serv.audit seq = some (auditBytes seq w ++ t.serv.chain) ∧ Answered w.req w.abort [] t ∧ t.mem = s.mem) ∧
    (Granted signEntry req s → secRuns (recorded req s) = true → (recorded req s).serv.auditCount ≠ 0 →
      let v := recorded req s
      let seq := (v.serv.auditCount - 1) % 2 ^ 32
      ∃ t, exec (.auditSignRequest req) s = .next t ∧ Answered req 0 [] t ∧ odGet t 0x8000 5 = seq ∧ odGet t 0x8000 6 = leNat v.serv.chain ∧
        odGet t 0x8000 8 = leNat (edSign (identitySecret v.plat.fuse)
          (0x06 :: leBytes 4 seq ++ v.serv.chain ++ leBytes 8 (leNat ((kgetD v.serv.audit seq []).take 8)))) ∧
        irqPending t 327 = true ∧ t.serv.audit = v.serv.audit ∧ t.mem = v.mem)

/-- Cells are sampled, tested, failed and retested; samples become seeds; known-answer runs and time-outs move the security state (R410, R411, R412, R413, R414, R415, R416, R425, R426, R427, R428). -/
def Obligations.EntropyCellsSeedsAndTests : Prop :=
  ∀ (s : State) (i bits n mask wrong : Nat) (c : Cell) (req : OdReq),
    (s.sec.cells[i]? = some c →
      (c.st = .testing n → 4096 ≤ n →
        ∃ t, exec (.cellStartupTestDone i) s = .next t ∧ t.sec = { s.sec with cells := s.sec.cells.set i { c with st := .healthy } } ∧
          odGet t 0x5000 2 = cellMask t ∧ OdKept [(0x5000, 2)] s t ∧ t = { s with sec := t.sec, od := t.od }) ∧
      (c.st = .removed → c.fails < 8 →
        exec (.cellRetest i) s = .next { s with sec := { s.sec with
          cells := s.sec.cells.set i { c with st := .testing 0, run := 0, apSeen := 0, apCount := 0 } } })) ∧
    (let bad := fun (j : Nat) => s.sec.cells[j]?.any fun x => x.st != .removed && (cellSample x (bitOf bits j)).2
     s.sec.mode ≠ .off → s.sec.mode ≠ .failed → s.sec.cells.length = 8 →
      ((∀ j, j < 8 → bad j = false) →
        ∃ t, exec (.entropyCellSample bits) s = .next t ∧ t = { s with sec := { s.sec with cells := t.sec.cells, raw := t.sec.raw } } ∧
          (∀ (j : Nat) (x : Cell), s.sec.cells[j]? = some x →
            t.sec.cells[j]? = some (if x.st = .removed then x else (cellSample x (bitOf bits j)).1)) ∧
          t.sec.raw = s.sec.raw ++ (List.range 8).filterMap fun j => (s.sec.cells[j]?).bind fun x =>
            if conditionerRuns s && x.st == .healthy then some (j, bitOf bits j) else none) ∧
      (i < 8 → s.sec.cells[i]? = some c → bad i = true → (∀ j, j < i → bad j = false) →
        ∃ t x, exec (.entropyCellSample bits) s = .next t ∧ irqPending t 449 = true ∧ t.sec.cells[i]? = some x ∧
          x.fails = c.fails + 1 ∧ x.st ≠ .healthy ∧ t.mem = s.mem)) ∧
    (let b := cbcMac (chunksOf 8 16 (beBytes 128 (packBits (s.sec.raw.take 1024))))
     let raw := s.sec.raw.drop 1024
     conditionerRuns s = true → 1024 ≤ s.sec.raw.length →
      (s.sec.blocks.length < 2 →
        exec .conditioningCall s = .next { s with sec := { s.sec with raw := raw, blocks := s.sec.blocks ++ [b] } }) ∧
      (s.sec.blocks.length = 2 →
        ∃ t, exec .conditioningCall s = .next t ∧ t.sec.blocks = [] ∧ t.sec.raw = raw ∧
          odGet t 0x5000 6 = satAdd (2 ^ 64 - 1) (odGet s 0x5000 6) 1 ∧
          (s.sec.mode = .startup → s.sec.kat = none →
            t = { s with sec := { s.sec with
              raw := raw, blocks := [], store := s.sec.store ++ [(s.sec.blocks ++ [b]).flatten], kat := some 7, back := .single }, od := t.od }))) ∧
    (Granted katEntry req s → let u := recorded req s
      ∃ t, exec (.katRequest req) s = .next t ∧ Answered req 0 [] t ∧ irqPending t 448 = true ∧
        t.sec = { u.sec with mode := .test, kat := some (reqVal req), back := u.sec.mode } ∧ t.mem = u.mem) ∧
    (s.sec.kat = some mask → mask < 8 →
      ((∀ j, j < 3 → bitOf mask j = true → bitOf wrong j = false) →
        ∃ t, exec (.katDone wrong) s = .next t ∧ odGet t 0x5000 5 = 0x80 + mask ∧ irqPending t 450 = true ∧ t.sec.kat = none ∧
          (s.sec.mode = .test → t.sec.mode = s.sec.back ∨ s.sec.back = .single ∧ s.sec.store ≠ [] ∧ t.sec.mode = .normal) ∧ t.mem = s.mem) ∧
      (∀ j, j < 3 → bitOf mask j = true → bitOf wrong j = true →
        ∃ t, exec (.katDone wrong) s = .next t ∧ t.sec.mode = .failed ∧ irqPending t 450 = true ∧ irqPending t 451 = true ∧
          bitOf (odGet t 0x5000 5) j = false ∧ t.mem = s.mem)) ∧
    (let failed := fun (t : State) => t.sec = { s.sec with mode := .failed, kat := none } ∧ irqPending t 448 = true ∧
        t = { s with sec := t.sec, serv := t.serv, host := t.host, out := t.out }
     (s.sec.mode = .startup → s.sec.store = [] → ∃ t, exec .secStartupTimeout s = .next t ∧ failed t) ∧
     (s.sec.mode ≠ .startup ∨ s.sec.store ≠ [] → exec .secStartupTimeout s = .next s) ∧
     (s.sec.mode = .recovery → ∃ t, exec .recoveryTimeout s = .next t ∧ failed t) ∧
     (s.sec.mode ≠ .recovery → exec .recoveryTimeout s = .next s))

/-- DRBG instances generate, are reseeded and give each word once; the public-key engine queues, completes and counts its operations (R418, R419, R420, R421, R422, R423, R424, R431, R432, R433, R434, R435). -/
def Obligations.InstancesDeliverAndTheEngineSigns : Prop :=
  ∀ (s : State) (i g be : Nat) (d : Drbg) (m key hash sig : List Byte) (req : OdReq),
    (kget s.sec.inst i = some d →
      (drbgMayDeliver s i = true → d.buf = [] →
        ∃ t e, exec (.drbgGenerate i) s = .next t ∧ kget t.sec.inst i = some e ∧
          e.buf = (chunksOf 16 4 (ctrBlocks (aesKeys d.key) 4 d.v).1).map leNat ∧
          (e.key, e.v) = ctrUpdate d.key (ctrBlocks (aesKeys d.key) 4 d.v).2 (List.replicate 48 0) ∧ e.calls = d.calls + 1 ∧
          (∀ k, k ≠ i → kget t.sec.inst k = kget s.sec.inst k) ∧ t = { s with sec := t.sec, host := t.host, out := t.out }) ∧
      (∀ (seed : List Byte) (l : List (List Byte)), s.sec.store = seed :: l →
       ((s.sec.dues.filter (· < 256)) ++ (s.sec.dues.filter fun k => 256 ≤ k)).head? = some i →
        ∃ t e, exec .drbgReseed s = .next t ∧ kget t.sec.inst i = some e ∧ e.buf = d.buf ∧ e.calls = 0 ∧ e.due = false ∧
          t.sec.store = l ∧ i ∉ t.sec.dues ∧ (∀ k, k ≠ i → kget t.sec.inst k = kget s.sec.inst k) ∧ t = { s with sec := t.sec }) ∧
      (Granted reseedEntry req s → i = reseedInst (reqVal req) →
        ∃ t, exec (.drbgReseedRequest req) s = .next t ∧ Answered req 0 [] t ∧ i ∈ t.sec.dues ∧ t.sec.store = (recorded req s).sec.store)) ∧
    (g < 256 →
      (∀ (w : Nat) (l : List Nat), kget s.sec.inst (pageInst s g) = some { d with buf := w :: l } → pageLive s g = true →
       drbgMayDeliver s (pageInst s g) = true →
        ∃ t, exec (.drbgDataRead g be) s = .next t ∧ t.out = .readData (leBytes 4 (beMask w be)) :: s.out ∧
          kget t.sec.inst (pageInst s g) = some { d with buf := l } ∧ spentOf t g 7 = spentOf s g 7 + 1 ∧
          t = { s with sec := t.sec, spent := t.spent, out := t.out }) ∧
      ((pageLive s g = false ∨ drbgMayDeliver s (pageInst s g) = false) →
        ∃ t, exec (.drbgDataRead g be) s = .next t ∧ .readData [0, 0, 0, 0] ∈ t.out ∧ bitOf (barGet t (pageStatus g)) 1 = true ∧
          (bitOf (barGet s (pageStatus g)) 1 = false → irqPending t 454 = true) ∧ t.sec = s.sec ∧ t.mem = s.mem)) ∧
    (∀ (c : Instr) (r : PkeReq), (c, r) ∈ [(.ed25519Sign m, .edSign m), (.ed25519Verify key m sig, .edVerify key m sig),
        (.ecdsaSign hash, .ecSign hash), (.ecdsaVerify key hash sig, .ecVerify key hash sig)] →
      (s.sec.pkeBusy = none → s.sec.pkeQueue = [] → secRuns s = true → exec c s = .next { s with sec := { s.sec with pkeBusy := some r } }) ∧
      ((s.sec.pkeBusy.isSome = true ∨ secRuns s = false) →
        exec c s = .next { s with sec := { s.sec with pkeQueue := s.sec.pkeQueue ++ [r] } })) ∧
    (∀ r : PkeReq, s.sec.pkeBusy = some r →
      (∀ res, (r = .edSign m ∧ res = (0, edSign (identitySecret s.plat.fuse) m)) ∨ (r = .edVerify key m sig ∧ res = (pkCode (edCheck key m sig), [])) ∨
          (r = .ecVerify key hash sig ∧ res = (pkCode (ecCheck key hash sig), [])) →
        ∃ t, exec .pkeComplete s = .next t ∧ t.sec.pkeResult = some res ∧ odGet t 0x5040 1 = satAdd (2 ^ 64 - 1) (odGet s 0x5040 1) 1 ∧
          (res.1 ≠ 0 → odGet t 0x5040 2 = satAdd (2 ^ 32 - 1) (odGet s 0x5040 2) 1 ∧ irqPending t 456 = true) ∧
          (res.1 = 0 → odGet t 0x5040 2 = odGet s 0x5040 2) ∧ t.sec.pkeBusy = (if secRuns s then s.sec.pkeQueue.head?.map (pkeForm s) else none) ∧
          t.sec.inst = s.sec.inst ∧ t.mem = s.mem ∧ t.serv = s.serv) ∧
      (∀ k body, r = .attest k 0 body →
        ∃ t a, exec .pkeComplete s = .next t ∧ kget t.serv.attest k = some a ∧ a.state = 2 ∧ irqPending t 455 = true ∧
          a.report = leNat (body ++ edSign (identitySecret s.plat.fuse) (0x0C :: body) ++ List.replicate 32 0))) ∧
    (Granted attestEntry req s → let u := recorded req s
      let k := sessionKey req
      ∃ t a, exec (.attestRequest req) s = .next t ∧ Answered req 0 [] t ∧ kget t.serv.attest k = some a ∧ a.state = 1 ∧
        (PkeReq.attest k a.alg (leBytes 32 a.challenge) ∈ t.sec.pkeQueue ∨
          t.sec.pkeBusy = some (.attest k a.alg (attestBody u a.challenge a.alg))))

/-- PlxEnable, training, retraining and failure lead a Prolux link through its states, with what it keeps of its neighbour (R439, R443, R444, R455, R456, R457, R459). -/
def Obligations.LinksTrainRetrainAndFail : Prop :=
  ∀ (s : State) (l pos lanes serial coord peer : Nat) (req : OdReq), l < 6 →
    let up := fun (t : State) (st : Nat) => halfState t (plxTile l 0) = st ∧ halfState t (plxTile l 1) = st
    let i := 0x2700 + l
    (Granted plxEnableEntry req s → req.index = i → let u := recorded req s
      ∃ t, exec (.plxEnable req) s = .next t ∧ Answered req 0 [] t ∧ odGet t i 1 = reqVal req ∧ t.mem = u.mem ∧
        (reqVal req = 0 → up t 0 ∧ odGet t i 2 = 0) ∧
        (reqVal req ≠ 0 → odGet u i 2 = 0 → domainOn u (43 + l) = true → up t 1 ∧ odGet t i 2 = 1) ∧
        (reqVal req ≠ 0 → (odGet u i 2 ≠ 0 ∨ domainOn u (43 + l) = false) → t.win = u.win)) ∧
    (up s 1 → laneCount lanes = true →
      let st := if coordOk (odGet s 0x2600 6) coord l && peer == l + 1 - 2 * (l % 2) then 2 else 3
      ∃ t, exec (.plxTrainingDone l lanes lanes serial coord peer) s = .next t ∧ up t st ∧ odGet t i 2 = st ∧ odGet t i 3 = 17 * lanes ∧
        odGet t i 4 = serial % 2 ^ 32 ∧ odGet t i 5 = coord % 2 ^ 32 ∧ t.mem = s.mem ∧ t.launches = s.launches) ∧
    (up s 1 → ∀ a b, laneCount a = false ∨ laneCount b = false →
      ∃ t, exec (.plxTrainingDone l a b serial coord peer) s = .next t ∧ up t 4 ∧ odGet t i 2 = 4 ∧ t.mem = s.mem) ∧
    (isPlx pos = true → (plxLink pos).1 = l →
      (halfState s pos ≠ 0 → halfState s pos ≠ 4 →
        ∃ t, exec (.plxLinkFailed pos) s = .next t ∧ up t 4 ∧ odGet t i 2 = 4 ∧ t.mem = s.mem) ∧
      (halfState s pos = 2 →
        ∃ t, exec (.plxRetrain pos) s = .next t ∧ halfState t pos = 1 ∧ odGet t i 6 = satAdd (2 ^ 32 - 1) (odGet s i 6) 1 ∧
          fld (winGet t (plxReg pos)) 8 8 = satAdd 255 (fld (winGet s (plxReg pos)) 8 8) 1 ∧ WinKept [plxReg pos] s t ∧
          OdKept [(i, 2), (i, 3), (i, 6)] s t ∧ t = { s with win := t.win, od := t.od, host := t.host, out := t.out }) ∧
      (halfState s pos = 1 →
        ((lanes = 1 ∨ lanes = 2 ∨ lanes = 4) →
          ∃ t, exec (.plxRetrainDone pos lanes) s = .next t ∧ halfState t pos = 2 ∧ fld (winGet t (plxReg pos)) 4 3 = lanes ∧
            (∀ x ∈ (plxOf s pos).replay, .plxCell pos (cellOf (plxOf s pos).seqIn x.2) ∈ t.out) ∧ t.mem = s.mem) ∧
        (¬ (lanes = 1 ∨ lanes = 2 ∨ lanes = 4) →
          ∃ t, exec (.plxRetrainDone pos lanes) s = .next t ∧ up t 4 ∧ odGet t i 2 = 4 ∧ t.mem = s.mem)))

/-- Cells are taken in order, time cells and notices do their work, complete rounds are combined, and windows are tested for a hold (R441, R442, R444, R445, R446, R448, R449, R450, R451, R452). -/
def Obligations.CellsCarryTimeNoticesAndRounds : Prop :=
  ∀ (s : State) (pos n hops l : Nat) (c : List Byte),
    (isPlx pos = true → halfState s pos = 2 →
      (cellSound c = false →
        ∃ t, exec (.plxCell pos c 0 none) s = .next t ∧ .plxNak pos (((plxOf s pos).seqIn + 1) % 2 ^ 16) ∈ t.out ∧
          plxOf t pos = { plxOf s pos with nak := true } ∧ t = { s with plx := t.plx, win := t.win, out := t.out }) ∧
      (cellSound c = true → cellKind c = kindExchange → cellSeq c = (plxOf s pos).seqIn → (plxOf s pos).replay = [] →
        ∃ t, exec (.plxCell pos c 0 none) s = .next t ∧ t = { s with win := t.win }) ∧
      (cellSound c = true → cellSeq c = ((plxOf s pos).seqIn + 1) % 2 ^ 16 →
        (cellKind c = kindTime → (plxOf s pos).replay = [] → followsCells s = true → odGet s 0x2600 2 = (plxLink pos).1 → sysTimeState s = 2 →
          ∃ t, exec (.timeCell pos c n hops) s = .next t ∧ sysTimeState t = 3 ∧ odGet t 0x2600 4 = unsigned 32 (cellOffset c n) ∧
            odGet t 0x2600 5 = (hops + 1) % 256 ∧ (plxOf t pos).echo = (bytesNat c 0 8, n) ∧ (plxOf t pos).seqIn = cellSeq c ∧
            t.frame = { s.frame with goodCells := (if -2 ≤ cellOffset c n ∧ cellOffset c n ≤ 2 then min 8 (s.frame.goodCells + 1) else 0) } ∧
            t.mem = s.mem) ∧
        (∀ (k : Nat) (x : Launch), cellKind c = kindNotice → launchOfCount s (bytesNat c 0 8) = some (k, x) → bytesNat c 8 1 = 1 →
          kget s.launches k = some x →
          ∃ t y, exec (.plxNotice pos c) s = .next t ∧ irqPending t 331 = true ∧ kget t.launches k = some y ∧ y.phase = .killing ∧
            t.mem = s.mem) ∧
        (cellKind c = kindRecord → (plxOf s pos).notices.contains (recordKey (vc3Of (c.take 64))) = false → kgetD s.vc3Held pos [] = [] → kgetD s.vc3Wait (16 * pos + 8) [] = [] →
          ∃ t, exec (.plxRecord pos c) s = .next t ∧ t.mem = s.mem ∧ t.launches = s.launches ∧
            kgetD t.vc3Held pos [] = [⟨{ vc3Of (c.take 64) with hop := ((vc3Of (c.take 64)).hop + 1) % 256 }, none, 4, 0, absNow s⟩]))) ∧
    (∀ e : XEnt, isPlx pos = true → (plxOf s pos).ents = [e] → e.op ≠ 1 → e.rout = false → e.lout = true → e.gave < e.nw → entHeld s e = false →
      let mine := roundOf e.mine e.comb
      let theirs := (List.range e.nw).filterMap (remoteWord s pos e e.comb)
      mine.length = e.nw → remoteFull s pos e e.comb = true →
      ∃ t y, exec (.exchangeCombine pos e.tag) s = .next t ∧ (plxOf t pos).ents = [y] ∧ y.comb = e.comb + 1 ∧ t.mem = s.mem ∧
        kget y.result e.comb = some ((combineRound e.op (mine.map (·.1)) (theirs.map (·.1))).map fun w =>
          (w, mine.any (·.2) || theirs.any (·.2)))) ∧
    (∃ t, exec (.timeCellSend n) s = .next t ∧ t = { s with plx := t.plx, out := t.out } ∧
      (l < 6 → (odGet s (0x2700 + l) 2 = 2 ∨ odGet s (0x2700 + l) 2 = 3) →
        (halfState s (plxTile l 0) = 3 ∨ (halfState s (plxTile l 0) = 2 ∧ (plxOf s (plxTile l 0)).replay.length < 1024 ∧
          (plxOf s (plxTile l 0)).held = [])) →
        ∃ b, Out.plxCell (plxTile l 0) b ∈ t.out ∧ bytesNat b 0 8 = n % 2 ^ 64 ∧ cellKind b = kindTime)) ∧
    (followsCells s = true →
      ∃ t, exec .systimeHoldover s = .next t ∧ sysTimeState t = 2 ∧ OdKept [(0x2600, 3)] s t ∧
        t = { s with frame := { s.frame with goodCells := 0 }, od := t.od, host := t.host, out := t.out }) ∧
    ∀ (k start stop : Nat) (x : Launch), kget s.launches k = some x → pMulti x.params = true → x.phase = .running →
      (x.tiles.any fun t => t.2.any fun w => w.start == start && w.stop == stop) = true →
      let held := (plxUnits x).any fun p => (plxOf s p).ents.any fun e => e.launch == k && lacks s p e start
      ∃ t y, exec (.windowHoldTest k start stop) s = .next t ∧ kget t.launches k = some y ∧
        y.hold.head? = some (start, if held then stop else start) ∧ t.mem = s.mem ∧
        (held = true → odGet t 0x7600 4 = satAdd (2 ^ 64 - 1) (odGet s 0x7600 4) 1)
end

