-- ==== Sys2Proof/Laws/Map.lean ====
section
/-! SUPPORT. Sparse tables and byte memory: read after write, and the canonical form. -/

namespace Sys2Proof.Machine

variable {α : Type}

/-- A put entry reads back, and every other key reads as before; the table need not be in canonical form. -/
theorem kget_kput (m : KMap α) (k i : Nat) (v : α) : kget (kput m k v) i = if k = i then some v else kget m i := by
  induction m with
  | nil => simp [kput, kget]
  | cons p l ih =>
    obtain ⟨a, x⟩ := p
    unfold kput
    split
    · rename_i e
      subst e
      by_cases h : a = i <;> simp [kget, h]
    · split
      · by_cases h : k = i
        · simp [kget, h]
        · have h1 : ¬ (a = i ∧ i < k) := by omega
          by_cases h2 : i < k <;> by_cases h3 : a = i <;> by_cases h4 : i < a <;> simp [kget, h, h2, h3, h4] <;> omega
      · by_cases h : a = i
        · have h1 : k ≠ i := by omega
          simp [kget, h, h1]
        · by_cases h2 : i < a
          · have h1 : k ≠ i := by omega
            simp [kget, h, h2, h1]
          · simp [kget, h, h2, ih]

@[simp] theorem kget_kput_self (m : KMap α) (k : Nat) (v : α) : kget (kput m k v) k = some v := by simp [kget_kput]

theorem kget_kput_other (m : KMap α) {k i : Nat} (v : α) (h : k ≠ i) : kget (kput m k v) i = kget m i := by simp [kget_kput, h]

@[simp] theorem kgetD_kput_self (m : KMap α) (k : Nat) (v d : α) : kgetD (kput m k v) k d = v := by simp [kgetD]

theorem kgetD_kput_other (m : KMap α) {k i : Nat} (v d : α) (h : k ≠ i) : kgetD (kput m k v) i d = kgetD m i d := by
  simp [kgetD, kget_kput, h]

/-- The canonical form as a chain of rising keys. -/
theorem keysRise_iff (m : KMap α) : keysRise m = true ↔ (m.map Prod.fst).Pairwise (· < ·) := by
  induction m with
  | nil => simp [keysRise]
  | cons p l ih =>
    cases l with
    | nil => simp [keysRise]
    | cons q l =>
      obtain ⟨a, x⟩ := p
      obtain ⟨b, y⟩ := q
      simp only [keysRise, Bool.and_eq_true, decide_eq_true_eq, ih, List.map_cons, List.pairwise_cons, List.mem_cons]
      constructor
      · rintro ⟨h, h1, h2⟩
        refine ⟨?_, h1, h2⟩
        rintro z (rfl | hz)
        · exact h
        · exact lt_trans h (h1 z hz)
      · rintro ⟨h, h1, h2⟩
        exact ⟨h b (Or.inl rfl), h1, h2⟩

theorem keysRise_filter (m : KMap α) (f : Nat × α → Bool) (h : keysRise m = true) : keysRise (m.filter f) = true := by
  rw [keysRise_iff] at *
  exact h.sublist (List.Sublist.map _ List.filter_sublist)

theorem keysRise_kdel (m : KMap α) (k : Nat) (h : keysRise m = true) : keysRise (kdel m k) = true := keysRise_filter m _ h

theorem mem_kput {m : KMap α} {k : Nat} {v : α} {p : Nat × α} (h : p ∈ kput m k v) : p = (k, v) ∨ p ∈ m := by
  induction m with
  | nil => simpa [kput] using h
  | cons q l ih =>
    obtain ⟨a, x⟩ := q
    unfold kput at h
    split at h
    · rcases List.mem_cons.1 h with h | h
      · exact .inl h
      · exact .inr (List.mem_cons_of_mem _ h)
    · split at h
      · rcases List.mem_cons.1 h with h | h
        · exact .inl h
        · exact .inr h
      · rcases List.mem_cons.1 h with h | h
        · exact .inr (h ▸ List.mem_cons_self)
        · exact (ih h).imp id (List.mem_cons_of_mem _)

theorem keysRise_kput (m : KMap α) (k : Nat) (v : α) (h : keysRise m = true) : keysRise (kput m k v) = true := by
  induction m with
  | nil => simp [kput, keysRise]
  | cons p l ih =>
    obtain ⟨a, x⟩ := p
    rw [keysRise_iff, List.map_cons, List.pairwise_cons] at h
    obtain ⟨h1, h2⟩ := h
    rw [keysRise_iff]
    unfold kput
    split
    · rename_i e
      subst e
      exact List.pairwise_cons.2 ⟨h1, h2⟩
    · split
      · rename_i e1 e2
        refine List.pairwise_cons.2 ⟨?_, List.pairwise_cons.2 ⟨h1, h2⟩⟩
        intro z hz
        rcases List.mem_cons.1 hz with rfl | hz
        · exact e2
        · exact lt_trans e2 (h1 z hz)
      · rename_i e1 e2
        refine List.pairwise_cons.2 ⟨?_, (keysRise_iff _).1 (ih ((keysRise_iff _).2 h2))⟩
        intro z hz
        obtain ⟨q, hq, rfl⟩ := List.mem_map.1 hz
        rcases mem_kput hq with rfl | hq
        · exact lt_of_le_of_ne (Nat.le_of_not_lt e2) e1
        · exact h1 _ (List.mem_map_of_mem hq)

/-- A table in canonical form reads an entry exactly where it lists it. -/
theorem kget_eq_some {m : KMap α} (h : keysRise m = true) (k : Nat) (v : α) : kget m k = some v ↔ (k, v) ∈ m := by
  induction m with
  | nil => simp [kget]
  | cons p l ih =>
    obtain ⟨a, x⟩ := p
    rw [keysRise_iff, List.map_cons, List.pairwise_cons] at h
    obtain ⟨h1, h2⟩ := h
    have ih := ih ((keysRise_iff _).2 h2)
    unfold kget
    split
    · rename_i e
      subst e
      constructor
      · intro e; cases e; exact List.mem_cons_self
      · intro e
        rcases List.mem_cons.1 e with e | e
        · cases e; rfl
        · exact absurd (h1 _ (List.mem_map_of_mem e)) (lt_irrefl _)
    · rename_i e
      split
      · rename_i e2
        constructor
        · intro e3; cases e3
        · intro e3
          rcases List.mem_cons.1 e3 with e3 | e3
          · cases e3; exact absurd rfl e
          · exact absurd (lt_trans e2 (h1 _ (List.mem_map_of_mem e3))) (lt_irrefl _)
      · rw [ih, List.mem_cons]
        constructor
        · exact .inr
        · rintro (e3 | e3)
          · cases e3; exact absurd rfl e
          · exact e3

/-- What a filter of a table in canonical form reads. -/
theorem kget_filter {m : KMap α} (h : keysRise m = true) (f : Nat → Bool) (k : Nat) :
    kget (m.filter fun p => f p.1) k = if f k then kget m k else none := by
  apply Option.ext
  intro v
  rw [kget_eq_some (keysRise_filter m _ h), List.mem_filter]
  by_cases hf : f k <;> simp [hf, kget_eq_some h]

theorem kget_kdel {m : KMap α} (h : keysRise m = true) (k i : Nat) : kget (kdel m k) i = if k = i then none else kget m i := by
  rw [kdel, kget_filter h fun a => a != k]
  by_cases e : k = i
  · simp [e]
  · have e2 : i ≠ k := fun x => e x.symm
    simp [e, e2]

/-! ## Memory -/

theorem memWf_iff (m : Memory) : memWf m = true ↔ keysRise m = true ∧ ∀ p ∈ m, p.2 ≠ memEmpty := by
  simp [memWf, List.all_eq_true]

theorem memWf_nil : memWf [] = true := rfl

/-- A filter keeps the canonical form of memory. -/
theorem memWf_filter (m : Memory) (f : Host.Cell → Bool) (h : memWf m = true) : memWf (m.filter f) = true := by
  rw [memWf_iff] at *
  exact ⟨keysRise_filter m f h.1, fun p hp => h.2 p (List.mem_filter.1 hp).1⟩

/-- A write of one byte keeps the canonical form. -/
theorem memWf_memWrite (m : Memory) (a : Nat) (b : Byte) (h : memWf m = true) : memWf (memWrite m a b) = true := by
  unfold memWrite
  split
  · exact memWf_filter m _ h
  · rename_i e
    rw [memWf_iff] at *
    refine ⟨keysRise_kput m a b h.1, fun p hp => ?_⟩
    rcases mem_kput hp with rfl | hp
    · exact e
    · exact h.2 p hp

/-- A store keeps the canonical form. -/
theorem memWf_memStore (m : Memory) (a : Nat) (l : List Byte) (h : memWf m = true) : memWf (memStore m a l) = true := by
  induction l generalizing m a with
  | nil => exact h
  | cons b l ih => exact ih _ _ (memWf_memWrite m a b h)

/-- Clearing a range keeps the canonical form. -/
theorem memWf_memZero (m : Memory) (lo hi : Nat) (h : memWf m = true) : memWf (memZero m lo hi) = true := memWf_filter m _ h

/-- A byte reads back what was written, and every other byte reads as before. -/
theorem memRead_memWrite {m : Memory} (h : memWf m = true) (a i : Nat) (b : Byte) :
    memRead (memWrite m a b) i = if a = i then b else memRead m i := by
  have hk := ((memWf_iff m).1 h).1
  unfold memRead memWrite kgetD
  split
  · rename_i e
    rw [kget_kdel hk]
    by_cases ha : a = i <;> simp [ha, e]
  · rw [kget_kput]
    by_cases ha : a = i <;> simp [ha]

/-- Bytes outside a store read as before. -/
theorem memRead_memStore_outside {m : Memory} (h : memWf m = true) (a i : Nat) (l : List Byte) (hi : i < a ∨ a + l.length ≤ i) :
    memRead (memStore m a l) i = memRead m i := by
  induction l generalizing m a with
  | nil => rfl
  | cons b l ih =>
    simp only [List.length_cons] at hi
    rw [memStore, ih (memWf_memWrite m a b h) (a + 1) (by omega), memRead_memWrite h, if_neg (by omega)]

/-- A store reads back what it wrote. -/
theorem memRead_memStore_inside {m : Memory} (h : memWf m = true) (a j : Nat) (l : List Byte) (hj : j < l.length) :
    memRead (memStore m a l) (a + j) = l[j] := by
  induction l generalizing m a j with
  | nil => simp at hj
  | cons b l ih =>
    cases j with
    | zero =>
      rw [memStore, memRead_memStore_outside (memWf_memWrite m a b h) _ _ _ (by omega), memRead_memWrite h, if_pos (by omega)]
      rfl
    | succ j =>
      have e : a + (j + 1) = a + 1 + j := by omega
      rw [memStore, e, ih (memWf_memWrite m a b h) (a + 1) j (by simpa using hj)]
      rfl

/-- A cleared range reads zero, and every other byte reads as before. -/
theorem memRead_memZero {m : Memory} (h : memWf m = true) (lo hi i : Nat) :
    memRead (memZero m lo hi) i = if lo ≤ i ∧ i < hi then memEmpty else memRead m i := by
  have hk := ((memWf_iff m).1 h).1
  unfold memRead memZero kclear kgetD
  rw [kget_filter hk fun a => !(decide (lo ≤ a) && decide (a < hi))]
  by_cases e : lo ≤ i ∧ i < hi
  · simp [e]
  · rw [if_neg e]
    simp only [not_and, not_lt] at e
    by_cases e2 : lo ≤ i
    · simp [e e2]
    · simp [e2]

end Sys2Proof.Machine
end

