-- ==== Sys2Proof/Laws/State.lean ====
section
/-! SUPPORT. Reading a field of the state after an update of another, and what each shared update may change. -/

namespace Sys2Proof.Machine

/-! ## winSet changes the field win -/

@[simp] theorem winSet_plat (s : State) (a v : Nat) : (winSet s a v).plat = s.plat := rfl
@[simp] theorem winSet_rom (s : State) (a v : Nat) : (winSet s a v).rom = s.rom := rfl
@[simp] theorem winSet_frame (s : State) (a v : Nat) : (winSet s a v).frame = s.frame := rfl
@[simp] theorem winSet_od (s : State) (a v : Nat) : (winSet s a v).od = s.od := rfl
@[simp] theorem winSet_force (s : State) (a v : Nat) : (winSet s a v).force = s.force := rfl
@[simp] theorem winSet_bar0 (s : State) (a v : Nat) : (winSet s a v).bar0 = s.bar0 := rfl
@[simp] theorem winSet_snap (s : State) (a v : Nat) : (winSet s a v).snap = s.snap := rfl
@[simp] theorem winSet_mem (s : State) (a v : Nat) : (winSet s a v).mem = s.mem := rfl
@[simp] theorem winSet_ecc (s : State) (a v : Nat) : (winSet s a v).ecc = s.ecc := rfl
@[simp] theorem winSet_bank (s : State) (a v : Nat) : (winSet s a v).bank = s.bank := rfl
@[simp] theorem winSet_vc3Held (s : State) (a v : Nat) : (winSet s a v).vc3Held = s.vc3Held := rfl
@[simp] theorem winSet_vc3Wait (s : State) (a v : Nat) : (winSet s a v).vc3Wait = s.vc3Wait := rfl
@[simp] theorem winSet_chunks (s : State) (a v : Nat) : (winSet s a v).chunks = s.chunks := rfl
@[simp] theorem winSet_leaves (s : State) (a v : Nat) : (winSet s a v).leaves = s.leaves := rfl
@[simp] theorem winSet_assign (s : State) (a v : Nat) : (winSet s a v).assign = s.assign := rfl
@[simp] theorem winSet_fe (s : State) (a v : Nat) : (winSet s a v).fe = s.fe := rfl
@[simp] theorem winSet_launches (s : State) (a v : Nat) : (winSet s a v).launches = s.launches := rfl
@[simp] theorem winSet_tiles (s : State) (a v : Nat) : (winSet s a v).tiles = s.tiles := rfl
@[simp] theorem winSet_routers (s : State) (a v : Nat) : (winSet s a v).routers = s.routers := rfl
@[simp] theorem winSet_ports (s : State) (a v : Nat) : (winSet s a v).ports = s.ports := rfl
@[simp] theorem winSet_plx (s : State) (a v : Nat) : (winSet s a v).plx = s.plx := rfl
@[simp] theorem winSet_now (s : State) (a v : Nat) : (winSet s a v).now = s.now := rfl
@[simp] theorem winSet_agenda (s : State) (a v : Nat) : (winSet s a v).agenda = s.agenda := rfl
@[simp] theorem winSet_sems (s : State) (a v : Nat) : (winSet s a v).sems = s.sems := rfl
@[simp] theorem winSet_stall (s : State) (a v : Nat) : (winSet s a v).stall = s.stall := rfl
@[simp] theorem winSet_spent (s : State) (a v : Nat) : (winSet s a v).spent = s.spent := rfl
@[simp] theorem winSet_serv (s : State) (a v : Nat) : (winSet s a v).serv = s.serv := rfl
@[simp] theorem winSet_sec (s : State) (a v : Nat) : (winSet s a v).sec = s.sec := rfl
@[simp] theorem winSet_host (s : State) (a v : Nat) : (winSet s a v).host = s.host := rfl
@[simp] theorem winSet_safety (s : State) (a v : Nat) : (winSet s a v).safety = s.safety := rfl
@[simp] theorem winSet_field (s : State) (a v : Nat) : (winSet s a v).field = s.field := rfl
@[simp] theorem winSet_probs (s : State) (a v : Nat) : (winSet s a v).probs = s.probs := rfl
@[simp] theorem winSet_rx (s : State) (a v : Nat) : (winSet s a v).rx = s.rx := rfl
@[simp] theorem winSet_drift (s : State) (a v : Nat) : (winSet s a v).drift = s.drift := rfl
@[simp] theorem winSet_driftRun (s : State) (a v : Nat) : (winSet s a v).driftRun = s.driftRun := rfl
@[simp] theorem winSet_out (s : State) (a v : Nat) : (winSet s a v).out = s.out := rfl
@[simp] theorem winSet_freeCtr (s : State) (a v : Nat) : (winSet s a v).freeCtr = s.freeCtr := rfl
@[simp] theorem winSet_pending (s : State) (a v : Nat) : (winSet s a v).pending = s.pending := rfl

/-! ## barSet changes the field bar0 -/

@[simp] theorem barSet_plat (s : State) (off v : Nat) : (barSet s off v).plat = s.plat := rfl
@[simp] theorem barSet_rom (s : State) (off v : Nat) : (barSet s off v).rom = s.rom := rfl
@[simp] theorem barSet_frame (s : State) (off v : Nat) : (barSet s off v).frame = s.frame := rfl
@[simp] theorem barSet_od (s : State) (off v : Nat) : (barSet s off v).od = s.od := rfl
@[simp] theorem barSet_force (s : State) (off v : Nat) : (barSet s off v).force = s.force := rfl
@[simp] theorem barSet_win (s : State) (off v : Nat) : (barSet s off v).win = s.win := rfl
@[simp] theorem barSet_snap (s : State) (off v : Nat) : (barSet s off v).snap = s.snap := rfl
@[simp] theorem barSet_mem (s : State) (off v : Nat) : (barSet s off v).mem = s.mem := rfl
@[simp] theorem barSet_ecc (s : State) (off v : Nat) : (barSet s off v).ecc = s.ecc := rfl
@[simp] theorem barSet_bank (s : State) (off v : Nat) : (barSet s off v).bank = s.bank := rfl
@[simp] theorem barSet_vc3Held (s : State) (off v : Nat) : (barSet s off v).vc3Held = s.vc3Held := rfl
@[simp] theorem barSet_vc3Wait (s : State) (off v : Nat) : (barSet s off v).vc3Wait = s.vc3Wait := rfl
@[simp] theorem barSet_chunks (s : State) (off v : Nat) : (barSet s off v).chunks = s.chunks := rfl
@[simp] theorem barSet_leaves (s : State) (off v : Nat) : (barSet s off v).leaves = s.leaves := rfl
@[simp] theorem barSet_assign (s : State) (off v : Nat) : (barSet s off v).assign = s.assign := rfl
@[simp] theorem barSet_fe (s : State) (off v : Nat) : (barSet s off v).fe = s.fe := rfl
@[simp] theorem barSet_launches (s : State) (off v : Nat) : (barSet s off v).launches = s.launches := rfl
@[simp] theorem barSet_tiles (s : State) (off v : Nat) : (barSet s off v).tiles = s.tiles := rfl
@[simp] theorem barSet_routers (s : State) (off v : Nat) : (barSet s off v).routers = s.routers := rfl
@[simp] theorem barSet_ports (s : State) (off v : Nat) : (barSet s off v).ports = s.ports := rfl
@[simp] theorem barSet_plx (s : State) (off v : Nat) : (barSet s off v).plx = s.plx := rfl
@[simp] theorem barSet_now (s : State) (off v : Nat) : (barSet s off v).now = s.now := rfl
@[simp] theorem barSet_agenda (s : State) (off v : Nat) : (barSet s off v).agenda = s.agenda := rfl
@[simp] theorem barSet_sems (s : State) (off v : Nat) : (barSet s off v).sems = s.sems := rfl
@[simp] theorem barSet_stall (s : State) (off v : Nat) : (barSet s off v).stall = s.stall := rfl
@[simp] theorem barSet_spent (s : State) (off v : Nat) : (barSet s off v).spent = s.spent := rfl
@[simp] theorem barSet_serv (s : State) (off v : Nat) : (barSet s off v).serv = s.serv := rfl
@[simp] theorem barSet_sec (s : State) (off v : Nat) : (barSet s off v).sec = s.sec := rfl
@[simp] theorem barSet_host (s : State) (off v : Nat) : (barSet s off v).host = s.host := rfl
@[simp] theorem barSet_safety (s : State) (off v : Nat) : (barSet s off v).safety = s.safety := rfl
@[simp] theorem barSet_field (s : State) (off v : Nat) : (barSet s off v).field = s.field := rfl
@[simp] theorem barSet_probs (s : State) (off v : Nat) : (barSet s off v).probs = s.probs := rfl
@[simp] theorem barSet_rx (s : State) (off v : Nat) : (barSet s off v).rx = s.rx := rfl
@[simp] theorem barSet_drift (s : State) (off v : Nat) : (barSet s off v).drift = s.drift := rfl
@[simp] theorem barSet_driftRun (s : State) (off v : Nat) : (barSet s off v).driftRun = s.driftRun := rfl
@[simp] theorem barSet_out (s : State) (off v : Nat) : (barSet s off v).out = s.out := rfl
@[simp] theorem barSet_freeCtr (s : State) (off v : Nat) : (barSet s off v).freeCtr = s.freeCtr := rfl
@[simp] theorem barSet_pending (s : State) (off v : Nat) : (barSet s off v).pending = s.pending := rfl

/-! ## odSet changes the field od -/

@[simp] theorem odSet_plat (s : State) (index sub v : Nat) : (odSet s index sub v).plat = s.plat := rfl
@[simp] theorem odSet_rom (s : State) (index sub v : Nat) : (odSet s index sub v).rom = s.rom := rfl
@[simp] theorem odSet_frame (s : State) (index sub v : Nat) : (odSet s index sub v).frame = s.frame := rfl
@[simp] theorem odSet_force (s : State) (index sub v : Nat) : (odSet s index sub v).force = s.force := rfl
@[simp] theorem odSet_bar0 (s : State) (index sub v : Nat) : (odSet s index sub v).bar0 = s.bar0 := rfl
@[simp] theorem odSet_win (s : State) (index sub v : Nat) : (odSet s index sub v).win = s.win := rfl
@[simp] theorem odSet_snap (s : State) (index sub v : Nat) : (odSet s index sub v).snap = s.snap := rfl
@[simp] theorem odSet_mem (s : State) (index sub v : Nat) : (odSet s index sub v).mem = s.mem := rfl
@[simp] theorem odSet_ecc (s : State) (index sub v : Nat) : (odSet s index sub v).ecc = s.ecc := rfl
@[simp] theorem odSet_bank (s : State) (index sub v : Nat) : (odSet s index sub v).bank = s.bank := rfl
@[simp] theorem odSet_vc3Held (s : State) (index sub v : Nat) : (odSet s index sub v).vc3Held = s.vc3Held := rfl
@[simp] theorem odSet_vc3Wait (s : State) (index sub v : Nat) : (odSet s index sub v).vc3Wait = s.vc3Wait := rfl
@[simp] theorem odSet_chunks (s : State) (index sub v : Nat) : (odSet s index sub v).chunks = s.chunks := rfl
@[simp] theorem odSet_leaves (s : State) (index sub v : Nat) : (odSet s index sub v).leaves = s.leaves := rfl
@[simp] theorem odSet_assign (s : State) (index sub v : Nat) : (odSet s index sub v).assign = s.assign := rfl
@[simp] theorem odSet_fe (s : State) (index sub v : Nat) : (odSet s index sub v).fe = s.fe := rfl
@[simp] theorem odSet_launches (s : State) (index sub v : Nat) : (odSet s index sub v).launches = s.launches := rfl
@[simp] theorem odSet_tiles (s : State) (index sub v : Nat) : (odSet s index sub v).tiles = s.tiles := rfl
@[simp] theorem odSet_routers (s : State) (index sub v : Nat) : (odSet s index sub v).routers = s.routers := rfl
@[simp] theorem odSet_ports (s : State) (index sub v : Nat) : (odSet s index sub v).ports = s.ports := rfl
@[simp] theorem odSet_plx (s : State) (index sub v : Nat) : (odSet s index sub v).plx = s.plx := rfl
@[simp] theorem odSet_now (s : State) (index sub v : Nat) : (odSet s index sub v).now = s.now := rfl
@[simp] theorem odSet_agenda (s : State) (index sub v : Nat) : (odSet s index sub v).agenda = s.agenda := rfl
@[simp] theorem odSet_sems (s : State) (index sub v : Nat) : (odSet s index sub v).sems = s.sems := rfl
@[simp] theorem odSet_stall (s : State) (index sub v : Nat) : (odSet s index sub v).stall = s.stall := rfl
@[simp] theorem odSet_spent (s : State) (index sub v : Nat) : (odSet s index sub v).spent = s.spent := rfl
@[simp] theorem odSet_serv (s : State) (index sub v : Nat) : (odSet s index sub v).serv = s.serv := rfl
@[simp] theorem odSet_sec (s : State) (index sub v : Nat) : (odSet s index sub v).sec = s.sec := rfl
@[simp] theorem odSet_host (s : State) (index sub v : Nat) : (odSet s index sub v).host = s.host := rfl
@[simp] theorem odSet_safety (s : State) (index sub v : Nat) : (odSet s index sub v).safety = s.safety := rfl
@[simp] theorem odSet_field (s : State) (index sub v : Nat) : (odSet s index sub v).field = s.field := rfl
@[simp] theorem odSet_probs (s : State) (index sub v : Nat) : (odSet s index sub v).probs = s.probs := rfl
@[simp] theorem odSet_rx (s : State) (index sub v : Nat) : (odSet s index sub v).rx = s.rx := rfl
@[simp] theorem odSet_drift (s : State) (index sub v : Nat) : (odSet s index sub v).drift = s.drift := rfl
@[simp] theorem odSet_driftRun (s : State) (index sub v : Nat) : (odSet s index sub v).driftRun = s.driftRun := rfl
@[simp] theorem odSet_out (s : State) (index sub v : Nat) : (odSet s index sub v).out = s.out := rfl
@[simp] theorem odSet_freeCtr (s : State) (index sub v : Nat) : (odSet s index sub v).freeCtr = s.freeCtr := rfl
@[simp] theorem odSet_pending (s : State) (index sub v : Nat) : (odSet s index sub v).pending = s.pending := rfl

/-! ## setBankAux changes the field bank -/

@[simp] theorem setBankAux_plat (b : Nat) (x : BankAux) (s : State) : (setBankAux b x s).plat = s.plat := rfl
@[simp] theorem setBankAux_rom (b : Nat) (x : BankAux) (s : State) : (setBankAux b x s).rom = s.rom := rfl
@[simp] theorem setBankAux_frame (b : Nat) (x : BankAux) (s : State) : (setBankAux b x s).frame = s.frame := rfl
@[simp] theorem setBankAux_od (b : Nat) (x : BankAux) (s : State) : (setBankAux b x s).od = s.od := rfl
@[simp] theorem setBankAux_force (b : Nat) (x : BankAux) (s : State) : (setBankAux b x s).force = s.force := rfl
@[simp] theorem setBankAux_bar0 (b : Nat) (x : BankAux) (s : State) : (setBankAux b x s).bar0 = s.bar0 := rfl
@[simp] theorem setBankAux_win (b : Nat) (x : BankAux) (s : State) : (setBankAux b x s).win = s.win := rfl
@[simp] theorem setBankAux_snap (b : Nat) (x : BankAux) (s : State) : (setBankAux b x s).snap = s.snap := rfl
@[simp] theorem setBankAux_mem (b : Nat) (x : BankAux) (s : State) : (setBankAux b x s).mem = s.mem := rfl
@[simp] theorem setBankAux_ecc (b : Nat) (x : BankAux) (s : State) : (setBankAux b x s).ecc = s.ecc := rfl
@[simp] theorem setBankAux_vc3Held (b : Nat) (x : BankAux) (s : State) : (setBankAux b x s).vc3Held = s.vc3Held := rfl
@[simp] theorem setBankAux_vc3Wait (b : Nat) (x : BankAux) (s : State) : (setBankAux b x s).vc3Wait = s.vc3Wait := rfl
@[simp] theorem setBankAux_chunks (b : Nat) (x : BankAux) (s : State) : (setBankAux b x s).chunks = s.chunks := rfl
@[simp] theorem setBankAux_leaves (b : Nat) (x : BankAux) (s : State) : (setBankAux b x s).leaves = s.leaves := rfl
@[simp] theorem setBankAux_assign (b : Nat) (x : BankAux) (s : State) : (setBankAux b x s).assign = s.assign := rfl
@[simp] theorem setBankAux_fe (b : Nat) (x : BankAux) (s : State) : (setBankAux b x s).fe = s.fe := rfl
@[simp] theorem setBankAux_launches (b : Nat) (x : BankAux) (s : State) : (setBankAux b x s).launches = s.launches := rfl
@[simp] theorem setBankAux_tiles (b : Nat) (x : BankAux) (s : State) : (setBankAux b x s).tiles = s.tiles := rfl
@[simp] theorem setBankAux_routers (b : Nat) (x : BankAux) (s : State) : (setBankAux b x s).routers = s.routers := rfl
@[simp] theorem setBankAux_ports (b : Nat) (x : BankAux) (s : State) : (setBankAux b x s).ports = s.ports := rfl
@[simp] theorem setBankAux_plx (b : Nat) (x : BankAux) (s : State) : (setBankAux b x s).plx = s.plx := rfl
@[simp] theorem setBankAux_now (b : Nat) (x : BankAux) (s : State) : (setBankAux b x s).now = s.now := rfl
@[simp] theorem setBankAux_agenda (b : Nat) (x : BankAux) (s : State) : (setBankAux b x s).agenda = s.agenda := rfl
@[simp] theorem setBankAux_sems (b : Nat) (x : BankAux) (s : State) : (setBankAux b x s).sems = s.sems := rfl
@[simp] theorem setBankAux_stall (b : Nat) (x : BankAux) (s : State) : (setBankAux b x s).stall = s.stall := rfl
@[simp] theorem setBankAux_spent (b : Nat) (x : BankAux) (s : State) : (setBankAux b x s).spent = s.spent := rfl
@[simp] theorem setBankAux_serv (b : Nat) (x : BankAux) (s : State) : (setBankAux b x s).serv = s.serv := rfl
@[simp] theorem setBankAux_sec (b : Nat) (x : BankAux) (s : State) : (setBankAux b x s).sec = s.sec := rfl
@[simp] theorem setBankAux_host (b : Nat) (x : BankAux) (s : State) : (setBankAux b x s).host = s.host := rfl
@[simp] theorem setBankAux_safety (b : Nat) (x : BankAux) (s : State) : (setBankAux b x s).safety = s.safety := rfl
@[simp] theorem setBankAux_field (b : Nat) (x : BankAux) (s : State) : (setBankAux b x s).field = s.field := rfl
@[simp] theorem setBankAux_probs (b : Nat) (x : BankAux) (s : State) : (setBankAux b x s).probs = s.probs := rfl
@[simp] theorem setBankAux_rx (b : Nat) (x : BankAux) (s : State) : (setBankAux b x s).rx = s.rx := rfl
@[simp] theorem setBankAux_drift (b : Nat) (x : BankAux) (s : State) : (setBankAux b x s).drift = s.drift := rfl
@[simp] theorem setBankAux_driftRun (b : Nat) (x : BankAux) (s : State) : (setBankAux b x s).driftRun = s.driftRun := rfl
@[simp] theorem setBankAux_out (b : Nat) (x : BankAux) (s : State) : (setBankAux b x s).out = s.out := rfl
@[simp] theorem setBankAux_freeCtr (b : Nat) (x : BankAux) (s : State) : (setBankAux b x s).freeCtr = s.freeCtr := rfl
@[simp] theorem setBankAux_pending (b : Nat) (x : BankAux) (s : State) : (setBankAux b x s).pending = s.pending := rfl

/-! ## budgetAdd changes the field spent -/

@[simp] theorem budgetAdd_plat (g sub n : Nat) (s : State) : (budgetAdd g sub n s).plat = s.plat := rfl
@[simp] theorem budgetAdd_rom (g sub n : Nat) (s : State) : (budgetAdd g sub n s).rom = s.rom := rfl
@[simp] theorem budgetAdd_frame (g sub n : Nat) (s : State) : (budgetAdd g sub n s).frame = s.frame := rfl
@[simp] theorem budgetAdd_od (g sub n : Nat) (s : State) : (budgetAdd g sub n s).od = s.od := rfl
@[simp] theorem budgetAdd_force (g sub n : Nat) (s : State) : (budgetAdd g sub n s).force = s.force := rfl
@[simp] theorem budgetAdd_bar0 (g sub n : Nat) (s : State) : (budgetAdd g sub n s).bar0 = s.bar0 := rfl
@[simp] theorem budgetAdd_win (g sub n : Nat) (s : State) : (budgetAdd g sub n s).win = s.win := rfl
@[simp] theorem budgetAdd_snap (g sub n : Nat) (s : State) : (budgetAdd g sub n s).snap = s.snap := rfl
@[simp] theorem budgetAdd_mem (g sub n : Nat) (s : State) : (budgetAdd g sub n s).mem = s.mem := rfl
@[simp] theorem budgetAdd_ecc (g sub n : Nat) (s : State) : (budgetAdd g sub n s).ecc = s.ecc := rfl
@[simp] theorem budgetAdd_bank (g sub n : Nat) (s : State) : (budgetAdd g sub n s).bank = s.bank := rfl
@[simp] theorem budgetAdd_vc3Held (g sub n : Nat) (s : State) : (budgetAdd g sub n s).vc3Held = s.vc3Held := rfl
@[simp] theorem budgetAdd_vc3Wait (g sub n : Nat) (s : State) : (budgetAdd g sub n s).vc3Wait = s.vc3Wait := rfl
@[simp] theorem budgetAdd_chunks (g sub n : Nat) (s : State) : (budgetAdd g sub n s).chunks = s.chunks := rfl
@[simp] theorem budgetAdd_leaves (g sub n : Nat) (s : State) : (budgetAdd g sub n s).leaves = s.leaves := rfl
@[simp] theorem budgetAdd_assign (g sub n : Nat) (s : State) : (budgetAdd g sub n s).assign = s.assign := rfl
@[simp] theorem budgetAdd_fe (g sub n : Nat) (s : State) : (budgetAdd g sub n s).fe = s.fe := rfl
@[simp] theorem budgetAdd_launches (g sub n : Nat) (s : State) : (budgetAdd g sub n s).launches = s.launches := rfl
@[simp] theorem budgetAdd_tiles (g sub n : Nat) (s : State) : (budgetAdd g sub n s).tiles = s.tiles := rfl
@[simp] theorem budgetAdd_routers (g sub n : Nat) (s : State) : (budgetAdd g sub n s).routers = s.routers := rfl
@[simp] theorem budgetAdd_ports (g sub n : Nat) (s : State) : (budgetAdd g sub n s).ports = s.ports := rfl
@[simp] theorem budgetAdd_plx (g sub n : Nat) (s : State) : (budgetAdd g sub n s).plx = s.plx := rfl
@[simp] theorem budgetAdd_now (g sub n : Nat) (s : State) : (budgetAdd g sub n s).now = s.now := rfl
@[simp] theorem budgetAdd_agenda (g sub n : Nat) (s : State) : (budgetAdd g sub n s).agenda = s.agenda := rfl
@[simp] theorem budgetAdd_sems (g sub n : Nat) (s : State) : (budgetAdd g sub n s).sems = s.sems := rfl
@[simp] theorem budgetAdd_stall (g sub n : Nat) (s : State) : (budgetAdd g sub n s).stall = s.stall := rfl
@[simp] theorem budgetAdd_serv (g sub n : Nat) (s : State) : (budgetAdd g sub n s).serv = s.serv := rfl
@[simp] theorem budgetAdd_sec (g sub n : Nat) (s : State) : (budgetAdd g sub n s).sec = s.sec := rfl
@[simp] theorem budgetAdd_host (g sub n : Nat) (s : State) : (budgetAdd g sub n s).host = s.host := rfl
@[simp] theorem budgetAdd_safety (g sub n : Nat) (s : State) : (budgetAdd g sub n s).safety = s.safety := rfl
@[simp] theorem budgetAdd_field (g sub n : Nat) (s : State) : (budgetAdd g sub n s).field = s.field := rfl
@[simp] theorem budgetAdd_probs (g sub n : Nat) (s : State) : (budgetAdd g sub n s).probs = s.probs := rfl
@[simp] theorem budgetAdd_rx (g sub n : Nat) (s : State) : (budgetAdd g sub n s).rx = s.rx := rfl
@[simp] theorem budgetAdd_drift (g sub n : Nat) (s : State) : (budgetAdd g sub n s).drift = s.drift := rfl
@[simp] theorem budgetAdd_driftRun (g sub n : Nat) (s : State) : (budgetAdd g sub n s).driftRun = s.driftRun := rfl
@[simp] theorem budgetAdd_out (g sub n : Nat) (s : State) : (budgetAdd g sub n s).out = s.out := rfl
@[simp] theorem budgetAdd_freeCtr (g sub n : Nat) (s : State) : (budgetAdd g sub n s).freeCtr = s.freeCtr := rfl
@[simp] theorem budgetAdd_pending (g sub n : Nat) (s : State) : (budgetAdd g sub n s).pending = s.pending := rfl

/-! ## Registers and entries: read after write -/

theorem winGet_winSet (s : State) (a b v : Nat) :
    winGet (winSet s a v) b = if regHome a = regHome b then v % 2 ^ 32 else winGet s b := by
  by_cases h : regHome a = regHome b <;> simp [winGet, winSet, kget_kput, h]

@[simp] theorem winGet_winSet_self (s : State) (a v : Nat) : winGet (winSet s a v) a = v % 2 ^ 32 := by simp [winGet_winSet]

theorem barGet_barSet (s : State) (a b v : Nat) : barGet (barSet s a v) b = if a = b then v % 2 ^ 32 else barGet s b := by
  by_cases h : a = b
  · simp [barGet, barSet, h]
  · simp [barGet, barSet, kget_kput, h]

@[simp] theorem barGet_barSet_self (s : State) (a v : Nat) : barGet (barSet s a v) a = v % 2 ^ 32 := by simp [barGet_barSet]

/-- The value stored for an entry's key. -/
theorem odGet_odSet (s : State) (i j k l v : Nat) :
    odGet (odSet s i j v) k l = if odKey i j = odKey k l then v else odGet s k l := by
  by_cases h : odKey i j = odKey k l
  · simp [odGet, odSet, h]
  · simp [odGet, odSet, kget_kput, h]

@[simp] theorem odGet_odSet_self (s : State) (i j v : Nat) : odGet (odSet s i j v) i j = v := by simp [odGet_odSet]

/-- Two entries share a key only where they are one entry, sub-indices being 8 bits wide. -/
theorem odKey_inj {i j k l : Nat} (hj : j < 256) (hl : l < 256) : odKey i j = odKey k l ↔ i = k ∧ j = l := by
  unfold odKey
  omega

/-! ## Messages and interrupts change the host link and what is sent, nothing else -/

/-- What may differ after an interrupt: the host link and the messages sent. -/
def HostOnly (s t : State) : Prop := t = { s with host := t.host, out := t.out }

theorem HostOnly.refl (s : State) : HostOnly s s := rfl

theorem HostOnly.trans {s t u : State} (h1 : HostOnly s t) (h2 : HostOnly t u) : HostOnly s u := by
  unfold HostOnly at *
  rw [h2, h1]

theorem hostOnly_msixSend (s : State) (v : Nat) : HostOnly s (msixSend s v) := by
  unfold msixSend HostOnly
  split <;> rfl

/-- A fold of steps of which each changes only the host link. -/
theorem hostOnly_foldl {α : Type} (f : State → α → State) (h : ∀ s x, HostOnly s (f s x)) (l : List α) (s : State) :
    HostOnly s (l.foldl f s) := by
  induction l generalizing s with
  | nil => exact HostOnly.refl s
  | cons x l ih => exact (h s x).trans (ih _)

theorem hostOnly_vectorStep (s : State) : HostOnly s (vectorStep s) := by
  unfold vectorStep
  refine HostOnly.trans (t := { s with host := { s.host with vpend := vpendNow s, pba := s.host.pba &&& vpendNow s } }) rfl ?_
  refine hostOnly_foldl _ (fun t v => ?_) _ _
  split
  · exact hostOnly_msixSend t v
  · exact HostOnly.refl t

theorem hostOnly_msixFlush (s : State) : HostOnly s (msixFlush s) := by
  refine hostOnly_foldl _ (fun t v => ?_) _ _
  split
  · exact hostOnly_msixSend t v
  · exact HostOnly.refl t

theorem hostOnly_raise (n : Nat) (s : State) : HostOnly s (raise n s) :=
  HostOnly.trans (t := { s with host := { s.host with irq := kput s.host.irq n (satAdd 255 (kgetD s.host.irq n 0) 1) } }) rfl
    (hostOnly_vectorStep _)

/-- An arrival as an update of two fields. -/
theorem raise_eq (n : Nat) (s : State) : raise n s = { s with host := (raise n s).host, out := (raise n s).out } := hostOnly_raise n s

theorem msixSend_irq (s : State) (v : Nat) : (msixSend s v).host.irq = s.host.irq := by
  unfold msixSend
  split <;> rfl

theorem irq_foldl {α : Type} (f : State → α → State) (h : ∀ s x, (f s x).host.irq = s.host.irq) (l : List α) (s : State) :
    (l.foldl f s).host.irq = s.host.irq := by
  induction l generalizing s with
  | nil => rfl
  | cons x l ih => exact (ih _).trans (h s x)

theorem vectorStep_irq (s : State) : (vectorStep s).host.irq = s.host.irq := by
  unfold vectorStep
  refine (irq_foldl _ (fun t v => ?_) _ _).trans rfl
  split
  · exact msixSend_irq t v
  · rfl

/-- An arrival adds 1 to its source's count, which stops at 255, and changes no other source's (R476). -/
theorem raise_irq (n : Nat) (s : State) :
    (raise n s).host.irq = kput s.host.irq n (satAdd 255 (kgetD s.host.irq n 0) 1) := vectorStep_irq _

@[simp] theorem irqPending_raise_self (n : Nat) (s : State) : irqPending (raise n s) n = true := by
  unfold irqPending
  rw [raise_irq]
  simp

theorem irqPending_raise (n k : Nat) (s : State) : irqPending (raise n s) k = (decide (n = k) || irqPending s k) := by
  unfold irqPending
  rw [raise_irq, kget_kput]
  by_cases h : n = k <;> simp [h]

/-! ## An arrival leaves every other field -/

@[simp] theorem raise_plat (n : Nat) (s : State) : (raise n s).plat = s.plat := by rw [raise_eq]
@[simp] theorem raise_frame (n : Nat) (s : State) : (raise n s).frame = s.frame := by rw [raise_eq]
@[simp] theorem raise_od (n : Nat) (s : State) : (raise n s).od = s.od := by rw [raise_eq]
@[simp] theorem raise_force (n : Nat) (s : State) : (raise n s).force = s.force := by rw [raise_eq]
@[simp] theorem raise_bar0 (n : Nat) (s : State) : (raise n s).bar0 = s.bar0 := by rw [raise_eq]
@[simp] theorem raise_win (n : Nat) (s : State) : (raise n s).win = s.win := by rw [raise_eq]
@[simp] theorem raise_snap (n : Nat) (s : State) : (raise n s).snap = s.snap := by rw [raise_eq]
@[simp] theorem raise_mem (n : Nat) (s : State) : (raise n s).mem = s.mem := by rw [raise_eq]
@[simp] theorem raise_ecc (n : Nat) (s : State) : (raise n s).ecc = s.ecc := by rw [raise_eq]
@[simp] theorem raise_bank (n : Nat) (s : State) : (raise n s).bank = s.bank := by rw [raise_eq]
@[simp] theorem raise_vc3Held (n : Nat) (s : State) : (raise n s).vc3Held = s.vc3Held := by rw [raise_eq]
@[simp] theorem raise_vc3Wait (n : Nat) (s : State) : (raise n s).vc3Wait = s.vc3Wait := by rw [raise_eq]
@[simp] theorem raise_chunks (n : Nat) (s : State) : (raise n s).chunks = s.chunks := by rw [raise_eq]
@[simp] theorem raise_leaves (n : Nat) (s : State) : (raise n s).leaves = s.leaves := by rw [raise_eq]
@[simp] theorem raise_assign (n : Nat) (s : State) : (raise n s).assign = s.assign := by rw [raise_eq]
@[simp] theorem raise_fe (n : Nat) (s : State) : (raise n s).fe = s.fe := by rw [raise_eq]
@[simp] theorem raise_launches (n : Nat) (s : State) : (raise n s).launches = s.launches := by rw [raise_eq]
@[simp] theorem raise_tiles (n : Nat) (s : State) : (raise n s).tiles = s.tiles := by rw [raise_eq]
@[simp] theorem raise_routers (n : Nat) (s : State) : (raise n s).routers = s.routers := by rw [raise_eq]
@[simp] theorem raise_ports (n : Nat) (s : State) : (raise n s).ports = s.ports := by rw [raise_eq]
@[simp] theorem raise_plx (n : Nat) (s : State) : (raise n s).plx = s.plx := by rw [raise_eq]
@[simp] theorem raise_now (n : Nat) (s : State) : (raise n s).now = s.now := by rw [raise_eq]
@[simp] theorem raise_agenda (n : Nat) (s : State) : (raise n s).agenda = s.agenda := by rw [raise_eq]
@[simp] theorem raise_sems (n : Nat) (s : State) : (raise n s).sems = s.sems := by rw [raise_eq]
@[simp] theorem raise_stall (n : Nat) (s : State) : (raise n s).stall = s.stall := by rw [raise_eq]
@[simp] theorem raise_spent (n : Nat) (s : State) : (raise n s).spent = s.spent := by rw [raise_eq]
@[simp] theorem raise_serv (n : Nat) (s : State) : (raise n s).serv = s.serv := by rw [raise_eq]
@[simp] theorem raise_sec (n : Nat) (s : State) : (raise n s).sec = s.sec := by rw [raise_eq]
@[simp] theorem raise_safety (n : Nat) (s : State) : (raise n s).safety = s.safety := by rw [raise_eq]
@[simp] theorem raise_field (n : Nat) (s : State) : (raise n s).field = s.field := by rw [raise_eq]
@[simp] theorem raise_probs (n : Nat) (s : State) : (raise n s).probs = s.probs := by rw [raise_eq]
@[simp] theorem raise_rx (n : Nat) (s : State) : (raise n s).rx = s.rx := by rw [raise_eq]
@[simp] theorem raise_drift (n : Nat) (s : State) : (raise n s).drift = s.drift := by rw [raise_eq]
@[simp] theorem raise_driftRun (n : Nat) (s : State) : (raise n s).driftRun = s.driftRun := by rw [raise_eq]
@[simp] theorem raise_freeCtr (n : Nat) (s : State) : (raise n s).freeCtr = s.freeCtr := by rw [raise_eq]
@[simp] theorem raise_pending (n : Nat) (s : State) : (raise n s).pending = s.pending := by rw [raise_eq]

@[simp] theorem winGet_raise (n a : Nat) (s : State) : winGet (raise n s) a = winGet s a := by simp [winGet]
@[simp] theorem odGet_raise (n i j : Nat) (s : State) : odGet (raise n s) i j = odGet s i j := by simp [odGet]
@[simp] theorem barGet_raise (n a : Nat) (s : State) : barGet (raise n s) a = barGet s a := by simp [barGet]
@[simp] theorem odGet_winSet (a v i j : Nat) (s : State) : odGet (winSet s a v) i j = odGet s i j := rfl
@[simp] theorem odGet_barSet (a v i j : Nat) (s : State) : odGet (barSet s a v) i j = odGet s i j := rfl
@[simp] theorem winGet_odSet (a v i j : Nat) (s : State) : winGet (odSet s i j v) a = winGet s a := rfl
@[simp] theorem winGet_barSet (a b v : Nat) (s : State) : winGet (barSet s b v) a = winGet s a := rfl
@[simp] theorem barGet_odSet (a v i j : Nat) (s : State) : barGet (odSet s i j v) a = barGet s a := rfl
@[simp] theorem barGet_winSet (a b v : Nat) (s : State) : barGet (winSet s b v) a = barGet s a := rfl

end Sys2Proof.Machine
end

