-- ==== Sys2Proof/Laws/Tile.lean ====
section
/-! SUPPORT. What issue and the update of a tile do, said once. -/

namespace Sys2Proof.Machine

/-! ## One tile -/

@[simp] theorem tileOf_setTile_self (pos : Nat) (u : Tile) (s : State) : tileOf (setTile pos u s) pos = u := by simp [tileOf, setTile]

theorem tileOf_setTile_other {pos q : Nat} (u : Tile) (s : State) (h : pos ≠ q) : tileOf (setTile pos u s) q = tileOf s q := by
  simp [tileOf, setTile, kgetD_kput_other, h]

@[simp] theorem tileOf_adjTile_self (pos : Nat) (f : Tile → Tile) (s : State) : tileOf (adjTile pos f s) pos = f (tileOf s pos) := by
  simp [adjTile]

@[simp] theorem tileOf_winSet (s : State) (a v pos : Nat) : tileOf (winSet s a v) pos = tileOf s pos := rfl

@[simp] theorem tileOf_winCount64 (s : State) (a d pos : Nat) : tileOf (winCount64 s a d) pos = tileOf s pos := rfl

@[simp] theorem tileOf_raise (n pos : Nat) (s : State) : tileOf (raise n s) pos = tileOf s pos := by simp [tileOf]

/-- An update of one tile changes that tile. -/
theorem adjTile_eq (pos : Nat) (f : Tile → Tile) (s : State) : adjTile pos f s = { s with tiles := kput s.tiles pos (f (tileOf s pos)) } := rfl

/-! ## Issue -/

/-- A count of issue leaves the tile. -/
@[simp] theorem tileOf_countIssue (c : Ctx) (s : State) (pos : Nat) : tileOf (countIssue c s) pos = tileOf s pos := by
  unfold countIssue
  dsimp only
  split <;> rfl

/-- An instruction that has issued leaves the tile as `tileAfter` says. -/
@[simp] theorem tileOf_stepOn (c : Ctx) (cost : Nat) (s : State) : tileOf (stepOn c cost s) c.pos = tileAfter c cost (tileOf s c.pos) := by
  unfold stepOn
  rw [tileOf_adjTile_self, tileOf_countIssue]
  rfl

/-- A context names its tile, and its tc or, in the management complex, the present; it is free exactly there (R261). -/
theorem ctxOf_spec {s : State} {pos tc : Nat} {c : Ctx} (h : ctxOf s pos tc = some c) :
    c.pos = pos ∧ c.free = mgmtTiles.contains pos ∧ (c.free = false → c.tc = tc) ∧ (c.free = true → c.tc = s.now ∧ c.dry = 0) := by
  unfold ctxOf at h
  dsimp only at h
  split at h
  · rename_i hm
    split at h
    · injection h with h
      subst h
      exact ⟨rfl, hm.symm, fun e => absurd e (by simp), fun _ => ⟨rfl, rfl⟩⟩
    · exact absurd h (by simp)
  · rename_i hm
    have hf : mgmtTiles.contains pos = false := by simpa using hm
    repeat' split at h
    all_goals first
      | (injection h with h; subst h; exact ⟨rfl, hf.symm, fun _ => rfl, fun e => absurd e (by simp)⟩)
      | exact absurd h (by simp)

/-- What a fetch finds to run is the context of the issue. -/
theorem fetch_ctx {s : State} {pos tc opc r : Nat} {c : Ctx} (h : fetch s pos tc opc r = .go c) : ctxOf s pos tc = some c := by
  unfold fetch at h
  split at h
  · exact absurd h (by simp)
  · rename_i d hd
    have e : c = d := by
      dsimp only at h
      repeat' split at h
      all_goals first
        | (injection h with h; exact h.symm)
        | exact absurd h (by simp)
    exact e ▸ hd

/-- An instruction that issues does so at its tile, outside plan time in the management complex and in its tc elsewhere. -/
theorem Issues.spec {s : State} {pos tc opc r : Nat} {c : Ctx} (h : Issues s pos tc opc r c) :
    c.pos = pos ∧ c.free = mgmtTiles.contains pos ∧ (c.free = false → c.tc = tc) :=
  let e := ctxOf_spec (fetch_ctx h.2.2.1)
  ⟨e.1, e.2.1, e.2.2.1⟩

/-- An instruction that issues runs its own meaning; what the management complex begins is done at once. -/
theorem runInstr_go {s : State} {pos tc opc r : Nat} {c : Ctx} (h : Issues s pos tc opc r c) (go : Ctx → State → State) :
    runInstr s pos tc opc r go = .next (if c.free then settle (go c (reached s pos tc)) else go c (reached s pos tc)) := by
  obtain ⟨hp, hn, hf, hi⟩ := h
  have hc := (ctxOf_spec (fetch_ctx hf)).2.1
  unfold runInstr
  rw [if_neg]
  · dsimp only
    change (match fetch (reached s pos tc) pos tc opc r with
      | .idle => _
      | .illegal c => _
      | .go c => _) = _
    rw [hf]
    dsimp only
    by_cases h : c.free = true
    · rw [if_pos h, if_pos h]
      rfl
    · rw [if_neg h, if_neg h]
      exact if_pos (hi (by simpa using h))
  · rintro (h | ⟨h, h2⟩)
    · omega
    · have := hn (by simpa using h2)
      omega

/-! ## What is under way -/

/-- An act takes its place in the agenda and changes nothing else. -/
theorem sched_eq (c : Ctx) (d : Nat) (a : Act) (s : State) : sched c d a s = { s with agenda := (sched c d a s).agenda } := rfl

theorem underWay_eq (c : Ctx) (l : List (Nat × Act)) (s : State) : underWay c l s = { s with agenda := (underWay c l s).agenda } := by
  induction l generalizing s with
  | nil => rfl
  | cons x l ih =>
    change underWay c l (sched c x.1 x.2 s) = _
    rw [ih]
    rfl

@[simp] theorem tileOf_underWay (c : Ctx) (l : List (Nat × Act)) (s : State) (pos : Nat) : tileOf (underWay c l s) pos = tileOf s pos := by
  rw [underWay_eq]
  rfl

/-! ## Frames -/

theorem TileFrame.refl (pos : Nat) (s : State) : TileFrame pos s s := ⟨rfl, fun _ _ => rfl, rfl, fun _ _ => rfl⟩

theorem TileFrame.trans {pos : Nat} {s t u : State} (h1 : TileFrame pos s t) (h2 : TileFrame pos t u) : TileFrame pos s u := by
  obtain ⟨a1, b1, c1, d1⟩ := h1
  obtain ⟨a2, b2, c2, d2⟩ := h2
  refine ⟨?_, fun q hq => (b2 q hq).trans (b1 q hq), ?_, fun a ha => (d2 a ha).trans (d1 a ha)⟩
  · rw [a2, a1]
  · rw [c2, c1]

theorem tileFrame_adjTile (pos : Nat) (f : Tile → Tile) (s : State) : TileFrame pos s (adjTile pos f s) := by
  refine ⟨rfl, fun q hq => ?_, rfl, fun _ _ => rfl⟩
  rw [adjTile_eq]
  exact kget_kput_other _ _ (Ne.symm hq)

/-- A register of the tile's own window that is no clock or Helmet register changes nothing outside the window. -/
theorem tileFrame_winSet (pos a v : Nat) (s : State) (h1 : regHome a = a) (h2 : tileBase pos ≤ a) (h3 : a < tileBase pos + 0x100000) :
    TileFrame pos s (winSet s a v) := by
  refine ⟨rfl, fun _ _ => rfl, rfl, fun b hb => ?_⟩
  unfold winSet
  rw [h1]
  exact kget_kput_other _ _ (by omega)

/-- A register of a tile's window is its own home, but for the clock and Helmet registers that two port tiles show. -/
theorem regHome_tile (p off : Nat) (h : off < 0x100000) (h2 : off < 0xF1000 ∨ 0xF1020 ≤ off ∨ (p ≠ 1140 ∧ p ≠ 364)) :
    regHome (tileBase p + off) = tileBase p + off := by
  unfold regHome tileBase
  rw [if_neg (by omega), if_neg (by omega)]

/-- A count in the tile's own window. -/
theorem tileFrame_winCount64 (pos off d : Nat) (s : State) (h : off + 4 < 0x100000)
    (h2 : off + 4 < 0xF1000 ∨ 0xF1020 ≤ off ∨ (pos ≠ 1140 ∧ pos ≠ 364)) : TileFrame pos s (winCount64 s (tileBase pos + off) d) := by
  have e1 := regHome_tile pos off (by omega) (by omega)
  have e2 := regHome_tile pos (off + 4) (by omega) (by omega)
  unfold winCount64
  dsimp only
  rw [Nat.add_assoc]
  exact (tileFrame_winSet pos _ _ _ e1 (by omega) (by omega)).trans (tileFrame_winSet pos _ _ _ e2 (by omega) (by omega))

/-- Issue changes the tile, its counters and its launch's progress. -/
theorem tileFrame_countIssue (c : Ctx) (s : State) : TileFrame c.pos s (countIssue c s) := by
  unfold countIssue
  dsimp only
  have e := tileFrame_winCount64 c.pos 0xF2010 1 s (by omega) (by omega)
  split
  · exact e
  · exact e.trans ⟨rfl, fun _ _ => rfl, rfl, fun _ _ => rfl⟩

theorem tileFrame_stepOn (c : Ctx) (cost : Nat) (s : State) : TileFrame c.pos s (stepOn c cost s) :=
  (tileFrame_countIssue c s).trans (tileFrame_adjTile _ _ _)

end Sys2Proof.Machine
end

