-- ==== Sys2Proof/Laws/Advance.lean ====
section
/-! SUPPORT. Plan time where one thing comes due (log entry 12): what a tc does with an item that is alone in it, kind by kind. -/

namespace Sys2Proof.Machine

/-- Nothing is left to do up to a tc. -/
def Later (tc : Nat) (s : State) : Prop := ∀ y ∈ s.agenda, tc < y.tc

/-- Where nothing is due, nothing leaves the agenda. -/
theorem due_later {tc : Nat} {s : State} (h : Later tc s) (p : Item → Bool) : due tc p s = ([], s) := by
  have f : ∀ y ∈ s.agenda, (decide (y.tc ≤ tc) && p y) = false := fun y hy => by
    have := h y hy
    simp [Nat.not_le.2 this]
  unfold due
  rw [List.filter_eq_nil_iff.2 (fun y hy => by simp [f y hy]), List.filter_eq_self.2 (fun y hy => by simp [f y hy])]

theorem performAll_later {tc : Nat} {s : State} (h : Later tc s) (p : Item → Bool) (f : Item → State → State) : performAll tc p f s = s := by
  unfold performAll
  rw [due_later h]
  rfl

/-- The one item that is due leaves the agenda where it passes the test, and stays where it does not. -/
theorem due_alone {s : State} {x : Item} {l : List Item} (h : Alone s x l) (p : Item → Bool) :
    due x.tc p { s with now := x.tc } = if p x then ([x], dueState s x l) else ([], { s with now := x.tc }) := by
  obtain ⟨ha, -, hl, -, -⟩ := h
  have f : ∀ y ∈ l, (decide (y.tc ≤ x.tc) && p y) = false := fun y hy => by
    have := hl y hy
    simp [Nat.not_le.2 this]
  have f1 : l.filter (fun y => decide (y.tc ≤ x.tc) && p y) = [] := List.filter_eq_nil_iff.2 fun y hy => by simp [f y hy]
  have f2 : l.filter (fun y => !(decide (y.tc ≤ x.tc) && p y)) = l := List.filter_eq_self.2 fun y hy => by simp [f y hy]
  unfold due dueState
  rw [ha]
  simp only [List.filter_cons, Nat.le_refl, decide_true, Bool.true_and, f1, f2]
  cases p x <;> simp

/-- A run to a tc does nothing where all is later. -/
theorem runTo_later {tc : Nat} {s : State} (h : Later tc s) (n : Nat) : runTo tc n s = s := by
  cases n with
  | zero => rfl
  | succ n =>
    unfold runTo
    split
    · rfl
    · rename_i x l e
      rw [if_pos (h x (by rw [e]; exact List.mem_cons_self))]

/-- Where what a tc does leaves only later things, it is all that happens up to that tc. -/
theorem advance_alone {s : State} {x : Item} {l : List Item} (h : Alone s x l) (hn : (runTc x.tc s).now = x.tc) (hl : Later x.tc (runTc x.tc s)) :
    advance x.tc s = runTc x.tc s := by
  unfold advance
  obtain ⟨ha, hx, -⟩ := h
  have e : runTo x.tc (x.tc + 1 - s.now + s.agenda.length) s = runTc x.tc s := by
    obtain ⟨n, hn⟩ : ∃ n, x.tc + 1 - s.now + s.agenda.length = n + 1 := ⟨x.tc - s.now + s.agenda.length, by omega⟩
    rw [hn, runTo, ha]
    simp only [Nat.lt_irrefl, if_false]
    rw [Nat.max_eq_right hx]
    exact runTo_later hl n
  have stay (u : State) (n : Nat) (e : u.now = n) : { u with now := n } = u := e ▸ rfl
  rw [e, Nat.max_eq_left hx]
  exact stay _ _ hn

/-! ## One tc, kind by kind -/

theorem takeDue_later {tc : Nat} {s : State} (h : Later tc s) : takeDue tc s = s := by
  unfold takeDue
  rw [due_later h]
  rfl

theorem servePorts_nil (s : State) : servePorts [] s = s := rfl

/-- The changes of a tc, where nothing is due. -/
theorem changes_later {tc : Nat} {s : State} (h : Later tc s) (ks : List Nat) :
    ks.foldl (fun t k => performAll tc (fun x => !x.isPort && !x.isRows && !x.isCheck && x.order == k) perform t) s = s := by
  induction ks with
  | nil => rfl
  | cons k ks ih => rw [List.foldl_cons, performAll_later h, ih]

/-- Beside the item that is alone in a tc nothing is performed by a test that it does not pass. -/
theorem performAll_alone_skip {s : State} {x : Item} {l : List Item} (h : Alone s x l) {p : Item → Bool} (hp : p x = false)
    (f : Item → State → State) : performAll x.tc p f { s with now := x.tc } = { s with now := x.tc } := by
  unfold performAll
  rw [due_alone h, hp]
  rfl

/-- The item that is alone in a tc is performed by a test that it passes. -/
theorem performAll_alone {s : State} {x : Item} {l : List Item} (h : Alone s x l) {p : Item → Bool} (hp : p x = true)
    (f : Item → State → State) : performAll x.tc p f { s with now := x.tc } = f x (dueState s x l) := by
  unfold performAll
  rw [due_alone h, hp]
  rfl

theorem Alone.notHeld {s : State} {x : Item} {l : List Item} (h : Alone s x l) : x.isHeld = false := by
  have := h.2.2.2.1
  simp [Item.isHeld, Nat.not_le.2 this]

/-- A port A access that is alone in its tc is served, and nothing else happens in that tc. -/
theorem advance_port {s : State} {x : Item} {l : List Item} (h : Alone s x l) (hp : x.isPort = true)
    (hn : (servePorts [x] (dueState s x l)).now = x.tc) (hl : Later x.tc (servePorts [x] (dueState s x l))) :
    advance x.tc s = servePorts [x] (dueState s x l) := by
  have e : runTc x.tc s = servePorts [x] (dueState s x l) := by
    unfold runTc
    rw [performAll_alone_skip h h.notHeld, due_alone h, hp]
    simp only [if_true]
    rw [performAll_later hl, performAll_later hl, takeDue_later hl, changes_later hl]
  rw [advance_alone h (e ▸ hn) (e ▸ hl), e]

/-- Rows that are read alone in their tc. -/
theorem advance_rows {s : State} {x : Item} {l : List Item} {r : RowsSt} (h : Alone s x l) (hr : x.act = .rows r)
    (hn : (rowsNow x.c r (dueState s x l)).now = x.tc) (hl : Later x.tc (rowsNow x.c r (dueState s x l))) :
    advance x.tc s = rowsNow x.c r (dueState s x l) := by
  have e : runTc x.tc s = rowsNow x.c r (dueState s x l) := by
    unfold runTc
    rw [performAll_alone_skip h h.notHeld, due_alone h, show x.isPort = false by simp [Item.isPort, Item.bank, hr]]
    simp only [Bool.false_eq_true, if_false, servePorts_nil]
    rw [performAll_alone h (by simp [Item.isRows, hr])]
    simp only [hr]
    rw [performAll_later hl, takeDue_later hl, changes_later hl]
  rw [advance_alone h (e ▸ hn) (e ▸ hl), e]

/-- A change that is alone in its tc. -/
theorem advance_change {s : State} {x : Item} {l : List Item} (h : Alone s x l) (hp : x.isPort = false) (hr : x.isRows = false)
    (hc : x.isCheck = false) (he : x.isExc = false) (hn : (perform x (dueState s x l)).now = x.tc)
    (hl : Later x.tc (perform x (dueState s x l))) : advance x.tc s = perform x (dueState s x l) := by
  have ho : x.order < 7 := by
    unfold Item.order
    repeat' split
    all_goals omega
  have step (k : Nat) (hk : k ≠ x.order) (f : Item → State → State) :
      performAll x.tc (fun y => !y.isPort && !y.isRows && !y.isCheck && y.order == k) f { s with now := x.tc } = { s with now := x.tc } :=
    performAll_alone_skip h (by simp [Ne.symm hk]) f
  have go (n m : Nat) (hm : n + m = x.order) : (List.range' n (m + (7 - x.order))).foldl (fun t k =>
      performAll x.tc (fun y => !y.isPort && !y.isRows && !y.isCheck && y.order == k) perform t) { s with now := x.tc } =
        perform x (dueState s x l) := by
    induction m generalizing n with
    | zero =>
      obtain ⟨d, hd⟩ : ∃ d, 0 + (7 - x.order) = d + 1 := ⟨6 - x.order, by omega⟩
      rw [hd, List.range'_succ, List.foldl_cons, performAll_alone h (by simp [hp, hr, hc, ← hm]), changes_later hl]
    | succ m ih =>
      rw [show m + 1 + (7 - x.order) = (m + (7 - x.order)) + 1 by omega, List.range'_succ, List.foldl_cons, step n (by omega)]
      exact ih (n + 1) (by omega)
  have e : runTc x.tc s = perform x (dueState s x l) := by
    unfold runTc
    rw [performAll_alone_skip h h.notHeld, due_alone h, hp]
    simp only [Bool.false_eq_true, if_false, servePorts_nil]
    rw [performAll_alone_skip h hr, performAll_alone_skip h hc]
    have t : takeDue x.tc { s with now := x.tc } = { s with now := x.tc } := by
      unfold takeDue
      rw [due_alone h, he]
      rfl
    rw [t, List.range_eq_range']
    have := go 0 x.order (by omega)
    rwa [show x.order + (7 - x.order) = 7 by omega] at this
  rw [advance_alone h (e ▸ hn) (e ▸ hl), e]

/-- A register that lands alone in its tc holds its value from then on, and is ready (R226). -/
theorem advance_land {s : State} {x : Item} {l : List Item} {r : Landing} (h : Alone s x l) (hr : x.act = .land r) :
    advance x.tc s = landNow x.c r (dueState s x l) := by
  have e : perform x (dueState s x l) = landNow x.c r (dueState s x l) := by simp only [perform, hr]
  have k := advance_change h (by simp [Item.isPort, Item.bank, hr]) (by simp [Item.isRows, hr]) (by simp [Item.isCheck, hr])
    (by simp [Item.isExc, hr]) (by rw [e]; rfl) (by rw [e]; exact h.2.2.1)
  rw [k, e]

end Sys2Proof.Machine
end

