-- ==== Sys2Proof/Laws/Bits.lean ====
section
/-! SUPPORT. Bit fields: a field reads back what was put into it, and every other field reads as before. -/

namespace Sys2Proof.Machine

/-- A put field as what is above it, the field, and what is below it. -/
theorem putFld_eq (x lo w v : Nat) :
    putFld x lo w v = 2 ^ (lo + w) * (x / 2 ^ (lo + w)) + (2 ^ lo * (v % 2 ^ w) + x % 2 ^ lo) := by
  have h1 : x = 2 ^ lo * (x / 2 ^ lo) + x % 2 ^ lo := (Nat.div_add_mod x (2 ^ lo)).symm
  have h2 : x / 2 ^ lo = 2 ^ w * (x / 2 ^ lo / 2 ^ w) + x / 2 ^ lo % 2 ^ w := (Nat.div_add_mod _ _).symm
  have h3 : x / 2 ^ lo / 2 ^ w = x / 2 ^ (lo + w) := by rw [Nat.div_div_eq_div_mul, Nat.pow_add]
  have h4 : fld x lo w = x / 2 ^ lo % 2 ^ w := by rw [fld, Nat.shiftRight_eq_div_pow]
  have h5 : x = 2 ^ (lo + w) * (x / 2 ^ (lo + w)) + 2 ^ lo * fld x lo w + x % 2 ^ lo := by
    rw [h4, ← h3]
    conv_lhs => rw [h1, h2]
    rw [Nat.pow_add]
    ring
  have h6 : x - fld x lo w * 2 ^ lo = 2 ^ (lo + w) * (x / 2 ^ (lo + w)) + x % 2 ^ lo := by
    rw [Nat.mul_comm (fld x lo w)]
    omega
  rw [putFld, h6]
  ring

/-- The bits of a number with a field put into it. -/
theorem testBit_putFld (x lo w v i : Nat) :
    (putFld x lo w v).testBit i = if lo ≤ i ∧ i < lo + w then v.testBit (i - lo) else x.testBit i := by
  have hl : 2 ^ lo * (v % 2 ^ w) + x % 2 ^ lo < 2 ^ (lo + w) := by
    have a : v % 2 ^ w < 2 ^ w := Nat.mod_lt _ (by positivity)
    have b : x % 2 ^ lo < 2 ^ lo := Nat.mod_lt _ (by positivity)
    have c : 2 ^ lo * (v % 2 ^ w) + 2 ^ lo ≤ 2 ^ lo * 2 ^ w := by
      rw [← Nat.mul_succ]
      exact Nat.mul_le_mul_left _ a
    rw [Nat.pow_add]
    omega
  rw [putFld_eq, Nat.testBit_two_pow_mul_add _ hl, Nat.testBit_two_pow_mul_add _ (Nat.mod_lt _ (by positivity))]
  by_cases h1 : i < lo
  · have h2 : i < lo + w := by omega
    have h3 : ¬ lo ≤ i := by omega
    simp [h1, h2, h3, Nat.testBit_mod_two_pow]
  · by_cases h2 : i < lo + w
    · have h3 : lo ≤ i := by omega
      have h4 : i - lo < w := by omega
      simp [h1, h2, h3, h4, Nat.testBit_mod_two_pow]
    · have h3 : lo ≤ i := by omega
      simp only [h2, if_false, and_false, Nat.testBit_div_two_pow]
      congr 1
      omega

/-- The bits of a field. -/
theorem testBit_fld (x lo w i : Nat) : (fld x lo w).testBit i = (decide (i < w) && x.testBit (lo + i)) := by
  rw [fld, Nat.testBit_mod_two_pow, Nat.testBit_shiftRight]

/-- A field reads back what was put into it. -/
@[simp] theorem fld_putFld_self (x lo w v : Nat) : fld (putFld x lo w v) lo w = v % 2 ^ w := by
  apply Nat.eq_of_testBit_eq
  intro i
  rw [testBit_fld, testBit_putFld, Nat.testBit_mod_two_pow]
  by_cases h : i < w
  · have h1 : lo ≤ lo + i ∧ lo + i < lo + w := by omega
    simp [h]
  · simp [h]

/-- A field apart from the one that was put reads as before. -/
theorem fld_putFld_other (x lo w v l k : Nat) (h : l + k ≤ lo ∨ lo + w ≤ l) : fld (putFld x lo w v) l k = fld x l k := by
  apply Nat.eq_of_testBit_eq
  intro i
  rw [testBit_fld, testBit_fld, testBit_putFld]
  by_cases h1 : i < k
  · have h2 : ¬ (lo ≤ l + i ∧ l + i < lo + w) := by omega
    simp [h1, h2]
  · simp [h1]

/-- A register with a field put into it stays 32 bits wide. -/
theorem putFld_lt (x lo w v : Nat) (h : lo + w ≤ 32) (hx : x < 2 ^ 32) : putFld x lo w v < 2 ^ 32 := by
  apply Nat.lt_pow_two_of_testBit
  intro i hi
  rw [testBit_putFld, if_neg (by omega)]
  exact Nat.testBit_lt_two_pow (lt_of_lt_of_le hx (Nat.pow_le_pow_right (by norm_num) hi))

/-- A field of a register cut to 32 bits. -/
theorem fld_mod_two_pow (x l k n : Nat) (h : l + k ≤ n) : fld (x % 2 ^ n) l k = fld x l k := by
  apply Nat.eq_of_testBit_eq
  intro i
  rw [testBit_fld, testBit_fld, Nat.testBit_mod_two_pow]
  by_cases h1 : i < k
  · have h2 : l + i < n := by omega
    simp [h1, h2]
  · simp [h1]

end Sys2Proof.Machine
end

