-- ==== Sys2Proof/Laws/Ops.lean ====
section
/-! SUPPORT. What each shared operation can do, said once: stores, registers, entries, reports, refusals, safe state, host writes and the
completion of ops. -/

namespace Sys2Proof.Machine

/-! ## Reading after writing -/

theorem winKept_winSet (s : State) (a v : Nat) : WinKept [a] s (winSet s a v) := by
  intro b hb
  rw [winGet_winSet, if_neg]
  intro h
  exact hb (by simp [h])

theorem barKept_barSet (s : State) (a v : Nat) : BarKept [a] s (barSet s a v) := by
  intro b hb
  rw [barGet_barSet, if_neg]
  intro h
  exact hb (by simp [h])

theorem odKept_odSet (s : State) (i j v : Nat) : OdKept [(i, j)] s (odSet s i j v) := by
  intro k hk
  exact kget_kput_other _ _ (by
    intro h
    exact hk (by simp [h]))

/-! ## Stores (R5, R45, R298) -/

/-- A store keeps the form of the memory, changes no byte outside its range, and leaves every field but memory, marks and leaves. -/
theorem store_spec (a : Nat) (d : List Byte) (s : State) (h : s.memOk) :
    (store a d s).memOk ∧ MemKept a d.length s (store a d s) ∧ (∀ j, j < d.length → byteAt (store a d s) (a + j) = d.getD j 0) ∧
      store a d s = { s with mem := (store a d s).mem, ecc := (store a d s).ecc, leaves := (store a d s).leaves } := by
  refine ⟨memWf_memStore _ _ _ h, fun i hi => memRead_memStore_outside h a i d hi, fun j hj => ?_, rfl⟩
  have e : d.getD j 0 = d[j] := by simp [hj]
  rw [e]
  exact memRead_memStore_inside h a j d hj

/-- Zeroing a bank keeps the form of the memory and every byte outside the bank. -/
theorem zeroBank_spec (b : Nat) (s : State) (h : s.memOk) :
    (zeroBank b s).memOk ∧ MemKept (bankBase b) (64 * bankWords b) s (zeroBank b s) ∧
      (∀ i, i < 64 * bankWords b → byteAt (zeroBank b s) (bankBase b + i) = 0) ∧
      zeroBank b s = { s with mem := (zeroBank b s).mem, ecc := (zeroBank b s).ecc } := by
  refine ⟨memWf_memZero _ _ _ h, fun i hi => ?_, fun i hi => ?_, rfl⟩
  · have e := memRead_memZero h (bankBase b) (bankBase b + 64 * bankWords b) i
    unfold byteAt zeroBank
    dsimp only
    rw [e, if_neg]
    omega
  · have e := memRead_memZero h (bankBase b) (bankBase b + 64 * bankWords b) (bankBase b + i)
    unfold byteAt zeroBank
    dsimp only
    rw [e, if_pos (by omega)]
    rfl

/-! ## Counts, records, interrupts -/

/-- Only counts, records on their way to the Helmet, and interrupts. -/
def Noted (s t : State) : Prop :=
  t = { s with od := t.od, win := t.win, vc3Held := t.vc3Held, vc3Wait := t.vc3Wait, host := t.host, out := t.out }

theorem Noted.refl (s : State) : Noted s s := rfl

theorem Noted.trans {s t u : State} (h1 : Noted s t) (h2 : Noted t u) : Noted s u := by
  unfold Noted at *
  rw [h2, h1]

theorem noted_raise (n : Nat) (s : State) : Noted s (raise n s) := by
  unfold Noted
  rw [raise_eq]

theorem noted_odSet (s : State) (i j v : Nat) : Noted s (odSet s i j v) := rfl
theorem noted_odBump (s : State) (i j w d : Nat) : Noted s (odBump s i j w d) := rfl
theorem noted_winSet (s : State) (a v : Nat) : Noted s (winSet s a v) := rfl
theorem noted_winPut (s : State) (a lo w x : Nat) : Noted s (winPut s a lo w x) := rfl
theorem noted_winBump (s : State) (a lo w d : Nat) : Noted s (winBump s a lo w d) := rfl

theorem noted_winMax (s : State) (a lo w x : Nat) : Noted s (winMax s a lo w x) := rfl

theorem noted_vc3Take (pos : Nat) (e : Vc3Ent) (s : State) : Noted s (vc3Take pos e s) := by
  unfold vc3Take
  dsimp only
  split <;> rfl

theorem noted_vc3Arrive (pos : Nat) (e : Vc3Ent) (s : State) : Noted s (vc3Arrive pos e s) := by
  unfold vc3Arrive
  dsimp only
  split
  · exact noted_vc3Take _ _ _
  · rfl

/-- A record that a unit raises is on its way to the Helmet, and changes nothing else (R87, R88). -/
theorem noted_report (pos code unit sub glove : Nat) (d : List Byte) (s : State) : Noted s (report pos code unit sub glove d s) :=
  noted_vc3Arrive _ _ _

/-- A refusal of R293 moves no data: it is counted, recorded, reported and raised, source 258. -/
theorem reject_spec (g a len source reason unit : Nat) (s : State) :
    Noted s (reject g a len source reason unit s) ∧ irqPending (reject g a len source reason unit s) 258 = true := by
  refine ⟨?_, irqPending_raise_self _ _⟩
  unfold reject
  exact ((noted_odBump _ _ _ _ _).trans (noted_odSet _ _ _ _)).trans ((noted_report _ _ _ _ _ _ _).trans (noted_raise _ _))

theorem noted_ownerReject (g port b addr : Nat) (s : State) : Noted s (ownerReject g port b addr s) := by
  unfold ownerReject
  by_cases h : g = 0
  · rw [if_pos h]
    exact (noted_odBump _ _ _ _ _).trans (noted_report _ _ _ _ _ _ _)
  · rw [if_neg h]
    exact (noted_odBump _ _ _ _ _).trans (noted_report _ _ _ _ _ _ _)

theorem noted_stateFault (g port : Nat) (write : Bool) (b addr : Nat) (s : State) : Noted s (stateFault g port write b addr s) := by
  unfold stateFault
  refine Noted.trans ?_ (noted_raise _ _)
  by_cases h : bankIsCmn b
  · rw [if_pos h]
    exact (noted_winBump _ _ _ _ _).trans ((noted_winPut _ _ _ _ _).trans ((noted_winPut _ _ _ _ _).trans
      ((noted_winPut _ _ _ _ _).trans (noted_winPut _ _ _ _ _))))
  · rw [if_neg h]
    exact (noted_winBump _ _ _ _ _).trans ((noted_winPut _ _ _ _ _).trans ((noted_winPut _ _ _ _ _).trans
      ((noted_winPut _ _ _ _ _).trans ((noted_winPut _ _ _ _ _).trans (noted_winSet _ _ _)))))

/-- The check of a bank access changes counts and records alone, and nothing where it passes; it passes for the bank's owner while the
bank is ON (R351, R52). -/
theorem bankCheck_spec (g port : Nat) (write : Bool) (b addr : Nat) (s : State) :
    Noted s (bankCheck g port write b addr s).2 ∧
      ((bankCheck g port write b addr s).1 = stOk → bankOwner s b = g ∧ bankState s b = 3 ∧ (bankCheck g port write b addr s).2 = s) ∧
      (bankOwner s b = g → bankState s b = 3 → bankCheck g port write b addr s = (stOk, s)) := by
  unfold bankCheck
  by_cases h : bankOwner s b = g <;> by_cases h2 : bankState s b = 3
  · simp [h, h2, Noted.refl]
  · simp only [h, h2, ne_eq, not_true_eq_false, not_false_eq_true, if_true, if_false]
    exact ⟨noted_stateFault _ _ _ _ _ _, fun e => absurd e (by decide), fun _ e => absurd e (by simp)⟩
  · simp only [h, ne_eq, not_false_eq_true, if_true]
    exact ⟨noted_ownerReject _ _ _ _ _, fun e => absurd e (by decide), fun e => absurd e (by simp)⟩
  · simp only [h, ne_eq, not_false_eq_true, if_true]
    exact ⟨noted_ownerReject _ _ _ _ _, fun e => absurd e (by decide), fun e => absurd e (by simp)⟩

theorem noted_foldl {α : Type} (f : State → α → State) (h : ∀ s x, Noted s (f s x)) (l : List α) (s : State) : Noted s (l.foldl f s) := by
  induction l generalizing s with
  | nil => exact Noted.refl s
  | cons x l ih => exact (h s x).trans (ih _)

/-- A read of a tier counts and reports what it finds, and changes neither the bytes nor their marks (R300). -/
theorem noted_tierReadChecks (g a n : Nat) (s : State) : Noted s (tierReadChecks g a n s) := by
  refine noted_foldl _ (fun t l => ?_) _ _
  dsimp only
  split
  · exact Noted.refl t
  · exact (noted_winBump _ _ _ _ _).trans (noted_odBump _ _ _ _ _)
  · split
    · exact (noted_winBump _ _ _ _ _).trans (noted_odBump _ _ _ _ _)
    · exact ((noted_winBump _ _ _ _ _).trans (noted_odBump _ _ _ _ _)).trans ((noted_report _ _ _ _ _ _ _).trans (noted_raise _ _))

/-! ## Safe state (R391 to R395) -/

/-- A cause is set, both outputs are low, and beside them only the Helmet's record of the entry and source 135 change. -/
theorem enterSafe_spec (bit : Nat) (s : State) :
    (enterSafe bit s).safety = { s.safety with causes := s.safety.causes ||| 2 ^ bit, outs := false } ∧
      enterSafe bit s = { s with safety := (enterSafe bit s).safety, win := (enterSafe bit s).win, host := (enterSafe bit s).host, out := (enterSafe bit s).out } ∧
      (s.safety.outs = false → (enterSafe bit s).win = s.win ∧ (enterSafe bit s).host = s.host ∧ (enterSafe bit s).out = s.out) ∧
      (s.safety.outs = true → irqPending (enterSafe bit s) 135 = true) := by
  unfold enterSafe
  cases h : s.safety.outs
  · exact ⟨rfl, rfl, fun _ => ⟨rfl, rfl, rfl⟩, fun e => absurd e (by simp)⟩
  · refine ⟨?_, ?_, fun e => absurd e (by simp), fun _ => irqPending_raise_self _ _⟩
    · simp only [if_true]
      rw [raise_safety]
      rfl
    · simp only [if_true]
      rw [raise_eq]
      rfl

/-- A cause that is detected leaves the outputs low whatever they were. -/
theorem outsOk_enterSafe (bit : Nat) (s : State) : (enterSafe bit s).outsOk := by
  intro _
  rw [(enterSafe_spec bit s).1]

/-! ## Host writes (R461) -/

theorem posted_hostWrite (a : Nat) (d : List Byte) (s : State) : Posted a d (hostWrite a d s) := by
  unfold Posted hostWrite
  by_cases h : s.host.busMaster = true <;> simp [h]

theorem hostOnly_hostWrite (a : Nat) (d : List Byte) (s : State) : HostOnly s (hostWrite a d s) := by
  unfold hostWrite HostOnly
  split <;> rfl

/-! ## Ops that complete (R315 to R318) -/

/-- Only the front end, BAR0 and the host link. -/
def FrontOnly (s t : State) : Prop := t = { s with fe := t.fe, bar0 := t.bar0, host := t.host, out := t.out }

theorem FrontOnly.refl (s : State) : FrontOnly s s := rfl

theorem FrontOnly.trans {s t u : State} (h1 : FrontOnly s t) (h2 : FrontOnly t u) : FrontOnly s u := by
  unfold FrontOnly at *
  rw [h2, h1]

theorem HostOnly.frontOnly {s t : State} (h : HostOnly s t) : FrontOnly s t := by
  unfold HostOnly at h
  unfold FrontOnly
  rw [h]

theorem frontOnly_feWith (f : FrontEnd → FrontEnd) (s : State) : FrontOnly s (feWith f s) := rfl
theorem frontOnly_bufAdj (q : Nat) (f : Buf → Buf) (s : State) : FrontOnly s (bufAdj q f s) := rfl
theorem frontOnly_barBump (s : State) (a lo w d : Nat) : FrontOnly s (barBump s a lo w d) := rfl

theorem frontOnly_raise (n : Nat) (s : State) : FrontOnly s (raise n s) := (hostOnly_raise n s).frontOnly

theorem frontOnly_hostWrite (a : Nat) (d : List Byte) (s : State) : FrontOnly s (hostWrite a d s) := (hostOnly_hostWrite a d s).frontOnly

theorem FrontOnly.ite {s a b : State} (c : Prop) [Decidable c] (h1 : FrontOnly s a) (h2 : FrontOnly s b) : FrontOnly s (if c then a else b) := by
  by_cases h : c
  · rwa [if_pos h]
  · rwa [if_neg h]

/-- The interrupts of a completion: source 0 where the descriptor asks for it, source 5 where the status is bad. -/
theorem frontOnly_raises (c d : Bool) (s t : State) (h : FrontOnly s t) :
    FrontOnly s (if d = true then (if c = true then raise 0 t else t) else raise 5 (if c = true then raise 0 t else t)) := by
  have e : FrontOnly s (if c = true then raise 0 t else t) := FrontOnly.ite _ (h.trans (frontOnly_raise _ _)) h
  exact FrontOnly.ite _ e (e.trans (frontOnly_raise _ _))

theorem frontOnly_completeOne (k : Nat) (o : Op) (st : Nat) (s : State) : FrontOnly s (completeOne k o st s) := by
  unfold completeOne
  refine FrontOnly.ite _ (FrontOnly.trans ?_ (frontOnly_feWith _ _)) ?_
  all_goals
    refine ((frontOnly_feWith _ _).trans (frontOnly_bufAdj _ _ _)).trans (FrontOnly.ite _ (frontOnly_barBump _ _ _ _ _) ?_)
    split
    · exact FrontOnly.refl _
    · exact frontOnly_raises _ _ _ _ (frontOnly_hostWrite _ _ _)

theorem frontOnly_completeAll (n : Nat) (l : List (Nat × Nat)) (s : State) : FrontOnly s (completeAll n l s) := by
  induction n generalizing l s with
  | zero => exact FrontOnly.refl s
  | succ n ih =>
    cases l with
    | nil => exact FrontOnly.refl s
    | cons p l =>
      unfold completeAll
      split
      · exact ih _ _
      · exact (frontOnly_completeOne _ _ _ _).trans (ih _ _)

/-- An op that completes changes the front end, ORPHAN_COUNT, interrupts and host memory, and nothing else. -/
theorem frontOnly_completeOp (k st : Nat) (s : State) : FrontOnly s (completeOp k st s) := by
  unfold completeOp completeOps
  exact (frontOnly_completeAll _ _ _).trans (rfl : FrontOnly _ (dropOrphans _))

/-! ## Owners of banks -/

theorem regHome_bankOwner (b : Nat) : regHome (bankOwnerAddr b) = bankOwnerAddr b := by
  have hn : bankIsCmn b = false → bankNo b < 4 := fun h => by simp only [bankNo, h, Bool.false_eq_true, if_false]; omega
  unfold regHome bankOwnerAddr
  cases h : bankIsCmn b <;> simp only [tileBase, cmnBase, Bool.false_eq_true, if_true, if_false]
  · have := hn h
    split
    · omega
    · split <;> omega
  · split
    · omega
    · split <;> omega

/-- A bank that no register write has reached is glove 0's (R346). -/
theorem winReset_bankOwner (b : Nat) (h : b < 6528) : winReset (bankOwnerAddr b) = 0 := by
  unfold winReset winSpec bankOwnerAddr
  cases hc : bankIsCmn b
  · simp only [bankIsCmn, decide_eq_false_iff_not] at hc
    have hn : bankNo b = b % 4 := by simp [bankNo, bankIsCmn, hc]
    have e : tileBase (b / 4) + 0xF0010 + 4 * bankNo b = 0xF00000000000 + (b / 4 * 0x100000 + (0xF0010 + 4 * (b % 4))) := by
      rw [hn, tileBase]; omega
    simp only [Bool.false_eq_true, if_false]
    rw [e, if_pos (by omega), Nat.add_sub_cancel_left]
    have e1 : (b / 4 * 0x100000 + (0xF0010 + 4 * (b % 4))) % 0x100000 = 0xF0010 + 4 * (b % 4) := by omega
    have e2 : (b / 4 * 0x100000 + (0xF0010 + 4 * (b % 4))) / 0x100000 = b / 4 := by omega
    have : b % 4 = 0 ∨ b % 4 = 1 ∨ b % 4 = 2 ∨ b % 4 = 3 := by omega
    rw [e1, e2]
    have ht : tileRegs (b / 4) (0xF0010 + 4 * (b % 4)) = [] ∨ tileRegs (b / 4) (0xF0010 + 4 * (b % 4)) = bankRegs := by
      unfold tileRegs
      rw [if_pos (by omega)]
      split
      · exact .inl rfl
      · exact .inr rfl
    rcases ht with ht | ht <;> rw [ht] <;> rcases this with h | h | h | h <;> rw [h] <;> decide
  · simp only [bankIsCmn, decide_eq_true_eq] at hc
    have hn : bankNo b = (b - 6144) % 16 := by simp [bankNo, bankIsCmn, hc]
    have hcl : bankCluster b = (b - 6144) / 16 := by simp [bankCluster, bankIsCmn, hc]
    simp only [if_true]
    rw [hn, hcl, cmnBase, if_neg (by omega)]
    have e : (0xF80000000000 + (b - 6144) / 16 * 0x1000000 + 0xFF0040 + 4 * ((b - 6144) % 16) - 0xF80000000000) % 0x1000000 = 0xFF0040 + 4 * ((b - 6144) % 16) := by omega
    rw [e]
    have : (b - 6144) % 16 < 16 := by omega
    generalize (b - 6144) % 16 = k at this
    interval_cases k <;> decide

theorem bankOwner_eq (s : State) (b : Nat) (h : b < 6528) :
    bankOwner s b = match kget s.win (bankOwnerAddr b) with
      | some v => fld v 0 8
      | none => 0 := by
  unfold bankOwner winGet
  rw [regHome_bankOwner]
  cases kget s.win (bankOwnerAddr b) with
  | some v => rfl
  | none => simp only [winReset_bankOwner b h]; decide

theorem allBanks_lt {b : Nat} (h : b ∈ allBanks) : b < 6528 := by
  simp only [allBanks, List.mem_filter, List.mem_range] at h; omega

/-- The banks of a glove, by the owner registers that have been written. -/
theorem banksOf_eq (s : State) (g : Nat) : banksOf s g = allBanks.filter fun b => (match kget s.win (bankOwnerAddr b) with
    | some v => fld v 0 8
    | none => 0) == g :=
  List.filter_congr fun b h => by rw [bankOwner_eq s b (allBanks_lt h)]

/-- Where no register has been written, every bank is glove 0's. -/
theorem banksOf_none {s : State} (h : s.win = []) {g : Nat} (hg : g ≠ 0) : banksOf s g = [] := by
  rw [banksOf_eq, h]
  simp [kget, hg.symm]

end Sys2Proof.Machine
end

