-- ==== Sys2Proof/Laws/Sort.lean ====
section
/-! SUPPORT. The sort and the integer square root that the machine uses. -/

namespace Sys2Proof.Machine

/-- An insertion keeps exactly the elements. -/
theorem insertBy_perm {α : Type} (le : α → α → Bool) (x : α) (l : List α) : (insertBy le x l).Perm (x :: l) := by
  induction l with
  | nil => exact List.Perm.refl _
  | cons y l ih =>
    unfold insertBy
    split
    · exact List.Perm.refl _
    · exact (ih.cons y).trans (List.Perm.swap x y l)

/-- A sorted list holds exactly the elements. -/
theorem sortBy_perm {α : Type} (le : α → α → Bool) (l : List α) : (sortBy le l).Perm l := by
  induction l with
  | nil => exact List.Perm.refl _
  | cons x l ih => exact (insertBy_perm le x (sortBy le l)).trans (ih.cons x)

@[simp] theorem sortBy_length {α : Type} (le : α → α → Bool) (l : List α) : (sortBy le l).length = l.length :=
  (sortBy_perm le l).length_eq

/-- An insertion keeps the order. -/
theorem insertBy_sorted {α : Type} (le : α → α → Bool) (total : ∀ a b, le a b = true ∨ le b a = true)
    (trans : ∀ a b c, le a b = true → le b c = true → le a c = true) (x : α) (l : List α)
    (h : l.Pairwise fun a b => le a b = true) : (insertBy le x l).Pairwise fun a b => le a b = true := by
  induction l with
  | nil => simp [insertBy]
  | cons y l ih =>
    rw [List.pairwise_cons] at h
    unfold insertBy
    split
    · rename_i hx
      refine List.pairwise_cons.2 ⟨fun z hz => ?_, List.pairwise_cons.2 h⟩
      rcases List.mem_cons.1 hz with rfl | hz
      · exact hx
      · exact trans _ _ _ hx (h.1 z hz)
    · rename_i hx
      refine List.pairwise_cons.2 ⟨fun z hz => ?_, ih h.2⟩
      rcases List.mem_cons.1 ((insertBy_perm le x l).mem_iff.1 hz) with rfl | hz
      · exact (total y z).resolve_right hx
      · exact h.1 z hz

/-- A sorted list is in order, for an order that is total and transitive. -/
theorem sortBy_sorted {α : Type} (le : α → α → Bool) (total : ∀ a b, le a b = true ∨ le b a = true)
    (trans : ∀ a b c, le a b = true → le b c = true → le a c = true) (l : List α) :
    (sortBy le l).Pairwise fun a b => le a b = true := by
  induction l with
  | nil => exact List.Pairwise.nil
  | cons x l ih => exact insertBy_sorted le total trans x _ ih

/-- What the search for a root keeps: its square is not above n, and the square 2 ^ k further on is. -/
theorem isqrtFrom_spec (n k acc : Nat) (lo : acc * acc ≤ n) (hi : n < (acc + 2 ^ k) * (acc + 2 ^ k)) :
    isqrtFrom n k acc * isqrtFrom n k acc ≤ n ∧ n < (isqrtFrom n k acc + 1) * (isqrtFrom n k acc + 1) := by
  induction k generalizing acc with
  | zero => exact ⟨lo, hi⟩
  | succ k ih =>
    unfold isqrtFrom
    split
    · rename_i h
      refine ih _ h ?_
      have e : acc + 2 ^ k + 2 ^ k = acc + 2 ^ (k + 1) := by rw [pow_succ]; omega
      rwa [e]
    · rename_i h
      exact ih _ lo (not_le.1 h)

/-- The integer square root is the root rounded down. -/
theorem isqrt_spec (n : Nat) : isqrt n * isqrt n ≤ n ∧ n < (isqrt n + 1) * (isqrt n + 1) := by
  refine isqrtFrom_spec n _ 0 (Nat.zero_le n) ?_
  have h : n < 2 ^ (Nat.log2 n + 1) := Nat.lt_log2_self
  refine lt_of_lt_of_le h ?_
  rw [Nat.zero_add, ← pow_add]
  exact Nat.pow_le_pow_right (by norm_num) (by omega)

end Sys2Proof.Machine
end

