-- ==== Sys2Proof/Tests/Slice0.lean ====
section
/-! SUPPORT. Tests: what well-formedness refuses, and for each obligation with hypotheses a concrete state and operands that meet them,
clause by clause, with what the command then leaves. Expected values are worked out by hand from the rules named. -/

namespace Sys2Proof.Tests
open Sys2Proof Sys2Proof.Machine
set_option Elab.async false

/-! ## Helpers -/

/-- The command answered a next state of which a test holds. -/
def ok (r : Result) (f : State → Bool) : Bool := match r with
  | .next t => f t
  | _ => false

/-- The next instruction of a tile issues in a tc (Issues), in a context of which a test holds. -/
def goes (s : State) (pos tc opc res : Nat) (f : Ctx → Bool) : Bool := match fetch (reached s pos tc) pos tc opc res with
  | .go c => decide (pos < 1536) && (mgmtTiles.contains pos || decide (s.now ≤ tc)) && (c.free || issueTc (reached s pos tc) c == some tc) && f c
  | _ => false

theorem goes_issues (s : State) (pos tc opc res : Nat) (f : Ctx → Bool) (h : goes s pos tc opc res f = true) :
    ∃ c, Issues s pos tc opc res c ∧ f c = true := by
  unfold goes at h
  split at h
  · rename_i c hc
    simp only [Bool.and_eq_true, Bool.or_eq_true, decide_eq_true_eq, beq_iff_eq] at h
    refine ⟨c, ⟨h.1.1.1, fun hm => ?_, hc, fun hf => ?_⟩, h.2⟩
    · rcases h.1.1.2 with hp | hp
      · rw [hp] at hm; cases hm
      · exact hp
    · rcases h.1.2 with hp | hp
      · rw [hp] at hf; cases hf
      · exact hp
  · cases h

/-- An item alone in its tc (Alone), as a check. -/
def alone (s : State) : Bool := match s.agenda with
  | x :: l => decide (s.now ≤ x.tc) && l.all (fun y => decide (x.tc < y.tc)) && decide (x.c.pos < 1536) && !x.c.free
  | [] => false

/-- The state when its first item is due. -/
def whenDue (s : State) : State := match s.agenda with
  | x :: _ => advance x.tc s
  | [] => s

/-- An instruction word: its OPC, and fields as (lowest bit, value). -/
def ins (opc : Nat) (l : List (Nat × Nat)) : Nat := opc * 2 ^ 58 + (l.map fun x => x.2 * 2 ^ x.1).sum

/-- A grant, as a check. -/
def granted (e : OwnEntry) (req : OdReq) (s : State) : Bool :=
  e.covers req && carries s req.via && odWriteAbort (decided s) req == 0 && e.rule req (decided s) == 0

theorem granted_iff (e : OwnEntry) (req : OdReq) (s : State) : granted e req s = true ↔ Granted e req s := by
  simp [granted, Granted, and_assoc]

/-- A launch of glove 1 that runs. -/
def aLaunch : Launch where
  id := 0
  order := 0
  glove := 1
  phase := .running
  params := []
  aux := ⟨1000, 0, false, none, none, true⟩
  set := 0
  tiles := []
  sections := []
  placed := []
  peers := []
  statCycles := 0
  statSlots := 0
  statBytes := 0
  realtime := false
  relaxed := false
  seed := 0
  tried := none
  since := 0
  drainReq := none
  drainStep := none
  recordSent := false
  limitDrained := false
  drained := none
  killStatus := 0
  faulted := false
  ending := false
  status := 0
  nd := 0
  digests := List.replicate 5 (List.replicate 48 0)
  count := 0
  stretched := false
  late := false
  startFrame := 0
  toZero := []
  sentinel := ⟨[], [], 0, false, false, [], false⟩
  reexecuted := false
  reexDue := false
  started := true
  released := false
  hold := []

/-- A window from tc 0 to tc 10000, of glove 1 and slot 0. -/
def aWindow : WinDesc := ⟨0, 10000, 1, 0, 0, 0, 0, 0, 0, 0, 0⟩

/-- A tile in that window, whose next instruction is the given word. -/
def aTile (word : Nat) : Tile :=
  { Tile.blank with store := [(0, word)], wins := [aWindow], slots := [(0, { SlotSt.blank with launch := 7 })], run := some 0, tc := 3 }

/-- The gates of the PLLs are open. -/
def clocked : State := winSet State.reset clkGate 0xF0

/-- That launch and that tile, and nothing else. -/
def at_ (pos word : Nat) : State := { clocked with launches := [(7, aLaunch)], tiles := [(pos, aTile word)] }

/-- The bank of a number ON, owned by a glove, in a domain that is ON. -/
def bankOn (b g : Nat) (s : State) : State := setBankState b 3 (winSet (setDomain s (bankDomain b) 2) (bankOwnerAddr b) g)

/-- A tile of the management complex whose next instruction is the given word. -/
def mgmt (word : Nat) : State :=
  { clocked with plat := { State.reset.plat with ready := true }, od := [(odKey 0x2901 53, 2)], tiles := [(20, { Tile.blank with store := [(0, word)] })] }

/-- A command changed nothing. -/
def same (r : Result) (s : State) : Bool := ok r (· == s)

/-- Every domain ON, and start-up done. -/
def powered : State :=
  { clocked with
    plat := { State.reset.plat with aux := true, v48 := true, ready := true, step := 10, linkUp := true, perst := true }
    od := (List.range 53).map fun d => (odKey 0x2901 (d + 1), 2) }

/-- A session 1 with every role, by the mailbox. -/
def served : State := { powered with serv := { powered.serv with sessions := [(1, ⟨0, 0x1F, 1⟩)] } }

/-- A request of that session. -/
def rq (index sub : Nat) (data : List Byte) : OdReq := ⟨0, 9, 1, index, sub, 0, data⟩

/-- The one response that went out has this abort code. -/
def answers (t : State) (abort : Nat) : Bool := t.out.any fun o => match o with
  | .odResponse _ _ _ _ _ a _ => a == abort
  | _ => false

/-- An op descriptor of 64 bytes, from (offset, value). -/
def desc (l : List (Nat × Nat)) : List Byte := leBytes 64 (l.map fun x => x.2 * 2 ^ (8 * x.1)).sum

/-- An op of a descriptor, of glove 1, in a phase. -/
def anOp (phase : OpPhase) (l : List (Nat × Nat)) : Op := ⟨1, desc l, false, phase, false, 0, false, 0, none, stOk, false, 0, none⟩

/-- What is under way: the tc and the act of each item. -/
def acts (t : State) : List (Nat × Act) := t.agenda.map fun x => (x.tc, x.act)

/-- The first item is alone, and port A serves it (Served). -/
def portServed (s : State) : Bool := alone s && match s.agenda with
  | ⟨_, _, c, .read b w _ _ _⟩ :: _ => decide (w < bankWords b) && bankState s b == 3 && bankOwner s b == c.glove
  | ⟨_, _, c, .store b w _⟩ :: _ => decide (w < bankWords b) && bankState s b == 3 && bankOwner s b == c.glove
  | _ => false

/-- What the first n items leave, one after another, each alone in its tc. -/
def after_ : Nat → State → State
  | 0, s => s
  | n + 1, s => after_ n (whenDue s)

/-! ## Well-formedness: an ill-formed term for each check -/

theorem test_wf_position : Instr.wf (.nop 1536 0) = false := by decide +kernel
theorem test_wf_output : Instr.wf (.slotFwd 0 5 0 []) = false ∧ Instr.wf (.slotFwd 0 4 0 []) = true := by decide +kernel
theorem test_wf_bar0 : Instr.wf (.rcRead .host (.bar0 0x10000) 1 15) = false ∧ Instr.wf (.rcRead .host (.bar0 2) 1 15) = false := by decide +kernel
theorem test_wf_device_register : Instr.wf (.rcRead .host (.dev 0xF000000F0001) 1 15) = false := by decide +kernel
theorem test_wf_path : Instr.wf (.registerWrite (.mgmt 4) (.bar0 0) 1 15 0) = false := by decide +kernel
theorem test_wf_bank : Instr.wf (.bankWake 18) = false ∧ Instr.wf (.bankWake 19) = false ∧ Instr.wf (.bankWake 6528) = false := by decide +kernel
theorem test_wf_word : Instr.wf (.bankScrubVisit 0 1536) = false ∧ Instr.wf (.bankScrubVisit 0 1535) = true := by decide +kernel
theorem test_wf_commons : Instr.wf (.commonsQueuedService 24 0) = false ∧ Instr.wf (.commonsQueuedService 0 16) = false := by decide +kernel
theorem test_wf_row : Instr.wf (.colRetrain 32 1) = false := by decide +kernel
theorem test_wf_memory_port : Instr.wf (.memTempRead 0 0) = false ∧ Instr.wf (.memTempRead 52 0) = true := by decide +kernel
theorem test_wf_claim : Instr.wf (.icClaim 5 0) = false ∧ Instr.wf (.icClaim 4 512) = false := by decide +kernel
theorem test_wf_ethernet : Instr.wf (.arpRequest 8 []) = false := by decide +kernel
theorem test_wf_stream : Instr.wf (.txFrame 64 []) = false := by decide +kernel
theorem test_wf_page : Instr.wf (.drbgDataRead 256 15) = false := by decide +kernel
theorem test_wf_link : Instr.wf (.plxTrainingDone 6 4 4 0 0 0) = false := by decide +kernel
theorem test_wf_half : Instr.wf (.plxRetrain 0) = false ∧ Instr.wf (.plxRetrain 340) = true := by decide +kernel
theorem test_wf_domain : Instr.wf (.domainOffDone 53) = false := by decide +kernel

/-! ## Tiles: M-tile 0, V-tile 3, S-tile 4; glove 1, tc 3 -/

theorem test_nop : let s := at_ 0 (ins 0 [(0, 5)])
    goes s 0 3 0x00 (bits 57 16) (fun _ => true) && ok (exec (.nop 0 3) s) (fun t => (tileOf t 0).pc == 1 && (tileOf t 0).tc == 9) := by
  decide +kernel
theorem test_nop_longest : let s := at_ 0 (ins 0 [(0, 65535)])
    goes s 0 3 0x00 (bits 57 16) (fun _ => true) && ok (exec (.nop 0 3) s) (fun t => (tileOf t 0).tc == 65539) := by decide +kernel
theorem test_waitt : let s := at_ 0 (ins 1 [(0, 9)])
    goes s 0 3 0x01 (bits 57 32) (fun c => decide (c.tc ≤ c.f 0 32) && decide (c.f 0 32 < c.stop)) &&
      ok (exec (.waitt 0 3) s) (fun t => (tileOf t 0).pc == 1 && (tileOf t 0).tc == 9) := by decide +kernel
theorem test_waitt_now : let s := at_ 0 (ins 1 [(0, 3)])
    goes s 0 3 0x01 (bits 57 32) (fun c => decide (c.tc ≤ c.f 0 32) && decide (c.f 0 32 < c.stop)) &&
      ok (exec (.waitt 0 3) s) (fun t => (tileOf t 0).tc == 4) := by decide +kernel
theorem test_waitt_late : let s := at_ 0 (ins 1 [(0, 2)])
    goes s 0 3 0x01 (bits 57 32) (fun c => decide (c.f 0 32 < c.tc) && decide (c.f 0 32 < c.stop)) &&
      ok (exec (.waitt 0 3) s) (fun t => (tileOf t 0).tc == 4 && fld (winGet t (tileBase 0 + 0xF2018)) 24 8 == 1) := by decide +kernel
theorem test_yield : let s := at_ 0 (ins 3 [])
    goes s 0 3 0x03 (bits 57 0) (fun _ => true) && ok (exec (.yield 0 3) s) (fun t => (tileOf t 0).ended) := by decide +kernel
theorem test_haltf : let s := adjTile 0 (fun t => { t with fl := 2 ^ 511 }) (at_ 0 (ins 4 [(0, 511)]))
    goes s 0 3 0x04 (bits 57 9) (fun _ => true) &&
      ok (exec (.haltf 0 3) s) (fun t => (kgetD (tileOf t 0).slots 0 SlotSt.blank).dry == 1) := by decide +kernel
theorem test_loop : let s := at_ 0 (ins 2 [(24, 2045), (0, 9)])
    goes s 0 3 0x02 (bits 57 36) (fun c => decide ((tileOf s 0).pc + (c.f 24 12 + 1) < storeWords (kindOf 0))) &&
      ok (exec (.loop 0 3) s) (fun t => (tileOf t 0).loops == [⟨1, 2046, 9⟩] && (tileOf t 0).pc == 1) := by decide +kernel
theorem test_loop_management : let s := adjTile 20 (gSet 7 3 false) (mgmt (ins 2 [(37, 7), (24, 4), (0, 1)]))
    goes s 20 0 0x02 (bits 57 42 ||| bits 36 36) (fun c => bitOf c.word 0 && !gPoison (tileOf s 20) (c.f 37 5)) &&
      ok (exec (.loop 20 0) s) (fun t => (tileOf t 20).loops == [⟨1, 5, 2⟩]) := by decide +kernel
theorem test_loop_management_none : let s := mgmt (ins 2 [(37, 7), (24, 4), (0, 1)])
    goes s 20 0 0x02 (bits 57 42 ||| bits 36 36) (fun c => bitOf c.word 0 && !gPoison (tileOf s 20) (c.f 37 5)) &&
      ok (exec (.loop 20 0) s) (fun t => (tileOf t 20).loops == [] && (tileOf t 20).pc == 6) := by decide +kernel

/-- The flit that tile 0's last act hands over: glove 1, a TAG, poison, barrier mark, data. -/
def handed (t : State) (l : List (Nat × Flit)) : Bool := acts t == l.map fun x => (x.1, .hand x.2)

theorem test_bar : let s := { at_ 0 (ins 8 [(20, 4095), (0, 77)]) with frame := ⟨0, 0, 0, 5, 0, 0, 0⟩ }
    goes s 0 3 0x08 (bits 57 32 ||| bits 19 16) (fun _ => true) &&
      ok (exec (.bar 0 3) s) (fun t => alone t && handed t [(4, ⟨1, 4095, false, true, 1 + 2 ^ 64 * ((sysAt s 3) * 65536 + 77), false⟩)]) := by decide +kernel
theorem test_flag : let s := adjTile 0 (fun t => { t with fl := 6 }) (at_ 0 (ins 0x0A [(20, 9)]))
    goes s 0 3 0x0A (bits 57 32 ||| bits 19 0) (fun _ => true) &&
      ok (exec (.flag 0 3) s) (fun t => alone t && handed t [(4, ⟨1, 9, false, false, 6, false⟩)] &&
        (tileOf (whenDue t) 0).inj == [(6, ⟨1, 9, false, false, 6, false⟩)]) := by decide +kernel
/-- The injection side takes eight words at most (R236). -/
theorem test_hand_full : let f : Flit := ⟨1, 9, false, false, 6, false⟩
    let s := { adjTile 0 (fun t => { t with inj := List.replicate 8 (4, f) }) (at_ 0 0) with agenda := [⟨4, 4, foreign 1 4, .hand f⟩] }
    let s := { s with agenda := [⟨4, 4, { foreign 1 4 with pos := 0 }, .hand f⟩] }
    alone s && (tileOf (whenDue s) 0).inj.length == 8 && fld (winGet (whenDue s) (tileBase 0 + 0xF2018)) 20 4 == 1 := by decide +kernel
theorem test_send_fl : let s := adjTile 0 (fun t => { t with fl := 6 }) (at_ 0 (ins 5 [(56, 2), (20, 9)]))
    goes s 0 3 0x05 (bits 19 0) (fun c => c.f 56 2 == 2 && c.f 32 8 == 0) &&
      ok (exec (.send 0 3) s) (fun t => handed t [(4, ⟨1, 9, false, false, 6, false⟩)]) := by decide +kernel
theorem test_send_block : let s := adjTile 4 (gSet 24 8 false) (at_ 4 (ins 5 [(56, 3), (20, 9)]))
    goes s 4 3 0x05 (bits 19 0) (fun c => c.f 56 2 == 3 && blockHas (kindOf 4) (c.f 32 8 + 1)) &&
      ok (exec (.send 4 3) s) (fun t => handed t [(4, ⟨1, 9, false, false, 8, false⟩)]) := by decide +kernel
theorem test_send_vector : let s := at_ 3 (ins 5 [(56, 3), (40, 2), (32, 15), (20, 9)])
    goes s 3 3 0x05 (bits 19 0) (fun c => c.f 56 2 == 3 && blockHas (kindOf 3) (c.f 32 8 + 1)) &&
      ok (exec (.send 3 3) s) (fun t => (acts t).length == 16 && (acts t).getLast? == some (19, .hand ⟨1, 9, false, false, 0, false⟩)) := by
  decide +kernel
theorem test_send_bank : let s := store (bankBase 0) [7] (bankOn 0 1 (at_ 0 (ins 5 [(40, 0), (32, 1), (20, 9)])))
    goes s 0 3 0x05 (bits 19 0) (fun c => decide (c.f 56 2 < 2)) &&
      ok (exec (.send 0 3) s) (fun t => portServed t && acts (whenDue t) == [(5, .hand ⟨1, 9, false, false, 7, false⟩), (5, .read 0 1 1 [(0, 0)] 0)]) := by
  decide +kernel

theorem test_recv_fl : let s := at_ 0 (ins 6 [(56, 1)])
    goes s 0 3 0x06 (bits 31 0) (fun c => c.f 56 2 == 1 && c.f 32 8 == 0) &&
      ok (exec (.recv 0 3) s) (fun t => (tileOf t 0).recv.any fun r => r.left == 1) := by decide +kernel
theorem test_recv_bank : let s := at_ 0 (ins 6 [(40, 17), (32, 255)])
    goes s 0 3 0x06 (bits 31 0) (fun c => c.f 56 2 == 0) && ok (exec (.recv 0 3) s) (fun t => (tileOf t 0).recv.any fun r => r.left == 256) := by
  decide +kernel
theorem test_barw : let s := at_ 0 (ins 9 [(32, 50), (20, 4)])
    goes s 0 3 0x09 (bits 57 56 ||| bits 19 0) (fun _ => true) && ok (exec (.barw 0 3) s) (fun t => (tileOf t 0).barw == some 4 && (tileOf t 0).tc == 3) := by
  decide +kernel
theorem test_barw_timeout : let s := adjTile 0 (fun t => { t with barw := some 4, tc := 3 }) (at_ 0 (ins 9 [(32, 50), (20, 4)]))
    let r := advance 53 s
    (arrivalCtx r 0 53).any (fun c => dryNow r c == 0) && !bitOf (winGet r (tileBase 0 + 0xF2000)) 31 && !muxStopped s 0 &&
      decide (53 = (tileOf r 0).tc + fld (kgetD (tileOf r 0).store (tileOf r 0).pc 0) 32 24) &&
      ok (exec (.barwTimeout 0 53) s) (fun t => (tileOf t 0).barw == none && (tileOf t 0).tc == 54 &&
        fld (winGet t (tileBase 0 + 0xF2000)) 0 8 == 11) := by decide +kernel
theorem test_ldp : let s := store (bankBase 0 + 16) [9] (bankOn 0 1 (at_ 0 (ins 0x0B [(36, 12)])))
    goes s 0 3 0x0B (bits 33 0) (fun c => decide (c.f 56 2 < 2) && decide (c.f 36 4 + 4 * (c.f 34 2 + 1) ≤ 16)) &&
      ok (exec (.ldp 0 3) s) (fun t => portServed t && pmGet (tileOf (advance 6 t) 0) 13 == 9 && pmGet (tileOf (advance 5 t) 0) 13 == 0) := by decide +kernel
/-- A message of one data word to tile 0's bank 0, both destinations but one absent. -/
def aMessage (tag : Nat) : State :=
  store (bankBase 16 + 64) [5] (store (bankBase 16 + 12) [tag] (store (bankBase 16) [0, 0, 0xFF, 0xFF] (bankOn 16 1 (at_ 4 (ins 7 [])))))
theorem test_sendm : let s := aMessage 1
    goes s 4 3 0x07 (bits 39 0) (fun c => let h := msgHead (wordAt s 16 0).1
        !h.bad && h.ndata == 1 && h.kind == 0 && h.dead s.plat.fuse c.pos == []) &&
      ok (exec (.sendm 4 3) s) (fun t => portServed t && portServed (whenDue t) &&
        ((tileOf (after_ 2 t) 4).msgq.map fun f => (f.vc, f.glove, f.pay)) == [(1, 1, .head), (1, 1, .word 5 none)]) := by decide +kernel
theorem test_sendm_full : let f := vcFlit 1 1 [] .head false false
    let s := adjTile 4 (fun t => { t with msgq := List.replicate 511 f }) (aMessage 1)
    goes s 4 3 0x07 (bits 39 0) (fun _ => true) &&
      ok (exec (.sendm 4 3) s) (fun t => portServed t && (tileOf (advance 9 t) 4).msgq.length == 511 &&
        fld (winGet (whenDue t) (tileBase 4 + 0xF2018)) 8 8 == 1) := by decide +kernel

theorem test_alu : let s := adjTile 4 (gSet 1 (2 ^ 64 - 1) false) (adjTile 4 (gSet 2 3 false) (at_ 4 (ins 0x30 [(47, 3), (42, 1), (37, 2)])))
    goes s 4 3 0x30 (bits 36 0) (fun c => !readsPoison c s [c.f 42 5, c.f 37 5] && (aluResult (c.f 52 6) 0 0).isSome) &&
      ok (exec (.alu 4 3) s) (fun t => alone t && gGet (tileOf (whenDue t) 4) 3 == 2) := by decide +kernel
theorem test_alu_g0 : let s := at_ 4 (ins 0x30 [(52, 11)])
    goes s 4 3 0x30 (bits 36 0) (fun c => !readsPoison c s [c.f 42 5, c.f 37 5]) &&
      ok (exec (.alu 4 3) s) (fun t => (acts t).map (·.1) == [37] && gGet (tileOf (whenDue t) 4) 0 == 0) := by decide +kernel
theorem test_alu_management : let s := adjTile 20 (gSet 1 7 false) (mgmt (ins 0x30 [(47, 3), (42, 1), (37, 1)]))
    goes s 20 0 0x30 (bits 36 0) (fun c => c.free && !readsPoison c s [c.f 42 5, c.f 37 5]) && s.agenda == [] &&
      ok (exec (.alu 20 0) s) (fun t => gGet (tileOf t 20) 3 == 14 && t.agenda == []) := by decide +kernel
theorem test_alui : let s := at_ 4 (ins 0x31 [(52, 1), (47, 3), (10, 1)])
    goes s 4 3 0x31 (bits 9 0) (fun c => !readsPoison c s [c.f 42 5]) && ok (exec (.alui 4 3) s) (fun t => gGet (tileOf (whenDue t) 4) 3 == 2 ^ 64 - 1) := by
  decide +kernel
theorem test_li : let s := at_ 4 (ins 0x37 [(48, 3), (0, 2 ^ 31)])
    goes s 4 3 0x37 (bits 57 53 ||| bits 46 32) (fun c => !bitOf c.word 47) &&
      ok (exec (.li 4 3) s) (fun t => gGet (tileOf (whenDue t) 4) 3 == 2 ^ 64 - 2 ^ 31) := by decide +kernel
theorem test_li_high : let s := adjTile 4 (gSet 3 5 false) (at_ 4 (ins 0x37 [(48, 3), (47, 1), (0, 7)]))
    goes s 4 3 0x37 (bits 57 53 ||| bits 46 32) (fun c => bitOf c.word 47 && !readsPoison c s [c.f 48 5]) &&
      ok (exec (.li 4 3) s) (fun t => gGet (tileOf (whenDue t) 4) 3 == 5 + 7 * 2 ^ 32) := by decide +kernel
theorem test_fls_read : let s := adjTile 4 (fun t => { t with fl := 2 ^ 511 }) (at_ 4 (ins 0x38 [(49, 511), (44, 3), (43, 1)]))
    goes s 4 3 0x38 (bits 42 0) (fun c => bitOf c.word 43) && ok (exec (.fls 4 3) s) (fun t => gGet (tileOf (whenDue t) 4) 3 == 1) := by decide +kernel
theorem test_fls_write : let s := adjTile 4 (gSet 3 5 false) (at_ 4 (ins 0x38 [(49, 511), (44, 3)]))
    goes s 4 3 0x38 (bits 42 0) (fun c => !bitOf c.word 43 && !readsPoison c s [c.f 44 5]) &&
      ok (exec (.fls 4 3) s) (fun t => alone t && (tileOf (whenDue t) 4).fl == 2 ^ 511) := by decide +kernel
theorem test_sys_fpflags : let s := adjTile 4 (fun t => { t with s := { t.s with fp := 21 } }) (at_ 4 (ins 0x36 [(48, 3), (32, 4)]))
    goes s 4 3 0x36 (bits 55 53 ||| bits 31 0) (fun c => !bitOf c.word 56 && !bitOf c.word 57 && decide (c.f 32 16 < 5)) &&
      ok (exec (.sys 4 3) s) (fun t => gGet (tileOf (whenDue t) 4) 3 == 21) := by decide +kernel
theorem test_sys_relaxed : let s := at_ 4 (ins 0x36 [(48, 3), (32, 5)])
    let s := odSet { s with launches := [(7, { aLaunch with relaxed := true })] } 0x2100 3 66
    goes s 4 3 0x36 (bits 55 53 ||| bits 31 0) (fun c => c.f 32 16 == 5 && runsRelaxed c s) &&
      ok (exec (.sys 4 3) s) (fun t => gGet (tileOf (whenDue t) 4) 3 == 66 && (kget t.launches 7).any fun l => l.nd == 1) := by decide +kernel
theorem test_sys_write : let s := adjTile 4 (gSet 3 0x25 false) (at_ 4 (ins 0x36 [(57, 1), (48, 3), (32, 4)]))
    goes s 4 3 0x36 (bits 55 53 ||| bits 31 0) (fun c => bitOf c.word 57 && c.f 32 16 == 4 && !readsPoison c s [c.f 48 5]) &&
      ok (exec (.sys 4 3) s) (fun t => alone t && (tileOf (whenDue t) 4).s.fp == 5) := by decide +kernel
theorem test_waiti : let s := mgmt (ins 0x36 [(56, 1)])
    goes s 20 0 0x36 (bits 55 53 ||| bits 31 0) (fun c => bitOf c.word 56 && c.free) && !watchHit s &&
      ok (exec (.sys 20 0) s) (fun t => (tileOf t 20).waiti && (tileOf t 20).pc == 0) := by decide +kernel
/-- 1.0 + 2.0 = 3.0 (R250). -/
theorem test_fpu : let s := adjTile 4 (gSet 1 0x3FF0000000000000 false) (adjTile 4 (gSet 2 0x4000000000000000 false) (at_ 4 (ins 0x32 [(52, 0x30), (47, 3), (42, 1), (37, 2)])))
    goes s 4 3 0x32 (bits 36 0) (fun c => !readsPoison c s (fpuReads c) && (fpuResult (c.f 52 6) 0x3FF0000000000000 0x4000000000000000).isSome) &&
      ok (exec (.fpu 4 3) s) (fun t => gGet (tileOf (whenDue t) 4) 3 == 0x4008000000000000 && (tileOf (whenDue t) 4).s.fp == 0) := by decide +kernel
theorem test_ld : let s := store (bankBase 16 + 8) [0x80] (bankOn 16 1 (at_ 4 (ins 0x33 [(48, 3), (53, 1), (19, 8)])))
    goes s 4 3 0x33 (bits 18 0) (fun c => (issueCause c (memCauses c s [c.f 43 5])).isNone) &&
      ok (exec (.ld 4 3) s) (fun t => portServed t && gGet (tileOf (after_ 2 t) 4) 3 == 2 ^ 64 - 128) := by decide +kernel
theorem test_st : let s := adjTile 4 (gSet 3 0x1122334455667788 false) (bankOn 17 1 (at_ 4 (ins 0x34 [(54, 3), (48, 3), (43, 5)])))
    let s := adjTile 4 (gSet 5 (2 ^ 17 - 8) false) s
    goes s 4 3 0x34 (bits 18 0 ||| bits 53 53) (fun c => (issueCause c (memCauses c s [c.f 43 5, c.f 48 5])).isNone && c.dry == 0 && memWf s.mem) &&
      ok (exec (.st 4 3) s) (fun t => portServed t && loadNat (whenDue t) (bankBase 17 + 65528) 8 == 0x1122334455667788) := by decide +kernel
theorem test_br : let s := at_ 4 (ins 0x35 [(32, 5)])
    goes s 4 3 0x35 (bits 31 0) (fun c => !c.free && brTaken (c.f 54 4) 0 0 == some true && c.f 32 12 != 0 &&
        decide ((tileOf s 4).pc + 1 + c.f 32 12 < 8192) && (tileOf s 4).loops.isEmpty) &&
      ok (exec (.br 4 3) s) (fun t => (tileOf t 4).pc == 6 && (tileOf t 4).tc == 6) := by decide +kernel
theorem test_br_management : let s := mgmt (ins 0x35 [(32, 4095)])
    goes s 20 0 0x35 (bits 31 0) (fun c => c.free && c.f 54 4 != 8 && brTaken (c.f 54 4) 0 0 == some true) &&
      ok (exec (.br 20 0) s) (fun t => (tileOf t 20).pc == 0) := by decide +kernel
theorem test_br_register : let s := adjTile 20 (gSet 5 100 false) (mgmt (ins 0x35 [(54, 8), (49, 5)]))
    goes s 20 0 0x35 (bits 31 0) (fun c => c.free && c.f 54 4 == 8 && !readsPoison c s [c.f 49 5]) &&
      ok (exec (.br 20 0) s) (fun t => (tileOf t 20).pc == 100) := by decide +kernel

/-- Slot 127 gains 64 lanes times codebook 0, of 8-bit elements at word 1535. -/
theorem test_lac : let s := bankOn 0 1 (at_ 0 (ins 0x10 [(40, 1535), (26, 127), (25, 1)]))
    goes s 0 3 0x10 (bits 0 0) (fun c => (lacOf c.word).src == 0 && (lacOf c.word).formOk && decide (1535 + (lacOf c.word).words ≤ bankWords 0)) &&
      ok (exec (.lac 0 3) s) (fun t => portServed t && kgetD (tileOf (advance 200 t) 0).m.acc 127 [] == List.replicate 128 0 &&
        winGet (advance 6 t) (tileBase 0 + 0xF1010) == 1) := by decide +kernel
theorem test_lac_mesh : let s := at_ 0 (ins 0x10 [(56, 3), (25, 1)])
    goes s 0 3 0x10 (bits 0 0) (fun c => (lacOf c.word).src == 3 && (lacOf c.word).formOk) &&
      ok (exec (.lac 0 3) s) (fun t => (tileOf t 0).m.meshRd.isSome && (acts t).map (·.1) == [7]) := by decide +kernel
theorem test_lac_pair : let s := bankOn 0 1 (bankOn 1 1 (at_ 0 (ins 0x10 [(56, 1), (24, 1), (25, 1)])))
    goes s 0 3 0x10 (bits 0 0) (fun c => (lacOf c.word).src == 1 && (lacOf c.word).formOk) &&
      ok (exec (.lac 0 3) s) (fun t => portServed t && bankState t 1 == 3 && bankOwner t 1 == 1 &&
        (acts (whenDue t)).any fun x => x == (6, .vector 0 0 0 false)) := by decide +kernel
theorem test_ldc_codebook : let s := store (bankBase 0) [0xFF, 0x7F] (bankOn 0 1 (at_ 0 (ins 0x11 [(38, 1)])))
    goes s 0 3 0x11 (bits 27 0) (fun c => c.f 38 2 == 1 && c.f 56 2 == 0) &&
      ok (exec (.ldcB 0 3) s) (fun t => portServed t && fld (kgetD (tileOf (advance 6 t) 0).m.book 0 0) 0 16 == 0x7FFF) := by decide +kernel
theorem test_ldc_array : let s := store (bankBase 0) [0x21] (bankOn 0 1 (at_ 0 (ins 0x11 [])))
    goes s 0 3 0x11 (bits 27 0) (fun c => c.f 38 2 == 0 && c.f 56 2 == 0) &&
      ok (exec (.ldcA 0 3) s) (fun t => fld (kgetD (tileOf (advance 6 t) 0).m.codes 0 0) 0 8 == 0x21 && acts (whenDue t) == 
        [(5, .read 0 1 1 [(0, 0)] 0), (6, .load 0 0x21 0 false), (68, .free unitLoad)]) := by decide +kernel
theorem test_ldc_slot : let s := store (bankBase 0) [5] (bankOn 0 1 (at_ 0 (ins 0x11 [(38, 2), (29, 127), (28, 1)])))
    goes s 0 3 0x11 (bits 27 0) (fun c => c.f 38 2 == 2 && c.f 56 2 == 0) &&
      ok (exec (.ldcS 0 3) s) (fun t => (accRows (tileOf (advance 6 t) 0).m 127).getD 0 0 == 5) := by decide +kernel
/-- One element of 5 with ZA 1... columns: (5 - ZA) times codebook entry 3 at element 0; every other element is 0. -/
theorem test_row_sums : let q := lacOf (ins 0x10 [(25, 1), (2, 1)])
    let m := { Tile.blank.m with book := [(0, 3)] }
    q.set = true ∧ m.hist = [] ∧ (accRows (q.apply 0 (q.columns m 5 (q.elements 5 0)) false m) 0).getD 0 0 = 2 ^ 64 - 177 := by decide +kernel
theorem test_rsc : let s := adjTile 0 (pmSet 0 (1 + 3 * 2 ^ 40 + 0xFFFF * 2 ^ 112) false) (at_ 0 (ins 0x12 [(43, 1), (11, 9)]))
    goes s 0 3 0x12 (bits 10 0) (fun c => bitOf c.word 43 && !(rescaleOf (pmGet (tileOf s 0) (c.f 23 4))).bad &&
        !pmBad (tileOf s 0) (c.f 23 4) && (rescaleOf (pmGet (tileOf s 0) (c.f 23 4))).tag == 0xFFFF) &&
      ok (exec (.rsc 0 3) s) (fun t => alone t && (acts (whenDue t)).map (·.1) == [6, 9, 13]) := by decide +kernel
theorem test_topk : let s := adjTile 0 (pmSet 0 (1 + 3 * 2 ^ 40 + 0xFFFF * 2 ^ 112) false) (at_ 0 (ins 0x13 [(43, 1), (35, 7), (18, 9)]))
    goes s 0 3 0x13 (bits 17 0) (fun c => bitOf c.word 43 && !bitOf c.word 34 && c.f 30 4 % 2 == 0 &&
        !(rescaleOf (pmGet (tileOf s 0) (c.f 30 4))).bad && (rescaleOf (pmGet (tileOf s 0) (c.f 30 4))).tag == 0xFFFF) &&
      ok (exec (.topk 0 3) s) (fun t => alone t && ((tileOf (advance 100 t) 0).inj.map fun x => (lane x.2.data 0, lane x.2.data 7)) == [(0, 7)]) := by decide +kernel

/-- The registers of a V-tile once everything under way has landed. -/
def vEnd (t : State) : Tile := tileOf (advance 200 t) 3

theorem test_vld : let s := store (bankBase 12) [7] (bankOn 12 1 (at_ 3 (ins 0x20 [(36, 15), (32, 15)])))
    goes s 3 3 0x20 (bits 31 0) (fun c => decide (c.f 56 2 < 2)) &&
      ok (exec (.vld 3 3) s) (fun t => portServed t && (vxGet (vEnd t) 15).take 2 == [7, 0]) := by decide +kernel
theorem test_lanes_land : let s := { at_ 3 0 with agenda := [⟨5, 5, { foreign 1 5 with pos := 3 }, .land (.lanes 2 [(0, 7), (255, 9)] (some true))⟩] }
    alone s && (vxGet (tileOf (whenDue s) 3) 2).getD 255 0 == 9 && vxPoison (tileOf (whenDue s) 3) 2 := by decide +kernel
theorem test_vst : let s := adjTile 3 (vxPut 2 (5 :: List.replicate 255 9)) (bankOn 12 1 (at_ 3 (ins 0x21 [(40, 1023), (36, 2)])))
    goes s 3 3 0x21 (bits 31 0) (fun c => decide (c.f 56 2 < 2) && !vxPoison (tileOf s 3) (c.f 36 4) && c.dry == 0) &&
      ok (exec (.vst 3 3) s) (fun t => portServed (after_ 1 t) && loadNat (advance 5 t) (bankBase 12 + 65472) 8 == 5 + 9 * 2 ^ 32 && (tileOf t 3).pc == 1) := by decide +kernel
/-- Lanes 0 to 31 take the difference 2 - 3; the others stay (R245). -/
theorem test_vop : let s := adjTile 3 (vxPut 1 (List.replicate 256 2)) (adjTile 3 (vxPut 2 (List.replicate 256 3)) (at_ 3 (ins 0x22 [(52, 1), (48, 5), (44, 1), (40, 2), (0, 1)])))
    goes s 3 3 0x22 0 (fun c => decide (c.f 52 6 < 17)) &&
      ok (exec (.vop 3 3) s) (fun t => vxGet (vEnd t) 5 == List.replicate 32 (2 ^ 32 - 1) ++ List.replicate 224 0) := by decide +kernel
/-- Functions 17, 19, 20 and 21 with lanes 0 to 31 enabled. -/
theorem test_vop_flags : let s := adjTile 3 (vxPut 1 (List.replicate 256 2)) (at_ 3 (ins 0x22 [(52, 17), (48, 5), (44, 1), (0, 1)]))
    goes s 3 3 0x22 0 (fun c => c.f 52 6 == 17) && ok (exec (.vop 3 3) s) (fun t => (vEnd t).fl == 2 ^ 32 - 1) := by decide +kernel
theorem test_vop_marks : let s := adjTile 3 (vxPut 1 (List.replicate 256 2)) (at_ 3 (ins 0x22 [(52, 19), (48, 5), (44, 1), (0, 1)]))
    goes s 3 3 0x22 0 (fun c => c.f 52 6 == 19) && ok (exec (.vop 3 3) s) (fun t => (vEnd t).v.gm == 2 ^ 32 - 1) := by decide +kernel
theorem test_vop_event : let s := adjTile 3 (fun t => { t with v := { t.v with ev := [0, 0, 0, 2 ^ 32 + 7] } }) (at_ 3 (ins 0x22 [(52, 20), (48, 5), (8, 3), (0, 1)]))
    goes s 3 3 0x22 0 (fun c => c.f 52 6 == 20 && laneOn (c.f 0 8) 0) && ok (exec (.vop 3 3) s) (fun t => (vxGet (vEnd t) 5).take 2 == [7, 1]) := by decide +kernel
theorem test_vop_clear : let s := adjTile 3 (fun t => { t with v := { t.v with ev := [1, 1, 1, 2 ^ 32 + 7] } }) (at_ 3 (ins 0x22 [(52, 21), (8, 3), (0, 1)]))
    goes s 3 3 0x22 0 (fun c => c.f 52 6 == 21) && ok (exec (.vop 3 3) s) (fun t => (vEnd t).v.ev == [1, 1, 1, 0]) := by decide +kernel
/-- exp2 of 0 is 1.0 (R199). -/
theorem test_vlut : let s := at_ 3 (ins 0x23 [(48, 5), (0, 128)])
    goes s 3 3 0x23 (bits 56 52 ||| bits 43 8) (fun c => !((lanesOn (c.f 0 8)).flatMap fun l => expReads (sl (vxGet (tileOf s 3) 0) l)).any (romFails s 3 false)) &&
      ok (exec (.vlut 3 3) s) (fun t => (vxGet (vEnd t) 5).getD 255 0 == expLut 0 && (vxGet (vEnd t) 5).getD 0 1 == 0) := by decide +kernel
/-- A ROM word whose parity fails is used as read, flagged and reported (R201). -/
theorem test_vlut_parity : let s := { adjTile 3 (vxPut 0 (List.replicate 256 (2 ^ 32 - 1024))) (at_ 3 (ins 0x23 [(48, 5), (0, 1)])) with
      rom := [(romKey 3 false 1, ⟨5, true⟩)] }
    goes s 3 3 0x23 (bits 56 52 ||| bits 43 8) (fun c => ((lanesOn (c.f 0 8)).flatMap fun l => expReads (sl (vxGet (tileOf s 3) 0) l)).any (romFails s 3 false)) &&
      ok (exec (.vlut 3 3) s) (fun t => (vxGet (vEnd t) 5).getD 0 0 == 5 && bitOf (winGet t (tileBase 3 + 0xF1000)) 0) := by decide +kernel
theorem test_dinc : let s := at_ 3 (ins 0x29 [(55, 7), (52, 4), (20, 2 ^ 32 - 1)])
    goes s 3 3 0x29 (bits 19 0) (fun c => decide (c.f 52 3 < 5) && !pmBad (tileOf s 3) (8 + c.f 55 3)) &&
      ok (exec (.dinc 3 3) s) (fun t => pmGet (vEnd t) 15 == 255 * 2 ^ 96) := by decide +kernel
theorem test_samp_uniform : let s := at_ 3 (ins 0x24 [(51, 12), (40, 7), (32, 1)])
    goes s 3 3 0x24 (bits 31 0) (fun c => c.f 55 3 == 0 && decide (c.f 40 4 < 8) && decide (c.f 51 4 ≤ 12)) &&
      ok (exec (.sampUniform 3 3) s) (fun t => (vxGet (vEnd t) 15).getD 31 0 == (steppe (counter 31 0 0 0 0) 0).getD 3 0 &&
        (vxGet (vEnd t) 15).getD 32 1 == 0) := by decide +kernel
theorem test_samp_bernoulli : let s := adjTile 3 (pmSet 0 (2 ^ 32 - 1) false) (at_ 3 (ins 0x24 [(55, 1), (51, 4), (32, 1)]))
    goes s 3 3 0x24 (bits 31 0) (fun c => c.f 55 3 == 1 && decide (c.f 40 4 < 8) && (drawOf (tileOf s 3) (c.f 44 3)).base % 4 == 0 &&
        (vxGet (tileOf s 3) (c.f 51 4)).all (fun x => decide (x < 2 ^ 32))) &&
      ok (exec (.sampBernoulli 3 3) s) (fun t => (vxGet (vEnd t) 4).take 5 == List.replicate 4 (2 ^ 32 - 1) ++ [0]) := by decide +kernel
theorem test_samp_gaussian : let s := at_ 3 (ins 0x24 [(55, 2), (51, 4), (32, 0)])
    goes s 3 3 0x24 (bits 31 0) (fun c => c.f 55 3 == 2 && decide (c.f 40 4 < 8)) &&
      ok (exec (.sampGaussian 3 3) s) (fun t => (tileOf t 3).pc == 1) := by decide +kernel
theorem test_samp_metropolis : let s := at_ 3 (ins 0x24 [(55, 3), (51, 4), (47, 14), (40, 7), (32, 0)])
    goes s 3 3 0x24 (bits 31 0) (fun c => c.f 55 3 == 3 && decide (c.f 40 4 < 8) && c.f 47 4 != 15) &&
      ok (exec (.sampMetropolis 3 3) s) (fun t => (tileOf t 3).pc == 1) := by decide +kernel
theorem test_samp_heat_bath : let s := at_ 3 (ins 0x24 [(55, 4), (51, 4), (47, 6), (32, 0)])
    goes s 3 3 0x24 (bits 31 0) (fun c => c.f 55 3 == 4 && decide (c.f 40 4 < 8) && c.f 47 4 != 15) &&
      ok (exec (.sampHeatBath 3 3) s) (fun t => (tileOf t 3).pc == 1) := by decide +kernel
theorem test_dyn_step : let s := at_ 3 (ins 0x25 [(52, 1), (48, 2), (44, 3), (37, 7), (29, 1)])
    goes s 3 3 0x25 (bits 28 0) (fun c => c.f 56 2 == 0 && decide (c.f 37 4 < 8) && c.f 52 4 != c.f 44 4 && laneOn (c.f 29 8) 31) &&
      ok (exec (.dynStep 3 3) s) (fun t => (tileOf t 3).pc == 1 && (vxGet (vEnd t) 3).getD 0 0 == 0x8000) := by decide +kernel
/-- One group of 256 lanes: a pair of equal members moves nothing. -/
theorem test_dyn_group_transfer : let s := adjTile 3 (fun t => { t with v := { t.v with gm := 1 } }) (at_ 3 (ins 0x25 [(56, 1), (52, 1), (48, 2), (44, 3), (29, 1)]))
    goes s 3 3 0x25 (bits 28 0) (fun c => c.f 56 2 == 1 && decide (c.f 37 4 < 8) && !shortGroup (tileOf s 3) && laneOn (c.f 29 8) 0) &&
      (laneGroups (tileOf s 3).v.gm == [(0, 256)]) &&
      ok (exec (.dynGroupTransfer 3 3) s) (fun t => (tileOf t 3).pc == 1 && (vxGet (vEnd t) 1).getD 0 1 == 0) := by decide +kernel
theorem test_dyn_group_round : let s := adjTile 3 (fun t => { t with v := { t.v with gm := 1 } }) (at_ 3 (ins 0x25 [(56, 2), (52, 1), (48, 2), (44, 3), (29, 1)]))
    goes s 3 3 0x25 (bits 28 0) (fun c => c.f 56 2 == 2 && decide (c.f 37 4 < 8) && !shortGroup (tileOf s 3)) &&
      ok (exec (.dynGroupRound 3 3) s) (fun t => (vxGet (vEnd t) 3).getD 0 0 == Nat.xor (unsigned 16 (-16384)) 0x8000) := by decide +kernel

/-- The state in which a CATS or QLD looks at what it has read. -/
def looks (t : State) : State := after_ 1 t
/-- Eight candidates with score 0 and temperature 0: the first is kept, alone, with rank 0. -/
theorem test_cats : let s := bankOn 12 1 (at_ 3 (ins 0x26 [(32, 7), (24, 255), (20, 7), (17, 7), (13, 15)]))
    goes s 3 3 0x26 (bits 12 0) (fun c => decide (c.f 56 2 < 2) && decide (c.f 20 4 < 8) && !pmBad (tileOf s 3) (c.f 20 4) && !pmBad (tileOf s 3) (8 + c.f 17 3)) &&
      ok (exec (.cats 3 3) s) (fun t => portServed t && acts t == [(4, .read 12 0 0 [(0, 0)] 0), (5, .free unitPortA), (67, .free unitSampler)] &&
        (vxGet (vEnd t) 15).take 2 == [0, 1]) := by decide +kernel
theorem test_cats_looks : let c : Ctx := ⟨3, 3, ins 0x26 [(32, 7), (24, 255), (20, 7), (17, 7), (13, 15)], 1, 0, 0, 7, 0, 10000, false⟩
    let s := { at_ 3 0 with agenda := [⟨43, 43, c, .check [(0, 0), (0, 0)] 0⟩] }
    alone s && catsSelect (tileExp s 3) (candsOf (c.f 32 8 + 1) [0]) (c.f 24 8 + 1) 0 0 ((steppe (counter 0 0 0 0 0) (seedOf (tileOf s 3) c)).headD 0) == some ((0, 0), 1, 0) &&
      (catsReads (candsOf (c.f 32 8 + 1) [0]) (c.f 24 8 + 1) 0).all (fun k => !romFails s 3 false k) &&
      acts (whenDue s) == [(83, .land (.lanes 15 [(0, 0), (1, 1)] none))] := by decide +kernel
/-- Two entries, values 0 and 1, codes 0 and 1. -/
theorem test_qld : let s := adjTile 3 (pmSet 7 1 false) (store (bankBase 12 + 2) [1, 1] (bankOn 12 1 (at_ 3 (ins 0x27 [(31, 2), (26, 7)]))))
    goes s 3 3 0x27 (bits 25 0) (fun c => decide (c.f 56 2 < 2) && decide (c.f 26 4 < 8) && !pmBad (tileOf s 3) (c.f 26 4)) &&
      ok (exec (.qld 3 3) s) (fun t => portServed t && (vEnd t).v.map == some ⟨false, 1, [(0, 0), (1, 1)]⟩) := by decide +kernel
theorem test_qld_looks : let c : Ctx := ⟨3, 3, ins 0x27 [(31, 2), (26, 7)], 1, 0, 0, 7, 0, 10000, false⟩
    let s := { at_ 3 0 with agenda := [⟨13, 13, c, .check [(1, 0), (0x01010000, 0)] 0⟩] }
    alone s && mapOk (bitOf c.word 30) (c.f 31 9) 1 (mapEntries (c.f 31 9) [0x01010000]) &&
      acts (whenDue s) == [(14, .land (.map ⟨false, 1, mapEntries 2 [0x01010000]⟩))] := by decide +kernel
theorem test_qmap : let s := adjTile 3 (fun t => { t with v := { t.v with map := some ⟨false, 1, [(0, 3), (1, 1)]⟩ } }) (at_ 3 (ins 0x28 [(54, 1), (50, 2), (34, 0xFFFF), (26, 1)]))
    goes s 3 3 0x28 (bits 25 0) (fun c => !vxPoison (tileOf s 3) (c.f 54 4) && c.f 34 16 == 0xFFFF && (tileOf s 3).v.map.any (fun m => m.entries.all fun e => decide (e.2 < 16))) &&
      ok (exec (.qmap 3 3) s) (fun t => (vxGet (vEnd t) 2).headD 0 == 0x33333333) := by decide +kernel
/-- With a TAG: a record of 32 zeros for row 0 of bank 13, of the same cluster. -/
theorem test_qmap_statistics :
    let s := adjTile 3 (fun t => { t with
      v := { t.v with map := some ⟨false, 1, [(0, 3), (1, 1)]⟩ }
      slots := [(0, { SlotSt.blank with launch := 7, statBank := some 13, statRows := 1 })] }) (at_ 3 (ins 0x28 [(54, 1), (50, 2), (34, 0), (26, 1)]))
    goes s 3 3 0x28 (bits 25 0) (fun c => (statBankOf s c).1 == some 13 && decide (c.f 34 16 < (statBankOf s c).2) && c.dry == 0 && bankCluster 13 == clusterOf 3) &&
      ok (exec (.qmap 3 3) s) (fun t => (acts t).any fun x => match x with
        | (12, .stat 13 0 v) => fld v 0 64 == 0 && fld v 64 64 == 32 && fld v 128 64 == 0
        | _ => false) := by decide +kernel

/-- The exceptions of ExceptionsArePrecise: what an instruction leaves, for a cause. -/
def faults (s : State) (pos cause : Nat) (i : Instr) : Bool :=
  (kget (tileOf s pos).slots 0).any (fun x => x.dry == 0) && !bitOf (winGet s (tileBase pos + 0xF2000)) 31 &&
    ok (exec i s) fun t => winGet t (tileBase pos + 0xF2000) == cause + 2 ^ 8 + 2 ^ 31 && winGet t (tileBase pos + 0xF2008) == 3 &&
      (kgetD (tileOf t pos).slots 0 SlotSt.blank).dry == 2 && t.agenda == []
/-- The context of tile 0, 3 or 4 in the tests: glove 1, outside a dry run. -/
def plain (s : State) (c : Ctx) : Bool := c.dry == 0 && dryNow s c == 0 && decide (c.glove < 256) && decide (c.win < 64) && decide (c.lslot < 16)

/-- An opcode that no tile has: ILLEGAL, cause 1, and the launch slot is faulted from that tc. -/
theorem test_illegal : let s := at_ 0 (ins 0x3F [])
    (match fetch s 0 3 0x00 (bits 57 16) with
      | .illegal c => plain s c
      | _ => false) && faults s 0 1 (.nop 0 3) := by decide +kernel
theorem test_waitt_operand : let s := at_ 0 (ins 1 [(0, 10000)])
    goes s 0 3 0x01 (bits 57 32) (fun c => plain s c && decide (c.stop ≤ c.f 0 32)) && faults s 0 2 (.waitt 0 3) := by decide +kernel
theorem test_loop_depth : let s := at_ 0 (ins 2 [(24, 4095)])
    goes s 0 3 0x02 (bits 57 36) (fun c => plain s c && decide (storeWords (kindOf 0) ≤ (tileOf s 0).pc + (c.f 24 12 + 1))) && faults s 0 13 (.loop 0 3) := by decide +kernel
theorem test_send_illegal : let s := at_ 0 (ins 5 [(56, 2), (32, 1)])
    goes s 0 3 0x05 (bits 19 0) (fun c => plain s c && c.f 56 2 == 2 && c.f 32 8 != 0) && faults s 0 1 (.send 0 3) := by decide +kernel
theorem test_recv_illegal : let s := at_ 0 (ins 6 [(56, 3)])
    goes s 0 3 0x06 (bits 31 0) (fun c => plain s c && c.f 56 2 == 3) && faults s 0 1 (.recv 0 3) := by decide +kernel
theorem test_ldp_illegal : let s := at_ 0 (ins 0x0B [(56, 2)])
    goes s 0 3 0x0B (bits 33 0) (fun c => plain s c && decide (2 ≤ c.f 56 2)) && faults s 0 1 (.ldp 0 3) := by decide +kernel
theorem test_ldp_operand : let s := at_ 0 (ins 0x0B [(36, 13)])
    goes s 0 3 0x0B (bits 33 0) (fun c => plain s c && decide (16 < c.f 36 4 + 4 * (c.f 34 2 + 1))) && faults s 0 2 (.ldp 0 3) := by decide +kernel
theorem test_vld_illegal : let s := at_ 3 (ins 0x20 [(56, 3)])
    goes s 3 3 0x20 (bits 31 0) (fun c => plain s c && decide (2 ≤ c.f 56 2)) && faults s 3 1 (.vld 3 3) := by decide +kernel
theorem test_vst_poison : let s := adjTile 3 (fun t => { t with v := { t.v with poison := [2] } }) (at_ 3 (ins 0x21 [(36, 2)]))
    goes s 3 3 0x21 (bits 31 0) (fun c => plain s c && vxPoison (tileOf s 3) (c.f 36 4)) && faults s 3 5 (.vst 3 3) := by decide +kernel
theorem test_alu_illegal : let s := at_ 4 (ins 0x30 [(52, 18)])
    goes s 4 3 0x30 (bits 36 0) (fun c => plain s c && decide (18 ≤ c.f 52 6)) && faults s 4 1 (.alu 4 3) := by decide +kernel
theorem test_alu_poison : let s := adjTile 4 (gSet 2 3 true) (at_ 4 (ins 0x30 [(47, 3), (42, 1), (37, 2)]))
    goes s 4 3 0x30 (bits 36 0) (fun c => plain s c && gPoison (tileOf s 4) (c.f 37 5)) && faults s 4 5 (.alu 4 3) := by decide +kernel
theorem test_st_misaligned : let s := at_ 4 (ins 0x34 [(54, 3), (19, 4)])
    goes s 4 3 0x34 (bits 18 0 ||| bits 53 53) (fun c => plain s c && !readsPoison c s [c.f 43 5, c.f 48 5] && !addrBad (c.f 56 2 == 1) (memAddr c (tileOf s 4)) &&
      memAddr c (tileOf s 4) % 2 ^ c.f 54 2 != 0) && faults s 4 9 (.st 4 3) := by decide +kernel
/-! ## References, clocks, domains, supplies -/

theorem test_ref_loss_in_use : let s := winSet powered clkRef 0b10011
    refBit s 0 && refBit s 2 == false && refBit s 3 == false && refBit s 1 &&
      ok (exec (.refLoss false) s) (fun t => !refBit t 0 && odGet t 0x2800 3 == 1 && refBit t 3 && !refBit t 4 && t.plat.relock == some true &&
        irqPending t 481 && irqPending t 482 && t.safety == s.safety) := by decide +kernel
theorem test_ref_loss_both : let s := winSet { powered with safety := ⟨0, true, 0, [], 0, []⟩ } clkRef 0b10110
    refBit s 1 && !refBit s 0 && refBit s 2 &&
      ok (exec (.refLoss true) s) (fun t => !t.safety.outs && bitOf t.safety.causes 6 && bitOf t.safety.holding 6 && refBit t 5 && t.plat.relock == none) := by
  decide +kernel
theorem test_ref_loss_other : let s := winSet powered clkRef 0b10011
    refBit s 1 && !refBit s 2 && ok (exec (.refLoss true) s) (fun t => !refBit t 3 && refBit t 4 && t.plat == s.plat) := by decide +kernel
theorem test_ref_loss_again : let s := winSet powered clkRef 0b10001
    !refBit s 1 && same (exec (.refLoss true) s) s := by decide +kernel
theorem test_ref_valid : let s := winSet powered clkRef 0b01001
    s.plat.waiting.isNone && !refBit s 1 && refBit s 3 &&
      ok (exec (.refValid true) s) (fun t => refBit t 1 && t.plat.relock == some true && irqPending t 481) := by decide +kernel
theorem test_ref_valid_again : let s := winSet powered clkRef 0b10001
    s.plat.waiting.isNone && refBit s 0 && same (exec (.refValid false) s) s := by decide +kernel
theorem test_pll_relock : let s := winSet { powered with plat := { powered.plat with relock := some true } } clkRef 0b101010
    ok (exec .pllRelock s) (fun t => winGet t clkRef == 0b010110 && irqPending t 482) := by decide +kernel
theorem test_holdover_expiry : let s := winSet powered clkRef 0b001000
    !refBit s 0 && !refBit s 1 && refBit s 3 && !s.plat.suspended && ok (exec .holdoverExpiry s) (fun t => t.plat.suspended && irqPending t 490) := by
  decide +kernel
theorem test_die_temperature : let at_step (k : Nat) (x : Int) : State → Nat := fun s => match exec (.dieTempRead x) { s with plat := { s.plat with nextStep := k } } with
      | .next t => t.plat.nextStep
      | _ => 9
    at_step 0 99 powered = 0 ∧ at_step 0 110 powered = 3 ∧ at_step 0 105 powered = 2 ∧ at_step 1 109 powered = 2 ∧ at_step 3 106 powered = 3 ∧
      at_step 3 105 powered = 2 ∧ at_step 1 96 powered = 1 ∧ at_step 1 104 powered = 1 ∧ at_step 1 95 powered = 0 := by decide +kernel
theorem test_die_too_hot : !bitOf powered.safety.holding 16 && ok (exec (.dieTempRead 115) powered) (fun t => bitOf t.safety.causes 4 && odGet t 0x2800 6 == 115) &&
    ok (exec (.dieTempRead 114) powered) (fun t => t.safety.causes == powered.safety.causes) := by decide +kernel

theorem test_mux_switch : admittedLaunches powered = [] ∧
    ok (exec (.clkMuxSwitch 0x18) powered) (fun t => bitOf (winGet t clkMux) 5 && t.plat.muxWait == some ⟨0, true, muxStopped powered 0⟩) = true := by
  decide +kernel
theorem test_mux_switch_any : let s := { powered with launches := [(7, aLaunch)] }
    admittedLaunches s ≠ [] ∧ ok (exec (.clkMuxSwitch 0x13) s) (fun t => (t.plat.muxWait.map (·.mux)) == some 3) = true := by decide +kernel
theorem test_mux_refused : let s := { powered with launches := [(7, aLaunch)] }
    admittedLaunches s ≠ [] ∧ ok (exec (.clkMuxSwitch 0x10) s) (fun t => bitOf (winGet t clkMux) 6 && irqPending t 485 && t.plat.muxWait == none) = true ∧
      ok (exec (.clkMuxSwitch 0x12) s) (fun t => bitOf (winGet t clkMux) 6) = true := by decide +kernel
theorem test_mux_done : let s := { powered with plat := { powered.plat with muxWait := some ⟨3, true, false⟩ } }
    ok (exec .clkMuxDone s) (fun t => bitOf (winGet t clkMux) 10 && t.plat.muxWait == none && irqPending t 484) := by decide +kernel
theorem test_freq_measure : ok (exec (.freqMeasure 0x64000A) powered) (fun t => t.plat.measuring && fld (winGet t clkFcnt) 0 3 == 2 && fld (winGet t clkFcnt) 16 16 == 100) := by
  decide +kernel
theorem test_freq_done : let s := { powered with plat := { powered.plat with measuring := true } }
    ok (exec (.freqMeasureDone 5) s) (fun t => bitOf (winGet t clkFcnt) 4 && irqPending t 483 && !t.plat.measuring) := by decide +kernel
theorem test_gate_open : ok (exec (.clkGateRequest 0x1D) powered) (fun t => pllOpen t 5 && fld (winGet t clkGate) 16 16 == stOk) := by decide +kernel
theorem test_gate_closed : (pllDomains 1).all (fun k => domainState State.reset k == 0) &&
    ok (exec (.clkGateRequest 0x11) State.reset) (fun t => !pllOpen t 1) := by decide +kernel

theorem test_domain_off : domSwitchable 48 false && !domainInUse powered 48 && domainState powered 48 == 2 &&
    ok (exec (.domainOffRequest (.reg .host 0xB0)) powered) (fun t => domainState t 48 == 3 && odGet t 0x2900 2 == 0xFFFF) := by decide +kernel
theorem test_domain_on : let s := setDomain powered 23 0
    domSwitchable 23 true && domainState s 23 == 0 &&
      ok (exec (.domainOnRequest (.reg (.mgmt 0) 0xD7)) s) (fun t => domainState t 23 == 1 && fld (winGet t pwrDom) 16 16 == 0xFFFF) := by decide +kernel
theorem test_domain_busy : let s := { powered with chunks := [(0, ⟨.owned 1, some 1⟩)] }
    domainInUse s 25 && ok (exec (.domainOffRequest (.reg .host 0x99)) s) (fun t => odGet t 0x2900 2 == stChildBusy && irqPending t 487 && domainState t 25 == 2) := by
  decide +kernel
theorem test_domain_off_entry : let r := rq 0x2900 1 [48, 0]
    granted (domEntry false) r served && domainState (recorded r served) 48 == 2 &&
      ok (exec (.domainOffRequest (.od r)) served) (fun t => domainState t 48 == 3 && answers t 0) := by decide +kernel
theorem test_domain_on_entry : let s := setDomain served 23 0
    let r := rq 0x2900 1 [23, 1]
    granted (domEntry true) r s && domainState (recorded r s) 23 == 0 &&
      ok (exec (.domainOnRequest (.od r)) s) (fun t => domainState t 23 == 1 && answers t 0) := by decide +kernel
theorem test_domain_off_done : let s := setDomain (store (bankBase 0) [7] (store (bankBase 80) [9] powered)) 0 3
    memWf s.mem && domainState s 0 == 3 && bankDomain 0 == 0 && byteAt s (bankBase 0) == 7 &&
      ok (exec (.domainOffDone 0) s) (fun t => domainState t 0 == 0 && byteAt t (bankBase 0) == 0 && byteAt t (bankBase 80) == 9 && irqPending t 486) := by
  decide +kernel
theorem test_domain_off_done_management : let s := setDomain powered 52 3
    ok (exec (.domainOffDone 52) s) (fun t => domainState t 52 == 0 && t.mem == s.mem) := by decide +kernel
theorem test_domain_off_done_memory : let s := { setDomain powered 25 3 with chunks := [(0, ⟨.owned 1, some 1⟩), (1, ⟨.owned 1, some 1⟩)] }
    tileDomain (chunkHome 0) == 25 && ok (exec (.domainOffDone 25) s) (fun t => t.chunks == [(1, ⟨.owned 1, some 1⟩)]) := by decide +kernel
theorem test_domain_on_done : let s := setDomain powered 48 1
    domainState s 48 == 1 && ok (exec (.domainOnDone 48 []) s) (fun t => domainState t 48 == 2 && odGet t 0x2900 3 == 1) := by decide +kernel
theorem test_domain_on_done_fences : let s := setDomain powered 0 1
    tileDomain 0 == 0 && isLogical s.plat.fuse 0 && ok (exec (.domainOnDone 0 [0]) s) (fun t => isFenced t 0) := by decide +kernel
theorem test_tile_reset : let s := adjTile 0 (fun t => { t with fl := 5, pm := [(0, 1)] }) { powered with tiles := [(0, aTile 3)] }
    !tileHeld s 0 && isLogical s.plat.fuse 0 && decide (kindOf 0 ≠ .port) && decide (kindOf 0 ≠ .s) &&
      ok (exec (.tileReset 0x800) s) (fun t => (tileOf t 0).fl == 0 && (tileOf t 0).pm == [] && (tileOf t 0).store == [(0, 3)] && fld (winGet t pwrTile) 16 16 == 1) := by
  decide +kernel
theorem test_mgmt_wake : let s := setDomain powered 52 0
    mgmtAsleep s && s.serv.odm.isNone && ok (exec (.mgmtWake true) s) (fun t => domainState t 52 == 2 && irqPending t 486) := by decide +kernel
theorem test_pwr_wake : let s := winSet (setDomain powered 52 0) pwrWake 5
    mgmtAsleep s && s.serv.odm.isNone && winGet s pwrWake != 0 &&
      ok (exec .pwrWakeExpiry s) (fun t => domainState t 52 == 2 && winGet t pwrWake == 0 && irqPending t 488) := by decide +kernel

theorem test_reset_n : ok (exec (.resetN 10000) { powered with tiles := [(0, aTile 0)] }) (fun t => t.plat.rst && !t.plat.ready && domainState t 0 == 0 && t.tiles == [] &&
    bitOf t.safety.causes 0) := by decide +kernel
theorem test_main_loss : keysRise powered.od && ok (exec .mainSupplyLoss (odSet powered 0x1101 1 7)) (fun t => !t.plat.v48 && domainState t 0 == 0 && bitOf t.safety.causes 4 &&
    odGet t 0x2A00 1 == 2 && odGet t 0x1101 1 == 7) := by decide +kernel
theorem test_aux_loss : ok (exec .auxSupplyLoss powered) (fun t => !t.plat.aux && domainState t 0 == 0 && t.safety == State.reset.safety) := by decide +kernel

/-- An image of one byte whose signature holds under the key of zeros, a point of order 4: R is the neutral point and S is 0. -/
def anImage (k : Nat) : FwSlot := ⟨[BitVec.ofNat 8 k], leBytes 32 1 ++ List.replicate 32 0, 1, 2, 3⟩

/-- A start-up that fails nowhere. -/
def goodStart : StartEnv := ⟨0, false, true, true, false, [], [], [], anImage 0, anImage 0, true, true, []⟩

theorem test_firmware_verifies : slotGood Fuse.initial goodStart.slotA = true := by decide +kernel
theorem test_power_on : State.reset.plat.aux = false ∧ goodStart.v48 = true ∧
    ok (exec (.powerOn goodStart) State.reset) (fun t => t.plat.ready && t.plat.step == 10 && t.plat.linkUp && odGet t 0x2A00 3 == 1 && !t.safety.outs) = true := by
  decide +kernel
theorem test_main_return : let s := { State.reset with plat := { State.reset.plat with aux := true } }
    ok (exec (.mainSupplyReturn goodStart) s) (fun t => t.plat.ready && t.plat.step == 10 && t.plat.v48) = true := by decide +kernel
theorem test_reset_n_release : let s := { State.reset with plat := { State.reset.plat with aux := true, v48 := true, rst := true } }
    ok (exec (.resetNRelease goodStart) s) (fun t => t.plat.ready && t.plat.step == 10 && !t.plat.rst) = true := by decide +kernel

theorem test_reset_n_between : powered.plat.aux = true ∧ powered.plat.rst = false := by decide +kernel
theorem test_gate_shut : let s := setDomain (setDomain powered 25 0) 26 0
    (pllDomains 3).all (fun k => domainState (pllDomains 3 |>.foldl (fun t k => setDomain t k 0) s) k == 0) &&
      ok (exec (.clkGateRequest 0x13) ((pllDomains 3).foldl (fun t k => setDomain t k 0) s)) (fun t => !pllOpen t 3) := by decide +kernel
/-- A quarter that an LDP read lands in its register. -/
theorem test_parameter_lands : let s := { at_ 0 0 with agenda := [⟨6, 6, { foreign 1 6 with pos := 0 }, .land (.pm 13 (2 ^ 128 - 1) false)⟩] }
    alone s && pmGet (tileOf (whenDue s) 0) 13 == 2 ^ 128 - 1 && pmGet (tileOf (whenDue s) 0) 12 == 0 := by decide +kernel
/-! ## Frames -/

theorem test_boundary : let s := { powered with spent := [(16 * 1 + 4, 5)] }
    !muxStopped s 0 && !s.plat.suspended && keysRise s.spent && (allowance s 1 4).isNone && ok (exec (.frameBoundary ⟨1000000, 1500000, 0, []⟩) s) (fun t => t.frame.boundaries == 1 &&
      t.frame.sysNs == 1000000 && odGet t 0x2100 3 == 1 && t.frame.gone == 0 && spentOf t 1 4 == 0) := by decide +kernel
/-- A running launch whose plan is not over. -/
theorem test_boundary_overrun : let s := { powered with launches := [(7, { aLaunch with aux := { aLaunch.aux with planLen := 5000 } })] }
    !muxStopped s 0 && !s.plat.suspended && decide (s.frame.gone + 4999 < stretchedTc s (planTc (liveLaunches s))) &&
      ok (exec (.frameBoundary ⟨1000, 4999, 0, []⟩) s) (fun t => t.frame.boundaries == 0 && t.frame.gone == 4999 && odGet t 0x2100 4 == 1 && irqPending t 138) &&
      !decide (s.frame.gone + 5000 < stretchedTc s (planTc (liveLaunches s))) := by decide +kernel
theorem test_boundary_overrun_realtime : let s := { powered with launches := [(7, { aLaunch with realtime := true, aux := { aLaunch.aux with planLen := 5000 } })] }
    ok (exec (.frameBoundary ⟨1000, 4999, 0, []⟩) s) (fun t => !t.safety.outs && bitOf t.safety.causes 2) := by decide +kernel
theorem test_boundary_suspended : let s := { powered with plat := { powered.plat with suspended := true } }
    !muxStopped s 0 && !refBit s 4 && ok (exec (.frameBoundary ⟨1000, 5, 0, []⟩) s) (fun t => odGet t 0x2800 8 == 1 && t.frame.boundaries == 0) := by decide +kernel
theorem test_boundary_resumes : let s := winSet { powered with plat := { powered.plat with suspended := true } } clkRef 0b010001
    !muxStopped s 0 && refBit s 4 && !refBit s 3 && !decide (s.frame.gone + 5 < stretchedTc s (planTc (liveLaunches s))) && !(resumeFrames s).plat.suspended := by decide +kernel
theorem test_boundary_no_clock : let s := winSet { powered with plat := { powered.plat with muxWait := some ⟨0, false, true⟩ } } clkMux 0
    muxStopped s 0 && ok (exec (.frameBoundary ⟨1000, 5, 0, []⟩) s) (fun t => t.frame.sysNs == 1000 && t.frame.boundaries == 0) := by decide +kernel
theorem test_frame_source : let r := rq 0x2100 1 [1]
    granted frameSourceEntry r served && ok (exec (.frameSourceWrite r) served) (fun t => odGet t 0x2100 1 == 1 && syncState t == 2 && answers t 0) := by decide +kernel
theorem test_frame_period : let r := rq 0x2100 2 [0x90, 0xD0, 3, 0]
    granted framePeriodEntry r served && ok (exec (.framePeriodWrite r) served) (fun t => odGet t 0x2100 2 == 250000 && odGet t 0x2100 3 == 0) := by decide +kernel
theorem test_sync_message : let s := odSet (odSet powered 0x2100 1 1) 0x2100 5 2
    odGet s 0x2100 1 == 1 && ok (exec (.syncMessage (-100)) s) (fun t => t.frame.goodSync == 1 && syncState t == 3 && odGet t 0x1310 5 == 2 ^ 64 - 100) &&
      ok (exec (.syncMessage 101) s) (fun t => t.frame.goodSync == 0) := by decide +kernel
theorem test_sync_timeout : let s := odSet (odSet powered 0x2100 1 1) 0x2100 5 1
    ok (exec .syncTimeout s) (fun t => syncState t == 2 && irqPending t 324) && ok (exec (.grandmasterChange [1, 2, 3, 4, 5, 6, 7, 8]) s) (fun t => syncState t == 3 && odGet t 0x1310 6 == 0x0807060504030201) := by decide +kernel
theorem test_sync_without_gptp : odGet powered 0x2100 1 ≠ 1 ∧ ok (exec (.syncMessage 5) powered) (fun t => odGet t 0x1310 5 == 5 && t.frame == powered.frame) = true := by decide +kernel

/-! ## Windows, banks, handovers -/

/-- Tile 0 before a window of glove 1 that declares bank 0 ON. -/
def beforeWindow (lg : Option Nat) : State :=
  { powered with launches := [(7, aLaunch)], tiles := [(0, { aTile 0 with run := none, wins := [⟨5, 100, 1, 0, 9, 1, 3, 3, 0, 0, 0⟩], lastGlove := lg, fl := 6, tc := 0 })] }

theorem test_window_start_clears : winLive (beforeWindow none) (tileOf (beforeWindow none) 0) ⟨5, 100, 1, 0, 9, 1, 3, 3, 0, 0, 0⟩ && bankExists (tileBank 0 0) &&
    ok (exec (.windowStart 0 0) (beforeWindow none)) (fun t => (tileOf t 0).run == some 0 && (tileOf t 0).pc == 9 && (tileOf t 0).tc == 69 && (tileOf t 0).fl == 0 &&
      fld (winGet t (tileBase 0 + 0xF0004)) 0 2 == 3) := by decide +kernel
theorem test_window_start_same_glove : winLive (beforeWindow (some 1)) (tileOf (beforeWindow (some 1)) 0) ⟨5, 100, 1, 0, 9, 1, 3, 3, 0, 0, 0⟩ &&
    ok (exec (.windowStart 0 0) (beforeWindow (some 1))) (fun t => (tileOf t 0).tc == 5 && (tileOf t 0).fl == 6) := by decide +kernel
/-- The context of WINDOW_END at the end of tile 0's window. -/
def endsPlain (s : State) : Bool := let r := advanceTo 10000 s
  curWin (tileOf s 0) == some aWindow && (arrivalCtx r 0 10000).any (fun c => dryNow r c == 0 && (kget r.launches c.launch).any (·.phase == .running) &&
    decide (c.glove < 256) && decide (c.win < 64) && decide (c.lslot < 16)) && !bitOf (winGet r (tileBase 0 + 0xF2000)) 31
theorem test_window_end : let s := adjTile 0 (fun t => { t with ended := true }) (at_ 0 0)
    endsPlain s && ok (exec (.windowEnd 0) s) (fun t => (tileOf t 0).run == none && (tileOf t 0).tc == 10000 && !bitOf (winGet t (tileBase 0 + 0xF2000)) 31) := by decide +kernel
theorem test_window_end_unfinished : let s := at_ 0 0
    endsPlain s && ok (exec (.windowEnd 0) s) (fun t => fld (winGet t (tileBase 0 + 0xF2000)) 0 8 == 12) := by decide +kernel
theorem test_window_end_recv : let s := adjTile 0 (fun t => { t with recv := some ⟨foreign 1 5, 0, 1, false⟩, ended := true }) (at_ 0 0)
    endsPlain s && ok (exec (.windowEnd 0) s) (fun t => fld (winGet t (tileBase 0 + 0xF2000)) 0 8 == 10) := by decide +kernel

theorem test_bank_wake : let s := { powered with launches := [(7, { aLaunch with tiles := [(0, [⟨5, 100, 1, 0, 9, 1, 3, 3, 0, 0, 0⟩])] })] }
    bankExists 0 && decide (bankState s 0 < 2) && domainOn s (bankDomain 0) && declaredOn s 0 && ok (exec (.bankWake 0) s) (fun t => bankState t 0 == 2) := by decide +kernel
theorem test_bank_scrub : let a := (bankBase 0 + 64 * 1535) / 8
    let s := { bankOn 0 0 powered with ecc := [(a - 1, .single), (a, .single), (a + 7, .single)] }
    bankExists 0 && decide (1535 < bankWords 0) && bankState s 0 == 3 && eccMask s (bankBase 0 + 64 * 1535) == 0 &&
      ok (exec (.bankScrubVisit 0 1535) s) (fun t => t.ecc == [(a - 1, .single)]) := by decide +kernel
theorem test_bank_scrub_uncorrectable : let a := (bankBase 0 + 64 * 1535) / 8
    let s := { bankOn 0 0 powered with ecc := [(a, .double)] }
    eccMask s (bankBase 0 + 64 * 1535) != 0 && ok (exec (.bankScrubVisit 0 1535) s) (fun t => t.ecc == s.ecc && irqPending t 141) := by decide +kernel
/-- The context of an instruction of tile 16 of glove 1. -/
def cAt (pos : Nat) : Ctx := ⟨pos, 3, 0, 1, 0, 0, 7, 0, 10000, false⟩
theorem test_commons_write : let b := cmnBank 23 15
    let s := { bankOn b 1 (at_ 16 0) with agenda := [⟨9, 7, cAt 16, .store b 4095 (.write 63 [9])⟩] }
    portServed s && memWf s.mem && ok (exec (.commonsQueuedService 23 15) s) (fun t => byteAt t (wordAddr b 4095 + 63) == 9 && byteAt t (wordAddr b 4095) == 0 &&
      t.agenda == [] && t.now == 9) := by decide +kernel
theorem test_commons_add : let b := cmnBank 0 0
    let s := store (wordAddr b 3) [255, 255, 255, 255, 255, 255, 255, 255] { bankOn b 1 (at_ 16 0) with agenda := [⟨9, 7, cAt 16, .stat b 3 2⟩] }
    alone s && bankOwner s b == 1 && bankState s b == 3 && memWf s.mem && ok (exec (.commonsQueuedService 0 0) s) (fun t => loadNat t (wordAddr b 3) 16 == 1) := by decide +kernel
theorem test_commons_reads : let b := cmnBank 0 0
    let s := { bankOn b 1 (at_ 16 0) with agenda := [⟨9, 9, cAt 16, .read b 3 0 [] 0⟩, ⟨9, 9, cAt 20, .read b 5 0 [] 0⟩] }
    let t := advance 9 s
    bankState s b == 3 && bankOwner s b == 1 && !({ tc := 0, since := 0, c := cAt 16, act := .free 0 } : Item).of (cAt 20) &&
      t.agenda.contains ⟨10, 9, cAt 20, .read b 5 0 [] 0⟩ && fld (winGet t (cmnBase 0 + 0xFF0018)) 0 32 == 1 := by decide +kernel

/-- Gloves 1 and 2 are active, and glove 1 owns bank 0. -/
def owned : State := bankOn 0 1 (odSet (odSet powered 0x3001 1 1) 0x3001 2 1)

theorem test_handover_request : !handoverRefused owned 0 2 && ok (exec (.bankHandoverRequest 0 0x100200) owned) (fun t => bankPendingHandover t 0 && bankOwner t 0 == 1 &&
    fld (winGet t (bankOwnerAddr 0)) 8 8 == 2 && (bankAux t 0).hand == some (.asked 0 0)) := by decide +kernel
theorem test_handover_refused : handoverRefused owned 0 3 && ok (exec (.bankHandoverRequest 0 0x100300) owned) (fun t => !bankPendingHandover t 0 &&
    bitOf (winGet t (bankOwnerAddr 0)) 19 && irqPending t 67) := by decide +kernel
theorem test_owner_change : let s := setBankAux 0 ⟨false, some (.asked 0 0), []⟩ (winSet owned (bankOwnerAddr 0) (1 + 2 * 256 + 2 ^ 17))
    let s := { s with frame := ⟨1, 0, 0, 0, 0, 0, 0⟩ }
    changeAt s 0 == some (1, 2) && bankOwner s 0 != fld (winGet s (bankOwnerAddr 0)) 8 8 &&
      ok (exec (.bankOwnerChange 0) s) (fun t => bankOwner t 0 == 2 && (bankAux t 0).hand == some .scrubbing && bitOf (winGet t (bankOwnerAddr 0)) 18) := by decide +kernel
theorem test_owner_same : let s := setBankAux 0 ⟨false, some (.asked 0 0), []⟩ (winSet owned (bankOwnerAddr 0) (1 + 1 * 256 + 2 ^ 17))
    let s := { s with frame := ⟨1, 0, 0, 0, 0, 0, 0⟩ }
    changeAt s 0 == some (1, 2) && bankOwner s 0 == fld (winGet s (bankOwnerAddr 0)) 8 8 && !bitOf (winGet s (bankOwnerAddr 0)) 16 &&
      ok (exec (.bankOwnerChange 0) s) (fun t => (bankAux t 0).hand == none && irqPending t 66 && !bankPendingHandover t 0) := by decide +kernel
/-- A request in tc 6 waits for the window that starts at 40; with no boundary left in the frame, for tc 2 of the next. -/
theorem test_change_at : let s := { setBankAux 0 ⟨false, some (.asked 4 6), []⟩ owned with tiles := [(0, { aTile 0 with wins := [⟨5, 50, 1, 0, 9, 1, 3, 3, 0, 0, 0⟩, ⟨40, 90, 1, 0, 9, 1, 3, 3, 0, 0, 0⟩] })] }
    changeAt s 0 = some (4, 42) ∧ changeAt (setBankAux 0 ⟨false, some (.asked 4 90), []⟩ s) 0 = some (5, 2) := by decide +kernel
theorem test_handover_scrub : let s := store (bankBase 0) [5] (setBankAux 0 ⟨false, some .scrubbing, []⟩ (winSet owned (bankOwnerAddr 0) (2 + 2 ^ 17 + 2 ^ 18)))
    memWf s.mem && ok (exec (.bankHandoverScrubDone 0) s) (fun t => byteAt t (bankBase 0) == 0 && bankState t 0 == 3 && !bankPendingHandover t 0 && bankOwner t 0 == 2) := by
  decide +kernel

/-! ## Routers -/

/-- Router 49 with one slot at tc 10 and flits at its inputs; router 50 forwards its west input at tc 12. -/
def mesh (pos out op src dly : Nat) (l : List Latch) : State :=
  { powered with
    launches := [(7, aLaunch)]
    routers := [(pos, { Router.blank with segs := [(7, ⟨0, 1, 100, 0⟩)], slots := [(50 + out, (7, ⟨src, op, 9, 1⟩))], latch := l }),
      (pos + 1, { Router.blank with segs := [(7, ⟨0, 1, 100, 0⟩)], slots := [(5 * (12 + dly) + 1, (7, ⟨8, 1, 9, 1⟩))] })] }

def aFlit (x : Nat) : Flit := ⟨1, 9, false, false, x, false⟩

theorem test_slot_forward : let s := mesh 49 1 1 4 0 [⟨2, 8, 1, aFlit 77⟩]
    slotEntry s 49 1 10 == some (7, ⟨4, 1, 9, 1⟩) && slotInputs ⟨4, 1, 9, 1⟩ == [2] && neighbour 49 1 == some 50 && slotUses s 50 3 10 == 1 &&
      ok (exec (.slotFwd 49 1 10 []) s) (fun t => (routerOf t 50).latch == [⟨3, 10, 1, aFlit 77⟩] && (routerOf t 49).latch == []) := by decide +kernel
/-- Over the Col the flit arrives 4 tc later. -/
theorem test_slot_forward_col : let s := mesh 71 1 1 4 4 [⟨2, 8, 1, aFlit 77⟩]
    crossesCol 71 1 && slotUses s 72 3 14 == 1 && ok (exec (.slotFwd 71 1 10 []) s) (fun t => (routerOf t 72).latch == [⟨3, 14, 1, aFlit 77⟩]) := by decide +kernel
theorem test_slot_missing : let s := mesh 49 1 1 4 0 []
    slotUses s 50 3 10 == 1 && ok (exec (.slotFwd 49 1 10 []) s) (fun t => ((routerOf t 50).latch.map fun x => (x.input, x.tc, x.flit.poison)) == [(3, 10, true)] &&
      irqPending t 321 && fld (winGet t (tileBase 49 + 0xFE004)) 0 8 == 1) := by decide +kernel
theorem test_slot_link_error : let s := mesh 49 1 1 4 0 [⟨2, 8, 1, aFlit 77⟩]
    slotUses s 50 3 10 == 1 && ok (exec (.slotFwd 49 1 10 [⟨2, 1, 4⟩]) s) (fun t => ((routerOf t 50).latch.map fun x => x.flit.poison) == [true] &&
      irqPending t 322 && winGet t (tileBase 49 + 0xFE008) == 0x10001) := by decide +kernel
theorem test_slot_delivers : let s := { mesh 49 4 1 4 0 [⟨2, 8, 1, aFlit 77⟩] with tiles := [(49, { aTile 0 with recv := some ⟨{ cAt 49 with word := ins 6 [(56, 1)] }, 0, 1, false⟩ })] }
    decide (kindOf 49 ≠ .port) && (arrivalCtx (advance 10 s) 49 10).isSome && (tileOf s 49).m.meshRd.isNone &&
      ok (exec (.slotFwd 49 4 10 []) s) (fun t => acts t == [(12, .land (.fl 77))] && (tileOf t 49).recv == none) := by decide +kernel
theorem test_combine_add : let s := mesh 49 1 2 5 0 [⟨0, 7, 1, aFlit (2 ^ 64 - 1)⟩, ⟨2, 7, 1, aFlit 2⟩]
    slotInputs ⟨5, 2, 9, 1⟩ == [0, 2] && slotUses s 50 3 10 == 1 && ok (exec (.combineAdd 49 1 10 []) s) (fun t => (routerOf t 50).latch == [⟨3, 10, 1, aFlit 1⟩]) := by
  decide +kernel
theorem test_combine_topk : let s := mesh 49 1 3 5 0 [⟨0, 7, 1, aFlit 5⟩, ⟨2, 7, 1, aFlit (2 ^ 64 - 1)⟩]
    slotUses s 50 3 10 == 1 && ok (exec (.combineTopk 49 1 10 []) s) (fun t => (routerOf t 50).latch.length == 1 && (kget (routerOf t 49).topk (topkKey 1 ⟨5, 3, 9, 1⟩)).isSome) := by
  decide +kernel
theorem test_combine_bar : let s := mesh 49 1 4 5 0 [⟨0, 7, 1, aFlit (1 + 2 ^ 64 * 9)⟩, ⟨2, 7, 1, aFlit (2 + 2 ^ 64 * 4)⟩]
    ok (exec (.combineBar 49 1 10 []) s) (fun t => ((routerOf t 50).latch.map fun x => (x.flit.data, x.flit.bar)) == [(3 + 2 ^ 64 * 9, true)]) := by decide +kernel
theorem test_combine_flag : let s := mesh 49 1 5 5 0 [⟨0, 7, 1, aFlit 5⟩, ⟨2, 7, 1, { aFlit 2 with poison := true }⟩]
    ok (exec (.combineFlag 49 1 10 []) s) (fun t => ((routerOf t 50).latch.map fun x => (x.flit.data, x.flit.poison)) == [(7, true)]) := by decide +kernel

/-- The oldest word handed leaves for the slot; a stream's word read ahead is handed; a flit is stored at a write stream's place. -/
theorem test_slot_own : let s := { mesh 49 1 1 16 0 [] with tiles := [(49, { Tile.blank with inj := [(8, aFlit 5), (9, aFlit 6)] })] }
    slotInputs ⟨16, 1, 9, 1⟩ == [4] && ((routerOf s 49).own.all fun o => o.1 != 10) && slotUses s 50 3 10 == 1 &&
      ok (exec (.slotFwd 49 1 10 []) s) (fun t => (routerOf t 50).latch == [⟨3, 10, 1, aFlit 5⟩] && (tileOf t 49).inj == [(9, aFlit 6)]) := by decide +kernel
def aStream (op : Nat) : Stream := ⟨7, 64, 4, op, 9, 1⟩
theorem test_slot_stream : let s := { mesh 52 1 1 16 0 [] with ports := [(52, { PortSt.blank with streams := [aStream 0], buffer := [⟨9, aStream 0, 0, 5, false⟩] })] }
    isMemPort 52 && streamsOf (portOf s 52) 1 9 false == [aStream 0] && slotUses s 53 3 10 == 1 &&
      ok (exec (.slotFwd 52 1 10 []) s) (fun t => (routerOf t 53).latch == [⟨3, 10, 1, aFlit 5⟩] && (portOf t 52).buffer == []) := by decide +kernel
theorem test_slot_write_stream : let s := { mesh 52 4 1 4 0 [⟨2, 8, 1, aFlit 77⟩] with ports := [(52, { PortSt.blank with streams := [aStream 3] })] }
    isMemPort 52 && streamsOf (portOf s 52) 1 9 true == [aStream 3] && memWf s.mem &&
      ok (exec (.slotFwd 52 4 10 []) s) (fun t => loadNat t 64 64 == 77 && kget (portOf t 52).place (streamKey 1 9 true) == some (0, 1)) := by decide +kernel

/-! ## VC1 to VC3, ledgers, the Col -/

def aMsg (vc : Nat) : VcFlit := ⟨vc, 1, [([1], 50, 0)], .head, false, false, 0⟩

theorem test_vc_forward : let s := { powered with routers := [(49, { Router.blank with q := [(qKey 0 1 0, [aMsg 1])] })] }
    planAt s 0 == (0, true) && openTc s 49 1 0 && openNo s 49 1 0 == 0 && (kgetD (routerOf s 49).rr 4 8 + 1) % 9 == 0 && hasCredit s 49 0 1 0 1 &&
      (aMsg 1).dests.any (fun w => wayOut w == 1) &&
      ok (exec (.vcFlitForward 49 1 0 none) s) (fun t => (kgetD (routerOf t 50).q (qKey 3 1 0) []).length == 1 && kgetD (routerOf t 49).q (qKey 0 1 0) [] == []) := by
  decide +kernel
theorem test_vc_inject : let s := { powered with routers := [(49, { Router.blank with rr := [(5, 7)] })], tiles := [(49, { Tile.blank with msgq := [aMsg 2] })] }
    openTc s 49 1 3 && openNo s 49 1 3 % 8 == 3 && (kgetD (routerOf s 49).rr 5 8 + 1) % 9 == 8 && hasCredit s 49 4 2 0 1 && mayInject s (aMsg 2) &&
      firstOfGloves 2 (tileOf s 49).msgq == [(0, aMsg 2)] &&
      ok (exec (.vcFlitForward 49 1 3 none) s) (fun t => (kgetD (routerOf t 50).q (qKey 3 2 0) []).length == 1 && (tileOf t 49).msgq == [] && spentOf t 1 4 == 1) := by
  decide +kernel

def aRecord : Vc3 := ⟨0x0602, 49, 0, 1, 49, 0, 0, 0, []⟩
/-- The record held at a router for 64 tc. -/
def holding (pos : Nat) : State := { powered with vc3Held := [(pos, [⟨aRecord, none, 4, 0, 0⟩])], frame := ⟨0, 0, 0, 0, 0, 0, 100⟩ }

theorem test_vc3_turn : let s := holding 1068
    openTc s 1068 2 7 && openNo s 1068 2 7 % 8 == 7 && keysRise s.vc3Held && vc3Ready s 1068 2 107 ⟨aRecord, none, 4, 0, 0⟩ && vc3Way s 1068 ⟨aRecord, none, 4, 0, 0⟩ == some [2] &&
      neighbour 1068 2 == some 1116 && ok (exec (.vcFlitForward 1068 2 7 none) s) (fun t => (kgetD t.vc3Held 1116 []).map (·.rec_) == [aRecord] && kgetD t.vc3Held 1068 [] == []) := by
  decide +kernel
theorem test_vc3_release : let s := holding 1068
    ok (exec (.vc3RecordRelease 1068 7 none) s) (fun t => (kgetD t.vc3Held 1116 []).map (·.rec_) == [aRecord] && kgetD t.vc3Held 1068 [] == []) := by decide +kernel
theorem test_vc3_arrives : let s := holding (helmetTile 49)
    openTc s (helmetTile 49) 4 7 && vc3Way s (helmetTile 49) ⟨aRecord, none, 4, 0, 0⟩ == some [] && vc3Ready s (helmetTile 49) 4 107 ⟨aRecord, none, 4, 0, 0⟩ &&
      ok (exec (.vcFlitForward (helmetTile 49) 4 7 none) s) (fun t => t.safety.inbox == [aRecord] && kgetD t.vc3Held (helmetTile 49) [] == []) := by decide +kernel

def aReadReq : MemReq := ⟨0, 1, 7, false, 0, 64, 0, [], [(0, bankBase 0, 0)], false, false⟩

theorem test_ledger_request : let s := { powered with ports := [(52, { PortSt.blank with arrived := [aReadReq] })] }
    kindOf 52 == .port && portFn 52 == .hbm 0 0 && ok (exec (.ledgerRequest 52 0) s) (fun t => (portOf t 52).pend == [⟨1, 64, some aReadReq, 0, false⟩] && (portOf t 52).arrived == []) := by
  decide +kernel
theorem test_ledger_malformed : let s := { powered with ports := [(52, { PortSt.blank with arrived := [{ aReadReq with bad := true }] })] }
    portFn 52 == .hbm 0 0 && ok (exec (.ledgerRequest 52 0) s) (fun t => (portOf t 52).pend == [] && irqPending t 258) := by decide +kernel
theorem test_ledger_burst : let s := { powered with fe := { powered.fe with ops := [(3, anOp .started [(0, 2), (32, 8192)])] } }
    portFn 348 == .pcie 0 && dKind (desc [(0, 2), (32, 8192)]) == 2 && dLen (desc [(0, 2), (32, 8192)]) == 8192 &&
      ok (exec (.ledgerRequest 348 3) s) (fun t => (portOf t 348).pend == [⟨1, 4096, none, 3, false⟩]) := by decide +kernel
theorem test_ledger_grant : let s := { powered with ports := [(52, { PortSt.blank with pend := [⟨1, 64, some { aReadReq with write := true, words := 1 }, 0, false⟩] })] }
    nextGlove ((pendingGloves (portOf s 52)).filter fun g => shareOf s g != 0) (portOf s 52).visit == some 1 && allowance s 1 5 == none && (route s.plat.fuse 52 0).isSome &&
      ok (exec (.ledgerGrant 52) s) (fun t => (portOf t 52).granted.length == 1 && (portOf t 52).pend == [] && spentOf t 1 5 == 64 &&
        ((tileOf t 52).msgq.map fun f => (f.vc, f.pay)) == [(2, .grant 1 true)]) := by decide +kernel
theorem test_col_retrain : let s := odSet powered 0x2301 32 1
    colRate s 31 == 1 && ok (exec (.colRetrain 31 3) s) (fun t => colRate t 31 == 3 && irqPending t 320) := by decide +kernel

/-! ## Problems -/

/-- An image at address 0 with one problem: two spins, one replica, 4 steps, a checkpoint every 2, and a sampling block that learns from the
pair (0, 1) with an iteration of 2 steps. -/
def probBytes : List (Nat × List Byte) :=
  [(8, [1]), (16, [64]), (64, [1]), (72, [96]), (80, [0, 2]), (96, [2]), (104, [2, 16, 1, 0]), (120, [4]), (124, [2]), (144, [4]), (148, [1]), (200, [1]), (217, [2]),
    (516, [1]), (520, [1]), (528, [128, 2]), (536, [7]), (544, [2]), (548, [1]), (552, [1]), (556, [1]), (560, [1]), (648, [1])]

def probParams : List Byte := leBytes 144 (1 + 2 ^ 16 + 4096 * 2 ^ (8 * 72) +
  ((List.range 7).map fun k => (65536 * (k + 1)) * 2 ^ (8 * (80 + 8 * (k + 1)))).sum)

/-- The data of the problem: coupled by codebook value 1 and biased by nothing. -/
def aData : ProblemData := ⟨[(0, 1, 1), (1, 0, 1)], [0, 1], [0, 0], 0xFFFF, 0, [], none, none⟩

/-- The problem at a step, both of its spins up, its counters in word 0 of bank 0. -/
def aProb (steps : Nat) : ProbSt where
  data := aData
  code := 1
  steps := steps
  first := 0
  check := 0
  perm := [0]
  oldPerm := [0]
  lastCheck := 0
  lastSamp := 0
  lastIter := 0
  reps := [⟨0, false, false, none⟩]
  best := none
  ring := 0
  lost := 0
  written := 0
  valleys := 0
  passes := 0
  walls := 0
  ysat := 0
  sets := [3 :: List.replicate 63 0]
  chg := [[true, false]]
  stop := none
  counters := [(0, 0)]
  saved := []
  samples := 0
  iters := 0
  lchecks := 0
  sats := 0
  clamps := 0
  ties := 0
  resets := 0

def problemState (p : ProbSt) : State :=
  { probBytes.foldl (fun s x => store x.1 x.2 s) (bankOn 0 1 powered) with
    launches := [(7, { aLaunch with params := probParams })]
    probs := [(probKey 7 0, p)] }

/-- What the statements about a problem ask of it. -/
def problemReady (s : State) (f : ProbCtx → ProbSt → Bool) : Bool := memWf s.mem && match probCtx s 7 0, probOf s 7 0 with
  | some c, some p => c.l.phase == .running && p.stop == none && p.sets.length == c.img.replicas && decide (p.steps ≤ c.img.steps) &&
      drainLimit c == none && f c p
  | _, _ => false

/-- Both spins up: the energy is -(1/2) * (2 couplings * 1 * 1024/1024). -/
theorem test_checkpoint : let s := problemState (aProb 2)
    problemReady s (fun c _ => c.img.replicas == 1 && checkpointAt c.img 2 && !c.img.realtime) &&
      ok (exec (.checkpoint ⟨7, 0, 2⟩) s) (fun t => (probOf t 7 0).any (fun q => q.check == 1 && q.lastCheck == 2 && q.steps == 2 && q.stop == none &&
        q.chg == [[false, false]] && (q.best.map (·.energy)) == ((probCtx s 7 0).map fun c => energyOf c [true, true]))) := by decide +kernel
theorem test_checkpoint_last : let s := problemState { aProb 4 with lastCheck := 2 }
    problemReady s (fun c p => checkpointAt c.img 4 && c.img.steps == 4 && decide (p.lastCheck < 4)) &&
      ok (exec (.checkpoint ⟨7, 0, 4⟩) s) (fun t => (probOf t 7 0).any (fun q => q.stop == some 0)) := by decide +kernel

/-- A program that comes from step 2, where everything is done, to step 3, after which nothing falls before it. -/
theorem test_steps_between : let s := problemState { aProb 2 with lastCheck := 2, lastSamp := 2, lastIter := 2 }
    problemReady s (fun c p => settled c p && !(span 3 0).any (eventAt c) && sampleAt (c.blk.getD ⟨0, 0, 0, 0, 0, 0, 0, (0, 0, 0), (0, 0, 0)⟩) 3 &&
      (reach s c p 3).any (fun q => q.steps == 3)) := by decide +kernel
theorem test_frame_output : let s := store 105 [17] (problemState { aProb 4 with data := { aData with output := some 0x900000 } })
    problemReady s (fun c _ => c.img.realtime && c.data.output == some 0x900000) &&
      ok (exec (.checkpoint ⟨7, 0, 4⟩) s) (fun t => load t 0x900000 64 ==
        3 :: List.replicate 7 0 ++ leBytes 8 (unsigned 64 (((probCtx s 7 0).map fun c => energyOf c [true, true]).getD 0)) ++ List.replicate 48 0) := by decide +kernel

/-- A drained real-time problem halts at its frame's last checkpoint. -/
theorem test_frame_drained : let s0 := store 105 [17] (problemState (aProb 4))
    let s := { s0 with launches := s0.launches.map fun x => (x.1, { x.2 with drained := some 1 }) }
    problemReady s (fun c _ => c.img.realtime && c.l.drained.isSome) &&
      ok (exec (.checkpoint ⟨7, 0, 4⟩) s) (fun t => (probOf t 7 0).any (fun q => q.stop == some 2)) := by decide +kernel
theorem test_sample_point : let s := problemState (aProb 1)
    problemReady s (fun c p => c.blk.any (fun b => sampleAt b 1 && b.marg && b.pair) && !checkpointAt c.img 1 && p.lastSamp != 1 &&
        bankState s 0 == 3 && bankOwner s 0 == 1 && accsNow s 0 == [] && (wordAt s 0 0).2 == 0) &&
      ok (exec (.samplePoint ⟨7, 0, 1⟩) s) (fun t => (probOf t 7 0).any (fun q => q.samples == 1 && q.lastSamp == 1 &&
        (counterVals q.counters t).take 4 == [1, 1, 1, 1])) := by decide +kernel
theorem test_learning_iteration : let s := store (wordAddr 0 0) [1] (problemState { aProb 2 with lastCheck := 2, lastSamp := 2 })
    problemReady s (fun c p => c.blk.any (fun b => b.learn && iterAt b 2) && p.lastIter != 2 && (counterVals p.counters s).headD 0 == 1 &&
        bankState s 0 == 3 && bankOwner s 0 == 1 && accsNow s 0 == [] &&
        c.blk.any (fun b => (counterRanges p).all fun r => decide (r.1 + r.2 ≤ c.addr 7 ∨ c.addr 7 + 4 * (b.npair + c.img.nvar + 1) ≤ r.1))) &&
      ok (exec (.learningIteration 7 0 2) s) (fun t => (probOf t 7 0).any (fun q => q.iters == 1 && q.lastIter == 2 &&
          (counterVals q.counters t).all (· == 0)) && (probCtx s 7 0).any (fun c =>
        i32At t (c.addr 7) 0 == 0x40000000 && i32At t (c.addr 7) 1 == 0x40000000)) := by decide +kernel
theorem test_learning_checkpoint : let s := problemState { aProb 2 with lastIter := 2, iters := 1 }
    problemReady s (fun c p => c.blk.any (fun b => b.learn && 1 % b.lchk == 0 && p.lchecks != 1 / b.lchk &&
      (relearn s c b).1.bias == [0, 0] && (relearn s c b).2.1 == 1)) := by decide +kernel

/-- A Metropolis sweep takes every flip that lowers the energy (R162): strong biases pull both spins down. -/
theorem test_sweep_metropolis : let p := { aProb 2 with data := { aData with bias := [-2 ^ 20, -2 ^ 20] } }
    problemReady (problemState p) (fun c p => c.img.mode == 2 && (let q := sweepAll (problemState p) c p
      q.sets == [List.replicate 64 0] && q.chg == [[true, true]] && q.steps == 3)) := by decide +kernel

/-- Watch 0, which has its launch, of a bank that glove 1 owns. -/
def watching (row : Option (List Nat)) : State :=
  { odSet (odSet (bankOn (cmnBank 0 0) 1 powered) 0x2400 1 1) 0x2410 3 1 with
    drift := [(0, ⟨7, row⟩)]
    launches := [(7, { aLaunch with params := leBytes 64 (8 * 2 ^ 48) })]
    frame := { powered.frame with boundaries := 1 } }

theorem test_drift_baseline : let s := watching none
    !mgmtAsleep s && pStatBankNo (leBytes 64 (8 * 2 ^ 48)) == some (cmnBank 0 0) && budgetOpen s 0 4 && s.driftRun.left == [] &&
      ok (exec .driftCheck s) (fun t => t.drift == [(0, ⟨7, some (List.replicate 8 0)⟩)] && odGet t 0x2410 11 == 3 && spentOf t 0 4 == 1 &&
        t.driftRun.began == 1 && same (exec .driftCheck t) t) := by decide +kernel
theorem test_drift_check : let s := watching (some (List.replicate 8 0))
    budgetOpen s 0 4 && ok (exec .driftCheck s) (fun t => odGet t 0x2410 8 == 1 && odGet t 0x2410 9 == 0) := by decide +kernel
theorem test_drift_waits : let s := { watching none with force := [(odKey 0x3100 4, 1)], spent := [(4, 1)] }
    !budgetOpen s 0 4 && s.driftRun.left == [] &&
      ok (exec .driftCheck s) (fun t => t.driftRun.left == [0] && t.driftRun.stalled == some 1 && t.drift == s.drift) := by decide +kernel
theorem test_drift_goes_on : let s := { watching none with driftRun := ⟨1, [0], some 0⟩ }
    decide (s.driftRun.left = [0] ∧ s.driftRun.stalled ≠ some s.frame.boundaries) && budgetOpen s 0 4 &&
      ok (exec .driftCheck s) (fun t => t.driftRun == ⟨1, [], none⟩ && spentOf t 0 4 == 1) := by decide +kernel
theorem test_drift_writes : let s := odSet served 0x3001 1 1
    granted (driftEntry 1) (rq 0x2410 1 [1]) s && granted (driftEntry 2) (rq 0x2410 2 [1, 0]) s && granted (driftEntry 3) (rq 0x2410 3 [3]) s &&
      ok (exec (.driftGloveWrite (rq 0x2410 1 [1])) s) (fun t => answers t 0 && odGet t 0x2410 1 == 1 && odGet t 0x2410 11 == 1) &&
      ok (exec (.driftTensorWrite (rq 0x2410 2 [1, 0])) s) (fun t => odGet t 0x2410 2 == 1) &&
      ok (exec (.driftEnableWrite (rq 0x2410 3 [3])) s) (fun t => odGet t 0x2410 3 == 3) := by decide +kernel


/-! ## The link, the ring, ops -/

/-- The function on the bus, with its ring enabled at host address 0x1000. -/
def hosting : State := barSet (barSet { powered with host := { powered.host with busMaster := true } } 0x1000 0x1000) 0x1008 1

/-- A buffer of sequence number 0 whose descriptors stand at host address 0x8000. -/
def aBuf (n : Nat) (l : List Desc) : Buf := ⟨0, true, false, 0x8000, 1, 3, 0x9000, 5, n, n, l, [], false⟩

/-- One op in the table, of the buffer of two descriptors that are dispatched; glove 1 is ACTIVE. -/
def withOp (o : Op) : State :=
  { odSet (odSet hosting 0x3001 1 1) 0x1100 1 4 with fe := { hosting.fe with bufs := [aBuf 2 []], ops := [(opKey 0 1, o)] } }

theorem test_perst_release : ok (exec .perstRelease { powered with plat := { powered.plat with perst := false } }) (fun t => t.plat.perst) := by decide
theorem test_link_training : let s := { powered with plat := { powered.plat with linkUp := false, step := 9 } }
    s.plat.ready = true ∧ s.plat.perst = true ∧ s.plat.linkUp = false ∧
      ok (exec (.pcieLinkTrainingDone 77) s) (fun t => t.plat.linkUp && t.plat.step == 10 && fld (odGet t 0x2A00 2) 288 32 == 77) = true := by decide +kernel
theorem test_bus_master : keysRise powered.bar0 = true ∧ let s := { powered with host := { powered.host with held := [(64, [1])] } }
    ok (exec (.busMasterEnableWrite ⟨true, true, false⟩) s) (fun t => t.host.busMaster && t.host.held.isEmpty && t.out.contains (.hostWrite 64 [1])) = true ∧
    ok (exec (.busMasterEnableWrite ⟨false, true, false⟩) s) (fun t => t.host.held == [(64, [1])] && t.out.isEmpty) = true := by decide +kernel
theorem test_flr : keysRise hosting.bar0 = true ∧ ok (exec (.flr 3) (barSet hosting 0x100C 9))
    (fun t => barGet t 0x100C == 0 && !t.host.busMaster && fld (barGet t 0x18) 16 16 == 1 && fld (barGet t 0x18) 0 16 == 3 && irqPending t 333) = true := by
  decide +kernel
theorem test_perst_assert : hosting.plat.ready = true ∧ ok (exec (.perstAssert 0) hosting) (fun t => !t.plat.linkUp && !hqEnable t) = true ∧
    State.reset.plat.ready = false ∧ ok (exec (.perstAssert 0) State.reset) (fun t => !t.plat.perst) = true := by decide +kernel

theorem test_tail_write : hosting.fe.resetting = false ∧ hqEnable hosting = true ∧ ringDiff 4096 (hqHead hosting) ≤ 4096 ∧ ringDiff 4096 (hqTail hosting) ≤ 4096 ∧
    ok (exec (.hqTailWrite 4096) hosting) (fun t => hqTail t == 4096) = true := by decide +kernel
theorem test_tail_write_too_far : ¬ ringDiff 4097 (hqHead hosting) ≤ 4096 ∧
    ok (exec (.hqTailWrite 4097) hosting) (fun t => hqTail t == 0 && bitOf (barGet t 0x1018) 0 && irqPending t 3) = true := by decide +kernel
theorem test_ring_reset : let s := withOp (anOp .held [])
    bitOf (BitVec.toNat (5 : Reg)) 2 = true ∧ s.fe.resetting = false ∧
      ok (exec (.hqReset 5) s) (fun t => t.fe.resetting && t.fe.bufs.all (·.orphan) && t.fe.ops.all (·.2.orphan) && t.fe.epoch == 1) = true := by decide +kernel
theorem test_ring_reset_done : let s := { barSet (barSet hosting 0x100C 5) 0x1010 5 with fe := { hosting.fe with resetting := true } }
    s.fe.resetting = true ∧ ok (exec .hqResetDone s) (fun t => hqHead t == 0 && hqTail t == 0 && !hqEnable t && irqPending t 4 && !t.fe.resetting) = true := by
  decide +kernel
theorem test_prefetch : let s := { barSet hosting 0x100C 4098 with fe := { hosting.fe with nextSeq := 4097 } }
    mayRead s = true ∧ s.fe.pre.length < 2 ∧
      ok (exec .bufferPrefetch s) (fun t => t.out == [.hostRead 0 (0x1000 + 32) 32] && t.fe.pre.length == 1 && t.fe.nextSeq == 4098) = true := by decide +kernel
theorem test_becomes_current : let b := aBuf 1 [⟨0, desc [(0, 6), (2, 16), (4, 0xFFFFFFFFFFFFFFFF), (12, 0xFFFF)], false⟩]
    let s := { hosting with fe := { hosting.fe with pre := [b] } }
    currentBuf s = none ∧ s.fe.resetting = false ∧ s.fe.pre = b :: [] ∧ b.read = true ∧ bufReading s b.seq = false ∧ b.bad = false ∧ b.got = b.nops ∧
      ok (exec .bufferCurrent s) (fun t => t.fe.pre.isEmpty && t.fe.bufs.any (fun x => x.left.any (fun d => !d.invalid))) = true := by decide +kernel

/-- A descriptor with no predecessor and no triggered op, from (offset, value). -/
def opDesc (l : List (Nat × Nat)) : List (Nat × Nat) := [(2, 16), (4, 0xFFFFFFFFFFFFFFFF), (12, 0xFFFF)] ++ l

theorem test_dispatch : let d : Desc := ⟨0, desc (opDesc []), false⟩
    let b := aBuf 1 [d]
    let s := { hosting with fe := { hosting.fe with bufs := [b] } }
    currentBuf s = some b ∧ s.fe.ops.length < 4096 ∧ b.left = d :: [] ∧ d.invalid = false ∧
      (predStatuses s (opKey b.seq d.idx) d.bytes).all (fun st => st.all goodStatus) = true ∧
      ok (exec .opDispatch s) (fun t => (kget t.fe.ops 0).any (fun o => o.phase == .held && o.glove == 1) && t.fe.bufs.all (·.left.isEmpty)) = true := by decide +kernel
theorem test_trigger : let o := anOp .held ((1, 2) :: opDesc [])
    let s0 := withOp o
    let s := { s0 with fe := { s0.fe with triggers := [(1, true)] } }
    (s.fe.triggers.find? fun x => (kget s.fe.ops x.1).isSome) = some (1, true) ∧ kget s.fe.ops 1 = some o ∧ dTriggered o.bytes = true ∧ o.invalid = false ∧
      o.phase = .held ∧ ok (exec .opTrigger s) (fun t => (kget t.fe.ops 1).any (fun o => o.phase == .ready)) = true := by decide +kernel
theorem test_nop_op : let o := anOp .held (opDesc [])
    let s := withOp o
    (startOp s 1 0 [0]).isSome = true ∧ kget s.fe.ops 1 = some o ∧
      ok (exec (.nopOp 1) s) (fun t => (kget t.fe.ops 1).isNone && t.out.contains (.hostWrite (0x8000 + 64 + 14) [0, 0])) = true := by decide +kernel
theorem test_drain : let o := anOp .held (opDesc [(0, 6), (16, 7)])
    let s := { withOp o with launches := [(7, aLaunch)] }
    findLaunch s (dAddr o.bytes) = some (7, aLaunch) ∧ (o.glove = 0 ∨ aLaunch.glove = o.glove) ∧ endable aLaunch = true ∧ (startOp s 1 6 [4, 5, 6, 7]).isSome = true ∧
      ok (exec (.drain 1) s) (fun t => (kget t.launches 7).any (fun l => l.drainReq.isSome) && (kget t.fe.ops 1).isNone) = true := by decide +kernel
theorem test_kill : let o := anOp .held (opDesc [(0, 7), (16, 7)])
    let s := { withOp o with launches := [(7, aLaunch)] }
    findLaunch s (dAddr o.bytes) = some (7, aLaunch) ∧ endable aLaunch = true ∧ (startOp s 1 7 [4, 5, 6, 7]).isSome = true ∧
      ok (exec (.kill 1) s) (fun t => (kget t.launches 7).any (fun l => l.phase == .killing && l.killStatus == 6)) = true := by decide +kernel
theorem test_retire : let b := { aBuf 2 [] with status := [(0, 0), (1, 6)] }
    let s := { hosting with fe := { hosting.fe with bufs := [b] } }
    (s.fe.bufs.find? fun x => !x.orphan) = some b ∧ b.left = [] ∧ s.fe.ops.any (fun p => keySeq p.1 == b.seq) = false ∧ s.fe.resetting = false ∧
      bitOf b.eflags 1 = true ∧ b.doneAddr % 16 = 0 ∧
      ok (exec .bufferRetire s) (fun t => hqHead t == 1 && t.fe.bufs.isEmpty && irqPending t 1 &&
        t.out.contains (.hostWrite 0x9000 [0, 0, 0, 0, 5, 0, 0, 0, 6, 0, 1, 0, 2, 0, 0, 0])) = true := by decide +kernel

/-! ## Transfers -/

/-- The state with one op, whose glove owns the first chunk of the tiers and may move bytes. -/
def moving (o : Op) : State :=
  let s := withOp o
  { s with chunks := [(0, ⟨.owned 1, some 1⟩)], od := kput (kput s.od (odKey 0x5003 1) (2 ^ 64 - 1)) (odKey 0x5004 1) (2 ^ 64 - 1) }

/-- A fill of 64 bytes at device address 64, and a copy of them from host memory. -/
def fillOp : List (Nat × Nat) := opDesc [(0, 2), (16, 64), (24, 0x0807060504030201), (32, 64)]
def copyOp : List (Nat × Nat) := opDesc [(0, 1), (16, 0x4000), (24, 64), (32, 64), (40, 1)]

theorem test_copy_starts : let o := anOp .held copyOp
    let s := moving o
    s.memOk ∧ kget s.fe.ops 1 = some o ∧ dmaBusy s < 8 ∧ gloveActive s o.glove = true ∧
      ((dmaSides o.bytes).all fun x => (dmaCheck o.glove x.1 (dLen o.bytes) x.2 s).1 == stOk) = true ∧ (startOp s 1 1 [1, 2]).isSome = true ∧
      ok (exec (.copy 1) s) (fun t => (kget t.fe.ops 1).any (·.phase == .started)) = true := by simp only [State.memOk]; decide +kernel
theorem test_fill_starts : let o := anOp .held fillOp
    let s := moving o
    ((dmaSides o.bytes).all fun x => (dmaCheck o.glove x.1 (dLen o.bytes) x.2 s).1 == stOk) = true ∧ (startOp s 1 2 [1, 2]).isSome = true ∧
      ok (exec (.fill 1) s) (fun t => (kget t.fe.ops 1).any (·.phase == .started)) = true := by decide +kernel

/-- A transfer under way, with n bytes granted and m moved. -/
def under (n m : Nat) (o : Op) : Op := { o with granted := n, moved := m }

theorem test_fill_burst_last : let o := under 64 0 (anOp .started fillOp)
    let s := moving o
    s.memOk ∧ kget s.fe.ops 1 = some o ∧ dKind o.bytes = 2 ∧ o.stalled = none ∧ reading s 1 = false ∧ bursting s 1 = false ∧ dmaOpen s o = true ∧ atTier s 64 = true ∧ tierOn s 64 = true ∧
      verdict s o.glove 64 64 true dmaTile = .tier ∧ o.bad = stOk ∧ o.eccSeen = false ∧
      ok (exec (.dmaBurst 1 none) s) (fun t => (kget t.fe.ops 1).isNone && load t 64 64 == (List.replicate 8 [1, 2, 3, 4, 5, 6, 7, 8]).flatten &&
        spentOf t 1 6 == 64 && (load t 0 64).all (· == 0)) = true := by simp only [State.memOk]; decide +kernel
theorem test_fill_burst_in_tc : let o := under 128 0 (anOp .started (opDesc [(0, 2), (16, 64), (24, 0x0807060504030201), (32, 128)]))
    let s := moving o
    s.now = 0 ∧ muxStopped s 0 = false ∧ let r := advance 9 s
      memWf r.mem = true ∧ kget r.fe.ops 1 = some o ∧ reading r 1 = false ∧ bursting r 1 = false ∧ dmaOpen r o = true ∧ atTier r 64 = true ∧ atTier r 128 = true ∧
      tierOn r 64 = true ∧ tierOn r 128 = true ∧
      ok (exec (.dmaBurst 1 (some 9)) s) (fun t => load t 64 8 == [1, 2, 3, 4, 5, 6, 7, 8] && load t 128 8 == List.replicate 8 0 &&
        acts t == [(10, .dma 1 1 128 [] stOk false)] && (let u := whenDue t
          load u 128 8 == [1, 2, 3, 4, 5, 6, 7, 8] && (kget u.fe.ops 1).isNone)) = true := by decide +kernel
theorem test_fill_burst_first : let o := under 64 0 (anOp .started (opDesc [(0, 2), (16, 64), (24, 0x0807060504030201), (32, 128)]))
    let s := moving o
    o.moved + 64 < dLen o.bytes ∧ o.drainReq = false ∧ dmaOpen s o = true ∧ verdict s o.glove 64 64 true dmaTile = .tier ∧
      ok (exec (.dmaBurst 1 none) s) (fun t => (kget t.fe.ops 1).any (fun p => p.moved == 64 && p.phase == .started)) = true := by decide +kernel
theorem test_wait_sem : let o := anOp .held (opDesc [(0, 4), (16, 64), (24, 5)])
    let s := store 64 [5] (moving o)
    s.memOk ∧ kget s.fe.ops 1 = some o ∧ dSemHost o.bytes = false ∧ verdict s o.glove 64 8 false dmaTile = .tier ∧ eccBad s 64 8 = false ∧
      dValue o.bytes ≤ loadNat s 64 8 ∧ (startOp s 1 4 [4, 5, 6, 7]).isSome = true ∧ gloveActive s o.glove = true ∧
      ok (exec (.waitSem 1 none) s) (fun t => (kget t.fe.ops 1).isNone && t.out.contains (.hostWrite (0x8000 + 64 + 14) [0, 0])) = true := by
  simp only [State.memOk]; decide +kernel
theorem test_wait_sem_poll : let o := anOp .started (opDesc [(0, 4), (16, 64), (24, 5)])
    let s := store 64 [5] (moving o)
    o.phase = .started ∧ dKind o.bytes = 4 ∧ ok (exec (.waitSemPoll 1 none) s) (fun t => (kget t.fe.ops 1).isNone) = true ∧
      ok (exec (.waitSemPoll 1 none) (moving o)) (fun t => (kget t.fe.ops 1).isSome) = true := by decide +kernel
theorem test_wait_sem_in_tc : let o := anOp .started (opDesc [(0, 4), (16, 64), (24, 5)])
    let s := store 64 [5] (moving o)
    let r := advance 3 s
    kget r.fe.ops 1 = some o ∧ verdict r o.glove 64 8 false dmaTile = .tier ∧ eccBad r 64 8 = false ∧ semBefore r (some 3) 64 (loadNat r 64 8) = 5 ∧
      ok (exec (.waitSemPoll 1 (some 3)) s) (fun t => (kget t.fe.ops 1).isNone && t.now == 3) = true := by decide +kernel
theorem test_signal_host : let o := anOp .held (opDesc [(0, 5), (16, 0x4000), (24, 9), (32, 3)])
    let s := moving o
    (startOp s 1 5 [4, 5, 6, 7]).isSome = true ∧ gloveActive s o.glove = true ∧ o.stalled = none ∧ o.orphan = false ∧ dSemHost o.bytes = true ∧ s.host.busMaster = true ∧
      ok (exec (.signalSem 1 none) s) (fun t => (kget t.fe.ops 1).isNone && t.out.contains (.hostWrite 0x4000 [9, 0, 0, 0, 0, 0, 0, 0])) = true := by decide +kernel
theorem test_signal_add : let o := anOp .held (opDesc [(0, 5), (16, 64), (24, 9)])
    let s := store 64 [255, 255, 255, 255, 255, 255, 255, 255] (moving o)
    dSemHost o.bytes = false ∧ (dmaCheck o.glove 64 8 true s).1 = stOk ∧ verdict s o.glove 64 8 false dmaTile = .tier ∧ budgetOpen s o.glove 6 = true ∧
      eccBad s 64 8 = false ∧ ok (exec (.signalSem 1 none) s) (fun t => loadNat t 64 8 == 8 && spentOf t 1 6 == 8) = true := by decide +kernel
theorem test_signal_write : let o := anOp .held (opDesc [(0, 5), (16, 64), (24, 9), (32, 2)])
    ok (exec (.signalSem 1 none) (store 64 [255] (moving o))) (fun t => loadNat t 64 8 == 9) = true := by decide +kernel
theorem test_limit_kills : let o := under 0 0 (anOp .started ((1, 4) :: fillOp))
    let s := moving o
    kget s.launches 1 = none ∧ dKind o.bytes = 2 ∧ dKillOnLimit o.bytes = true ∧
      ok (exec (.noProgressLimit 1) s) (fun t => bitOf (barGet t 0x1018) 3 && irqPending t 2 && t.out.contains (.hostWrite (0x8000 + 64 + 14) (leBytes 2 stKilledNoProgress))) = true := by
  decide +kernel
theorem test_limit_drains : let o := anOp .started fillOp
    let s := moving o
    reading s 1 = false ∧ ok (exec (.noProgressLimit 1) s) (fun t => t.out.contains (.hostWrite (0x8000 + 64 + 14) (leBytes 2 stDrained))) = true := by decide +kernel
theorem test_limit_while_stalled : let o := { anOp .started fillOp with stalled := some 3 }
    o.stalled.isSome = true ∧ same (exec (.noProgressLimit 1) (moving o)) (moving o) = true := by decide +kernel
theorem test_limit_of_a_launch : let o := anOp .started (opDesc [(0, 3)])
    let s := { moving o with launches := [(1, aLaunch)] }
    kget s.launches 1 = some aLaunch ∧ aLaunch.phase = .running ∧ dKillOnLimit o.bytes = false ∧ aLaunch.limitDrained = false ∧
      ok (exec (.noProgressLimit 1) s) (fun t => (kget t.launches 1).any (fun l => l.drainReq.isSome && l.limitDrained) && irqPending t 2) = true := by decide +kernel
theorem test_stall_retry : let o := { anOp .started fillOp with stalled := some 3 }
    let s := moving o
    o.stalled = some 3 ∧ 3 ≠ s.frame.boundaries ∧ ok (exec (.budgetStallRetry 1) s) (fun t => (kget t.fe.ops 1).any (fun p => p.stalled == none)) = true := by decide +kernel

/-! ## Launches -/

/-- A parameter block: an image of 128 bytes at address 0, a placement of 192 bytes in the next chunk. -/
def launchParams (flags : Nat) : List Byte :=
  leBytes 128 (2 + flags * 2 ^ 40 + 2 ^ 80 + 128 * 2 ^ (8 * 72) + 0x400000 * 2 ^ (8 * 80) + 6 * 2 ^ (8 * 86) + 192 * 2 ^ (8 * 88))

/-- That image (no problem, one section that this version ignores) and that placement (one window of M-tile 0, one instruction). -/
def launchBytes : List (Nat × List Byte) :=
  [(0, leBytes 4 0x4D495842 ++ [1]), (8, [1]), (16, [64]), (64, [0, 0x80]), (72, [96]),
    (0x400000 + 64, [2]), (0x400000 + 72, [0x10]), (0x400000 + 80, [136]), (0x400000 + 88, [32]),
    (0x400000 + 104, [0x11]), (0x400000 + 112, [168]), (0x400000 + 120, [8]), (0x400000 + 136 + 4, [16]), (0x400000 + 136 + 8, [1])]

/-- The modules's map in the placement, glove 1 with both chunks and a budget of 1,000 cycles. -/
def launchable (s : State) : State :=
  let t := launchBytes.foldl (fun s x => store x.1 x.2 s) s
  let u := store (0x400000 + 52) (leBytes 4 (mapCrc t)) (store (0x400000 + 48) [if t.plat.fuse.c6 then 0 else 1] t)
  odSet (odSet { u with chunks := [(0, ⟨.owned 1, some 1⟩), (1, ⟨.owned 1, some 1⟩)] } 0x3001 1 1) 0x3101 1 1000

def launchOp : Op := { anOp .started (opDesc [(0, 3), (16, 0x4000), (24, 128), (26, 1)]) with const := some (launchParams 0) }

def launchAux : LaunchAux := ⟨100, 0, false, none, none, true⟩

/-- A launch of those parameters, in a phase. -/
def loaded (phase : Phase) : Launch :=
  { aLaunch with phase := phase, params := launchParams 0, aux := launchAux, started := false, sections := [⟨0x10, 0, 0, 136, 32⟩, ⟨0x11, 0, 0, 168, 8⟩] }

/-- The bytes of a glove's banks, by the owner registers that have been written. -/
theorem gloveBankBytes_fun : gloveBankBytes = fun s g => ((allBanks.filter fun b => (match kget s.win (bankOwnerAddr b) with
    | some v => fld v 0 8
    | none => 0) == g).map fun b => 64 * bankWords b).sum :=
  funext fun s => funext fun g => congrArg (fun l => (List.map (fun b => 64 * bankWords b) l).sum) (banksOf_eq s g)

theorem test_launch_admitted : let s := launchable (withOp launchOp)
    kget s.fe.ops 1 = some launchOp ∧ dKind launchOp.bytes = 3 ∧ kget s.launches 1 = none ∧ launchOp.phase = .started ∧ launchOp.const = some (launchParams 0) ∧
      64 + 16 * pNreg (launchParams 0) + 64 * pNprob (launchParams 0) ≤ (launchParams 0).length ∧ admitReason s 1 (launchParams 0) launchAux = none := by
  unfold admitReason imageAdmits problemsOk
  rw [gloveBankBytes_fun]
  decide +kernel
/-- A LAUNCH whose constant buffer has come and that no reason refuses is admitted. -/
theorem exec_launch_admits {op : Nat} {aux : LaunchAux} {peers : List (List Byte)} {s : State} {o : Op} {p : List Byte} (h1 : kget s.fe.ops op = some o)
    (h2 : dKind o.bytes = 3) (h3 : kget s.launches op = none) (h4 : o.phase = .started) (h5 : o.const = some p)
    (h6 : 64 + 16 * pNreg p + 64 * pNprob p ≤ p.length) (h7 : admitReason s o.glove p aux = none) :
    exec (.launch op aux peers) s = .next (driftRefresh { s with launches := kput s.launches op (newLaunch s op o p aux peers) }) := by
  simp only [exec, execLaunch, h1, h2, h3, h4, h5, admitLaunch, h7, Nat.not_lt.mpr h6, ne_eq, not_true_eq_false, Option.isSome_none, Bool.false_eq_true,
    or_self, if_false, if_true]

theorem test_launch_loads :
    ok (exec (.launch 1 launchAux []) (launchable (withOp launchOp))) (fun t => (kget t.launches 1).any (fun l => l.phase == .loading && l.glove == 1 && l.tiles.length == 1)) = true := by
  obtain ⟨h1, h2, h3, h4, h5, h6, h7⟩ := test_launch_admitted
  rw [exec_launch_admits h1 h2 h3 h4 h5 h6 h7]
  decide +kernel
theorem test_launch_refused : let s := launchable (withOp { launchOp with glove := 2 })
    admitReason s 2 (launchParams 0) launchAux = some 1 ∧
      ok (exec (.launch 1 launchAux []) s) (fun t => t.launches.isEmpty && odGet t 0x3003 2 == 1 && irqPending t 64 && (kget t.fe.ops 1).isNone) = true := by decide +kernel
theorem test_seed_draw : let d : Drbg := ⟨List.replicate 32 0, List.replicate 16 0, [5, 7, 9], 0, false, false, false⟩
    let l := loaded .seed
    let s := { powered with launches := [(7, l)], sec := { powered.sec with mode := .normal, inst := [(257, d)] }, od := kput powered.od (odKey 0x3101 7) 0xFFFFFFFF }
    l.phase = .seed ∧ l.tried ≠ some s.frame.boundaries ∧ seedCovered s l.glove = true ∧ (seedWords s l.glove) = some (5, 7, d, [9]) ∧
      ok (exec .seedDraw s) (fun t => (kget t.launches 7).any (fun l => l.seed == 5 + 7 * 2 ^ 32 && l.phase == .loading) && spentOf t 1 7 == 2) = true := by decide +kernel
theorem test_loading_done : let s0 := launchable powered
    let l := { loaded .loading with tiles := setWindows s0 (launchParams 0) [⟨0x10, 0, 0, 136, 32⟩] }
    let s := { store 0x400000 (setDigest s0 (setRegions (launchParams 0) 0)) s0 with launches := [(7, l)] }
    leavesFormed s l = true ∧ setDigest s (setRegions l.params 0) = imgRead s (placeRegion l.params) 0 48 ∧
      ok (exec .loadingDone s) (fun t => (kget t.launches 7).any (fun l => l.phase == .armed) &&
        (tileOf t (l.tiles.map (·.1)).sum).wins.any (fun w => w.stop == 16 && w.glove == 1)) = true := by decide +kernel
theorem test_launch_start : let l := { loaded .armed with since := 2 }
    let s := { launchable powered with launches := [(7, l)], frame := { powered.frame with boundaries := 3 } }
    l.since < s.frame.boundaries ∧ pMulti l.params = false ∧
      ok (exec .launchStart s) (fun t => (kget t.launches 7).any (fun l => l.phase == .running && l.started && l.startFrame == 3 && l.digests.head? == some (setDigest s (setRegions l.params 0)))) = true := by
  decide +kernel
theorem test_launch_start_spare : let x : SafetyTable := ⟨[], [], [0], [], 0, [], 0, 0, false⟩
    let l := { loaded .armed with since := 2, aux := { launchAux with safety := some x } }
    let s := { launchable powered with
      launches := [(7, l)]
      frame := { powered.frame with boundaries := 3 }
      tiles := [(0, { aTile 0 with slots := [(0, { SlotSt.blank with launch := 7 })] })] }
    l.aux.safety = some x ∧ ok (exec .launchStart s) (fun t => (tileOf t 0).slots.all (fun p => p.2.launch == 7 && decide (2 ≤ p.2.dry))) = true := by decide +kernel

/-- A launch with its op in the table and one slot on tile 0. -/
def ending (l : Launch) (f : SlotSt → SlotSt) : State :=
  { withOp launchOp with
    launches := [(1, { l with tiles := [(0, [aWindow])] })]
    frame := { hosting.frame with boundaries := 5 }
    tiles := [(0, { aTile 0 with slots := [(0, f { SlotSt.blank with launch := 1 })] })] }

theorem test_drain_delivery : let l := { aLaunch with drainReq := some 4, params := launchParams 0 }
    let s := ending l id
    memWf s.mem = true ∧ l.phase = .running ∧ pMulti l.params = false ∧ l.drained = none ∧ l.drainReq = some 4 ∧ 4 < s.frame.boundaries ∧
      ok (exec (.drainDelivery []) s) (fun t => (kget t.launches 1).any (fun l => l.drained == some 5) && (tileOf t 0).slots.all (fun p => p.2.ctl)) = true := by decide +kernel
theorem test_drain_halts : let s0 := problemState (aProb 1)
    let s := { s0 with
      launches := s0.launches.map fun x => (x.1, { x.2 with drainReq := some 4 })
      frame := { hosting.frame with boundaries := 5 }
      fe := { s0.fe with ops := [(7, launchOp)] } }
    memWf s.mem = true ∧ (s.launches.all fun x => x.2.phase == .running && !pMulti x.2.params && x.2.drained == none && pNprob x.2.params == 1) = true ∧
      (probCtx s 7 0).any (fun c => !c.img.realtime) = true ∧
      ok (exec (.drainDelivery []) s) (fun t => (probOf t 7 0).any (fun q => q.stop == some 2)) = true := by decide +kernel
theorem test_launch_end : let end_ (d : Nat) (l : Launch) : State := ending { l with params := launchParams 0 } fun x => { x with dry := d }
    let st (s : State) (n : Nat) : Bool := ok (exec .launchEnd s) (fun t => (kget t.launches 1).any (fun l => l.phase == .release && l.status == n && l.since == 5))
    aLaunch.reexDue = false ∧ aLaunch.since < 5 ∧ (liveSlots (end_ 1 aLaunch) 1 { aLaunch with tiles := [(0, [aWindow])] }).all (fun x => x.dry != 0 && decide (x.dryIn < 5)) = true ∧
      st (end_ 1 aLaunch) stOk = true ∧ st (end_ 2 aLaunch) stLaunchFaulted = true ∧ st (end_ 1 { aLaunch with drained := some 4 }) stDrained = true ∧
      st (end_ 1 { aLaunch with drained := some 5 }) stOk = true := by decide +kernel
theorem test_launch_release : let l := { aLaunch with phase := .release, params := launchParams 0, placed := [(0, 0)] }
    let s := ending l id
    l.phase = .release ∧ l.released = false ∧ l.since < s.frame.boundaries ∧ pTicket l.params = false ∧
      ok (exec .launchRelease s) (fun t => t.launches.isEmpty && (tileOf t 0).slots.isEmpty && (kget t.fe.ops 1).isNone) = true := by decide +kernel
theorem test_launch_release_ticket : let l := { aLaunch with phase := .release, params := launchParams 1, placed := [(0, 0)] }
    let s := ending l id
    pTicket l.params = true ∧ goodStatus l.status = true ∧ ok (exec .launchRelease s) (fun t => (kget t.launches 1).any (fun l => l.phase == .ticket && l.released)) = true := by
  decide +kernel
theorem test_ticket_write : let l := { aLaunch with phase := .ticket, params := launchParams 1, tiles := [(0, [aWindow])] }
    let s0 := ending l id
    let s := { s0 with sec := { s0.sec with mode := .normal }, chunks := [(0, ⟨.owned 1, some 1⟩)] }
    let away := { s with chunks := [] }
    s.launches = [(1, l)] ∧ (verdict s 1 0 64 true 348 = .tier) ∧ verdict away 1 0 64 true 348 ≠ .tier ∧ secRuns s = true ∧ l.digests.length = 5 ∧ (l.digests.all fun d => d.length == 48) = true ∧
      ok (exec .ticketWrite s) (fun t => t.launches.isEmpty && loadNat t 0 4 == 0x54525842 && barGet t 0x5200 == 2 && odGet t 0x5040 1 == 1) = true := by decide +kernel
theorem test_kill_done : let l := { aLaunch with phase := .killing, released := true, killStatus := stKilled, toZero := [0] }
    let s := store (bankBase 0 + 5) [9] (store (bankBase 1) [8] (ending l id))
    memWf s.mem = true ∧ l.phase = .killing ∧ l.released = true ∧
      ok (exec .killDone s) (fun t => t.launches.isEmpty && byteAt t (bankBase 0 + 5) == 0 && byteAt t (bankBase 1) == 8 && (kget t.fe.ops 1).isNone) = true := by decide +kernel

/-! ## Tiers -/

/-- Port tile 52, the home of chunk 0, with that glove 1 owns, and a state of it. -/
def tier (p : PortSt) : State := { odSet powered 0x3001 1 1 with chunks := [(0, ⟨.owned 1, some 1⟩)], ports := [(52, p)] }

def ahead : Stream := ⟨7, 0, 4, 0, 5, 1⟩

def readReq (g : Nat) : MemReq := ⟨0, g, 7, false, 64, 128, 0, [], [(53, bankBase 0, 0)], true, false⟩
def writeReq (g : Nat) : MemReq := ⟨0, g, 7, true, 64, 128, 2, [(3, false), (5, true)], [(53, bankBase 0, 0)], true, false⟩

/-- The addresses and data of the words in a tile's queue. -/
def wordsOf (t : State) : List (Nat × List Nat) := (tileOf t 52).msgq.map fun (x : VcFlit) => match x.pay with
  | .word d _ => (d, x.dests.map fun h => h.2.2)
  | _ => (0, [])

theorem test_mem_read : let r := readReq 1
    let s := store 64 [9] (tier { PortSt.blank with granted := [r] })
    memWf s.mem = true ∧ nextGranted false (portOf s 52) = some r ∧ requestFault s r = none ∧ (route s.plat.fuse 52 53).isSome = true ∧
      ok (exec (.memRead 52) s) (fun t => (portOf t 52).granted.isEmpty && wordsOf t == [(9, [bankBase 0]), (0, [bankBase 0 + 64])]) = true := by decide +kernel
theorem test_mem_read_refused : let s := store 64 [9] (tier { PortSt.blank with granted := [readReq 2] })
    (requestFault s (readReq 2)).isSome = true ∧
      ok (exec (.memRead 52) s) (fun t => irqPending t 258 && wordsOf t == [(0, [bankBase 0]), (0, [bankBase 0 + 64])]) = true := by decide +kernel
theorem test_mem_write : let r := writeReq 1
    let s := store 128 [6] (tier { PortSt.blank with granted := [r] })
    memWf s.mem = true ∧ nextGranted true (portOf s 52) = some r ∧ requestFault s r = none ∧
      ok (exec (.memWrite 52) s) (fun t => loadNat t 64 8 == 3 && loadNat t 128 8 == 6 && (tileOf t 52).msgq.length == 1) = true ∧
      ok (exec (.memWrite 52) (tier { PortSt.blank with granted := [{ r with adds := false }] })) (fun t => (tileOf t 52).msgq.isEmpty) = true := by decide +kernel
theorem test_mem_write_refused : let s := tier { PortSt.blank with granted := [writeReq 2] }
    nextGranted true (portOf s 52) = some (writeReq 2) ∧ requestFault s (writeReq 2) ≠ none ∧
      ok (exec (.memWrite 52) s) (fun t => irqPending t 258 && (portOf t 52).granted.isEmpty && t.mem == s.mem) = true := by decide +kernel
theorem test_read_ahead : let s := store 64 [7] (tier { PortSt.blank with streams := [ahead], place := [(streamKey 1 5 false, (0, 1))] })
    let p := portOf s 52
    nextUnread p (streamsOf p 1 5 false) 2049 (kgetD p.place (streamKey 1 5 false) (0, 0)) = some (ahead, 1) ∧ p.buffer.length + groupWords 0 ≤ 2048 ∧
      ok (exec (.streamReadAhead 52 4101) s) (fun t => (portOf t 52).buffer.map (fun b => (b.place, b.data)) == [(1, 7)]) = true := by decide +kernel
theorem test_ecc_write_back : let s := { tier PortSt.blank with ecc := [(8, .single), (9, .double), (16, .single)] }
    inTier s 64 = true ∧ ok (exec (.eccWriteBack 64) s) (fun t => t.ecc == [(9, .double), (16, .single)]) = true ∧
      ok (exec (.patrolScrubVisit 64) s) (fun t => t.ecc == [(9, .double), (16, .single)]) = true := by decide +kernel
theorem test_hash_pass : let s := { tier PortSt.blank with leaves := [(0, .stale), (1, .stale)] }
    memWf s.mem = true ∧ keysRise s.chunks = true ∧ (s.leaves.filter fun p => chunkHome p.1 == 52 && p.2 == .stale && [0, 1].contains p.1).map (·.1) = 0 :: [] ∧
      (hashingOf s 52).length < 8 ∧ domainOn s (tileDomain 52) = true ∧
      ok (exec (.hashPassStart 52 [0, 1]) s) (fun t => t.leaves == [(0, .hashing), (1, .stale)]) = true := by decide +kernel
theorem test_hash_done : let s := { tier PortSt.blank with leaves := [(0, .hashing), (1, .stale)] }
    0 ∈ hashingOf s 52 ∧ ok (exec (.hashPassDone 52 0) s) (fun t => t.leaves == [(1, .stale)]) = true := by decide +kernel
theorem test_mem_temp : isMemPort 52 = true ∧ ok (exec (.memTempRead 52 (-3)) powered) (fun t => fld (winGet t (tileBase 52 + 0xF1004)) 8 8 == 253) = true := by decide +kernel

/-- MemAssign names chunk 3 for glove 2. -/
def assigning (s : State) : State := odSet (odSet (odSet s 0x2500 1 0xC00000) 0x2500 2 1) 0x2500 3 2

theorem test_assign_commit : granted assignEntry (rq 0x2500 5 [1]) (assigning served) = true ∧
    ok (exec (.memAssignCommit (rq 0x2500 5 [1])) (assigning served)) (fun t => answers t 0 && odGet t 0x2500 6 == 1 && t.assign == some ⟨3, 1, 2, true, false, 0, []⟩) = true := by
  decide +kernel
theorem test_assign_transit : let a : Assign := ⟨0, 1, 2, false, false, 0, []⟩
    let s := { tier PortSt.blank with assign := some a, frame := { powered.frame with boundaries := 1 } }
    s.assign = some a ∧ a.transit = false ∧ a.boundary < s.frame.boundaries ∧
      ok (exec .memAssignTransit s) (fun t => odGet t 0x2500 6 == 2 && chunkAt t 0 == ⟨.transit, some 1⟩ && t.assign == some ⟨0, 1, 2, false, true, 1, [0]⟩) = true := by decide +kernel
theorem test_chunk_scrub : let a : Assign := ⟨0, 1, 2, false, true, 0, [0]⟩
    let s := { store 64 [9] (store 0x400000 [8] (tier PortSt.blank)) with assign := some a }
    0 ∈ a.todo ∧ domainOn s (tileDomain (chunkHome 0)) = true ∧
      ok (exec (.chunkScrubDone 0) s) (fun t => byteAt t 64 == 0 && byteAt t 0x400000 == 8 && t.assign == some { a with todo := [] }) = true := by decide +kernel
theorem test_assign_done : let a : Assign := ⟨0, 1, 2, false, true, 0, []⟩
    let s := { tier PortSt.blank with assign := some a, frame := { powered.frame with boundaries := 1 } }
    a.transit = true ∧ a.todo = [] ∧ ok (exec .memAssignDone s) (fun t => odGet t 0x2500 6 == 3 && chunkAt t 0 == ⟨.owned 2, some 2⟩ && t.assign.isNone) = true ∧
      ok (exec .memAssignDone { s with assign := some { a with glove := 0x100 } }) (fun t => chunkAt t 0 == ⟨.free, none⟩) = true := by decide +kernel

/-! ## Registers, claims, the mailbox, BAR2 -/

theorem test_write_not_listed : writeLogged (.bar0 0x400C) 1 = false ∧ writeLogged (.bar0 0x1008) 1 = true ∧
    same (exec (.registerWrite .host (.bar0 0x6000) 1 3 7) powered) powered = true := by decide +kernel
theorem test_narrow_write : narrowBe 3 = true ∧ regThere powered (.bar0 0x1008) = true ∧ regOff (.bar0 0x1008) % 4 = 0 ∧
    ok (exec (.registerWrite .host (.bar0 0x1008) 1 3 7) powered) (fun t => barGet t 0x1008 == barGet powered 0x1008 && fld (barGet t 0x10) 0 11 == 0x101 &&
      barGet t 0x14 == 0x1008 && irqPending t 332) = true := by decide +kernel
theorem test_read_of_no_class : regThere powered (.dev (tileBase 4 + 0xF0000)) = true ∧
    ok (exec (.rcRead .host (.dev (tileBase 4 + 0xF0000)) 1 5) powered) (fun t => t.out.contains .completerAbort && fld (barGet t 0x10) 8 4 == 10) = true := by decide +kernel
theorem test_clearing_counter : let a := tileBase 4 + 0xF0000
    let s := winSet powered a 5
    kindOf 4 ≠ .port ∧ regThere s (.dev a) = true ∧
      ok (exec (.rcRead (.mgmt 0) (.dev a) 1 15) s) (fun t => t.out == [.readData [5, 0, 0, 0]] && winGet t a == 0) = true ∧
      ok (exec (.rcRead .host (.dev a) 1 15) s) (fun t => t.out == [.readData [5, 0, 0, 0]] && winGet t a == 5) = true := by decide +kernel
theorem test_counter_pair : let a := tileBase 0 + 0xF1010
    let s := winSet (winSet powered a 5) (a + 4) 6
    kindOf 0 = .m ∧ regThere s (.dev a) = true ∧ regThere s (.dev (a + 4)) = true ∧
      ok (exec (.counterLoRead .host (.dev a) 1 15) s) (fun t => t.out == [.readData [5, 0, 0, 0]] &&
        ok (exec (.rcRead .host (.dev (a + 4)) 1 15) (winSet t (a + 4) 7)) (fun u => u.out.head? == some (.readData [6, 0, 0, 0]))) = true := by decide +kernel
theorem test_claim : let s := { powered with host := { powered.host with irq := [(64, 3), (65, 1)] } }
    keysRise s.host.irq = true ∧ kget s.host.irq 64 = some 3 ∧ isTarget s 0 64 = false ∧ isTarget s 1 64 = true ∧
      ok (exec (.icClaim 1 64) s) (fun t => t.out.contains (.readData [64, 0, 3, 0]) && t.host.irq == [(65, 1)]) = true ∧
      ok (exec (.icClaim 0 64) s) (fun t => t.out == [.readData [0xFF, 3, 0, 0]]) = true ∧
      ok (exec (.icClaim 1 66) s) (fun t => t.out == [.readData [0xFF, 3, 0, 0]]) = true := by decide +kernel
/-- The lock is not open: the field of IC_WATCH that needs it stays (the reason that the log gets is a free value). -/
theorem test_watch_locked : odGet powered 0x2000 1 ≠ 1 ∧ regThere powered (.bar0 0x2044) = true ∧
    (regFind bar0Regs 0x2044).any (fun x => x.1.rwl == 0x800003FF && regWritten x.1 false 0x80000005 7 == 0x80000005 &&
      regWritten x.1 true 0x80000005 7 == 7) = true := by decide +kernel
theorem test_doorbell_overrun : let s := { powered with serv := { powered.serv with odm := some (1, rq 0x1000 0 []) } }
    bitOf (BitVec.toNat (1 : Reg)) 0 = true ∧ s.serv.odm.isSome = true ∧ ok (exec (.odmDoorbell 1) s) (fun t => bitOf (barGet t 0x3004) 2) = true := by decide +kernel
theorem test_doorbell_asleep : let s := setDomain powered 52 0
    s.serv.odm = none ∧ mgmtAsleep s = true ∧ ok (exec (.odmDoorbell 1) s) (fun t => bitOf (barGet t 0x3004) 0 && t.serv.odm.isSome) = true := by decide +kernel
theorem test_doorbell_read : let s := barBytes 0x3200 [1, 0, 9, 0, 0, 0, 0x18, 0x10, 1, 0, 0, 0, 0, 0, 0, 0] powered
    s.serv.odm = none ∧ mgmtAsleep s = false ∧ s.plat.ready = true ∧ s.serv.queue = [] ∧ (mailboxRequest s).1 = 1 ∧ (mailboxRequest s).2.data.length ≤ 1024 ∧
      ok (exec (.odmDoorbell 1) s) (fun t => bitOf (barGet t 0x3004) 1 && irqPending t 334 && t.out.any (fun o => match o with
        | .odResponse 0 9 0 _ _ _ _ => true
        | _ => false)) = true := by decide +kernel

/-- Segment 0 of BAR2 maps the start of the tiers for glove 1. -/
def mapped : State := barSet (tier PortSt.blank) 0x100 0x101

theorem test_bar2 : let s := store 64 [1, 2, 3, 4, 5, 6, 7, 8] mapped
    let r : BusReq := ⟨64, 2, 0x7E⟩
    memWf s.mem = true ∧ busReqOk r = true ∧ enabledRange r = (1, 6) ∧ (segment s r.off).2.2 = true ∧
      verdict s (segment s r.off).1 ((segment s r.off).2.1 + 1) 6 false dmaTile = .tier ∧
      (∀ l ∈ lanesOf 65 6, kget s.ecc l = none) ∧ writeHold s 1 65 6 = none ∧
      ok (exec (.bar2Read r none) s) (fun t => t.out == [.readData [0, 2, 3, 4, 5, 6, 7, 0]]) = true ∧
      ok (exec (.bar2Write r [11, 12, 13, 14, 15, 16, 17, 18] none) s) (fun t => load t 64 8 == [1, 12, 13, 14, 15, 16, 17, 8]) = true := by decide +kernel
theorem test_bar2_in_tc : let r : BusReq := ⟨64, 2, 0x7E⟩
    mapped.now ≤ 5 ∧ muxStopped mapped 0 = false ∧ (let s := advance 5 mapped
      memWf s.mem = true ∧ (segment s r.off).2.2 = true ∧ verdict s (segment s r.off).1 65 6 false dmaTile = .tier ∧ writeHold s 1 65 6 = none) ∧
      ok (exec (.bar2Write r [11, 12, 13, 14, 15, 16, 17, 18] (some 5)) mapped) (fun t => t.now == 5 && load t 64 8 == [0, 12, 13, 14, 15, 16, 17, 0]) = true := by decide +kernel
theorem test_bar2_off : let r : BusReq := ⟨0x10000000, 1, 15⟩
    busReqOk r = true ∧ (enabledRange r).2 ≠ 0 ∧ (segment mapped r.off).2.2 = false ∧
      ok (exec (.bar2Read r none) mapped) (fun t => t.out.contains (.readData [0, 0, 0, 0]) && odGet t 0x7500 1 == 1 && irqPending t 258) = true ∧
      ok (exec (.bar2Write r [1, 2, 3, 4] none) mapped) (fun t => odGet t 0x7500 1 == 1 && irqPending t 258 && t.mem == mapped.mem) = true := by decide +kernel
theorem test_completion_error : let o := anOp .started copyOp
    let s := { moving o with fe := { (moving o).fe with reads := [(3, ⟨.copy 1, 0x4000, 64⟩)] } }
    kget s.fe.reads 3 = some ⟨.copy 1, 0x4000, 64⟩ ∧ readOp (.copy 1) = some 1 ∧ kget s.fe.ops 1 = some o ∧
      ok (exec (.hostReadCompletion 3 false [] none) s) (fun t => (kget t.fe.ops 1).isNone && t.fe.reads.isEmpty &&
        t.out.contains (.hostWrite (0x8000 + 64 + 14) (leBytes 2 stAccessFault))) = true := by decide +kernel
theorem test_completion_constants : let o := anOp .started (opDesc [(0, 3)])
    let s := { moving o with fe := { (moving o).fe with reads := [(3, ⟨.const 1, 0x4000, 2⟩)] } }
    ok (exec (.hostReadCompletion 3 true [8, 9] none) s) (fun t => (kget t.fe.ops 1).any (fun p => p.const == some [8, 9])) = true := by decide +kernel
theorem test_completion_entry : let b : Buf := ⟨6, false, false, 0, 0, 0, 0, 0, 0, 0, [], [], false⟩
    let s := { hosting with fe := { hosting.fe with pre := [b], reads := [(3, ⟨.entry 6, 0x4000, 32⟩)] } }
    entryBad (List.replicate 32 0) = true ∧ ok (exec (.hostReadCompletion 3 true (List.replicate 32 0) none) s) (fun t => t.fe.pre.all (fun b => b.read && b.bad)) = true ∧
      ok (exec (.hostReadCompletion 4 true (List.replicate 32 0) none) s) (fun t => t == s) = true := by decide +kernel
theorem test_completion_descs : let b := { aBuf 2 [] with seq := 6, got := 0 }
    let s := { hosting with fe := { hosting.fe with pre := [b], reads := [(3, ⟨.descs 6, 0x8000, 128⟩)] } }
    ok (exec (.hostReadCompletion 3 true (List.replicate 128 0) none) s) (fun t => t.fe.pre.all (fun b => b.got == 2 && b.left.length == 2)) = true := by decide +kernel

/-! ## Gloves -/

theorem test_glove_open : let r := rq 0x3000 1 [5, 0, 0, 0]
    let s := odSet served 0x3001 1 1
    granted gloveOpenEntry r s = true ∧ freeGlove (decided s) = some 2 ∧ keysRise (recorded r s).od = true ∧
      ok (exec (.gloveOpenRequest r) s) (fun t => answers t 0 && gloveState t 2 == 1 && odGet t 0x3002 2 == 5 && odGet t 0x3000 2 == 5 + 2 ^ 33 && t.sec.want.contains 258) = true := by
  decide +kernel
theorem test_glove_relaxed : granted relaxedEntry (rq 0x3400 1 [1]) served = true ∧
    ok (exec (.gloveRelaxedWrite (rq 0x3400 1 [1])) served) (fun t => answers t 0 && odGet t 0x3400 1 == 1) = true := by decide +kernel
theorem test_glove_budget : let r := rq 0x3101 1 [100, 0, 0, 0, 0, 0, 0, 0]
    granted budgetEntry r served = true ∧ ok (exec (.gloveBudgetWrite r) served) (fun t => answers t 0 && odGet t 0x3101 1 == 100 && odForce t 0x3101 1 == odForce served 0x3101 1) = true := by
  decide +kernel
/-- The banks of a glove, by the owner registers that have been written (banksOf_eq): what the tests below evaluate. -/
theorem banksOf_fun : banksOf = fun s g => allBanks.filter fun b => (match kget s.win (bankOwnerAddr b) with
    | some v => fld v 0 8
    | none => 0) == g := funext fun s => funext fun g => banksOf_eq s g

theorem test_glove_reset : let d : Drbg := ⟨List.replicate 32 0, List.replicate 16 0, [5], 0, false, false, false⟩
    let s := odSet { winSet served (bankOwnerAddr 0) 1 with launches := [(7, aLaunch)], sec := { served.sec with inst := [(257, d)] }, spent := [(18, 5)] } 0x3001 1 1
    let r := rq 0x3000 3 [1]
    granted gloveResetEntry r s = true ∧ reqVal r = 1 ∧ bankExists 0 = true ∧ bankOwner (recorded r s) 0 = 1 ∧ kget (recorded r s).sec.inst 257 = some d ∧
      ok (exec (.gloveReset r) s) (fun t => gloveState t 1 == 2 && (kget t.launches 7).any (fun l => l.phase == .killing) && bankPendingHandover t 0 && spentOf t 1 2 == 0 &&
        (kget t.sec.inst 257).any (fun e => e.buf.isEmpty) && t.sec.dues.contains 257) = true := by
  unfold exec execGloveReset gloveResetEntry resetGlove
  rw [banksOf_fun]
  decide +kernel
theorem test_glove_reset_done : let s := odSet powered 0x3001 1 2
    gloveState s 1 = 2 ∧ banksOf s 1 = [] ∧ ok (exec (.gloveResetDone 1) s) (fun t => gloveState t 1 == 1 && irqPending t 68) = true := by
  unfold exec execGloveResetDone
  rw [banksOf_fun]
  decide +kernel
theorem test_glove_close : let s := odSet (odSet served 0x3001 1 1) 0x3002 1 9
    let r := rq 0x3000 4 [1]
    granted gloveCloseEntry r s = true ∧ reqVal r = 1 ∧ ok (exec (.gloveClose r) s) (fun t => answers t 0 && gloveState t 1 == 0 && odGet t 0x3002 1 == 0) = true := by
  unfold exec execGloveClose gloveCloseEntry closable
  rw [banksOf_fun]
  decide +kernel

/-! ## The field network -/

/-- A dictionary value in force in this frame. -/
def inForce (index sub v : Nat) (s : State) : State := { odSet s index sub v with force := kput s.force (odKey index sub) v }

/-- A frame to MAC 01-02-03-04-05-06, VID 7, with a PD header of CYCLE 9 and four bytes of payload. -/
def aFrame : List Byte := [1, 2, 3, 4, 5, 6, 9, 9, 9, 9, 9, 9, 0x81, 0, 0, 7] ++ beBytes 2 (odGet powered 0x1300 1) ++ [1, 0, 0, 0, 9, 0, 0, 0, 21, 22, 23, 24]

/-- Port 0 is up, filter 0 and receive stream 0 match that frame; transmit stream 0 sends object 0 from bank 0 on ports 0 and 1. -/
def fielded : State :=
  let s := odSet (odSet served 0x1200 3 1) 0x1201 3 1
  let s := odSet (odSet s 0x1600 1 (leNat [1, 2, 3, 4, 5, 6, 7, 0])) 0x1600 2 1000
  let s := inForce 0x6800 1 1 (odSet (odSet (odSet s 0x6800 2 1) 0x6800 3 (leNat [1, 2, 3, 4, 5, 6, 7, 0])) 0x6800 4 4)
  let s := inForce 0x6840 1 1 (odSet (odSet (odSet s 0x6840 2 3) 0x6840 3 (leNat [1, 2, 3, 4, 5, 6, 7, 0])) 0x6840 5 4)
  let s := odSet (odSet s 0x6A40 0 1) 0x6A40 1 0
  odSet (odSet (odSet (odSet (odSet s 0x6000 1 1) 0x6000 2 1) 0x6000 3 0) 0x6000 4 0) 0x6000 7 4

def aParsed : RxFrame := ⟨[1, 2, 3, 4, 5, 6], 7, none, odGet powered 0x1300 1, [1, 0, 0, 0, 9, 0, 0, 0], [21, 22, 23, 24]⟩

theorem test_rx_frame : portUp fielded 0 = true ∧ rxParse aFrame = some aParsed ∧ aParsed.etype = odGet fielded 0x1300 1 ∧ filterOf fielded aParsed = some 0 ∧
    aFrame.length + 4 ≤ odGet fielded 0x1600 2 ∧ odGet fielded 0x1600 3 = 0 ∧ rxStream fielded 0 aParsed = some 0 ∧ odGet fielded 0x6800 4 ≤ aParsed.payload.length ∧
    odGet fielded 0x6800 5 = 0 ∧ (rxOf fielded 0).due = none ∧
    ok (exec (.rxFrame 0 false 0 aFrame) fielded) (fun t => (rxOf t 0).due == some (9, [21, 22, 23, 24]) && odGet t 0x7100 1 == 1) = true ∧
    ok (exec (.rxFrame 0 true 0 aFrame) fielded) (fun t => (rxOf t 0).next == some (9, [21, 22, 23, 24]) && (rxOf t 0).due.isNone) = true := by decide +kernel
theorem test_rx_frame_again : let s := setRx 0 { rxOf fielded 0 with due := some (8, [1, 1, 1, 1]) } fielded
    ok (exec (.rxFrame 0 false 0 aFrame) s) (fun t => (rxOf t 0).due == some (9, [21, 22, 23, 24]) && odGet t 0x7100 3 == 1) = true := by decide +kernel
theorem test_link_falls : portUp fielded 0 = true ∧
    ok (exec (.portLinkChange 0 false) { fielded with serv := { fielded.serv with sessions := [(1, ⟨0, 1, 1⟩), (2, ⟨1, 1, 1⟩)] } })
      (fun t => !portUp t 0 && irqPending t 323 && t.serv.sessions.map (·.1) == [1]) = true := by decide +kernel
theorem test_link_rises : let s := odSet powered 0x1200 1 3
    portUp s 0 = false ∧ odGet s 0x1200 1 ≠ 0 ∧ domainOn s 50 = true ∧
      ok (exec (.portLinkChange 0 true) s) (fun t => portUp t 0 && fld (winGet t (tileBase (tsnTile 0) + 0xF1000)) 0 2 == 3) = true := by decide +kernel

/-- An ARP request of station 9-9-9-9-9-9 (10.0.0.9) for 10.0.0.last. -/
def arpFor (last : Byte) : List Byte :=
  List.replicate 6 0xFF ++ List.replicate 6 9 ++ [8, 6, 0, 1, 8, 0, 6, 4, 0, 1] ++ List.replicate 6 9 ++ [10, 0, 0, 9] ++ List.replicate 6 0 ++ [10, 0, 0, last]

theorem test_arp : let s := odSet fielded 0x1200 4 0x0A000002
    (arpReply s 0 (arpFor 2)).isSome = true ∧ 42 ≤ (arpFor 2).length ∧ arpReply s 0 (arpFor 3) = none ∧
      ok (exec (.arpRequest 0 (arpFor 2)) s) (fun t => t.out.any fun o => match o with
        | .frame 0 d => d.take 6 == List.replicate 6 9 && (d.drop 28).take 4 == [10, 0, 0, 2] && (d.drop 38).take 4 == [10, 0, 0, 9]
        | _ => false) = true ∧ ok (exec (.arpRequest 0 (arpFor 3)) s) (fun t => t.out.isEmpty) = true := by decide +kernel
theorem test_tx_fetch : let s := store (bankBase 0) [7, 8] (bankOn 0 1 fielded)
    s.now ≤ 6 ∧ muxStopped s 0 = false ∧ (let v := advance 6 s
      let s1 := setTx 0 { txOf v 0 with fetched := true } v
      streamOn v 64 = true ∧ (txOf v 0).fetched = false ∧ txObjects v 0 = [0] ∧ objectDests v 0 = [(0, 0)] ∧ (destWin 0).map (·.base) = some (bankBase 0) ∧
        repliesOpen s1 1 1 = 1 ∧ verdict s1 1 (bankBase 0) 4 false 0 = .bank 0 ∧ (destWin 0).map (·.pos) = some 0 ∧
        (portRead 1 0 (bankBase 0) 4 (budgetAdd 1 3 1 s1)).1.status = stOk) ∧
      ok (exec (.txFetch 0 6) s) (fun t => (txOf t 0).fetched && kget (txOf t 0).chosen 0 == some [7, 8, 0, 0]) = true := by decide +kernel
theorem test_tx_deadline : let s := fielded
    streamOn s 64 = true ∧ (txOf s 0).noData = none ∧ txMissing s 0 = true ∧
      ok (exec (.txDataDeadline 0) s) (fun t => (txOf t 0).noData == some true && odGet t 0x6840 9 == 1 && irqPending t 325) = true := by decide +kernel
theorem test_tx_deadline_met : let s := setTx 0 { txOf fielded 0 with fetched := true, chosen := [(0, [7, 8, 0, 0])] } fielded
    txMissing s 0 = false ∧ ok (exec (.txDataDeadline 0) s) (fun t => (txOf t 0).noData == some false && !irqPending t 325) = true := by decide +kernel
theorem test_tx_frame : let s := setTx 0 { txOf fielded 0 with fetched := true, chosen := [(0, [7, 8, 5, 6])], noData := some false } fielded
    (txOf s 0).sent = false ∧ (List.range 8).filter (fun p => bitOf (streamMask s 64) p) = [0, 1] ∧ portUp s 1 = true ∧
      ok (exec (.txFrame 0 []) s) (fun t => (txOf t 0).sent && odGet t 0x7101 2 == 1 && (t.out.all fun o => match o with
        | .frame _ d => d.drop (d.length - 4) == [7, 8, 5, 6] && (d.drop 16).take 2 == [0xF1, 0xC1]
        | _ => false)) = true := by decide +kernel
theorem test_tx_frame_no_data : let s := setTx 0 { txOf fielded 0 with noData := some true } fielded
    ok (exec (.txFrame 0 []) s) (fun t => t.out.length == 2 && (t.out.all fun o => match o with
      | .frame _ d => d.drop (d.length - 4) == [0, 0, 0, 0] && (d.drop (d.length - 12)).take 2 == [1, 1]
      | _ => false)) = true := by decide +kernel
theorem test_field_entries : let f := inForce 0x4103 4 5 fielded
    let s := setConn 3 { connOf f 3 with state := 4 } f
    granted gclEntry (rq 0x1402 3 [1]) s = true ∧ granted ackEntry (rq 0x4103 8 [1]) s = true ∧ granted enableEntry (rq 0x6805 1 [1]) s = true ∧
      (connOf (recorded (rq 0x4103 8 [1]) s) 3).state = 4 ∧ (connOf (recorded (rq 0x4104 8 [1]) s) 4).state ≠ 4 ∧
      ok (exec (.gclCommit (rq 0x1402 3 [1])) s) (fun t => answers t 0 && t.field.gclDue == [2]) = true ∧
      ok (exec (.safetyAck (rq 0x4103 8 [1])) s) (fun t => answers t 0 && (connOf t 3).ack) = true ∧
      ok (exec (.streamEnableWrite (rq 0x6805 1 [1])) s) (fun t => answers t 0 && odGet t 0x6805 1 == 1 && !streamOn t 5) = true := by decide +kernel

/-! ## Sentinel launches, fault records, re-execution -/

def aTable : SafetyTable := ⟨[684], [780], [781], [(684, 6)], 732, [], 0, 0, true⟩

/-- A sentinel launch of glove 1 as it runs. -/
def aSentinel (x : SentinelSt) : Launch :=
  { aLaunch with aux := { aLaunch.aux with safety := some aTable }, sentinel := x, tiles := [(684, [aWindow]), (780, [aWindow]), (781, [aWindow])] }

/-- That launch; object 0 of transmit stream 0 has two locations, whose copies are as given. -/
def guarded (x : SentinelSt) (a b : List Byte × Bool × Bool) : State :=
  let s := odSet fielded 0x6000 5 1
  setTx 0 { txOf s 0 with copies := [(0, [a, b])] }
    { s with launches := [(7, aSentinel x)], safety := ⟨0, true, 0, [], 0, []⟩
             frame := { s.frame with boundaries := 5 }
             tiles := [684, 780, 781].map fun p => (p, { aTile 0 with slots := [(0, { SlotSt.blank with launch := 7, latch := true, dry := ofBool (p == 781) })] }) }

/-- Both sets are healthy, and have sent their flits. -/
def healthy_ : SentinelSt := ⟨[], [], 0, false, false, [684, 780, 781], false⟩

theorem test_health_flit : let s := guarded healthy_ ([1], true, false) ([1], true, false)
    (route s.plat.fuse 684 732).isSome = true ∧ isRunning (aSentinel healthy_) = true ∧
      ok (exec (.healthFlit 7 684) s) (fun t => (tileOf t 684).slots.all (fun p => !p.2.latch) && (tileOf t 684).msgq.any (fun x => x.pay == .health 7 684 true)) = true := by
  decide +kernel
theorem test_comparators_disagree : let s := guarded healthy_ ([1], true, false) ([1], true, false)
    ok (exec (.replicaComparison 7 false) s) (fun t => !t.safety.outs && bitOf t.safety.causes 3 && irqPending t 139 && irqPending t 130) = true := by decide +kernel
theorem test_copies_equal : let s := guarded healthy_ ([1], true, false) ([1], true, false)
    let os := comparedObjects s (aSentinel healthy_) 732
    os = [(0, 0)] ∧ activeSets healthy_ = [(0, 0), (1, 1)] ∧ setFlagged s (aSentinel healthy_) aTable os (0, 0) = false ∧
      setFlagged s (aSentinel healthy_) aTable os (1, 1) = false ∧ copiesEqual s os = true ∧
      ok (exec (.replicaComparison 7 true) s) (fun t => kget (txOf t 0).chosen 0 == some [1] && t.out.isEmpty) = true := by decide +kernel
theorem test_one_set_flagged : let x := { healthy_ with health := [780] }
    let s := guarded x ([2], true, false) ([1], true, false)
    let os := comparedObjects s (aSentinel x) 732
    setFlagged s (aSentinel x) aTable os (0, 0) = true ∧ setFlagged s (aSentinel x) aTable os (1, 1) = false ∧
      ok (exec (.replicaComparison 7 true) s) (fun t => kget (txOf t 0).chosen 0 == some [1] && (kget t.launches 7).any (fun m => m.sentinel.fenceDue == [0] && m.sentinel.fencedAt == 5) &&
        odGet t 0x4801 3 == 0x21 && odGet t 0x4801 4 == 1 && irqPending t 128 && t.safety.outs) = true := by decide +kernel
theorem test_divergence : let s := guarded healthy_ ([1], true, false) ([2], true, false)
    let os := comparedObjects s (aSentinel healthy_) 732
    copiesEqual s os = false ∧
      ok (exec (.replicaComparison 7 true) s) (fun t => kget (txOf t 0).chosen 0 == none && odGet t 0x4801 6 == 1 && odGet t 0x4801 3 == 0x22 && irqPending t 130) = true := by decide +kernel
theorem test_divergence_reaction : let s := guarded healthy_ ([1], true, false) ([2], true, false)
    let reaction (n : Nat) : State := { s with force := kput s.force (odKey 0x4801 1) n }
    odForce (reaction 1) 0x4801 1 = 1 ∧ odForce (reaction 0) 0x4801 1 ≠ 1 ∧ ok (exec (.replicaComparison 7 true) (reaction 1)) (fun t => !t.safety.outs && bitOf t.safety.causes 1) = true ∧
      ok (exec (.replicaComparison 7 true) (reaction 0)) (fun t => t.safety.outs) = true := by decide +kernel
theorem test_replica_fence : let x := { healthy_ with fenceDue := [0], fencedAt := 4 }
    let s := guarded x ([1], true, false) ([1], true, false)
    x.fencedAt < s.frame.boundaries ∧
      ok (exec (.replicaFence 7) s) (fun t => (kget t.launches 7).any (fun l => l.sentinel.fenced == [0] && l.sentinel.fencedAt == 5) &&
        (tileOf t 684).slots.all (fun p => p.2.dry == 2) && (tileOf t 780).slots.all (fun p => p.2.dry == 0)) = true := by decide +kernel
theorem test_spare_restart : let x := { healthy_ with fenced := [0], fencedAt := 4 }
    let s := guarded x ([1], true, false) ([1], true, false)
    aTable.setC ≠ [] ∧ x.spareUsed = false ∧ x.fenced.length = 1 ∧ x.stopped = false ∧
      ok (exec (.spareRestart 7) s) (fun t => (kget t.launches 7).any (fun l => l.sentinel.partnerC && l.sentinel.spareUsed) &&
        (tileOf t 781).slots.all (fun p => p.2.dry == 0 && !p.2.latch) && odGet t 0x4801 5 == 1 && irqPending t 129) = true := by decide +kernel

/-- A record of a plan fault at tile 4 for glove 1, and the state whose Helmet has it next. -/
def aFault (hop : Nat) : Vc3 := ⟨0x0301, 4, 0, 1, 4, 0, 1, hop, []⟩
def told (hop : Nat) (l : Launch) : State :=
  { powered with safety := ⟨0, true, 0, [aFault hop], 0, []⟩, launches := [(7, { l with tiles := [(4, [aWindow])] })], tiles := [(4, { aTile 0 with slots := [(0, { SlotSt.blank with launch := 7 })] })] }

/-- A launch that has an alternate to move to. -/
def aMover : Launch := { aLaunch with aux := { aLaunch.aux with reexec := some ⟨0, 1⟩ }, sections := [⟨0x10, 1, 4, 0, 32⟩] }

theorem test_fault_record : launchAt { aLaunch with tiles := [(4, [aWindow])] } 4 = true ∧ canReexecute aLaunch = false ∧
    ok (exec .faultRecord (told 0 aLaunch)) (fun t => t.safety.inbox.isEmpty && odGet t 0x4000 6 == 1 && odGet t 0x4000 7 == 1 && (kget t.launches 7).any (·.faulted)) = true := by
  decide +kernel
theorem test_fault_record_moves : canReexecute aMover = true ∧
    ok (exec .faultRecord (told 0 aMover)) (fun t => (kget t.launches 7).any (fun l => l.reexDue && !l.faulted)) = true := by decide +kernel
theorem test_fault_record_forwarded : ok (exec .faultRecord (told 1 aLaunch)) (fun t => t.safety.inbox.isEmpty && odGet t 0x4000 6 == 0 && (kget t.launches 7).any (fun l => !l.faulted)) = true := by
  decide +kernel
theorem test_reexecution_ends : let s := told 0 { aMover with reexDue := true }
    canReexecute { aMover with reexDue := true, tiles := [(4, [aWindow])] } = true ∧
      ok (exec (.reexecution 7 none) s) (fun t => (kget t.launches 7).isNone && irqPending t 133) = true := by decide +kernel

/-! ## The Helmet -/

/-- The outputs are high. -/
def safe_ (s : State) : State := { s with safety := ⟨0, true, 0, [], 0, []⟩ }

theorem test_monitor_bad : ok (exec (.monitorSample 40000 3630 [50, -50] 115 10 21 true) (safe_ powered)) (fun t =>
    !t.safety.outs && bitOf t.safety.causes 4 && (List.range 32).filter (bitOf t.safety.holding) == [16, 21] && irqPending t 136) = true := by decide +kernel
theorem test_monitor_good : ok (exec (.monitorSample 57600 2970 [] 114 (-10) (-20) true) (safe_ powered)) (fun t => t == safe_ powered) = true := by decide +kernel
theorem test_monitor_helmet : ok (exec (.monitorSample 57600 2970 [] 114 (-10) (-20) false) (safe_ powered)) (fun t =>
    !t.safety.outs && t.safety.causes == 512 && t.safety.holding == 512) = true := by decide +kernel
theorem test_kick : (BitVec.toNat (0x5A5AA5A5 : Reg)) ≠ (safe_ powered).safety.lastKick ∧
    ok (exec (.hlmKick 0x5A5AA5A5) (safe_ powered)) (fun t => t.safety.lastKick == 0x5A5AA5A5 && t.safety.outs) = true := by decide +kernel
theorem test_missed_kick : let s := adjTile 20 (fun t => { t with pc := 9 }) { safe_ powered with safety := ⟨0, true, 0, [], 0x5A5AA5A5, []⟩ }
    ok (exec (.hlmKick 0x5A5AA5A5) s) (fun t => !t.safety.outs && bitOf t.safety.causes 5 && t.safety.lastKick == 0) = true ∧ 20 ∈ mgmtTiles ∧
      ok (exec .watchdogExpiry s) (fun t => (tileOf t 20).pc == 0 && fld (winGet t (tileBase 1116 + 0xF1008)) 24 8 == 1) = true := by decide +kernel
theorem test_frame_watchdog : ok (exec .frameWatchdogExpiry (safe_ powered)) (fun t => !t.safety.outs && t.safety.causes == 32 && irqPending t 135 &&
    fld (winGet t (tileBase 1116 + 0xF1008)) 16 8 == 5) = true := by decide +kernel
theorem test_safe_ack : let s := { served with safety := ⟨0b100110000, false, 2 ^ 16, [], 0, []⟩ }
    granted safeAckEntry (rq 0x4000 3 [1]) s = true ∧ ok (exec (.safeStateAck (rq 0x4000 3 [1])) s) (fun t => answers t 0 && t.safety.causes == 0b10000) = true := by decide +kernel
theorem test_safe_trip : granted safeTripEntry (rq 0x4000 4 [1]) (safe_ served) = true ∧
    ok (exec (.safeTestTrip (rq 0x4000 4 [1])) (safe_ served)) (fun t => answers t 0 && t.safety.causes == 256 && !t.safety.outs) = true := by decide +kernel
theorem test_safe_exit : let s := { powered with safety := ⟨0, false, 0, [], 0, []⟩ }
    ((List.range 10).all fun b => !causeHolds s b) = true ∧ s.safety.outs = false ∧ s.plat.ready = true ∧ ok (exec .safeStateExit s) (fun t => t.safety.outs && irqPending t 135) = true ∧
      ok (exec .safeStateExit { powered with safety := ⟨1, false, 0, [], 0, []⟩ }) (fun t => !t.safety.outs) = true := by decide +kernel
theorem test_self_test : testable powered 0 = true ∧
    ok (exec (.selfTest 0 3 50 true true) powered) (fun t => fld (winGet t (tileBase 1116 + 0xF100C)) 0 16 == 1 && fld (winGet t (tileBase 1116 + 0xF100C)) 16 16 == 2) = true := by
  decide +kernel

/-- The round ends where every testable tile has been tested. -/
theorem test_self_test_round (p : Nat) (h : p < 1536) : p ∈ (0 :: (List.range 1536)).eraseDups := by
  simp only [List.mem_eraseDups, List.mem_cons, List.mem_range]; omega
theorem test_self_test_first : ok (exec (.selfTest 0 3 50 false false) powered) (fun t => t.safety.bistDone == [0]) = true := by decide +kernel

/-! ## The service -/

/-- A session for which an instance gives nonces; the nonce of sixteen fives is good. -/
def nonced : State :=
  { served with
    sec := { served.sec with mode := .single, inst := [(0, ⟨List.replicate 32 0, List.replicate 16 0, [], 0, false, false, false⟩)] }
    serv := { served.serv with nonces := [(List.replicate 16 5, 0)] } }

/-- The vendor (credential 63) opens a session with the role of bit 4 under that nonce: under its key of zeros the signature of R = 1, S = 0 holds. -/
def anOpen : OdReq := rq 0 0 ([63, 0, 16, 0] ++ List.replicate 16 5 ++ leBytes 32 1 ++ List.replicate 32 0)

theorem test_no_transport : let r : OdReq := { rq 0x1018 2 [] with via := 1 }
    carries served r.via = false ∧ ok (exec (.readEntry r) served) (fun t => t == served) = true := by decide +kernel
theorem test_read_entry : carries served 0 = true ∧ ok (exec (.readEntry (rq 0x1018 1 [])) served) (fun t => answers t 0) = true ∧
    ok (exec (.readEntry (rq 0x1018 9 [])) served) (fun t => !answers t 0) = true := by decide +kernel
theorem test_write_entry : let r := rq 0x5030 2 [1]
    (ownEntries.find? (fun e => e.covers r)).isNone = true ∧ odWriteAbort (decided served) r = 0 ∧ plainRule r (decided served) = 0 ∧ needsRecord r 0 = false ∧
      ok (exec (.writeEntry r) served) (fun t => answers t 0 && odValue t r == 1) = true := by decide +kernel
theorem test_logged_write_waits : let r := rq 0x1101 1 [1]
    (ownEntries.find? (fun e => e.covers r)).isNone = true ∧ isCredential r = true ∧ odWriteAbort (decided served) r = 0 ∧ plainRule r (decided served) = 0 ∧
      needsRecord r 0 = true ∧ ok (exec (.credentialWrite r) served) (fun t => t.out.isEmpty && t.serv.queue.length == 1 && odGet t 0x1101 1 == odGet served 0x1101 1) = true ∧
      ok (exec (.writeEntry r) served) (fun t => t.serv.queue.map (·.req) == [r]) = true := by decide +kernel
theorem test_record_stored : let r := rq 0x1101 1 [1]
    let s := { served with serv := { served.serv with queue := [auditOf served r 0] } }
    ok (exec .auditRecordStored s) (fun t => answers t 0 && t.serv.queue.isEmpty && t.serv.auditCount == 1 && odGet t 0x1101 1 == 1 && (kget t.serv.audit 0).any (fun b => b.length == 64 || b.length != 0)) = true := by
  decide +kernel
theorem test_nonce : let r := rq 0 0 []
    r.rsvd = 0 ∧ (sessionRoles (decided nonced) r).isSome = true ∧ secRuns (decided nonced) = true ∧ drbgMayDeliver (decided nonced) (nonceInst (decided nonced)) = true ∧
      ok (exec (.nonceRequest r) nonced) (fun t => answers t 0 && t.serv.nonces.length == 2) = true := by decide +kernel
theorem test_open : let u := decided nonced
    anOpen.rsvd = 0 ∧ (sessionRoles u anOpen).isSome = true ∧ anOpen.data.length = 84 ∧ (anOpen.data.drop 3).head? = some 0 ∧ secRuns u = true ∧
      openAbort u (openGood u anOpen.data) anOpen.data = 0 ∧ freeSession u = some 2 := by decide +kernel
theorem test_open_done : ok (exec (.openSession anOpen) nonced) (fun t => answers t 0 && kget t.serv.sessions 2 == some ⟨0, 17, 63⟩ && t.serv.nonces.isEmpty) = true := by decide +kernel
theorem test_close : let r := rq 0 0 []
    r.session ≠ 0 ∧ (sessionRoles (decided served) r).isSome = true ∧ keysRise (decided served).serv.sessions = true ∧
      ok (exec (.closeSession r) served) (fun t => answers t 0 && t.serv.sessions.isEmpty) = true := by decide +kernel
theorem test_idle : let s := odSet { served with serv := { served.serv with unlocker := 1 } } 0x2000 1 1
    (kget s.serv.sessions 1).isSome = true ∧ ok (exec (.sessionIdleTimeout 1) s) (fun t => t.serv.sessions.isEmpty && odGet t 0x2000 1 == 0 && t.serv.unlocker == 0) = true ∧
      ok (exec (.sessionIdleTimeout 2) s) (fun t => t.serv.sessions.length == 1 && odGet t 0x2000 1 == 1) = true := by decide +kernel
theorem test_audit_sign : let r := rq 0x8000 4 [1]
    let s := { nonced with serv := { nonced.serv with auditCount := 3 } }
    granted signEntry r s = true ∧ secRuns (recorded r s) = true ∧ (recorded r s).serv.auditCount ≠ 0 ∧
      ok (exec (.auditSignRequest r) s) (fun t => answers t 0 && odGet t 0x8000 5 == (recorded r s).serv.auditCount - 1 && irqPending t 327) = true := by decide +kernel

/-! ## Entropy, seeds, instances, the public-key engine -/

/-- The constants and the example "abc" of the standard that the manual names for SHA-384 (FIPS 180-4). -/
theorem test_sha_constants : shaK.length = 80 ∧ shaK.head? = some 0x428a2f98d728ae22 ∧ shaK.getLast? = some 0x6c44198c4a475817 ∧
    shaInit384.head? = some 0xcbbb9d5dc1059ed8 ∧ shaInit384.getLast? = some 0x47b5481dbefa4fa4 := by decide +kernel
theorem test_sha384_abc : sha384 [0x61, 0x62, 0x63] = beBytes 48 0xcb00753f45a35e8bb5a03d699ac65007272c32ab0eded1631a8b605a43ff5bed8086072ba1e7cc2358baeca134c825a7 := by
  decide +kernel

/-- Eight cells in one condition, in a mode of the domain. -/
def cells (m : SecMode) (c : Cell) : State := { served with sec := { served.sec with mode := m, cells := List.replicate 8 c } }

def healthyCell : Cell := ⟨.healthy, true, 1, false, 5, 3, 0⟩

theorem test_cell_tested : let c : Cell := ⟨.testing 4096, true, 1, false, 5, 3, 0⟩
    (cells .startup c).sec.cells[2]? = some c ∧
      ok (exec (.cellStartupTestDone 2) (cells .startup c)) (fun t => (t.sec.cells[2]?).any (·.st == .healthy) && odGet t 0x5000 2 == 4) = true := by decide +kernel
theorem test_cell_retest : let c : Cell := ⟨.removed, true, 9, true, 9, 9, 7⟩
    (cells .normal c).sec.cells[2]? = some c ∧ ok (exec (.cellRetest 2) (cells .normal c)) (fun t => (t.sec.cells[2]?).any (fun x => x.st == .testing 0 && x.run == 0 && x.fails == 7)) = true ∧
      ok (exec (.cellRetest 2) (cells .normal { c with fails := 8 })) (fun t => (t.sec.cells[2]?).any (fun x => x.st == .removed)) = true := by decide +kernel
theorem test_sample : let s := cells .normal healthyCell
    s.sec.mode ≠ .off ∧ s.sec.cells.length = 8 ∧ ((List.range 8).all fun j => !(s.sec.cells[j]?.any fun x => x.st != .removed && (cellSample x (bitOf 0b10 j)).2)) = true ∧
      ok (exec (.entropyCellSample 0b10) s) (fun t => t.sec.raw == (List.range 8).map (fun j => (j, j == 1)) && (t.sec.cells[1]?).any (fun x => x.run == 2) &&
        (t.sec.cells[0]?).any (fun x => x.run == 1 && x.apCount == 4)) = true := by decide +kernel
theorem test_sample_fails : let s := cells .normal { healthyCell with run := 40 }
    (s.sec.cells[0]?).any (fun x => x.st != .removed && (cellSample x true).2) = true ∧
      ok (exec (.entropyCellSample 1) s) (fun t => (t.sec.cells[0]?).any (fun x => x.st == .removed && x.fails == 1) && (t.sec.cells[1]?).any (·.st == .healthy) && irqPending t 449) = true ∧
      ok (exec (.entropyCellSample 0b10) s) (fun t => (t.sec.cells[0]?).any (·.st == .healthy) && (t.sec.cells[1]?).any (·.st != .healthy)) = true := by decide +kernel

/-- 1,024 bits of zeros, and blocks that were made before. -/
def conditioned (m : SecMode) (n : Nat) : State :=
  let s := cells m healthyCell
  { s with sec := { s.sec with raw := List.replicate 1025 (0, false), blocks := List.replicate n (List.replicate 16 1) } }

theorem test_conditioning : conditionerRuns (conditioned .normal 1) = true ∧ 1024 ≤ (conditioned .normal 1).sec.raw.length ∧
    ok (exec .conditioningCall (conditioned .normal 1)) (fun t => t.sec.raw.length == 1 && t.sec.blocks.length == 2) = true := by decide +kernel
theorem test_seed : (conditioned .startup 2).sec.blocks.length = 2 ∧ (conditioned .startup 2).sec.kat = none ∧
    ok (exec .conditioningCall (conditioned .startup 2)) (fun t => t.sec.blocks.isEmpty && t.sec.store.map (·.length) == [48] && t.sec.kat == some 7 && odGet t 0x5000 6 == 1) = true := by
  decide +kernel
theorem test_kat : let s := cells .normal healthyCell
    granted katEntry (rq 0x5000 4 [5]) s = true ∧
      ok (exec (.katRequest (rq 0x5000 4 [5])) s) (fun t => answers t 0 && t.sec.mode == .test && t.sec.kat == some 5 && t.sec.back == .normal && irqPending t 448) = true := by decide +kernel
theorem test_kat_done : let s0 := cells .test healthyCell
    let s := { s0 with sec := { s0.sec with kat := some 5, back := .normal } }
    s.sec.kat = some 5 ∧ ok (exec (.katDone 2) s) (fun t => odGet t 0x5000 5 == 0x85 && t.sec.mode == .normal && irqPending t 450) = true ∧
      ok (exec (.katDone 4) s) (fun t => odGet t 0x5000 5 == 0x81 && t.sec.mode == .failed && irqPending t 451) = true := by decide +kernel
theorem test_sec_timeouts : ok (exec .secStartupTimeout (cells .startup healthyCell)) (fun t => t.sec.mode == .failed && irqPending t 448) = true ∧
    ok (exec .secStartupTimeout (cells .normal healthyCell)) (fun t => t == cells .normal healthyCell) = true ∧
    ok (exec .recoveryTimeout (cells .recovery healthyCell)) (fun t => t.sec.mode == .failed) = true ∧
    ok (exec .recoveryTimeout (cells .startup healthyCell)) (fun t => t == cells .startup healthyCell) = true := by decide +kernel

/-- The system's second instance, with its words. -/
def drawing (l : List Nat) : State :=
  { odSet served 0x3001 1 1 with sec := { served.sec with mode := .normal, inst := [(1, ⟨List.replicate 32 0, List.replicate 16 0, l, 3, true, false, false⟩),
      (257, ⟨List.replicate 32 0, List.replicate 16 0, l, 3, false, false, false⟩)], dues := [257, 1], store := [List.replicate 48 0] } }

theorem test_generate : drbgMayDeliver (drawing []) 1 = true ∧
    ok (exec (.drbgGenerate 1) (drawing [])) (fun t => (kget t.sec.inst 1).any (fun e => e.buf.length == 16 && e.calls == 4)) = true := by decide +kernel
theorem test_reseed : let s := drawing [8]
    ((s.sec.dues.filter (· < 256)) ++ (s.sec.dues.filter fun k => 256 ≤ k)).head? = some 1 ∧
      ok (exec .drbgReseed s) (fun t => (kget t.sec.inst 1).any (fun e => e.buf == [8] && e.calls == 0 && !e.due) && t.sec.store.isEmpty && t.sec.dues == [257]) = true := by decide +kernel
theorem test_reseed_request : let r := rq 0x5000 7 [4, 0]
    let s := { drawing [] with sec := { (drawing []).sec with inst := [(5, ⟨[], [], [], 0, false, false, false⟩)], store := [] } }
    granted reseedEntry r s = true ∧ reseedInst (reqVal r) = 5 ∧ ok (exec (.drbgReseedRequest r) s) (fun t => answers t 0 && t.sec.dues.contains 5) = true := by decide +kernel
theorem test_drbg_word : let s := drawing [0x01020304, 9]
    pageInst s 1 = 257 ∧ pageLive s 1 = true ∧ drbgMayDeliver s 257 = true ∧
      ok (exec (.drbgDataRead 1 3) s) (fun t => t.out == [.readData [4, 3, 0, 0]] && (kget t.sec.inst 257).any (fun e => e.buf == [9]) && spentOf t 1 7 == 1) = true := by decide +kernel
theorem test_drbg_no_word : let s := drawing [7]
    pageLive s 2 = false ∧ bitOf (barGet s (pageStatus 2)) 1 = false ∧
      ok (exec (.drbgDataRead 2 15) s) (fun t => t.out.contains (.readData [0, 0, 0, 0]) && bitOf (barGet t (pageStatus 2)) 1 && irqPending t 454) = true := by decide +kernel
theorem test_engine_takes : let s := drawing []
    s.sec.pkeBusy = none ∧ s.sec.pkeQueue = [] ∧ secRuns s = true ∧ ok (exec (.ed25519Sign [1]) s) (fun t => t.sec.pkeBusy == some (.edSign [1])) = true ∧
      ok (exec (.ed25519Verify [1] [2] [3]) s) (fun t => t.sec.pkeBusy == some (.edVerify [1] [2] [3])) = true ∧
      ok (exec (.ecdsaSign [1]) s) (fun t => t.sec.pkeBusy == some (.ecSign [1])) = true ∧
      ok (exec (.ecdsaVerify [1] [2] [3]) s) (fun t => t.sec.pkeBusy == some (.ecVerify [1] [2] [3])) = true := by decide +kernel
theorem test_engine_queues : let s := { drawing [] with sec := { (drawing []).sec with pkeBusy := some (.edSign [9]) } }
    s.sec.pkeBusy.isSome = true ∧ ok (exec (.ecdsaSign [1]) s) (fun t => t.sec.pkeBusy == some (.edSign [9]) && t.sec.pkeQueue == [.ecSign [1]]) = true := by decide +kernel
theorem test_engine_signs : let s := { drawing [] with sec := { (drawing []).sec with pkeBusy := some (.edSign [1]) } }
    ok (exec .pkeComplete s) (fun t => (t.sec.pkeResult.any fun r => r.1 == 0 && r.2.length == 64) && odGet t 0x5040 1 == 1 && odGet t 0x5040 2 == 0 && t.sec.pkeBusy == none) = true := by
  decide +kernel
theorem test_engine_rejects : let s := { drawing [] with sec := { (drawing []).sec with pkeBusy := some (.ecVerify (List.replicate 97 0) [1] (List.replicate 96 0)) } }
    ok (exec .pkeComplete s) (fun t => t.sec.pkeResult == some (0x50, []) && odGet t 0x5040 2 == 1 && irqPending t 456) = true := by decide +kernel
theorem test_engine_verifies : let s := { drawing [] with sec := { (drawing []).sec with pkeBusy := some (.edVerify (List.replicate 32 0) [1] (leBytes 32 1 ++ List.replicate 32 0)), pkeQueue := [.ecSign [2]] } }
    ok (exec .pkeComplete s) (fun t => t.sec.pkeResult == some (0, []) && odGet t 0x5040 1 == 1 && !irqPending t 456 && t.sec.pkeBusy == some (.ecSign [2])) = true := by decide +kernel
theorem test_attest : let r := rq 0x5030 3 [1]
    let s := drawing []
    granted attestEntry r s = true ∧ ok (exec (.attestRequest r) s) (fun t => answers t 0 && (kget t.serv.attest (sessionKey r)).any (·.state == 1) && t.sec.pkeBusy.isSome) = true := by decide +kernel
theorem test_attest_ready : let s := { drawing [] with sec := { (drawing []).sec with pkeBusy := some (.attest 1 0 [7]) } }
    ok (exec .pkeComplete s) (fun t => (kget t.serv.attest 1).any (fun a => a.state == 2 && a.report % 256 == 7) && irqPending t 455) = true := by decide +kernel

/-! ## Prolux -/

/-- Both halves of link 0 in one state at 4 lanes, as its entries show. -/
def linked (st : Nat) : State := refreshLink 0 (setHalf 340 st 4 (setHalf 724 st 4 { served with od := odSet powered 0x2600 1 2 |>.od }))

def bothIn (t : State) (st : Nat) : Bool := halfState t 340 == st && halfState t 724 == st && odGet t 0x2700 2 == st

theorem test_plx_enable : let r := rq 0x2700 1 [1]
    granted plxEnableEntry r served = true ∧ odGet (recorded r served) 0x2700 2 = 0 ∧ domainOn (recorded r served) 43 = true ∧
      ok (exec (.plxEnable r) served) (fun t => answers t 0 && bothIn t 1 && odGet t 0x2700 1 == 1) = true := by decide +kernel
theorem test_plx_disable : let r := rq 0x2700 1 [0]
    granted plxEnableEntry r (linked 2) = true ∧ ok (exec (.plxEnable r) (linked 2)) (fun t => answers t 0 && bothIn t 0) = true := by decide +kernel
theorem test_plx_enable_up : let r := rq 0x2700 1 [1]
    odGet (recorded r (linked 2)) 0x2700 2 ≠ 0 ∧ ok (exec (.plxEnable r) (linked 2)) (fun t => bothIn t 2) = true := by decide +kernel
theorem test_training : halfState (linked 1) 340 = 1 ∧ halfState (linked 1) 724 = 1 ∧ coordOk (odGet (linked 1) 0x2600 6) 0 0 = true ∧
    ok (exec (.plxTrainingDone 0 4 4 77 0 1) (linked 1)) (fun t => bothIn t 2 && odGet t 0x2700 3 == 68 && odGet t 0x2700 4 == 77) = true ∧
    ok (exec (.plxTrainingDone 0 2 2 77 0 0) (linked 1)) (fun t => bothIn t 3) = true ∧
    ok (exec (.plxTrainingDone 0 2 2 77 1 1) (linked 1)) (fun t => bothIn t 3) = true ∧
    ok (exec (.plxTrainingDone 0 4 0 77 0 1) (linked 1)) (fun t => bothIn t 4) = true := by decide +kernel
theorem test_link_failed : isPlx 340 = true ∧ (plxLink 340).1 = 0 ∧ halfState (linked 2) 340 = 2 ∧
    ok (exec (.plxLinkFailed 340) (linked 2)) (fun t => bothIn t 4 && odGet t 0x2700 3 == 0) = true := by decide +kernel
theorem test_retrain : ok (exec (.plxRetrain 340) (linked 2)) (fun t => halfState t 340 == 1 && odGet t 0x2700 6 == 1 && fld (winGet t (plxReg 340)) 8 8 == 1) = true ∧
    halfState (linked 1) 340 = 1 ∧
    ok (exec (.plxRetrainDone 340 2) (adjPlx 340 (fun p => { p with replay := [(5, List.replicate 72 0)] }) (linked 1)))
      (fun t => halfState t 340 == 2 && fld (winGet t (plxReg 340)) 4 3 == 2 && t.out.contains (.plxCell 340 (cellOf 0 (List.replicate 72 0)))) = true ∧
    ok (exec (.plxRetrainDone 340 3) (linked 1)) (fun t => bothIn t 4) = true := by decide +kernel

/-- The next cell on link 0, of a kind with data. -/
def aCell (kind seq : Nat) (data : List Byte) : List Byte := cellOf 0 (cellHead kind 0 false 1 0 seq data)

theorem test_damaged_cell : cellSound (List.replicate 80 0) = false ∧
    ok (exec (.plxCell 340 (List.replicate 80 0) 0 none) (linked 2)) (fun t => t.out.head? == some (.plxNak 340 1) && (plxOf t 340).nak) = true := by decide +kernel
theorem test_known_cell : let c := aCell 0 0 [1]
    cellSound c = true ∧ cellKind c = kindExchange ∧ cellSeq c = (plxOf (linked 2) 340).seqIn ∧ (plxOf (linked 2) 340).replay = [] ∧
      ok (exec (.plxCell 340 c 0 none) (linked 2)) (fun t => t == { linked 2 with win := t.win }) = true := by decide +kernel
theorem test_time_cell : let s := odSet (odSet (linked 2) 0x2600 2 0) 0x2600 3 2
    let c := aCell 1 1 (leBytes 8 105 ++ leBytes 8 50 ++ leBytes 8 55)
    cellSound c = true ∧ cellKind c = kindTime ∧ cellSeq c = 1 ∧ followsCells s = true ∧ odGet s 0x2600 2 = (plxLink 340).1 ∧ sysTimeState s = 2 ∧
      ok (exec (.timeCell 340 c 100 2) s) (fun t => sysTimeState t == 3 && odGet t 0x2600 4 == 5 && odGet t 0x2600 5 == 3 && (plxOf t 340).echo == (105, 100) && (plxOf t 340).seqIn == 1) = true := by
  decide +kernel
theorem test_notice : let x := { aLaunch with params := leBytes 64 (4 * 2 ^ 40 + 9 * 2 ^ 256) }
    let s := { linked 2 with launches := [(7, x)] }
    let c := aCell 2 1 (leBytes 8 9 ++ [1])
    launchOfCount s (bytesNat c 0 8) = some (7, x) ∧ bytesNat c 8 1 = 1 ∧
      ok (exec (.plxNotice 340 c) s) (fun t => irqPending t 331 && (kget t.launches 7).any (fun l => l.phase == .killing)) = true := by decide +kernel
theorem test_record : let c := aCell 3 1 [1, 3, 4, 0]
    (plxOf (linked 2) 340).notices.contains (recordKey (vc3Of (c.take 64))) = false ∧ kgetD (linked 2).vc3Held 340 [] = [] ∧ kgetD (linked 2).vc3Wait (16 * 340 + 8) [] = [] ∧
      ok (exec (.plxRecord 340 c) (linked 2)) (fun t => (kgetD t.vc3Held 340 []).map (fun r => (r.rec_.code, r.rec_.unit, r.rec_.hop)) == [(0x301, 4, 1)]) = true := by decide +kernel
theorem test_combine : let e : XEnt := ⟨7, 5, 2, true, true, false, true, false, 0, 1, 1, 0, 1, 0, 1, 0, 0, 0, 0, none, [(0, [(3, false)])], [(0, [(4, true)])], []⟩
    let s := adjPlx 340 (fun p => { p with ents := [e] }) (linked 2)
    e.gave < e.nw ∧ entHeld s e = false ∧ (roundOf e.mine e.comb).length = e.nw ∧ remoteFull s 340 e e.comb = true ∧
      ok (exec (.exchangeCombine 340 5) s) (fun t => (plxOf t 340).ents.map (fun y => (y.comb, y.result)) == [(1, [(0, [((combineRound 2 [3] [4]).headD 0, true)])])]) = true := by decide +kernel
theorem test_combine_adds : (combineRound 2 [3] [4]).headD 0 = 7 := by decide +kernel
theorem test_time_send : odGet (linked 2) 0x2700 2 = 2 ∧ (plxOf (linked 2) 340).held = [] ∧
    ok (exec (.timeCellSend 1000) (linked 2)) (fun t => t.out.any fun o => match o with
      | .plxCell 340 b => bytesNat b 0 8 == 1000 && cellKind b == kindTime
      | _ => false) = true ∧
    ok (exec (.timeCellSend 1000) (linked 3)) (fun t => t.out.any fun o => match o with
      | .plxCell 340 _ => true
      | _ => false) = true := by decide +kernel
theorem test_holdover : followsCells (linked 2) = true ∧ ok (exec .systimeHoldover (linked 2)) (fun t => sysTimeState t == 2) = true := by decide +kernel

/-- A MULTI launch with an entry on link 0, in a window from tc 0 to tc 10000. -/
def spread (e : XEnt) (slots : List SlotEnt) : State :=
  let x := { aLaunch with params := leBytes 64 (4 * 2 ^ 40), sections := [⟨0x15, 0, 340, 0, 16⟩], tiles := [(4, [aWindow])] }
  { adjPlx 340 (fun p => { p with ents := [e] }) (linked 2) with
    launches := [(7, x)]
    routers := [(340, { Router.blank with segs := [(7, ⟨0, 1, 8, 0⟩)], slots := (List.range slots.length).map fun i => (i, (7, slots.getD i ⟨0, 0, 0, 0⟩)) })] }

def waitingEnt : XEnt := ⟨7, 5, 2, true, true, false, true, false, 0, 1, 1, 0, 0, 0, 0, 0, 0, 0, 0, none, [], [], []⟩

theorem test_window_runs : let s := spread waitingEnt []
    (kget s.launches 7).any (fun x => pMulti x.params && x.phase == .running && (x.tiles.any fun t => t.2.any fun w => w.start == 0 && w.stop == 10000)) = true ∧
      ok (exec (.windowHoldTest 7 0 10000) s) (fun t => (kget t.launches 7).any (fun y => y.hold.head? == some (0, 0))) = true := by decide +kernel
theorem test_window_held : let s := spread waitingEnt (List.replicate 40 ⟨16, 1, 5, 1⟩)
    lacks s 340 waitingEnt 0 = true ∧
      ok (exec (.windowHoldTest 7 0 10000) s) (fun t => (kget t.launches 7).any (fun y => y.hold.head? == some (0, 10000)) && odGet t 0x7600 4 == 1) = true := by decide +kernel

/-! ## The queue and the invariants -/

theorem test_front_command : ok (step { powered with pending := [.perstRelease, .perstAssert 0] }) (fun t => t.plat.perst && t.pending.length == 1) = true ∧
    ok (step powered) (fun t => t == powered) = true := by decide +kernel
theorem test_memory_form : State.reset.memOk ∧ State.memOk (store 64 [1] powered) ∧
    ok (step { store 64 [1] powered with pending := [.perstRelease] }) (fun t => memWf t.mem) = true := by simp only [State.memOk]; decide +kernel
theorem test_outputs : State.outsOk State.reset ∧ State.outsOk (safe_ powered) ∧
    ok (step { safe_ powered with pending := [.frameWatchdogExpiry] }) (fun t => t.safety.causes != 0 && !t.safety.outs) = true := by simp only [State.outsOk]; decide +kernel
theorem test_record_counts : let s := { served with serv := { served.serv with queue := [auditOf served (rq 0x1101 1 [1]) 0] } }
    ok (exec .auditRecordStored s) (fun t => t.plat.fuse == s.plat.fuse && t.serv.auditCount == s.serv.auditCount + 1 && t.pending == s.pending) = true := by decide +kernel
theorem test_absent_units : [Instr.rxFrame 8 false 0 [], .bankWake 18, .nop 1536 0, .txFrame 64 [], .plxRetrain 0].all (fun c => !c.wf && same (exec c powered) powered) = true ∧
    Instr.wf (.rxFrame 7 false 0 []) = true := by decide +kernel

end Sys2Proof.Tests
end

section
/-! PROOFS. Every command completes in every state; one that names a unit no module has changes nothing (O6). -/

namespace Sys2Proof.Machine

/-! ## Meanings that complete -/

/-- A meaning answers a next state. -/
def Completes (r : Result) : Prop := ∃ t, r = .next t

theorem completes_ite {P : Prop} [Decidable P] {a b : Result} (ha : Completes a) (hb : Completes b) : Completes (if P then a else b) := by
  split <;> assumption

theorem completes_atTc (tc : Nat) (s : State) (f : State → State) : Completes (atTc tc s f) := completes_ite ⟨_, rfl⟩ ⟨_, rfl⟩

theorem completes_atTc? (tc : Option Nat) (s : State) (f : State → State) : Completes (atTc? tc s f) := by
  cases tc with
  | none => exact ⟨_, rfl⟩
  | some tc => exact completes_atTc tc s f

theorem completes_atReal (k : Nat) (s : State) (f : State → State) : Completes (atReal k s f) := completes_ite ⟨_, rfl⟩ ⟨_, rfl⟩

/-- An instruction of a tile completes, whether it issues, is illegal, or is not the tile's next (R226). -/
theorem completes_runInstr (s : State) (pos tc opc reserved : Nat) (go : Ctx → State → State) :
    Completes (runInstr s pos tc opc reserved go) := by
  refine completes_ite ⟨_, rfl⟩ ?_
  dsimp only
  split
  · exact ⟨_, rfl⟩
  · exact completes_ite ⟨_, rfl⟩ ⟨_, rfl⟩
  · exact completes_ite ⟨_, rfl⟩ (completes_ite ⟨_, rfl⟩ ⟨_, rfl⟩)

theorem completes_slotRun (op pos out tc : Nat) (errs : List LinkErr) (s : State) : Completes (slotRun op pos out tc errs s) :=
  completes_ite ⟨_, rfl⟩ (completes_atTc _ _ _)

/-- Every command completes in every state. -/
theorem completes_exec (c : Instr) (s : State) : Completes (exec c s) := by
  cases c with
  -- instructions of tiles
  | nop | waitt | yield | haltf | send | recv | sendm | bar | barw | flag | ldp | lac | rsc | topk | vld | vst | vop | vlut | cats | qld | qmap
  | dinc | alu | alui | fpu | ld | st | br | sys | li | fls =>
    unfold exec
    exact completes_runInstr _ _ _ _ _ _
  | loop =>
    unfold exec execLoop
    exact completes_runInstr _ _ _ _ _ _
  | ldcA | ldcB | ldcS | dynStep | dynGroupTransfer | dynGroupRound | sampUniform | sampBernoulli | sampGaussian | sampMetropolis | sampHeatBath =>
    unfold exec
    exact completes_ite ⟨_, rfl⟩ (completes_runInstr _ _ _ _ _ _)
  -- events of a plan tc
  | slotFwd | combineAdd | combineTopk | combineBar | combineFlag => exact completes_slotRun _ _ _ _ _ _
  | barwTimeout | txFetch => exact completes_ite ⟨_, rfl⟩ (completes_atTc _ _ _)
  | vcFlitForward | vc3RecordRelease => exact completes_ite ⟨_, rfl⟩ (completes_atReal _ _ _)
  | dmaBurst | waitSem | waitSemPoll | signalSem | hostReadCompletion => exact completes_atTc? _ _ _
  | bar2Read | bar2Write => exact completes_ite (completes_atTc? _ _ _) ⟨_, rfl⟩
  -- meanings of two or three branches, each of which names its next state
  | powerOn | mainSupplyLoss | syncMessage | syncTimeout | ledgerGrant | hqTailWrite | hqReset | hqResetDone | bufferPrefetch | ticketWrite
  | eccWriteBack | patrolScrubVisit | memTempRead | registerWrite | rcRead | counterLoRead | gloveResetDone | credentialWrite | icClaim
  | safeStateExit | drbgDataRead | systimeHoldover | exchangeCombine | mainSupplyReturn | resetNRelease | grandmasterChange | pcieLinkTrainingDone =>
    exact completes_ite ⟨_, rfl⟩ ⟨_, rfl⟩
  | resetN | bankWake | bankScrubVisit | colRetrain | hashPassDone | bankHandoverScrubDone | portLinkChange | txDataDeadline | txFrame | selfTest
  | plxRetrain | plxLinkFailed | timeCell | plxNotice | plxRecord | domainOffDone | domainOnDone =>
    exact completes_ite ⟨_, rfl⟩ (completes_ite ⟨_, rfl⟩ ⟨_, rfl⟩)
  -- meanings that branch on what a table of the state holds
  | refValid | frameBoundary | windowStart | windowEnd | commonsQueuedService | ledgerRequest | checkpoint | samplePoint | learningIteration
  | learningCheckpoint | driftCheck | bufferCurrent | opDispatch | nopOp | launch | drain | kill | opTrigger | bufferRetire | noProgressLimit
  | budgetStallRetry | memRead | memWrite | streamReadAhead | hashPassStart | memAssignTransit | chunkScrubDone | memAssignDone
  | bankHandoverRequest | bankOwnerChange | rxFrame | replicaComparison | arpRequest | healthFlit | replicaFence | spareRestart | faultRecord
  | reexecution | cellStartupTestDone | cellRetest | plxTrainingDone | plxCell | plxRetrainDone | windowHoldTest =>
    unfold exec
    dsimp only [execRefValid, execFrameBoundary, execWindowStart, execWindowEnd, execCommonsQueuedService, execLedgerRequest, execCheckpoint,
      execSamplePoint, execLearningIteration, execLearningCheckpoint, execDriftCheck, execBufferCurrent, execOpDispatch, execNopOp, execLaunch,
      execDrain, execKill, execOpTrigger, execBufferRetire, execNoProgressLimit, execBudgetStallRetry, execMemRead, execMemWrite,
      execStreamReadAhead, execHashPassStart, execMemAssignTransit, execChunkScrubDone, execMemAssignDone, execBankHandoverRequest,
      execBankOwnerChange, execRxFrame, execReplicaComparison, execArpRequest, execHealthFlit, execReplicaFence, execSpareRestart,
      execFaultRecord, execReexecution, execCellStartupTestDone, execCellRetest, execPlxTrainingDone, execPlxCell, execPlxRetrainDone,
      execWindowHoldTest]
    repeat' split
    all_goals exact ⟨_, rfl⟩
  -- meanings that are one update of the state
  | _ => exact ⟨_, rfl⟩

/-! ## Commands that name a unit no module has (log entry 69) -/

theorem le_of_offGrid {p : Nat} (h : onGrid p = false) : 1536 ≤ p := by simpa [onGrid] using h

theorem runInstr_offGrid {pos : Nat} (h : onGrid pos = false) (s : State) (tc opc reserved : Nat) (go : Ctx → State → State) :
    runInstr s pos tc opc reserved go = .next s := if_pos (.inl (le_of_offGrid h))

theorem offGrid_or_notOutput {pos out : Nat} (h : (onGrid pos && isOutput out) = false) : 1536 ≤ pos ∨ 5 ≤ out := by
  simpa [onGrid, isOutput, imp_iff_not_or] using h

/-- A register whose address is no doubleword of a register area is not there (R42, R462). -/
theorem regAt_wf_of_regThere {s : State} {x : RegAt} (h : regThere s x = true) : x.wf = true := by
  cases x with
  | bar0 off => exact h
  | dev a =>
    simp only [regThere, Bool.and_eq_true] at h
    exact h.1

theorem path_wf_eq_pathThere (p : Path) : p.wf = pathThere p := by cases p <;> rfl

/-- A register command that is not well formed addresses nothing. -/
theorem not_there_of_not_wf {p : Path} {x : RegAt} (h : (p.wf && x.wf) = false) (s : State) : ¬ (pathThere p && regThere s x) = true := by
  intro k
  rw [Bool.and_eq_true] at k
  rw [path_wf_eq_pathThere, k.1, regAt_wf_of_regThere k.2] at h
  cases h

/-- A command that is not well formed leaves the state as it is. -/
theorem exec_of_not_wf (c : Instr) (s : State) (h : c.wf = false) : exec c s = .next s := by
  cases c with
  | nop | waitt | yield | haltf | send | recv | sendm | bar | barw | flag | ldp | lac | rsc | topk | vld | vst | vop | vlut | cats | qld | qmap
  | dinc | alu | alui | fpu | ld | st | br | sys | li | fls =>
    unfold exec
    exact runInstr_offGrid h _ _ _ _ _
  | loop =>
    unfold exec execLoop
    exact runInstr_offGrid h _ _ _ _ _
  | ldcA | ldcB | ldcS | dynStep | dynGroupTransfer | dynGroupRound | sampUniform | sampBernoulli | sampGaussian | sampMetropolis | sampHeatBath =>
    unfold exec
    exact ite_eq_left_iff.2 fun _ => runInstr_offGrid h _ _ _ _ _
  | slotFwd | combineAdd | combineTopk | combineBar | combineFlag | vcFlitForward => exact if_pos (offGrid_or_notOutput h)
  | windowStart | windowEnd | barwTimeout | vc3RecordRelease | ledgerRequest | ledgerGrant | memRead | memWrite | streamReadAhead | hashPassStart
  | hashPassDone | healthFlit | selfTest => exact if_pos (le_of_offGrid h)
  | bankHandoverRequest | bankOwnerChange | bankHandoverScrubDone | bankWake =>
    exact if_pos (by rw [show bankExists _ = false from h]; rfl)
  | plxCell | plxRetrain | plxRetrainDone | plxLinkFailed | timeCell | exchangeCombine | plxNotice | plxRecord =>
    exact if_pos (by rw [show isPlx _ = false from h]; rfl)
  | registerWrite | rcRead | counterLoRead => exact if_neg (not_there_of_not_wf h s)
  | bankScrubVisit => exact if_pos ((Bool.and_eq_false_iff.1 h).imp (fun k => by rw [k]; rfl) fun k => by simpa using k)
  | memTempRead => exact if_pos ((Bool.and_eq_false_iff.1 h).symm.imp (fun k => by rw [k]; rfl) le_of_offGrid)
  | commonsQueuedService | icClaim | colRetrain | rxFrame | portLinkChange | arpRequest | txFetch
  | txDataDeadline | txFrame | plxTrainingDone | drbgDataRead | domainOffDone | domainOnDone =>
    refine if_pos ?_
    simp only [Instr.wf, Bool.and_eq_false_iff, decide_eq_false_iff_not] at h
    omega
  -- every other command is well formed
  | _ => exact absurd (show true = false from h) Bool.noConfusion

/-- Settles O6, by the forms that the meanings of commands have: the instructions of tiles and the events of a plan tc complete through what
they share, every other meaning names the next state in each of its branches; and each command that can name a unit no module has first
asks whether the unit is there. -/
theorem everyCommandCompletesInEveryState : Obligations.EveryCommandCompletesInEveryState := fun c s =>
  ⟨completes_exec c s, exec_of_not_wf c s⟩

end Sys2Proof.Machine
end

section
/-! PROOFS. The integer functions of R250 in two's complement (O11). -/

namespace Sys2Proof.Machine

/-! ## Two's complement (R6) and the integer functions (R250) -/

theorem signed_bounds (a : Nat) : -2 ^ 63 ≤ signed 64 a ∧ signed 64 a < 2 ^ 63 := by
  unfold signed
  dsimp only
  split <;> omega

/-- The register form of a value in range reads back as that value. -/
theorem signed_unsigned {i : Int} (lo : -2 ^ 63 ≤ i) (hi : i < 2 ^ 63) : signed 64 (unsigned 64 i) = i := by
  unfold signed unsigned
  dsimp only
  split <;> omega

/-- A difference of signed values, in a register, undoes the wrapping sum of the registers. -/
theorem unsigned_signed_sub {a : Nat} (h : a < 2 ^ 64) (b : Nat) : unsigned 64 (signed 64 ((a + b) % 2 ^ 64) - signed 64 b) = a := by
  unfold signed unsigned
  dsimp only
  split <;> split <;> omega

/-- An arithmetic shift stays in range. -/
theorem signed_sar (a n : Nat) : signed 64 (unsigned 64 (signed 64 a / 2 ^ n)) = signed 64 a / 2 ^ n := by
  obtain ⟨lo, hi⟩ := signed_bounds a
  have one : (1 : Int) ≤ 2 ^ n := one_le_pow₀ (by norm_num)
  refine signed_unsigned ?_ ?_
  · rw [Int.le_ediv_iff_mul_le (by omega)]
    nlinarith
  · refine Int.ediv_lt_of_lt_mul (by omega) ?_
    nlinarith

theorem ofBool_eq_one (b : Bool) : ofBool b = 1 ↔ b = true := by cases b <;> simp [ofBool]

theorem aluResult_none {fn : Nat} (h : 17 < fn) (a b : Nat) : aluResult fn a b = none := by
  obtain ⟨k, rfl⟩ : ∃ k, fn = k + 18 := ⟨fn - 18, by omega⟩
  rfl

/-- Settles O11, function by function: SUB undoes ADD and SAR keeps the sign because the registers hold two's complement values of 64 bits;
products and quotients are those of the natural numbers. -/
theorem integerFunctionsOfR250 : Obligations.IntegerFunctionsOfR250 := by
  intro a b ha hb
  refine ⟨⟨_, rfl, rfl, unsigned_signed_sub ha b⟩, ⟨?shl, ?shr⟩, ⟨_, rfl, signed_sar a _⟩, ⟨_, _, rfl, rfl, ?product⟩,
    ?byZero, ?quotient, ?overflow, ?slt, ?sltu, ?seq, fun fn h => aluResult_none h a b⟩
  case shl => rw [aluResult, Nat.shiftLeft_eq]
  case shr => rw [aluResult, Nat.shiftRight_eq_div_pow]
  case product => exact Nat.div_add_mod' _ _
  case byZero =>
    rintro rfl
    exact ⟨rfl, rfl, rfl, rfl⟩
  case quotient =>
    intro h
    exact ⟨a / b, a % b, by simp [aluResult, h], by simp [aluResult, h], Nat.div_add_mod' a b, Nat.mod_lt a (by omega)⟩
  case overflow =>
    rintro rfl rfl
    exact ⟨rfl, rfl⟩
  case slt => simp [aluResult, ofBool_eq_one]
  case sltu => simp [aluResult, ofBool_eq_one]
  case seq => simp [aluResult, ofBool_eq_one]

end Sys2Proof.Machine
end

section
/-! PROOFS. Registers: arrivals of interrupts, fields of BAR0 registers, the access log, and the windows of tiles. -/

namespace Sys2Proof.Machine

/-! ## Messages keep what is sent, and leave the host link's configuration -/

/-- Messages of the interrupt controller: they go out beside what was sent, and of the host link only the pending bit array changes. -/
def MessagesOnly (s t : State) : Prop := s.out ⊆ t.out ∧ t.host = { s.host with pba := t.host.pba }

theorem MessagesOnly.refl (s : State) : MessagesOnly s s := ⟨List.Subset.refl _, rfl⟩

theorem MessagesOnly.trans {s t u : State} (h1 : MessagesOnly s t) (h2 : MessagesOnly t u) : MessagesOnly s u :=
  ⟨List.Subset.trans h1.1 h2.1, h2.2.trans (by rw [h1.2])⟩

theorem messagesOnly_msixSend (s : State) (v : Nat) : MessagesOnly s (msixSend s v) := by
  unfold msixSend
  split
  · exact ⟨List.subset_cons_self _ _, rfl⟩
  · exact ⟨List.Subset.refl _, rfl⟩

theorem messagesOnly_foldl {α : Type} (f : State → α → State) (h : ∀ s x, MessagesOnly s (f s x)) (l : List α) (s : State) :
    MessagesOnly s (l.foldl f s) := by
  induction l generalizing s with
  | nil => exact MessagesOnly.refl s
  | cons x l ih => exact (h s x).trans (ih _)

theorem messagesOnly_vectorStep (s : State) :
    MessagesOnly { s with host := { s.host with vpend := vpendNow s, pba := s.host.pba &&& vpendNow s } } (vectorStep s) := by
  refine messagesOnly_foldl _ (fun t v => ?_) _ _
  split
  · exact messagesOnly_msixSend t v
  · exact MessagesOnly.refl t

theorem subset_out_vectorStep {l : List Out} {s : State} (h : l ⊆ s.out) : l ⊆ (vectorStep s).out :=
  List.Subset.trans h (messagesOnly_vectorStep s).1

/-- What was sent before an arrival stays sent. -/
theorem subset_out_raise {l : List Out} {s : State} (h : l ⊆ s.out) (n : Nat) : l ⊆ (raise n s).out :=
  subset_out_vectorStep (s := { s with host := { s.host with irq := kput s.host.irq n (satAdd 255 (kgetD s.host.irq n 0) 1) } }) h

@[simp] theorem barGet_vectorStep (s : State) (a : Nat) : barGet (vectorStep s) a = barGet s a := by rw [hostOnly_vectorStep s]; rfl

/-- An arrival of one source is all that changes at the interrupt controller (R476). -/
theorem arrived_raise (n : Nat) (s : State) : Arrived [n] s (raise n s) := by
  refine ⟨?_, fun k => ?_⟩
  · have h := (messagesOnly_vectorStep { s with host := { s.host with irq := kput s.host.irq n (satAdd 255 (kgetD s.host.irq n 0) 1) } }).2
    unfold raise
    rw [h]
  · rw [raise_irq]
    by_cases h : k = n
    · subst h
      simp
    · rw [kgetD_kput_other _ _ _ (Ne.symm h), if_neg (by simpa using h)]

/-- What arrived since a state arrived since any other with the same host link. -/
theorem Arrived.of_host_eq {l : List Nat} {s u t : State} (h : Arrived l u t) (e : u.host = s.host) : Arrived l s t := by
  unfold Arrived at *
  rwa [e] at h

/-! ## Fields of BAR0 registers -/

theorem barGet_barPut (s : State) (a b lo w x : Nat) :
    barGet (barPut s a lo w x) b = if a = b then putFld (barGet s a) lo w x % 2 ^ 32 else barGet s b := barGet_barSet _ _ _ _

/-- A field of a register reads back what was put into it. -/
theorem fld_barPut_self {lo w : Nat} (h : lo + w ≤ 32) (s : State) (a x : Nat) :
    fld (barGet (barPut s a lo w x) a) lo w = x % 2 ^ w := by
  rw [barGet_barPut, if_pos rfl, fld_mod_two_pow _ _ _ _ h, fld_putFld_self]

/-- A field apart from the one that was put reads as before. -/
theorem fld_barPut_other {l k lo w : Nat} (hk : l + k ≤ 32) (h : l + k ≤ lo ∨ lo + w ≤ l) (s : State) (a x : Nat) :
    fld (barGet (barPut s a lo w x) a) l k = fld (barGet s a) l k := by
  rw [barGet_barPut, if_pos rfl, fld_mod_two_pow _ _ _ _ hk, fld_putFld_other _ _ _ _ _ _ h]

theorem bitOf_eq_fld (x i : Nat) : bitOf x i = decide (fld x i 1 = 1) := by
  rw [bitOf, fld, Nat.testBit_eq_decide_div_mod_eq, Nat.shiftRight_eq_div_pow, pow_one]

theorem satAdd_le (top x d : Nat) : satAdd top x d ≤ top := by
  unfold satAdd
  split <;> omega

theorem BarKept.refl (l : List Nat) (s : State) : BarKept l s s := fun _ _ => rfl

/-- A further register of the list may be written. -/
theorem BarKept.barSet {l : List Nat} {s t : State} (h : BarKept l s t) {a : Nat} (ha : a ∈ l) (v : Nat) : BarKept l s (barSet t a v) := by
  intro b hb
  have hab : a ≠ b := fun e => hb (e ▸ ha)
  rw [barGet_barSet, if_neg hab, h b hb]

theorem BarKept.raise {l : List Nat} {s t : State} (h : BarKept l s t) (n : Nat) : BarKept l s (raise n t) := by
  intro b hb
  rw [barGet_raise, h b hb]

/-- Nothing but BAR0 registers. -/
def BarOnly (s t : State) : Prop := t = { s with bar0 := t.bar0 }

theorem BarOnly.refl (s : State) : BarOnly s s := rfl

theorem BarOnly.barSet {s t : State} (h : BarOnly s t) (a v : Nat) : BarOnly s (barSet t a v) := by
  unfold BarOnly at *
  rw [h]
  rfl

theorem BarOnly.barPut {s t : State} (h : BarOnly s t) (a lo w x : Nat) : BarOnly s (barPut t a lo w x) := h.barSet a _

/-- An arrival after a change of BAR0 registers: what it leaves of the state before both. -/
theorem BarOnly.raise {s u : State} (h : BarOnly s u) (n : Nat) :
    Arrived [n] s (raise n u) ∧ s.out ⊆ (raise n u).out ∧
      raise n u = { s with bar0 := (raise n u).bar0, host := (raise n u).host, out := (raise n u).out } := by
  obtain ⟨m, rfl⟩ : ∃ m, u = { s with bar0 := m } := ⟨_, h⟩
  refine ⟨(arrived_raise n _).of_host_eq rfl, subset_out_raise (s := { s with bar0 := m }) (List.Subset.refl s.out) n, ?_⟩
  rw [raise_bar0]
  exact raise_eq n _

/-! ## The access log (R466) -/

/-- PWR_ACCERR_INFO as a logged access leaves it. -/
def accessInfo (bar2 : Bool) (be reason : Nat) (s : State) : State :=
  barPut (barPut (barPut (barBump s 0x10 0 8 1) 0x10 8 3 reason) 0x10 11 1 (ofBool bar2)) 0x10 16 8 be

theorem accessLog_eq (bar2 : Bool) (off be reason : Nat) (s : State) :
    accessLog bar2 off be reason s = raise 332 (barSet (accessInfo bar2 be reason s) 0x14 off) := rfl

theorem accessInfo_fields (bar2 : Bool) (be reason : Nat) (s : State) :
    let v := barGet (accessInfo bar2 be reason s) 0x10
    fld v 0 8 = satAdd 255 (fld (barGet s 0x10) 0 8) 1 ∧ fld v 8 3 = reason % 8 ∧ bitOf v 11 = bar2 ∧ fld v 16 8 = be % 256 := by
  have count := satAdd_le 255 (fld (barGet s 0x10) 0 8) 1
  refine ⟨?_, ?_, ?_, fld_barPut_self (by decide) _ _ _⟩
  · unfold accessInfo barBump
    rw [fld_barPut_other (by decide) (by decide), fld_barPut_other (by decide) (by decide), fld_barPut_other (by decide) (by decide)]
    exact (fld_barPut_self (by decide) s 0x10 _).trans (Nat.mod_eq_of_lt (Nat.lt_succ_of_le count))
  · unfold accessInfo
    rw [fld_barPut_other (by decide) (by decide), fld_barPut_other (by decide) (by decide)]
    exact fld_barPut_self (by decide) _ _ _
  · unfold accessInfo
    rw [bitOf_eq_fld, fld_barPut_other (by decide) (by decide), fld_barPut_self (by decide)]
    cases bar2 <;> rfl

theorem barKept_accessInfo (bar2 : Bool) (be reason : Nat) (s : State) : BarKept [0x10] s (accessInfo bar2 be reason s) := by
  have h : 0x10 ∈ [0x10] := List.mem_singleton_self _
  exact ((((BarKept.refl _ s).barSet h _).barSet h _).barSet h _).barSet h _

theorem barOnly_accessInfo (bar2 : Bool) (be reason : Nat) (s : State) : BarOnly s (accessInfo bar2 be reason s) :=
  ((((BarOnly.refl s).barPut 0x10 _ _ _).barPut 0x10 _ _ _).barPut 0x10 _ _ _).barPut 0x10 _ _ _

/-- A logged access: its count, reason, BAR, byte enables and offset stand in PWR_ACCERR_INFO and PWR_ACCERR_ADDR, source 332 arrives, and
nothing else changes. -/
theorem accessLog_spec (bar2 : Bool) (off be reason : Nat) (s : State) :
    let t := accessLog bar2 off be reason s
    (fld (barGet t 0x10) 0 8 = satAdd 255 (fld (barGet s 0x10) 0 8) 1 ∧ fld (barGet t 0x10) 8 3 = reason % 8 ∧ bitOf (barGet t 0x10) 11 = bar2 ∧
      fld (barGet t 0x10) 16 8 = be % 256) ∧ barGet t 0x14 = off % 2 ^ 32 ∧ BarKept [0x10, 0x14] s t ∧ Arrived [332] s t ∧
      s.out ⊆ t.out ∧ t = { s with bar0 := t.bar0, host := t.host, out := t.out } := by
  dsimp only
  rw [accessLog_eq]
  have kept : BarKept [0x10, 0x14] s (accessInfo bar2 be reason s) := fun b hb =>
    barKept_accessInfo bar2 be reason s b fun k => hb (List.mem_of_mem_dropLast k)
  refine ⟨?_, ?_, (kept.barSet (by simp) off).raise 332, ((barOnly_accessInfo bar2 be reason s).barSet 0x14 off).raise 332⟩
  · rw [barGet_raise, barGet_barSet, if_neg (by decide)]
    exact accessInfo_fields bar2 be reason s
  · rw [barGet_raise, barGet_barSet_self]

/-! ## Registers of tile windows (R42, R60, R124) -/

/-- An address inside the window of a tile, taken apart. -/
theorem tile_place {p o : Nat} (hp : p < 1536) (ho : o < 0x100000) :
    tileBase p + o < 0xF80000000000 ∧ (tileBase p + o - 0xF00000000000) / 0x100000 = p ∧ (tileBase p + o - 0xF00000000000) % 0x100000 = o := by
  unfold tileBase
  omega

theorem winSpec_tile {p o : Nat} (hp : p < 1536) (ho : o < 0x100000) : winSpec (tileBase p + o) = regFind (tileRegs p o) o := by
  obtain ⟨h, hd, hm⟩ := tile_place hp ho
  unfold winSpec
  rw [if_pos h, hd, hm]

/-- No register below 0xF_1004 is the low half of a counter pair. -/
theorem pairLow_tile_below {p o : Nat} (hp : p < 1536) (ho : o < 0xF1004) : pairLow (tileBase p + o) = false := by
  obtain ⟨h, hd, hm⟩ := tile_place hp (o := o) (by omega)
  unfold pairLow
  rw [if_neg (by omega), hd, hm]
  dsimp only
  split <;> simp <;> omega

theorem pairLow_tile_m {p o : Nat} (hp : p < 1536) (ho : o < 0x100000) (hk : kindOf p = .m) :
    pairLow (tileBase p + o) = (o == 0xF1010 || o == 0xF2010) := by
  obtain ⟨h, hd, hm⟩ := tile_place hp ho
  unfold pairLow
  rw [if_neg (by omega), hd, hm]
  simp only [hk]

theorem winView_bankConflict {p : Nat} (hp : p < 1536) (s : State) : winView s (tileBase p + 0xF0000) = winGet s (tileBase p + 0xF0000) := by
  obtain ⟨h, hd, hm⟩ := tile_place hp (o := 0xF0000) (by omega)
  unfold winView
  rw [if_neg (by omega), hd, hm]
  simp

theorem winView_vecLo {p : Nat} (hp : p < 1536) (hk : kindOf p = .m) (s : State) :
    winView s (tileBase p + 0xF1010) = winGet s (tileBase p + 0xF1010) := by
  obtain ⟨h, hd, hm⟩ := tile_place hp (o := 0xF1010) (by omega)
  unfold winView
  rw [if_neg (by omega), hd, hm]
  simp [hk]

end Sys2Proof.Machine
end

section
/-! PROOFS. Register commands, claims and the mailbox's doorbell (O50). -/

namespace Sys2Proof.Machine

/-! ## Classes of bus requests (R463) -/

theorem accessClass_narrow {be : Nat} (h : narrowBe be = true) (off : Nat) : accessClass off 1 be = .narrow := by
  have hb : be ∈ [1, 2, 4, 8, 3, 6, 12, 7, 14] := by simpa [narrowBe] using h
  fin_cases hb <;> rfl

theorem narrowBe_lt {be : Nat} (h : narrowBe be = true) : be < 256 := by
  have hb : be ∈ [1, 2, 4, 8, 3, 6, 12, 7, 14] := by simpa [narrowBe] using h
  fin_cases hb <;> decide

/-- A narrow write of the host is not performed: it is logged, with reason 1, where it touches a register (R462, R463, R466). -/
theorem exec_narrow_write {s : State} {x : RegAt} {be : Nat} (hx : regThere s x = true) (hb : narrowBe be = true) (data : Nat) :
    exec (.registerWrite .host x 1 be data) s =
      .next (if writeLogged x 1 then accessLog (regIsDev x) (regOff x % 2 ^ 32) be 1 s else s) := by
  refine (if_pos (by rw [hx]; rfl)).trans ?_
  rw [classWrite, accessClass_narrow hb]
  rfl

/-- A read of no class ends in a completer abort, and is logged with reason 2 (R463, R466). -/
theorem exec_unaligned_read {s : State} {x : RegAt} (hx : regThere s x = true) :
    exec (.rcRead .host x 1 5) s =
      .next (accessLog (regIsDev x) (regOff x % 2 ^ 32) 5 2 { s with out := .completerAbort :: s.out }) :=
  (if_pos (by rw [hx]; rfl)).trans rfl

/-! ## Reads of a whole register (R463, R464) -/

/-- The bytes of a number are those of its low part. -/
theorem leBytes_mod (n x : Nat) : leBytes n (x % 256 ^ n) = leBytes n x := by
  induction n generalizing x with
  | zero => rfl
  | succ n ih =>
    have low : BitVec.ofNat 8 (x % 256 ^ (n + 1)) = BitVec.ofNat 8 x := by
      apply BitVec.eq_of_toNat_eq
      simp only [BitVec.toNat_ofNat]
      exact Nat.mod_mod_of_dvd x (Dvd.intro_left (256 ^ n) (pow_succ 256 n).symm)
    have rest : x % 256 ^ (n + 1) / 256 = x / 256 % 256 ^ n := by
      rw [pow_succ', Nat.mod_mul_right_div_self]
    rw [leBytes, low, rest, ih, leBytes]

theorem leBytes_and_ones (x : Nat) : leBytes 4 (x &&& (2 ^ 32 - 1)) = leBytes 4 x := by
  rw [Nat.and_two_pow_sub_one_eq_mod]
  exact leBytes_mod 4 x

/-- A read of a whole window register returns what the register gives, and leaves what that read leaves. -/
theorem readCommand_dev {p : Path} {a : Nat} {s : State} {r : Nat × State} (hp : pathThere p = true) (hx : regThere s (.dev a) = true)
    (h : devRead p (p != .host) a s = r) :
    readCommand p (.dev a) 1 15 s = .next { r.2 with out := .readData (leBytes 4 r.1) :: r.2.out } := by
  subst h
  exact (if_pos (by rw [hp, hx]; rfl)).trans rfl

theorem regCleared_all {r : RegSpec} (h : r.rc = 0xFFFFFFFF) (x : Nat) : regCleared r x = 0 := by
  have e : ~~~(BitVec.ofNat 32 0xFFFFFFFF) = 0#32 := by decide
  rw [regCleared, h, e, BitVec.and_zero]
  rfl

/-- A register that is no half of a counter pair: a read returns it as it reads now, and clears its RC fields where it has side effects
(R8, R469). -/
theorem devRead_plain {a i : Nat} {r : RegSpec} (spec : winSpec a = some (r, i)) (low : pairLow a = false) (high : pairLow (a - 4) = false)
    (home : regHome a ≠ pwrWake) (p : Path) (clear : Bool) (s : State) :
    devRead p clear a s =
      if clear ∧ r.rc ≠ 0 then (winView s a, winSet s a (regCleared r (winGet s a))) else (winView s a &&& (2 ^ 32 - 1 - r.wo), s) := by
  unfold devRead
  simp [spec, low, high, home]

/-- A read of the low half of a counter pair keeps the high half as it stands for the same path (R464). -/
theorem devRead_pairLow {a i : Nat} {r : RegSpec} (spec : winSpec a = some (r, i)) (low : pairLow a = true) (p : Path) (clear : Bool) (s : State) :
    devRead p clear a s = (winView s a, { s with snap := kput s.snap (snapKey p a) (winGet s (a + 4)) }) := by
  unfold devRead
  simp [spec, low]

/-- A read of the high half returns what the last read of the low half on the path kept (R464). -/
theorem devRead_pairHigh {a i : Nat} {r : RegSpec} (spec : winSpec (a + 4) = some (r, i)) (low : pairLow (a + 4) = false) (high : pairLow a = true)
    (p : Path) (clear : Bool) (s : State) : devRead p clear (a + 4) s = (kgetD s.snap (snapKey p a) 0, s) := by
  unfold devRead
  simp [spec, low, high]

/-- BNK_CONFLICT of a tile: RC throughout, and in its own window (R60). -/
theorem bankConflict_reg {pos : Nat} (hpos : pos < 1536) (hk : kindOf pos ≠ .port) :
    winSpec (tileBase pos + 0xF0000) = some (⟨0xF0000, 0, 1, 0x0, 0x0, 0x0, 0xFFFFFFFF, 0x0, 0x0⟩, 0) ∧
      pairLow (tileBase pos + 0xF0000) = false ∧ pairLow (tileBase pos + 0xF0000 - 4) = false ∧
      regHome (tileBase pos + 0xF0000) = tileBase pos + 0xF0000 ∧ tileBase pos + 0xF0000 ≠ pwrWake := by
  refine ⟨?_, pairLow_tile_below hpos (by omega), ?_, regHome_tile _ _ (by omega) (by omega), ?_⟩
  · rw [winSpec_tile hpos (by omega), tileRegs, if_pos (by omega), if_neg (by simp [hk])]
    rfl
  · rw [show tileBase pos + 0xF0000 - 4 = tileBase pos + 0xEFFFC by omega]
    exact pairLow_tile_below hpos (by omega)
  · unfold pwrWake tileBase
    omega

/-- MT_VEC_LO and MT_VEC_HI of an M-tile are the halves of a counter pair (R124). -/
theorem vec_regs {pos : Nat} (hpos : pos < 1536) (hk : kindOf pos = .m) :
    winSpec (tileBase pos + 0xF1010) = some (⟨0xF1010, 0, 1, 0x0, 0x0, 0x0, 0x0, 0x0, 0x0⟩, 0) ∧ pairLow (tileBase pos + 0xF1010) = true ∧
      winSpec (tileBase pos + 0xF1010 + 4) = some (⟨0xF1014, 0, 1, 0x0, 0x0, 0x0, 0x0, 0x0, 0x0⟩, 0) ∧
      pairLow (tileBase pos + 0xF1010 + 4) = false := by
  have regs (o : Nat) (h1 : 0xF1000 ≤ o) (h2 : o < 0xF2000) : tileRegs pos o = mtRegs := by
    rw [tileRegs, if_neg (by omega), if_neg (by omega), if_pos h2, hk]
  have e : tileBase pos + 0xF1010 + 4 = tileBase pos + 0xF1014 := by omega
  rw [e, winSpec_tile hpos (by omega), winSpec_tile hpos (by omega), pairLow_tile_m hpos (by omega) hk, pairLow_tile_m hpos (by omega) hk,
    regs _ (by omega) (by omega), regs _ (by omega) (by omega)]
  exact ⟨rfl, rfl, rfl, rfl⟩

/-! ## A locked write of IC_WATCH (R8, R466) -/

/-- The row of IC_WATCH: its fields are RWL. -/
def watchSpec : RegSpec := ⟨0x2040, 4, 32, 0x0, 0x0, 0x0, 0x0, 0x0, 0x800003FF⟩

theorem regFind_watch : ∀ n < 32, regFind bar0Regs (0x2040 + 4 * n) = some (watchSpec, n) := by decide

/-- A locked write leaves every bit of IC_WATCH. -/
theorem regWritten_watch_locked (old d : Nat) : regWritten watchSpec false old d = old % 2 ^ 32 := by
  have kept (x y : BitVec 32) : (x &&& ~~~(0#32) ||| y &&& 0#32) &&& ~~~(y &&& 0#32) = x := by
    simp only [BitVec.and_zero, BitVec.or_zero, BitVec.not_zero, BitVec.and_allOnes]
  exact (congrArg BitVec.toNat (kept (BitVec.ofNat 32 old) (BitVec.ofNat 32 d))).trans (BitVec.toNat_ofNat old 32)

/-- What a locked write of a register changes beside the access log: the register is written back as it stands, and the reason that the
manual does not number is drawn. -/
def writtenBack (off : Nat) (s : State) : State := { barSet s off (barGet s off % 2 ^ 32) with freeCtr := s.freeCtr + 1 }

/-- A host write of IC_WATCH while locked leaves the register as it is, and is logged. -/
theorem bar0Write_watch_locked {n : Nat} (hn : n < 32) {s : State} (h : odGet s 0x2000 1 ≠ 1) (d : Nat) :
    bar0Write .host (0x2040 + 4 * n) d s =
      vectorStep (accessLog false (0x2040 + 4 * n) 0xF ((Config.freeValue s.freeCtr).toNat % 8) (writtenBack (0x2040 + 4 * n) s)) := by
  have locked : (Path.host != .host || odGet s 0x2000 1 == 1) = false := by simpa using h
  have write : rwlWrite .host (0x2040 + 4 * n) watchSpec d s =
      accessLog false (0x2040 + 4 * n) 0xF ((Config.freeValue s.freeCtr).toNat % 8) (writtenBack (0x2040 + 4 * n) s) := by
    unfold rwlWrite
    simp only [locked, regWritten_watch_locked]
    rfl
  unfold bar0Write
  rw [if_neg (by omega), if_neg (by omega), if_neg (by omega), if_neg (by omega), regFind_watch n hn]
  dsimp only
  rw [if_neg (by omega), if_pos (by decide), write]

/-- A write of a whole register of BAR0 (R463). -/
theorem exec_bar0_write {off : Nat} (h : off < 0x10000) (h4 : off % 4 = 0) (data : Nat) (s : State) :
    exec (.registerWrite .host (.bar0 off) 1 15 data) s = .next (bar0Write .host off (data % 2 ^ 32) s) :=
  (if_pos (by simp [pathThere, regThere, h, h4])).trans rfl

/-! ## Claims (R476, R477) -/

/-- A source that a target has claimed is pending no more. -/
def claimed (n : Nat) (s : State) : State := vectorStep { s with host := { s.host with irq := kdel s.host.irq n } }

theorem claim_target {s : State} {p n c : Nat} (hc : kget s.host.irq n = some c) (ht : isTarget s p n = true) :
    claim p n s = (n + 2 ^ 16 * c, claimed n s) := by
  unfold claim
  rw [hc]
  exact if_pos ht

theorem claim_nothing {s : State} {p n : Nat} (h : kget s.host.irq n = none ∨ isTarget s p n = false) : claim p n s = (0x3FF, s) := by
  unfold claim
  split
  · rename_i c hc
    exact if_neg (by simp [h.resolve_left (by simp [hc])])
  · rfl

theorem exec_icClaim {proc n : Nat} (hp : proc ≤ 4) (hn : n < 512) (s : State) :
    exec (.icClaim proc n) s =
      .next { (claim proc n s).2 with out := .readData (leBytes 4 (claim proc n s).1) :: (claim proc n s).2.out } :=
  if_neg (by omega)

/-- A claim by a target returns the source's number and count, and takes the source, and no other, from the pending ones. -/
theorem icClaim_of_target {s : State} {proc n c : Nat} (hp : proc ≤ 4) (hn : n < 512) (hk : keysRise s.host.irq = true)
    (hc : kget s.host.irq n = some c) (ht : isTarget s proc n = true) :
    ∃ t, exec (.icClaim proc n) s = .next t ∧ .readData (leBytes 4 (n + 2 ^ 16 * c)) ∈ t.out ∧ kget t.host.irq n = none ∧
      (∀ m, m ≠ n → kget t.host.irq m = kget s.host.irq m) ∧ t = { s with host := t.host, out := t.out } := by
  have irq (m : Nat) : kget (claimed n s).host.irq m = if n = m then none else kget s.host.irq m := by
    unfold claimed
    rw [vectorStep_irq, kget_kdel hk]
  refine ⟨_, (exec_icClaim hp hn s).trans (by rw [claim_target hc ht]), List.mem_cons_self, ?_, fun m hm => ?_, ?_⟩
  · exact (irq n).trans (if_pos rfl)
  · exact (irq m).trans (if_neg hm.symm)
  · dsimp only
    unfold claimed
    rw [hostOnly_vectorStep]

/-! ## The mailbox (R473) -/

/-- The state in which the mailbox's request waits: BUSY is set. -/
def asked (s : State) : State := { barPut s 0x3004 0 1 1 with serv := { s.serv with odm := some (mailboxRequest s) } }

theorem exec_odmDoorbell_overrun {s : State} {d : Reg} (hd : bitOf d.toNat 0 = true) (ho : s.serv.odm.isSome = true) :
    exec (.odmDoorbell d) s = .next (barPut s 0x3004 2 1 1) := by
  show Host.Outcome.next (doorbellWrite d.toNat s) = _
  simp [doorbellWrite, hd, ho]

theorem exec_odmDoorbell {s : State} {d : Reg} (hd : bitOf d.toNat 0 = true) (ho : s.serv.odm = none) :
    exec (.odmDoorbell d) s = .next (serveMailbox (asked s)) := by
  show Host.Outcome.next (doorbellWrite d.toNat s) = _
  simp [doorbellWrite, hd, ho, asked]

theorem serveMailbox_asleep {s : State} (h : mgmtAsleep s = true) : serveMailbox (asked s) = asked s := by
  have asleep : mgmtAsleep (asked s) = true := h
  have waits : (asked s).serv.odm = some (mailboxRequest s) := rfl
  unfold serveMailbox
  rw [waits]
  exact if_pos (by rw [asleep]; rfl)

theorem serveMailbox_read {s : State} (ha : mgmtAsleep s = false) (hr : s.plat.ready = true) (hq : s.serv.queue = [])
    (h1 : (mailboxRequest s).1 = 1) (hl : (mailboxRequest s).2.data.length ≤ 1024) :
    serveMailbox (asked s) = serveRead (mailboxRequest s).2 (asked s) := by
  have awake : mgmtAsleep (asked s) = false := ha
  have ready : (asked s).plat.ready = true := hr
  have queue : (asked s).serv.queue = [] := hq
  have flushed : auditFlush (asked s) = asked s := by
    rw [auditFlush, queue]
    rfl
  have waits : (asked s).serv.odm = some (mailboxRequest s) := rfl
  unfold serveMailbox
  rw [waits]
  simp only [awake, ready, flushed, Bool.not_true, Bool.or_self, Bool.false_eq_true, if_false, serveOp, h1, if_neg (Nat.not_lt.2 hl)]

/-- A READ is decided by nothing that the mailbox's registers hold. -/
theorem odReadAbort_asked (s : State) (r : OdReq) : odReadAbort (asked s) r = odReadAbort s r := rfl
theorem odBytes_asked (s : State) (r : OdReq) : odBytes (asked s) r = odBytes s r := rfl

theorem barOnly_foldl {α : Type} (f : State → α → State) (h : ∀ s x, BarOnly s (f s x)) (l : List α) (s : State) :
    BarOnly s (l.foldl f s) := by
  induction l generalizing s with
  | nil => exact BarOnly.refl s
  | cons x l ih =>
    unfold BarOnly at *
    rw [List.foldl_cons, ih, h s x]

/-- Bytes that go to BAR0 registers change nothing else. -/
theorem barOnly_barBytes (off : Nat) (b : List Byte) (s : State) : BarOnly s (barBytes off b s) :=
  barOnly_foldl _ (fun t _ => (BarOnly.refl t).barSet _ _) _ s

/-- The bytes of an answer at ODM_RSP (R381, R473). -/
def answerBytes (op : Nat) (req : OdReq) (session abort : Nat) (data : List Byte) : List Byte :=
  leBytes 2 ((op + 0x80) % 256) ++ leBytes 2 req.tag ++ leBytes 2 session ++ leBytes 2 req.index ++ leBytes 2 req.sub ++
    leBytes 2 data.length ++ leBytes 4 abort ++ data

/-- The mailbox with an answer in it: BUSY has fallen, DONE has risen, and no request is under way. -/
def answeredWith (rsp : List Byte) (s : State) : State :=
  { barPut (barPut (barBytes 0x3800 rsp s) 0x3004 0 1 0) 0x3004 1 1 1 with serv := { s.serv with odm := none } }

theorem mailboxAnswer_eq (op : Nat) (req : OdReq) (session abort : Nat) (data : List Byte) (s : State) :
    mailboxAnswer op req session abort data s = raise 334 (answeredWith (answerBytes op req session abort data) s) := by
  have e : (barBytes 0x3800 (answerBytes op req session abort data) s).serv = s.serv := by rw [barOnly_barBytes]
  unfold answeredWith
  rw [← e]
  rfl

theorem answeredWith_spec (rsp : List Byte) (s : State) :
    let t := answeredWith rsp s
    bitOf (barGet t 0x3004) 0 = false ∧ bitOf (barGet t 0x3004) 1 = true ∧
      t = { s with serv := { s.serv with odm := none }, bar0 := t.bar0 } := by
  have busy (u : State) : fld (barGet (barPut (barPut u 0x3004 0 1 0) 0x3004 1 1 1) 0x3004) 0 1 = 0 :=
    (fld_barPut_other (by decide) (by decide) _ _ _).trans (fld_barPut_self (by decide) _ _ _)
  have done (u : State) : fld (barGet (barPut u 0x3004 1 1 1) 0x3004) 1 1 = 1 := fld_barPut_self (by decide) _ _ _
  refine ⟨?_, ?_, ?_⟩
  · have e : fld (barGet (answeredWith rsp s) 0x3004) 0 1 = 0 := busy _
    rw [bitOf_eq_fld, e]
    rfl
  · rw [bitOf_eq_fld]
    exact decide_eq_true (done _)
  · unfold answeredWith
    rw [((barOnly_barBytes 0x3800 rsp s).barPut 0x3004 0 1 0).barPut 0x3004 1 1 1]

/-- The state in which a response has gone out on its transport (R381). -/
def sent (req : OdReq) (session abort : Nat) (data : List Byte) (s : State) : State :=
  { s with out := .odResponse req.via req.tag session req.index req.sub abort data :: s.out }

/-- The request that the mailbox holds is answered on its transport and in the mailbox's registers. -/
theorem respond_asked (s : State) (session abort : Nat) (data : List Byte) :
    respond (mailboxRequest s).2 session abort data (asked s) =
      mailboxAnswer (mailboxRequest s).1 (mailboxRequest s).2 session abort data (sent (mailboxRequest s).2 session abort data (asked s)) :=
  if_pos rfl

/-- A READ in the mailbox of a module that is awake is answered within its doorbell (R473). -/
theorem odmDoorbell_read {s : State} {d : Reg} (hd : bitOf d.toNat 0 = true) (ho : s.serv.odm = none) (ha : mgmtAsleep s = false)
    (hr : s.plat.ready = true) (hq : s.serv.queue = []) (h1 : (mailboxRequest s).1 = 1) (hl : (mailboxRequest s).2.data.length ≤ 1024) :
    let r := (mailboxRequest s).2
    ∃ t, exec (.odmDoorbell d) s = .next t ∧ bitOf (barGet t 0x3004) 0 = false ∧ bitOf (barGet t 0x3004) 1 = true ∧
      Answered r (odReadAbort s r) (if odReadAbort s r = 0 then odBytes s r else []) t ∧ irqPending t 334 = true ∧
      t = { s with bar0 := t.bar0, host := t.host, out := t.out } := by
  intro r
  have run : exec (.odmDoorbell d) s = .next (serveRead r (asked s)) := by
    rw [exec_odmDoorbell hd ho, serveMailbox_read ha hr hq h1 hl]
  unfold serveRead at run
  rw [odReadAbort_asked, odBytes_asked] at run
  dsimp only at run
  rw [respond_asked, mailboxAnswer_eq] at run
  refine ⟨_, run, ?_, ?_, ?_, irqPending_raise_self _ _, ?_⟩
  · rw [barGet_raise]
    exact (answeredWith_spec _ _).1
  · rw [barGet_raise]
    exact (answeredWith_spec _ _).2.1
  · refine subset_out_raise (fun _ k => k) 334 ?_
    rw [(answeredWith_spec _ _).2.2]
    exact List.mem_cons_self
  · have serv : s.serv = { (asked s).serv with odm := none } := by
      unfold asked
      rw [← ho]
    rw [raise_eq, (answeredWith_spec _ _).2.2]
    unfold sent
    rw [← serv]
    rfl

/-! ## The clauses -/

/-- A narrow write of the host is logged where it touches a register, and changes nothing else. -/
theorem narrow_write_logged {s : State} {x : RegAt} {be : Nat} (hx : regThere s x = true) (hb : narrowBe be = true)
    (hl : writeLogged x 1 = true) (data : Nat) :
    ∃ t, exec (.registerWrite .host x 1 be data) s = .next t ∧ fld (barGet t 0x10) 0 8 = satAdd 255 (fld (barGet s 0x10) 0 8) 1 ∧
      fld (barGet t 0x10) 8 3 = 1 ∧ bitOf (barGet t 0x10) 11 = regIsDev x ∧ fld (barGet t 0x10) 16 8 = be ∧
      barGet t 0x14 = regOff x % 2 ^ 32 ∧ BarKept [0x10, 0x14] s t ∧ Arrived [332] s t ∧
      t = { s with bar0 := t.bar0, host := t.host, out := t.out } := by
  obtain ⟨⟨count, reason, bar, enables⟩, addr, kept, arrived, -, frame⟩ := accessLog_spec (regIsDev x) (regOff x % 2 ^ 32) be 1 s
  refine ⟨_, (exec_narrow_write hx hb data).trans (by rw [hl]; rfl), count, reason, bar, ?_, ?_, kept, arrived, frame⟩
  · rw [enables, Nat.mod_eq_of_lt (narrowBe_lt hb)]
  · rw [addr, Nat.mod_mod]

/-- A read of no class ends in a completer abort and is logged. -/
theorem unaligned_read_aborts {s : State} {x : RegAt} (hx : regThere s x = true) :
    ∃ t, exec (.rcRead .host x 1 5) s = .next t ∧ .completerAbort ∈ t.out ∧ fld (barGet t 0x10) 8 3 = 2 ∧
      BarKept [0x10, 0x14] s t ∧ Arrived [332] s t ∧ t = { s with bar0 := t.bar0, host := t.host, out := t.out } := by
  obtain ⟨⟨-, reason, -, -⟩, -, kept, arrived, sent, frame⟩ :=
    accessLog_spec (regIsDev x) (regOff x % 2 ^ 32) 5 2 { s with out := .completerAbort :: s.out }
  exact ⟨_, exec_unaligned_read hx, sent List.mem_cons_self, reason, kept, arrived.of_host_eq rfl, frame⟩

/-- A bit of IC_WATCH's RWL fields lies in the register. -/
theorem lt_of_watch_bit {j : Nat} (h : bitOf 0x800003FF j = true) : j < 32 := by
  by_contra k
  rw [bitOf, Nat.testBit_lt_two_pow (lt_of_lt_of_le (by norm_num) (Nat.pow_le_pow_right (by norm_num) (not_lt.1 k)))] at h
  cases h

/-- A host write of IC_WATCH while locked leaves its RWL bits and is logged. -/
theorem watch_write_locked {n : Nat} (hn : n < 32) {s : State} (h : odGet s 0x2000 1 ≠ 1) (data : Nat) :
    let off := 0x2040 + 4 * n
    ∃ t, exec (.registerWrite .host (.bar0 off) 1 15 data) s = .next t ∧
      (∀ j, bitOf 0x800003FF j = true → bitOf (barGet t off) j = bitOf (barGet s off) j) ∧
      fld (barGet t 0x10) 0 8 = satAdd 255 (fld (barGet s 0x10) 0 8) 1 ∧ barGet t 0x14 = off ∧ BarKept [0x10, 0x14, off] s t ∧
      irqPending t 332 = true ∧ t = { s with bar0 := t.bar0, host := t.host, out := t.out, freeCtr := t.freeCtr } := by
  intro off
  obtain ⟨⟨count, -, -, -⟩, addr, kept, -, -, frame⟩ :=
    accessLog_spec false off 0xF ((Config.freeValue s.freeCtr).toNat % 8) (writtenBack off s)
  have other {a : Nat} (ha : off ≠ a) : barGet (writtenBack off s) a = barGet s a := (barGet_barSet s off a _).trans (if_neg ha)
  have same : barGet (writtenBack off s) off = barGet s off % 2 ^ 32 := (barGet_barSet_self s off _).trans (Nat.mod_mod _ _)
  refine ⟨_, (exec_bar0_write (by omega) (by omega) data s).trans (by rw [bar0Write_watch_locked hn h]), ?_, ?_, ?_, ?_, ?_, ?_⟩
  · intro j hj
    rw [barGet_vectorStep, kept off (by simp [off]; omega), same, bitOf, Nat.testBit_mod_two_pow, decide_eq_true (lt_of_watch_bit hj)]
    rfl
  · rw [barGet_vectorStep, count, other (by omega)]
  · rw [barGet_vectorStep, addr, Nat.mod_eq_of_lt (by omega)]
  · intro a ha
    simp only [List.mem_cons, List.not_mem_nil, or_false, not_or] at ha
    rw [barGet_vectorStep, kept a (by simp [ha]), other (Ne.symm ha.2.2)]
  · rw [irqPending, vectorStep_irq]
    exact irqPending_raise_self _ _
  · rw [hostOnly_vectorStep, frame]
    rfl

/-- BNK_CONFLICT is returned, and is then 0 where a core of the management complex read it. -/
theorem bankConflict_read {p : Path} {pos : Nat} {s : State} (hp : pathThere p = true) (hpos : pos < 1536) (hk : kindOf pos ≠ .port)
    (hx : regThere s (.dev (tileBase pos + 0xF0000)) = true) :
    let a := tileBase pos + 0xF0000
    ∃ t, exec (.rcRead p (.dev a) 1 15) s = .next t ∧ t.out = .readData (leBytes 4 (winGet s a)) :: s.out ∧ WinKept [a] s t ∧
      winGet t a = (if p = .host then winGet s a else 0) ∧ t = { s with win := t.win, out := t.out } := by
  intro a
  obtain ⟨spec, low, high, home, wake⟩ := bankConflict_reg hpos hk
  have read := devRead_plain spec low high (by rwa [home]) p (p != .host) s
  rw [winView_bankConflict hpos, regCleared_all rfl] at read
  cases p with
  | host =>
    exact ⟨_, readCommand_dev hp hx read, congrArg (fun b => Out.readData b :: s.out) (leBytes_and_ones _), fun _ _ => rfl, rfl, rfl⟩
  | mgmt c =>
    exact ⟨_, readCommand_dev hp hx read, rfl, winKept_winSet s a 0, winGet_winSet_self s a 0, rfl⟩

/-- MT_VEC_LO is returned with MT_VEC_HI kept as it stands: a later read of MT_VEC_HI on the path returns it. -/
theorem counter_pair_read {p : Path} {pos : Nat} {s : State} (hp : pathThere p = true) (hpos : pos < 1536) (hk : kindOf pos = .m)
    (hx : regThere s (.dev (tileBase pos + 0xF1010)) = true) :
    let a := tileBase pos + 0xF1010
    ∃ t, exec (.counterLoRead p (.dev a) 1 15) s = .next t ∧ t.out = .readData (leBytes 4 (winGet s a)) :: s.out ∧
      t = { s with snap := t.snap, out := t.out } ∧
      ∀ u : State, u.snap = t.snap → regThere u (.dev (a + 4)) = true →
        exec (.rcRead p (.dev (a + 4)) 1 15) u = .next { u with out := .readData (leBytes 4 (winGet s (a + 4))) :: u.out } := by
  intro a
  obtain ⟨specLo, low, specHi, high⟩ := vec_regs hpos hk
  have readLo := devRead_pairLow specLo low p (p != .host) s
  rw [winView_vecLo hpos hk] at readLo
  refine ⟨_, readCommand_dev hp hx readLo, rfl, rfl, fun u hu hy => ?_⟩
  have readHi := devRead_pairHigh specHi high low p (p != .host) u
  rw [hu, kgetD_kput_self] at readHi
  exact readCommand_dev hp hy readHi

/-- Settles O50, clause by clause: the class of a request decides what a register command does (R463), and the doorbell what the mailbox
holds (R473). -/
theorem registersClaimsAndTheDoorbell : Obligations.RegistersClaimsAndTheDoorbell := by
  intro s p x be pos proc n data d
  refine ⟨fun hx _ => ⟨fun hb hl => ?_, fun hb hl => narrow_write_logged hx hb hl data, unaligned_read_aborts hx⟩,
    fun hn h => watch_write_locked hn h data, fun hp hpos hk hx => bankConflict_read hp hpos hk hx,
    fun hp hpos hk hx => counter_pair_read hp hpos hk hx,
    fun hp hn hi => ⟨fun c hc ht => icClaim_of_target hp hn hi hc ht, fun h => ?_⟩, fun hd => ⟨fun ho => ?_, fun ho ha => ?_, ?_⟩⟩
  · rw [exec_narrow_write hx hb, hl]
    rfl
  · rw [exec_icClaim hp hn, claim_nothing h]
  · refine ⟨_, exec_odmDoorbell_overrun hd ho, ?_, barKept_barSet _ _ _, rfl⟩
    rw [bitOf_eq_fld]
    exact decide_eq_true (fld_barPut_self (by decide) _ _ _)
  · refine ⟨asked s, by rw [exec_odmDoorbell hd ho, serveMailbox_asleep ha], ?_, fun a h => barKept_barSet s 0x3004 _ a h, rfl⟩
    rw [bitOf_eq_fld]
    exact decide_eq_true (fld_barPut_self (lo := 0) (w := 1) (by decide) s 0x3004 1)
  · exact fun ho ha hr hq h1 hl => odmDoorbell_read hd ho ha hr hq h1 hl

end Sys2Proof.Machine
end

section
/-! PROOFS. The reset state (O2). -/

namespace Sys2Proof.Machine

/-! ## The reset state (R8, R53, R490) -/

/-- An entry with a sub-index above 0 has the default 0 where no row of its index gives another to such a sub-index (R377). -/
theorem odDefault_eq_zero {i sub : Nat} (hs : 1 ≤ sub)
    (rows : odRows.all fun r => !(decide (r.lo ≤ i) && decide (i ≤ r.hi)) || r.subHi == 0 || r.dflt == 0) : odDefault i sub = 0 := by
  unfold odDefault
  cases e : odRow i sub with
  | none => rfl
  | some r =>
    have here := List.find?_some e
    have row := List.all_eq_true.1 rows r (List.mem_of_find?_eq_some e)
    simp only [Bool.and_eq_true, decide_eq_true_eq] at here
    obtain ⟨⟨⟨lo, hi⟩, -⟩, top⟩ := here
    have sub0 : (r.subHi == 0) = false := by simp; omega
    simpa [lo, hi, sub0] using row

theorem domainState_reset {d : Nat} (h : d ≤ 52) : domainState State.reset d = 0 :=
  (if_neg (by omega)).trans (odDefault_eq_zero (by omega) (by decide +kernel))

theorem gloveState_reset {g : Nat} (h : 1 ≤ g) : odGet State.reset 0x3001 g = 0 := odDefault_eq_zero h (by decide +kernel)

/-- The registers below 0xF_1000 of a tile's window are those of its banks, where it has any (R42). -/
theorem tileRegs_bankArea {o : Nat} (h : o < 0xF1000) (p : Nat) : tileRegs p o = [] ∨ tileRegs p o = bankRegs := by
  unfold tileRegs
  rw [if_pos h]
  split
  · exact .inl rfl
  · exact .inr rfl

/-- The state register of a bank is its own home. -/
theorem regHome_bankState (b : Nat) : regHome (bankStateAddr b) = bankStateAddr b := by
  unfold bankStateAddr
  split
  · unfold regHome cmnBase tileBase
    rw [if_neg (by omega), if_neg (by omega)]
  · exact regHome_tile _ _ (by omega) (by omega)

/-- BNK_STATE and BNK_CMN_STATE reset to 0: every bank OFF (R53, R60). -/
theorem winReset_bankState (b : Nat) : winReset (bankStateAddr b) = 0 := by
  unfold winReset bankStateAddr
  cases h : bankIsCmn b
  · have hb : b < 6144 := by simpa [bankIsCmn] using h
    simp only [Bool.false_eq_true, if_false]
    rw [winSpec_tile (by omega) (by omega)]
    rcases tileRegs_bankArea (o := 0xF0004) (by omega) (b / 4) with ht | ht <;> rw [ht] <;> decide
  · have e : (cmnBase (bankCluster b) + 0xFF0000 - 0xF80000000000) % 0x1000000 = 0xFF0000 := by rw [cmnBase]; omega
    simp only [if_true]
    rw [winSpec, if_neg (by rw [cmnBase]; omega), e]
    decide

theorem bankState_reset (b : Nat) : bankState State.reset b = 0 := by
  have e : winGet State.reset (bankStateAddr b) = 0 := by
    change winReset (regHome (bankStateAddr b)) = 0
    rw [regHome_bankState, winReset_bankState]
  unfold bankState
  rw [e]
  split
  · simp [fld]
  · rfl

/-- Settles O2: a register, an entry or a table that nothing has written reads its reset value. -/
theorem resetLeavesTheManualsValues : Obligations.ResetLeavesTheManualsValues :=
  ⟨rfl, rfl, rfl, rfl, fun _ => domainState_reset, rfl, rfl, rfl, bankState_reset, fun _ h _ => gloveState_reset h, rfl,
    fun _ => rfl, fun _ => rfl, fun _ => rfl, rfl, ⟨rfl, rfl, rfl, rfl, rfl, rfl, rfl⟩, fun _ => rfl⟩

end Sys2Proof.Machine
end

section
/-! PROOFS. Entries of the dictionary: what is kept of them, what stays pending, and how a granted write is answered. -/

namespace Sys2Proof.Machine

/-! ## What a run of steps keeps -/

/-- A relation that each step of a fold keeps, and that composes, holds across the fold. -/
theorem foldl_keeps {α β : Type} {R : β → β → Prop} (refl : ∀ s, R s s) (trans : ∀ {s t u}, R s t → R t u → R s u) {f : β → α → β}
    (step : ∀ s x, R s (f s x)) (l : List α) (s : β) : R s (l.foldl f s) := by
  induction l generalizing s with
  | nil => exact refl s
  | cons x l ih => exact trans (step s x) (ih _)

/-- Sources that are pending stay pending. -/
def PendingKept (s t : State) : Prop := ∀ n, irqPending s n = true → irqPending t n = true

theorem PendingKept.refl (s : State) : PendingKept s s := fun _ h => h
theorem PendingKept.trans {s t u : State} (h1 : PendingKept s t) (h2 : PendingKept t u) : PendingKept s u := fun n h => h2 n (h1 n h)

theorem PendingKept.of_host_eq {s t : State} (h : t.host.irq = s.host.irq) : PendingKept s t := fun n hn => by rwa [irqPending, h]

theorem pendingKept_raise (n : Nat) (s : State) : PendingKept s (raise n s) := fun k h => by rw [irqPending_raise, h, Bool.or_true]

/-! ## Entries that are as before -/

theorem OdKept.refl (l : List (Nat × Nat)) (s : State) : OdKept l s s := fun _ _ => rfl

theorem OdKept.trans {l : List (Nat × Nat)} {s t u : State} (h1 : OdKept l s t) (h2 : OdKept l t u) : OdKept l s u :=
  fun k hk => (h2 k hk).trans (h1 k hk)

theorem OdKept.mono {l m : List (Nat × Nat)} {s t : State} (h : OdKept l s t) (sub : l ⊆ m) : OdKept m s t :=
  fun k hk => h k fun e => hk (List.map_subset _ sub e)

theorem OdKept.of_od_eq {l : List (Nat × Nat)} {s t : State} (h : t.od = s.od) : OdKept l s t := fun k _ => by rw [h]

/-- An entry that is as before reads as before. -/
theorem OdKept.odGet_eq {l : List (Nat × Nat)} {s t : State} (h : OdKept l s t) {i j : Nat}
    (hk : odKey i j ∉ l.map fun p => odKey p.1 p.2) : odGet t i j = odGet s i j := by
  rw [odGet, h _ hk, odGet]

/-- A further entry of the list may be written. -/
theorem OdKept.odSet {l : List (Nat × Nat)} {s t : State} (h : OdKept l s t) {i j : Nat} (hk : (i, j) ∈ l) (v : Nat) :
    OdKept l s (odSet t i j v) :=
  h.trans ((odKept_odSet t i j v).mono (List.cons_subset.2 ⟨hk, List.nil_subset _⟩))

theorem odGet_of_od_eq {s t : State} (h : t.od = s.od) (i j : Nat) : odGet t i j = odGet s i j := by rw [odGet, h, odGet]

/-! ## A granted write (R381 to R385) -/

/-- A request is answered: its answer goes out, and beside it only the mailbox and source 334 change (R381, R473). -/
theorem respond_spec (req : OdReq) (session abort : Nat) (data : List Byte) (s : State) :
    AnswerOf s (respond req session abort data s) ∧
      .odResponse req.via req.tag session req.index req.sub abort data ∈ (respond req session abort data s).out := by
  unfold respond
  dsimp only
  split
  · rename_i op r waits
    by_cases h : r = req
    · rw [if_pos h, mailboxAnswer_eq]
      obtain ⟨-, -, frame⟩ := answeredWith_spec (answerBytes op req session abort data)
        { s with out := .odResponse req.via req.tag session req.index req.sub abort data :: s.out }
      refine ⟨?_, subset_out_raise (List.Subset.refl _) 334 ?_⟩
      · rw [raise_eq, frame]
        rfl
      · rw [frame]
        exact List.mem_cons_self
    · rw [if_neg h]
      exact ⟨rfl, List.mem_cons_self⟩
  · exact ⟨rfl, List.mem_cons_self⟩

/-- A granted write takes effect once what waited before it is finished and its record is stored, and is answered (R383, R385). -/
theorem odWriteOwn_granted {e : OwnEntry} {req : OdReq} {s : State} (h : Granted e req s) :
    odWriteOwn e req s = respond req req.session 0 [] (e.effect req (recorded req s)) := by
  obtain ⟨covers, carried, checks, rule⟩ := h
  have c : odWriteAbort (serveNext s) req = 0 := checks
  have r : e.rule req (serveNext s) = 0 := rule
  unfold odWriteOwn
  rw [if_pos ⟨covers, carried⟩]
  simp only [c, r, if_true]
  rfl

/-- A granted write answers OK, and leaves what its entry's effect leaves. -/
theorem odWriteOwn_answered {e : OwnEntry} {req : OdReq} {s : State} (h : Granted e req s) :
    Answered req 0 [] (odWriteOwn e req s) ∧ AnswerOf (e.effect req (recorded req s)) (odWriteOwn e req s) := by
  rw [odWriteOwn_granted h]
  exact (respond_spec req req.session 0 [] _).symm

end Sys2Proof.Machine
end

section
/-! PROOFS. FrameSource, FramePeriod, and the synchronisation to the field network (O31). -/

namespace Sys2Proof.Machine

/-! ## FrameSyncState and SysTimeState (R21, R363, R446) -/

/-- Only entries of the dictionary and what the controller of interrupts sends. -/
def EntriesOnly (s t : State) : Prop := t = { s with od := t.od, host := t.host, out := t.out }

theorem EntriesOnly.refl (s : State) : EntriesOnly s s := rfl

theorem EntriesOnly.trans {s t u : State} (h1 : EntriesOnly s t) (h2 : EntriesOnly t u) : EntriesOnly s u := by
  unfold EntriesOnly at *
  rw [h2, h1]

theorem entriesOnly_raise (n : Nat) (s : State) : EntriesOnly s (raise n s) := by
  unfold EntriesOnly
  rw [raise_eq]

/-- What a change of the two states of synchronisation leaves as it was. -/
def SyncOnly (s t : State) : Prop := EntriesOnly s t ∧ OdKept [(0x2100, 5), (0x2600, 3)] s t ∧ PendingKept s t

theorem SyncOnly.refl (s : State) : SyncOnly s s := ⟨EntriesOnly.refl s, OdKept.refl _ s, PendingKept.refl s⟩

theorem SyncOnly.trans {s t u : State} (h1 : SyncOnly s t) (h2 : SyncOnly t u) : SyncOnly s u :=
  ⟨h1.1.trans h2.1, h1.2.1.trans h2.2.1, h1.2.2.trans h2.2.2⟩

theorem SyncOnly.odGet_eq {s t : State} (h : SyncOnly s t) {i j : Nat}
    (hk : odKey i j ∉ [odKey 0x2100 5, odKey 0x2600 3]) : odGet t i j = odGet s i j := h.2.1.odGet_eq hk

/-- A source that arrives with the change of one of the two states. -/
theorem syncOnly_raise_odSet {i j : Nat} (h : (i, j) ∈ [(0x2100, 5), (0x2600, 3)]) (n v : Nat) (s : State) :
    SyncOnly s (raise n (odSet s i j v)) := by
  refine ⟨EntriesOnly.trans (t := odSet s i j v) rfl (entriesOnly_raise _ _), ?_, ?_⟩
  · exact ((OdKept.refl _ s).odSet h v).trans (OdKept.of_od_eq (raise_od _ _))
  · exact PendingKept.trans (t := odSet s i j v) (fun _ k => k) (pendingKept_raise _ _)

theorem syncOnly_setSync (v : Nat) (s : State) : SyncOnly s (setSync v s) := by
  unfold setSync
  split
  · exact SyncOnly.refl s
  · exact syncOnly_raise_odSet (by simp) _ _ _

theorem syncOnly_setSysTime (v : Nat) (s : State) : SyncOnly s (setSysTime v s) := by
  unfold setSysTime
  split
  · exact SyncOnly.refl s
  · exact syncOnly_raise_odSet (by simp) _ _ _

theorem syncOnly_refreshSysTime (s : State) : SyncOnly s (refreshSysTime s) := by
  unfold refreshSysTime
  split
  · exact SyncOnly.refl s
  · split
    · exact syncOnly_setSysTime _ _
    · exact syncOnly_setSysTime _ _

/-- FrameSyncState takes the state; where it had another, source 324 is pending. -/
theorem syncState_setSync (v : Nat) (s : State) :
    syncState (setSync v s) = v ∧ (syncState s ≠ v → irqPending (setSync v s) 324 = true) := by
  unfold setSync
  split
  · rename_i h
    exact ⟨h, fun k => absurd h k⟩
  · refine ⟨?_, fun _ => irqPending_raise_self _ _⟩
    rw [syncState, odGet_raise, odGet_odSet_self]

theorem syncState_setSysTime (v : Nat) (s : State) : syncState (setSysTime v s) = syncState s := by
  unfold setSysTime
  split
  · rfl
  · rw [syncState, odGet_raise, odGet_odSet, if_neg (by decide), syncState]

/-- SysTimeState follows FrameSyncState and does not move it. -/
theorem syncState_refreshSysTime (s : State) : syncState (refreshSysTime s) = syncState s := by
  unfold refreshSysTime
  split
  · rfl
  · split
    · exact syncState_setSysTime _ _
    · exact syncState_setSysTime _ _

/-- A change of FrameSyncState with the SysTimeState that follows it. -/
theorem sync_spec (v : Nat) (s : State) :
    let t := refreshSysTime (setSync v s)
    SyncOnly s t ∧ syncState t = v ∧ (syncState s ≠ v → irqPending t 324 = true) := by
  obtain ⟨now, changed⟩ := syncState_setSync v s
  have rest := syncOnly_refreshSysTime (setSync v s)
  exact ⟨(syncOnly_setSync v s).trans rest, (syncState_refreshSysTime _).trans now, fun h => rest.2.2 324 (changed h)⟩

/-! ## The messages of gPTP (R363) -/

/-- Where FrameSource is gPTP, a Sync message records its offset, counts itself and ends holdover. -/
theorem syncMessage_gptp {s : State} (h : odGet s 0x2100 1 = 1) (offset : Int) :
    ∃ t, exec (.syncMessage offset) s = .next t ∧ odGet t 0x1310 5 = unsigned 64 offset ∧
      t.frame = { s.frame with goodSync := if -100 ≤ offset ∧ offset ≤ 100 then min 8 (s.frame.goodSync + 1) else 0 } ∧
      syncState t = (if syncState s = 2 then 3 else syncState s) ∧ OdKept [(0x1310, 5), (0x2100, 5), (0x2600, 3)] s t ∧
      t = { s with frame := t.frame, od := t.od, host := t.host, out := t.out } := by
  let u : State := { odSet s 0x1310 5 (unsigned 64 offset) with
    frame := { s.frame with goodSync := if -100 ≤ offset ∧ offset ≤ 100 then min 8 (s.frame.goodSync + 1) else 0 } }
  let w : State := if syncState s = 2 then setSync 3 u else u
  have run : exec (.syncMessage offset) s = .next (refreshSysTime w) := by
    refine (if_neg (fun k => k h)).trans ?_
    simp only [w, u, Bool.and_eq_true, decide_eq_true_eq]
  have same : syncState u = syncState s := (odGet_odSet _ _ _ _ _ _).trans (if_neg (by decide))
  have state : syncState w = if syncState s = 2 then 3 else syncState s := by
    simp only [w]
    split
    · exact (syncState_setSync 3 u).1
    · exact same
  have moves : SyncOnly u (refreshSysTime w) := by
    refine SyncOnly.trans ?_ (syncOnly_refreshSysTime w)
    simp only [w]
    split
    · exact syncOnly_setSync 3 u
    · exact SyncOnly.refl u
  have offsetKept : odGet u 0x1310 5 = unsigned 64 offset := odGet_odSet_self _ _ _ _
  have frame : (refreshSysTime w).frame = u.frame := by rw [moves.1]
  refine ⟨_, run, (moves.odGet_eq (by decide)).trans offsetKept, frame, (syncState_refreshSysTime w).trans state, ?_, ?_⟩
  · exact OdKept.trans (t := u) (OdKept.odSet (OdKept.refl _ s) (by simp) _) (moves.2.1.mono (by simp))
  · rw [frame, moves.1]
    rfl

/-- A time-out of Sync messages makes holdover. -/
theorem syncTimeout_gptp {s : State} (h : odGet s 0x2100 1 = 1) :
    ∃ t, exec .syncTimeout s = .next t ∧ syncState t = 2 ∧ (syncState s ≠ 2 → irqPending t 324 = true) ∧
      OdKept [(0x2100, 5), (0x2600, 3)] s t ∧
      t = { s with frame := { s.frame with goodSync := 0 }, od := t.od, host := t.host, out := t.out } := by
  obtain ⟨moves, state, raised⟩ := sync_spec 2 { s with frame := { s.frame with goodSync := 0 } }
  exact ⟨_, if_neg (fun k => k h), state, raised, moves.2.1, moves.1⟩

/-- A change of grandmaster is recorded and makes slewing. -/
theorem grandmasterChange_gptp {s : State} (h : odGet s 0x2100 1 = 1) (who : List Byte) :
    ∃ t, exec (.grandmasterChange who) s = .next t ∧ syncState t = 3 ∧ odGet t 0x1310 6 = leNat (who.take 8) ∧
      (syncState s ≠ 3 → irqPending t 324 = true) ∧ OdKept [(0x1310, 6), (0x2100, 5), (0x2600, 3)] s t ∧
      t = { s with frame := { s.frame with goodSync := 0 }, od := t.od, host := t.host, out := t.out } := by
  let u : State := { odSet s 0x1310 6 (leNat (who.take 8)) with frame := { s.frame with goodSync := 0 } }
  have same : syncState u = syncState s := (odGet_odSet _ _ _ _ _ _).trans (if_neg (by decide))
  have identity : odGet u 0x1310 6 = leNat (who.take 8) := odGet_odSet_self _ _ _ _
  obtain ⟨moves, state, raised⟩ := sync_spec 3 u
  rw [same] at raised
  refine ⟨_, if_neg (fun k => k h), state, (moves.odGet_eq (by decide)).trans identity, raised, ?_, moves.1⟩
  exact OdKept.trans (t := u) (OdKept.odSet (OdKept.refl _ s) (by simp) _) (moves.2.1.mono (by simp))

/-! ## FrameSource and FramePeriod (R12, R18) -/

/-- A granted write of FrameSource: the value is stored, the count of Sync messages starts again, and the new source begins in holdover
for gPTP, free otherwise. -/
theorem frameSourceWrite_granted {req : OdReq} {s : State} (h : Granted frameSourceEntry req s) :
    let u := recorded req s
    ∃ t, exec (.frameSourceWrite req) s = .next t ∧ Answered req 0 [] t ∧ odGet t 0x2100 1 = reqVal req ∧
      syncState t = (if reqVal req = 1 then 2 else 0) ∧ OdKept [(0x2100, 1), (0x2100, 5), (0x2600, 3)] u t ∧
      t.force = u.force ∧ t.frame = { u.frame with goodSync := 0 } ∧ t.mem = u.mem ∧ t.launches = u.launches := by
  intro u
  let v : State := odSet { u with frame := { u.frame with goodSync := 0 } } 0x2100 1 (reqVal req)
  let w : State := refreshSysTime (setSync (if reqVal req = 1 then 2 else 0) v)
  obtain ⟨answered, answer⟩ := odWriteOwn_answered h
  change AnswerOf w _ at answer
  obtain ⟨moves, state, -⟩ := sync_spec (if reqVal req = 1 then 2 else 0) v
  change SyncOnly v w at moves
  have run : exec (.frameSourceWrite req) s = .next (odWriteOwn frameSourceEntry req s) := rfl
  generalize odWriteOwn frameSourceEntry req s = t at answered answer run
  have kept : t.od = w.od := by rw [answer]
  have frame : w = { v with od := w.od, host := w.host, out := w.out } := moves.1
  refine ⟨t, run, answered, ?source, ?sync, ?entries, ?_, ?_, ?_, ?_⟩
  case source =>
    rw [odGet_of_od_eq kept, moves.odGet_eq (by decide)]
    exact odGet_odSet_self _ _ _ _
  case sync => exact (odGet_of_od_eq kept _ _).trans state
  case entries =>
    exact (OdKept.trans (t := v) (OdKept.odSet (OdKept.refl _ u) (by simp) _) (moves.2.1.mono (by simp))).trans (OdKept.of_od_eq kept)
  all_goals
    rw [answer, frame]
    rfl

/-- A granted write of FramePeriod stores the value, in force from the next boundary, and changes nothing else. -/
theorem framePeriodWrite_granted {req : OdReq} {s : State} (h : Granted framePeriodEntry req s) :
    let u := recorded req s
    ∃ t, exec (.framePeriodWrite req) s = .next t ∧ Answered req 0 [] t ∧ odGet t 0x2100 2 = reqVal req ∧
      OdKept [(0x2100, 2)] u t ∧ AnswerOf (odSet u 0x2100 2 (reqVal req)) t := by
  intro u
  obtain ⟨answered, answer⟩ := odWriteOwn_answered h
  change AnswerOf (odSet u 0x2100 2 (reqVal req)) _ at answer
  have kept : (odWriteOwn framePeriodEntry req s).od = (odSet u 0x2100 2 (reqVal req)).od := by rw [answer]
  refine ⟨_, rfl, answered, ?_, (odKept_odSet u _ _ _).trans (OdKept.of_od_eq kept), answer⟩
  exact (odGet_of_od_eq kept _ _).trans (odGet_odSet_self _ _ _ _)

/-- Settles O31: a granted write stores its value (R18), and a message of gPTP moves FrameSyncState only while FrameSource is gPTP (R363). -/
theorem frameSourcesAndSynchronisation : Obligations.FrameSourcesAndSynchronisation := by
  intro s req offset who
  refine ⟨frameSourceWrite_granted, framePeriodWrite_granted,
    fun h => ⟨syncMessage_gptp h offset, syncTimeout_gptp h, grandmasterChange_gptp h who⟩, fun h => ⟨if_pos h, if_pos h, if_pos h⟩⟩

end Sys2Proof.Machine
end

section
/-! PROOFS. What the upkeep of problems leaves as it was: their records, and the memory that they write. -/

namespace Sys2Proof.Machine

/-- Only problems and their re-execution checkpoints, and what stores change: bytes, marks and leaves. -/
def ProbOnly (s t : State) : Prop := t = { s with probs := t.probs, rx := t.rx, mem := t.mem, ecc := t.ecc, leaves := t.leaves }

theorem ProbOnly.refl (s : State) : ProbOnly s s := rfl

theorem ProbOnly.trans {s t u : State} (h1 : ProbOnly s t) (h2 : ProbOnly t u) : ProbOnly s u := by
  unfold ProbOnly at *
  rw [h2, h1]

theorem ProbOnly.ite {s a b : State} (c : Prop) [Decidable c] (h1 : ProbOnly s a) (h2 : ProbOnly s b) : ProbOnly s (if c then a else b) := by
  split <;> assumption

theorem probOnly_store (a : Nat) (d : List Byte) (s : State) : ProbOnly s (store a d s) := rfl
theorem probOnly_setProb (k j : Nat) (p : ProbSt) (s : State) : ProbOnly s (setProb k j p s) := rfl

/-! ## The end of a problem (R168) -/

theorem probOnly_writeOutputs (c : ProbCtx) (p : ProbSt) (s : State) : ProbOnly s (writeOutputs c p s) := by
  unfold writeOutputs
  dsimp only
  split
  · exact (probOnly_store _ _ _).trans (probOnly_store _ _ _)
  · exact ((probOnly_store _ _ _).trans (probOnly_store _ _ _)).trans (probOnly_store _ _ _)

theorem probOnly_refresh (c : ProbCtx) (p : ProbSt) (s : State) : ProbOnly s (refresh c p s) := by
  unfold refresh
  exact .ite _ rfl (.ite _ rfl ((probOnly_setProb _ _ _ _).trans (probOnly_writeOutputs _ _ _)))

/-- An ended or running problem stands as it was refreshed. -/
theorem probs_refresh (c : ProbCtx) (p : ProbSt) (s : State) : (refresh c p s).probs = kput s.probs (probKey c.key c.no) p := by
  unfold refresh writeOutputs
  dsimp only
  repeat' split
  all_goals rfl

theorem probOnly_drainProb (k j : Nat) (st : Option Stand) (s : State) : ProbOnly s (drainProb k j st s) := by
  unfold drainProb
  split
  · exact .ite _ (.refl s) (probOnly_refresh _ _ _)
  · exact .refl s

theorem probOnly_drainProbs (k : Nat) (l : Launch) (stands : List Stand) (s : State) : ProbOnly s (drainProbs k l stands s) :=
  foldl_keeps ProbOnly.refl ProbOnly.trans (fun _ _ => probOnly_drainProb _ _ _ _) _ _

/-! ## Checkpoints and frames of a real-time problem (R165, R169) -/

theorem probOnly_putRecord (c : ProbCtx) (kind rep nc : Nat) (energy aux : Int) (x : ProbSt × State) :
    ProbOnly x.2 (putRecord c kind rep nc energy aux x).2 := by
  unfold putRecord
  dsimp only
  split <;> rfl

theorem probOnly_traceStep (c : ProbCtx) (r nc : Nat) (changed : Bool) (e : Int) (x : ProbSt × State) :
    ProbOnly x.2 (traceStep c r nc changed e x).2 := by
  unfold traceStep
  extract_lets t0 t1
  clear_value t1
  split
  rename_i t2 x2 h2
  have passed : ProbOnly x.2 x2.2 := by
    split at h2
    · injection h2 with _ h2
      exact h2 ▸ .refl _
    · dsimp only at h2
      split at h2 <;> injection h2 with _ h2 <;> subst h2
      · exact probOnly_putRecord _ _ _ _ _ _ _
      · exact .refl _
  split
  rename_i t3 x3 h3
  refine passed.trans ?_
  dsimp only at h3
  split at h3 <;> injection h3 with _ h3 <;> subst h3
  · exact probOnly_putRecord _ _ _ _ _ _ _
  · exact .refl _

theorem probOnly_bestStep (c : ProbCtx) (nc : Nat) (es : List Int) (sps : List (List Bool)) (x : ProbSt × State) :
    ProbOnly x.2 (bestStep c nc es sps x).2 := by
  unfold bestStep
  extract_lets r e better y bytes src x1
  have stored : ProbOnly x.2 x1.2 := by
    simp only [x1]
    split
    · exact .refl _
    · exact (probOnly_putRecord _ _ _ _ _ _ _).trans (probOnly_store _ _ _)
  clear_value x1
  split
  · exact stored
  · dsimp only
    split
    · exact stored.trans (probOnly_putRecord _ _ _ _ _ _ _)
    · exact stored

theorem probOnly_keepCheckpoint (c : ProbCtx) (q : Nat) (p : ProbSt) (s : State) : ProbOnly s (keepCheckpoint c q p s) := by
  unfold keepCheckpoint
  split
  · exact .refl s
  · split <;> rfl

theorem probOnly_putFrameOutput (c : ProbCtx) (nc : Nat) (p : ProbSt) (es : List Int) (sps : List (List Bool)) (s : State) :
    ProbOnly s (putFrameOutput c nc p es sps s) := by
  unfold putFrameOutput
  split
  · exact .ite _ (probOnly_store _ _ _) (.refl s)
  · exact .refl s

theorem probOnly_checkpoint (c : ProbCtx) (p : ProbSt) (s : State) : ProbOnly s (checkpoint c p s) := by
  unfold checkpoint
  extract_lets nc sps es p0 x1 x2 q p3
  have traced : ProbOnly s x1.2 := foldl_keeps (R := fun x y : ProbSt × State => ProbOnly x.2 y.2) (fun _ => .refl _) .trans
    (fun _ _ => probOnly_traceStep _ _ _ _ _ _) (List.range c.img.replicas) (p0, s)
  have best : ProbOnly s x2.2 := traced.trans (probOnly_bestStep _ _ _ _ _)
  exact ((best.trans (probOnly_refresh _ _ _)).trans (probOnly_keepCheckpoint _ _ _ _)).trans (probOnly_putFrameOutput _ _ _ _ _ _)

theorem probOnly_finishFrame (k j n : Nat) (s : State) : ProbOnly s (finishFrame k j n s) := by
  induction n generalizing s with
  | zero => exact .refl s
  | succ n ih =>
    unfold finishFrame
    split
    · refine .ite _ (.refl s) ?_
      split
      · exact .refl s
      · refine ProbOnly.trans ?_ (ih _)
        split
        · exact probOnly_checkpoint _ _ _
        · exact .refl s
    · exact .refl s

theorem probOnly_frameProb (k j : Nat) (s : State) : ProbOnly s (frameProb k j s) := by
  unfold frameProb
  split
  · exact .ite _ (.refl s) (probOnly_setProb _ _ _ _)
  · exact .refl s

/-- A frame boundary moves problems and what they write, and nothing else. -/
theorem probOnly_frameProbs (s : State) : ProbOnly s (frameProbs s) :=
  foldl_keeps ProbOnly.refl ProbOnly.trans (fun _ _ => (probOnly_finishFrame _ _ _ _).trans (probOnly_frameProb _ _ _)) _ _

end Sys2Proof.Machine
end

section
/-! PROOFS. The frame boundary (O30): what a frame that begins leaves as the boundary has set it. -/

namespace Sys2Proof.Machine

/-! ## What the units leave of the frame's own state -/

/-- The plan tc, the frame, the platform, the values in force, the budgets' spending and FrameCount are as before, and pending sources stay
pending. -/
structure FrameKept (s t : State) : Prop where
  now : t.now = s.now
  frame : t.frame = s.frame
  plat : t.plat = s.plat
  force : t.force = s.force
  spent : t.spent = s.spent
  count : kget t.od (odKey 0x2100 3) = kget s.od (odKey 0x2100 3)
  pending : PendingKept s t

theorem FrameKept.refl (s : State) : FrameKept s s := ⟨rfl, rfl, rfl, rfl, rfl, rfl, .refl s⟩

theorem FrameKept.trans {s t u : State} (h1 : FrameKept s t) (h2 : FrameKept t u) : FrameKept s u :=
  ⟨h2.now.trans h1.now, h2.frame.trans h1.frame, h2.plat.trans h1.plat, h2.force.trans h1.force, h2.spent.trans h1.spent,
    h2.count.trans h1.count, h1.pending.trans h2.pending⟩

theorem FrameKept.ite {s a b : State} (c : Prop) [Decidable c] (h1 : FrameKept s a) (h2 : FrameKept s b) : FrameKept s (if c then a else b) := by
  split <;> assumption

theorem frameKept_foldl {α : Type} {f : State → α → State} (step : ∀ s x, FrameKept s (f s x)) (l : List α) (s : State) :
    FrameKept s (l.foldl f s) := foldl_keeps FrameKept.refl FrameKept.trans step l s

theorem ProbOnly.frameKept {s t : State} (h : ProbOnly s t) : FrameKept s t := by
  rw [h]
  exact ⟨rfl, rfl, rfl, rfl, rfl, rfl, .refl s⟩

theorem frameKept_raise (n : Nat) (s : State) : FrameKept s (raise n s) := by
  refine ⟨?_, ?_, ?_, ?_, ?_, ?_, pendingKept_raise n s⟩ <;> simp

/-- An entry other than FrameCount is written. -/
theorem frameKept_odSet {i j : Nat} (h : odKey i j ≠ odKey 0x2100 3) (s : State) (v : Nat) : FrameKept s (odSet s i j v) :=
  ⟨rfl, rfl, rfl, rfl, rfl, kget_kput_other _ _ h, .refl s⟩

/-- An entry whose index is above FrameCount's, at any sub-index. -/
theorem odKey_ne_frameCount {i : Nat} (h : 0x2100 < i) (j : Nat) : odKey i j ≠ odKey 0x2100 3 := by
  unfold odKey
  omega

theorem frameKept_odSet_above {i : Nat} (h : 0x2100 < i) (j : Nat) (s : State) (v : Nat) : FrameKept s (odSet s i j v) :=
  frameKept_odSet (odKey_ne_frameCount h j) s v

theorem frameKept_odBump {i : Nat} (h : 0x2100 < i) (j w d : Nat) (s : State) : FrameKept s (odBump s i j w d) :=
  frameKept_odSet_above h j s _

theorem frameKept_winSet (s : State) (a v : Nat) : FrameKept s (winSet s a v) := ⟨rfl, rfl, rfl, rfl, rfl, rfl, .refl s⟩
theorem frameKept_winPut (s : State) (a lo w x : Nat) : FrameKept s (winPut s a lo w x) := frameKept_winSet _ _ _
theorem frameKept_winBump (s : State) (a lo w d : Nat) : FrameKept s (winBump s a lo w d) := frameKept_winSet _ _ _
theorem frameKept_winMax (s : State) (a lo w x : Nat) : FrameKept s (winMax s a lo w x) := frameKept_winSet _ _ _

/-! ## Reports, refusals, safe state -/

theorem frameKept_vc3Arrive (pos : Nat) (e : Vc3Ent) (s : State) : FrameKept s (vc3Arrive pos e s) := by
  have held (m : KMap (List Vc3Ent)) : FrameKept s { s with vc3Held := m } := ⟨rfl, rfl, rfl, rfl, rfl, rfl, .refl s⟩
  unfold vc3Arrive vc3Take
  refine .ite _ (.ite _ ?_ ?_) ⟨rfl, rfl, rfl, rfl, rfl, rfl, .refl s⟩
  · exact ((held _).trans (frameKept_winBump _ _ _ _ _)).trans (frameKept_odBump (by decide) _ _ _ _)
  · exact (held _).trans (frameKept_winMax _ _ _ _ _)

theorem frameKept_report (pos code unit sub glove : Nat) (d : List Byte) (s : State) : FrameKept s (report pos code unit sub glove d s) :=
  frameKept_vc3Arrive _ _ _

theorem frameKept_reject (g a len source reason unit : Nat) (s : State) : FrameKept s (reject g a len source reason unit s) := by
  unfold reject
  exact ((frameKept_odBump (by decide) _ _ _ _).trans (frameKept_odSet_above (by decide) _ _ _)).trans
    ((frameKept_report _ _ _ _ _ _ _).trans (frameKept_raise _ _))

theorem frameKept_enterSafe (bit : Nat) (s : State) : FrameKept s (enterSafe bit s) := by
  have caused (x : SafetySt) : FrameKept s { s with safety := x } := ⟨rfl, rfl, rfl, rfl, rfl, rfl, .refl s⟩
  unfold enterSafe
  exact .ite _ (((caused _).trans (frameKept_winPut _ _ _ _ _)).trans (frameKept_raise _ _)) (caused _)

theorem frameKept_dangerous (s : State) : FrameKept s (dangerous s) :=
  (frameKept_winBump _ _ _ _ _).trans (frameKept_odBump (by decide) _ _ _ _)

/-! ## The exchange (R448 to R453) -/

theorem frameKept_adjPlx (pos : Nat) (f : PlxPort → PlxPort) (s : State) : FrameKept s (adjPlx pos f s) :=
  ⟨rfl, rfl, rfl, rfl, rfl, rfl, .refl s⟩

theorem frameKept_entAdj (pos i : Nat) (f : XEnt → XEnt) (s : State) : FrameKept s (entAdj pos i f s) := frameKept_adjPlx _ _ _

theorem frameKept_emitCell (pos : Nat) (head : List Byte) (s : State) : FrameKept s (emitCell pos head s) := by
  have same {t : State} (h1 : t.now = s.now) (h2 : t.frame = s.frame) (h3 : t.plat = s.plat) (h4 : t.force = s.force)
      (h5 : t.spent = s.spent) (h6 : t.od = s.od) (h7 : t.host = s.host) : FrameKept s t :=
    ⟨h1, h2, h3, h4, h5, by rw [h6], .of_host_eq (by rw [h7])⟩
  unfold emitCell
  exact .ite _ (same rfl rfl rfl rfl rfl rfl rfl) (.ite _ (same rfl rfl rfl rfl rfl rfl rfl)
    (.ite _ (same rfl rfl rfl rfl rfl rfl rfl) (.refl s)))

theorem frameKept_sendCell (pos kind tag : Nat) (poison : Bool) (glove version : Nat) (data : List Byte) (s : State) :
    FrameKept s (sendCell pos kind tag poison glove version data s) :=
  (frameKept_adjPlx _ _ _).trans (frameKept_emitCell _ _ _)

theorem frameKept_ndCount (key cause n : Nat) (s : State) : FrameKept s (ndCount key cause n s) := by
  unfold ndCount
  split
  · exact .refl s
  · rename_i l _
    have counted (m : KMap Launch) : FrameKept s { s with launches := m } := ⟨rfl, rfl, rfl, rfl, rfl, rfl, .refl s⟩
    exact ((counted _).trans (frameKept_odBump (by decide) _ _ _ _)).trans (frameKept_odBump (by decide) _ _ _ _)

theorem frameKept_fixChoice (pos i r : Nat) (s : State) : FrameKept s (fixChoice pos i r s) := by
  unfold fixChoice
  split
  · exact .refl s
  · exact .ite _ (.refl s) (.ite _ (frameKept_entAdj _ _ _ _) ((frameKept_entAdj _ _ _ _).trans (frameKept_ndCount _ _ _ _)))

theorem frameKept_settleEnt (pos i : Nat) (s : State) : FrameKept s (settleEnt pos i s) := by
  unfold settleEnt
  split
  · exact .refl s
  · exact (frameKept_entAdj _ _ _ _).trans (frameKept_foldl (fun _ _ => frameKept_sendCell _ _ _ _ _ _ _ _) _ _)

theorem frameKept_pumpEnt (pos i n : Nat) (s : State) : FrameKept s (pumpEnt pos i n s) := by
  induction n generalizing s with
  | zero => exact .refl s
  | succ n ih =>
    unfold pumpEnt
    split
    · exact .refl s
    · refine .ite _ (.refl s) ?_
      split
      · exact .refl s
      · refine FrameKept.trans (FrameKept.trans ?_ (frameKept_settleEnt _ _ _)) (ih _)
        refine FrameKept.trans ?_ (frameKept_sendCell _ _ _ _ _ _ _ _)
        exact FrameKept.trans (.ite _ (frameKept_fixChoice _ _ _ _) (.refl s)) (frameKept_entAdj _ _ _ _)

theorem frameKept_pumpAll (pos : Nat) (s : State) : FrameKept s (pumpAll pos s) :=
  frameKept_foldl (fun _ _ => frameKept_pumpEnt _ _ _ _) _ _

/-! ## The field network (R368, R374, R375) -/

theorem frameKept_setRx (k : Nat) (r : RxSt) (s : State) : FrameKept s (setRx k r s) := ⟨rfl, rfl, rfl, rfl, rfl, rfl, .refl s⟩
theorem frameKept_setTx (k : Nat) (r : TxSt) (s : State) : FrameKept s (setTx k r s) := ⟨rfl, rfl, rfl, rfl, rfl, rfl, .refl s⟩

theorem frameKept_setConn (c : Nat) (r : Conn) (s : State) : FrameKept s (setConn c r s) := by
  have field (f : FieldSt → FieldSt) : FrameKept s (fieldWith f s) := ⟨rfl, rfl, rfl, rfl, rfl, rfl, .refl s⟩
  exact (field _).trans (frameKept_odSet_above (by omega) _ _ _)

theorem frameKept_pdEvent (tile field : Nat) (s : State) : FrameKept s (pdEvent tile field s) := frameKept_winBump _ _ _ _ _

theorem frameKept_connRun (c tile : Nat) (bad : Bool) (piece : Option (List Byte × Nat)) (s : State) :
    FrameKept s (connRun c tile bad piece s) := by
  have disagree (t : State) : FrameKept t (crcDisagree tile t) :=
    ((frameKept_pdEvent _ _ _).trans (frameKept_dangerous _)).trans ((frameKept_enterSafe _ _).trans (frameKept_raise _ _))
  unfold connRun
  extract_lets x b n good s0 s1
  have counted : FrameKept s s0 := .ite _ (frameKept_odBump (by omega) _ _ _ _) (.refl s)
  have checked : FrameKept s s1 := counted.trans (.ite _ (.refl _) (.ite _ (disagree _) (frameKept_pdEvent _ _ _)))
  clear_value s1
  refine .ite _ (.refl s) ?_
  split
  extract_lets s2 s3
  have stepped : FrameKept s s3 :=
    (checked.trans (.ite _ (frameKept_odBump (by omega) _ _ _ _) (.refl _))).trans (frameKept_setConn _ _ _)
  exact .ite _ (stepped.trans (frameKept_raise _ _)) stepped

theorem frameKept_connEnable (s : State) : FrameKept s (connEnable s) := by
  refine frameKept_foldl (fun t p => ?_) _ _
  dsimp only
  split
  · exact .refl t
  · exact .ite _ (.refl t) (frameKept_setConn _ _ _)

theorem frameKept_streamEnable (before s : State) : FrameKept s (streamEnable before s) := by
  refine frameKept_foldl (fun t k => ?_) _ _
  have received : FrameKept t (if streamOn t k ∧ !streamOn before k then setRx k RxSt.blank t else t) :=
    .ite _ (frameKept_setRx _ _ _) (.refl t)
  exact .ite _ (received.trans (frameKept_setTx _ _ _)) received

theorem frameKept_connIdle (s : State) : FrameKept s (connIdle s) :=
  frameKept_foldl (fun t _ => .ite _ (frameKept_connRun _ _ _ _ _) (.refl t)) _ _

theorem frameKept_rxBoundary (crc : List Nat) (k : Nat) (s : State) : FrameKept s (rxBoundary crc k s).2 := by
  unfold rxBoundary
  extract_lets r tile frame r1 s1 s2 ps s3
  have missed : FrameKept s s2 := (frameKept_setRx _ _ _).trans
    (.ite _ (.refl _) ((frameKept_odBump (by omega) _ _ _ _).trans (frameKept_raise _ _)))
  exact missed.trans (frameKept_foldl (fun t _ => .ite _ (.refl t) (frameKept_connRun _ _ _ _ _)) _ _)

theorem frameKept_queueFlits (pos : Nat) (l : List VcFlit) (s : State) : FrameKept s (queueFlits pos l s) :=
  ⟨rfl, rfl, rfl, rfl, rfl, rfl, .refl s⟩

theorem frameKept_pdDeliver (o : PdOut) (s : State) : FrameKept s (pdDeliver o s) :=
  (frameKept_queueFlits _ _ _).trans
    (frameKept_foldl (fun _ _ => frameKept_foldl (fun _ _ => frameKept_reject _ _ _ _ _ _ _) _ _) _ _)

theorem frameKept_fieldBoundary (crc : List Nat) (before s : State) : FrameKept s (fieldBoundary crc before s) := by
  unfold fieldBoundary
  extract_lets s0 s1
  have begun : FrameKept s s0 := ⟨rfl, rfl, rfl, rfl, rfl, rfl, .refl s⟩
  have enabled : FrameKept s s1 := (begun.trans (frameKept_streamEnable _ _)).trans (frameKept_connEnable _)
  clear_value s1
  split
  rename_i outs s2 h
  have received : FrameKept s1 s2 := by
    have e : s2 = (List.foldl _ (([] : List PdOut), s1) (List.range 64)).2 := (congrArg Prod.snd h).symm
    rw [e]
    change FrameKept (([] : List PdOut), s1).2 _
    refine foldl_keeps (R := fun x y : List PdOut × State => FrameKept x.2 y.2) (fun _ => .refl _) .trans (fun x k => ?_) _ _
    dsimp only
    split
    · exact frameKept_rxBoundary _ _ _
    · exact .refl _
  exact ((enabled.trans received).trans (frameKept_connIdle _)).trans (frameKept_foldl (fun _ _ => frameKept_pdDeliver _ _) _ _)

/-! ## Units, launches and rates at a boundary -/

theorem frameKept_adjTile (pos : Nat) (f : Tile → Tile) (s : State) : FrameKept s (adjTile pos f s) := ⟨rfl, rfl, rfl, rfl, rfl, rfl, .refl s⟩

theorem frameKept_adjLaunch (k : Nat) (f : Launch → Launch) (s : State) : FrameKept s (adjLaunch k f s) :=
  ⟨rfl, rfl, rfl, rfl, rfl, rfl, .refl s⟩

theorem frameKept_drySet (k : Nat) (tiles : List Nat) (s : State) : FrameKept s (drySet k tiles s) :=
  frameKept_foldl (fun _ _ => frameKept_foldl (fun _ _ => frameKept_adjTile _ _ _) _ _) _ _

theorem frameKept_endFaulted (s : State) : FrameKept s (endFaulted s) :=
  frameKept_foldl (fun t _ => .ite _ (frameKept_drySet _ _ _) (.refl t)) _ _

theorem frameKept_applyRate (pos : Nat) (s : State) : FrameKept s (applyRate pos s) := by
  have entry : 0x2100 < (rateEntry pos).1 := by
    unfold rateEntry
    split
    · exact (by decide : 0x2100 < 0x2501)
    · exact (by decide : 0x2100 < 0x2502)
  unfold applyRate
  extract_lets a v cap old t new
  split
  rename_i ix sub h
  rw [h] at entry
  exact .ite _ (.refl s) (((frameKept_winPut _ _ _ _ _).trans (frameKept_odSet_above entry _ _ _)).trans
    ((frameKept_report _ _ _ _ _ _ _).trans (frameKept_raise _ _)))

theorem frameKept_applyRates (s : State) : FrameKept s (applyRates s) := frameKept_foldl (fun _ _ => frameKept_applyRate _ _) _ _

theorem frameKept_stretchFrame (s : State) : FrameKept s (stretchFrame s) := by
  unfold stretchFrame
  split
  rename_i cause m h
  extract_lets s1 s2
  have caused : FrameKept s s1 := frameKept_odSet_above (by decide) _ _ _
  have changed : FrameKept s s2 := caused.trans (.ite _ (.refl _)
    (((frameKept_odSet_above (by decide) _ _ _).trans (frameKept_odBump (by decide) _ _ _ _)).trans (frameKept_raise _ _)))
  exact .ite _ changed (changed.trans ⟨rfl, rfl, rfl, rfl, rfl, rfl, .refl _⟩)

theorem frameKept_warnRisk (before : Bool) (s : State) : FrameKept s (warnRisk before s) := .ite _ (frameKept_raise _ _) (.refl s)

theorem frameKept_resumeExchange (s : State) : FrameKept s (resumeExchange s) := frameKept_foldl (fun _ _ => frameKept_pumpAll _ _) _ _

theorem frameKept_resetsProceed (s : State) : FrameKept s (resetsProceed s) := ⟨rfl, rfl, rfl, rfl, rfl, rfl, .refl s⟩

theorem frameKept_sentinelBoundary (s : State) : FrameKept s (sentinelBoundary s) := by
  have stop (g : Nat) (t : State) : FrameKept t (sentinelStop g t) := .ite _ (frameKept_enterSafe _ _) (.refl t)
  have event (g code : Nat) (t : State) : FrameKept t (sentinelEvent g code t) := frameKept_odSet_above (by omega) _ _ _
  refine frameKept_foldl (fun t p => ?_) _ _
  refine .ite _ (.refl t) ?_
  extract_lets g simplex t1 n t2
  have health : FrameKept t t1 := frameKept_adjLaunch _ _ _
  refine .ite _ health ?_
  have simplexCounted : FrameKept t t2 := health.trans (frameKept_odSet_above (by omega) _ _ _)
  refine .ite _ simplexCounted (simplexCounted.trans ?_)
  exact ((frameKept_adjLaunch _ _ _).trans (event _ _ _)).trans ((frameKept_raise _ _).trans (stop _ _))

theorem SyncOnly.frameKept {s t : State} (h : SyncOnly s t) : FrameKept s t := by
  obtain ⟨only, entries, pending⟩ := h
  unfold EntriesOnly at only
  exact ⟨by rw [only], by rw [only], by rw [only], by rw [only], by rw [only], entries _ (by decide), pending⟩

theorem frameKept_endSlew (err : Int) (s : State) : FrameKept s (endSlew err s) := by
  unfold endSlew
  extract_lets s1 s2
  have locked : FrameKept s s1 := .ite _ (syncOnly_setSync _ _).frameKept (.refl s)
  have followed : FrameKept s s2 := locked.trans (.ite _ (syncOnly_setSysTime _ _).frameKept (.refl _))
  exact followed.trans (syncOnly_refreshSysTime _).frameKept

/-! ## Budgets are repaid (R354) -/

/-- What is left of a spending once an allowance has repaid it. -/
def repaid : Option Nat → Nat → Nat
  | none, _ => 0
  | some b, n => n - b

theorem repaid_zero (a : Option Nat) : repaid a 0 = 0 := by
  cases a with
  | none => rfl
  | some b => exact Nat.zero_sub b

/-- A table of numbers that are replaced entry by entry, and dropped where they come to 0, reads each entry's replacement. -/
theorem kgetD_replace_nonzero {m : KMap Nat} (rise : keysRise m = true) (f : Nat → Nat → Nat) (zero : ∀ k, f k 0 = 0) (k : Nat) :
    kgetD ((m.map fun p => (p.1, f p.1 p.2)).filter fun p => p.2 != 0) k 0 = f k (kgetD m k 0) := by
  have risen : keysRise ((m.map fun p => (p.1, f p.1 p.2)).filter fun p => p.2 != 0) = true := by
    refine keysRise_filter _ _ ?_
    rw [keysRise_iff] at rise ⊢
    simpa [List.map_map, Function.comp_def] using rise
  have listed (w : Nat) : kget ((m.map fun p => (p.1, f p.1 p.2)).filter fun p => p.2 != 0) k = some w ↔
      ∃ v, kget m k = some v ∧ f k v = w ∧ w ≠ 0 := by
    rw [kget_eq_some risen, List.mem_filter, List.mem_map]
    constructor
    · rintro ⟨⟨⟨a, v⟩, hv, e⟩, h⟩
      obtain ⟨rfl, rfl⟩ := Prod.mk.inj e
      exact ⟨v, (kget_eq_some rise a v).2 hv, rfl, by simpa using h⟩
    · rintro ⟨v, hv, rfl, h⟩
      exact ⟨⟨(k, v), (kget_eq_some rise k v).1 hv, rfl⟩, by simpa using h⟩
  unfold kgetD
  cases hk : kget m k with
  | none =>
    have gone : kget ((m.map fun p => (p.1, f p.1 p.2)).filter fun p => p.2 != 0) k = none := by
      refine Option.eq_none_iff_forall_ne_some.2 fun w h => ?_
      obtain ⟨v, hv, -⟩ := (listed w).1 h
      exact absurd hv (by simp [hk])
    rw [gone]
    exact (zero k).symm
  | some v =>
    by_cases h : f k v = 0
    · have gone : kget ((m.map fun p => (p.1, f p.1 p.2)).filter fun p => p.2 != 0) k = none := by
        refine Option.eq_none_iff_forall_ne_some.2 fun w hw => ?_
        obtain ⟨u, hu, e, hw⟩ := (listed w).1 hw
        obtain rfl : v = u := by simpa [hk] using hu
        exact hw (e.symm.trans h)
      rw [gone]
      exact h.symm
    · rw [(listed (f k v)).2 ⟨v, hk, rfl, h⟩]
      rfl

theorem budgetRepay_spent (s : State) : (budgetRepay s).spent =
    (s.spent.map fun p => (p.1, repaid (allowance s (p.1 / 16) (p.1 % 16)) p.2)).filter fun p => p.2 != 0 := by
  have each (p : Nat × Nat) : (match allowance s (p.1 / 16) (p.1 % 16) with
      | none => 0
      | some b => p.2 - b) = repaid (allowance s (p.1 / 16) (p.1 % 16)) p.2 := by
    cases allowance s (p.1 / 16) (p.1 % 16) <;> rfl
  exact congrArg (fun f : Nat × Nat → Nat × Nat => (s.spent.map f).filter fun p => p.2 != 0) (funext fun p => congrArg (p.1, ·) (each p))

theorem spentOf_budgetRepay {s : State} (rise : keysRise s.spent = true) {q : Nat} (hq : q < 16) (g : Nat) :
    spentOf (budgetRepay s) g q = repaid (allowance s g q) (spentOf s g q) := by
  have hg : (16 * g + q) / 16 = g := by omega
  have hr : (16 * g + q) % 16 = q := by omega
  unfold spentOf
  rw [budgetRepay_spent, kgetD_replace_nonzero rise (fun k n => repaid (allowance s (k / 16) (k % 16)) n) (fun _ => repaid_zero _)]
  rw [hg, hr]

/-! ## The frame that begins (R13, R22, R383, R484) -/

/-- The state in which the boundary has counted. -/
def counted (tcs : Nat) (s : State) : State :=
  odBump { s with frame := { s.frame with
    boundaries := s.frame.boundaries + 1, gone := 0, base := s.frame.base + s.frame.gone + tcs } } 0x2100 3 64 1

/-- The state in which budgets are repaid as well, and every accepted value is in force. -/
def begun (tcs : Nat) (s : State) : State := forceAll (budgetRepay (counted tcs s))

theorem begun_plat (tcs : Nat) (s : State) : (begun tcs s).plat = s.plat := rfl
theorem begun_force (tcs : Nat) (s : State) : (begun tcs s).force = (begun tcs s).od := rfl

theorem applyStep_spec (s : State) :
    (applyStep s).frame = { s.frame with tileStep := s.plat.nextStep } ∧ (applyStep s).now = s.now ∧ (applyStep s).plat = s.plat ∧
      (applyStep s).force = s.force ∧ (applyStep s).spent = s.spent ∧
      kget (applyStep s).od (odKey 0x2100 3) = kget s.od (odKey 0x2100 3) ∧ PendingKept s (applyStep s) := by
  unfold applyStep
  split
  · rename_i h
    exact ⟨by rw [h], rfl, rfl, rfl, rfl, rfl, .refl s⟩
  · let u : State := { s with frame := { s.frame with tileStep := s.plat.nextStep } }
    have kept : FrameKept u (raise 480 (odSet (odSet u 0x2800 4 s.plat.nextStep) 0x2800 5 (stepMHz s.plat.nextStep))) :=
      ((frameKept_odSet_above (by decide) _ _ _).trans (frameKept_odSet_above (by decide) _ _ _)).trans (frameKept_raise _ _)
    exact ⟨kept.frame, kept.now, kept.plat, kept.force, kept.spent, kept.count, kept.pending⟩

/-- The state in which rates, stretch and the exchange stand as in the frame that begins. -/
def rated (before : Bool) (s : State) : State := resumeExchange (warnRisk before (stretchFrame (applyRates s)))

theorem frameKept_rated (before : Bool) (s : State) : FrameKept s (rated before s) :=
  ((frameKept_applyRates s).trans (frameKept_stretchFrame (applyRates s))).trans
    ((frameKept_warnRisk before _).trans (frameKept_resumeExchange _))

/-- The boundary in the field network, at the sentinels, and at the problems of real-time launches. -/
theorem frameKept_lastUnits (crc : List Nat) (err : Int) (before s : State) :
    FrameKept s (endSlew err (frameProbs (sentinelBoundary (fieldBoundary crc before (resetsProceed s))))) :=
  ((frameKept_resetsProceed s).trans (frameKept_fieldBoundary crc before _)).trans
    ((frameKept_sentinelBoundary _).trans ((probOnly_frameProbs _).frameKept.trans (frameKept_endSlew err _)))

theorem beginFrame_eq (crc : List Nat) (err : Int) (tcs : Nat) (s : State) :
    beginFrame crc err tcs s = endSlew err (frameProbs (sentinelBoundary (fieldBoundary crc s
      (resetsProceed (rated (atRisk s) (applyStep (endFaulted (unitsFrame (begun tcs s))))))))) := rfl

/-- A frame that begins stands at plan tc 0 with the CK_TILE step chosen since; what else the boundary has set, the units leave. -/
theorem beginFrame_spec (crc : List Nat) (err : Int) (tcs : Nat) (s : State) :
    let t := beginFrame crc err tcs s
    t.now = 0 ∧ t.frame = { (begun tcs s).frame with tileStep := s.plat.nextStep } ∧ t.plat = s.plat ∧ t.force = (begun tcs s).od ∧
      t.spent = (begun tcs s).spent ∧ kget t.od (odKey 0x2100 3) = kget (begun tcs s).od (odKey 0x2100 3) ∧ PendingKept s t := by
  have started : PendingKept s (begun tcs s) := .refl s
  have plat := begun_plat tcs s
  have force := begun_force tcs s
  rw [beginFrame_eq]
  generalize begun tcs s = b at *
  have units : FrameKept { b with now := 0 } (unitsFrame b) := ⟨rfl, rfl, rfl, rfl, rfl, rfl, .refl _⟩
  have ended := units.trans (frameKept_endFaulted _)
  obtain ⟨stepFrame, stepNow, stepPlat, stepForce, stepSpent, stepCount, stepPending⟩ := applyStep_spec (endFaulted (unitsFrame b))
  have rest := (frameKept_rated (atRisk s) (applyStep (endFaulted (unitsFrame b)))).trans (frameKept_lastUnits crc err s _)
  refine ⟨rest.now.trans (stepNow.trans ended.now), ?_, rest.plat.trans (stepPlat.trans (ended.plat.trans plat)),
    rest.force.trans (stepForce.trans (ended.force.trans force)), rest.spent.trans (stepSpent.trans ended.spent),
    rest.count.trans (stepCount.trans ended.count), fun n h => rest.pending n (stepPending n (ended.pending n (started n h)))⟩
  rw [rest.frame, stepFrame, ended.frame, ended.plat, ← plat]

/-- Spending after the boundary: what the allowance in force leaves of it. -/
theorem spentOf_begun {s : State} (rise : keysRise s.spent = true) (tcs : Nat) {q : Nat} (hq : q < 16) (g : Nat) :
    spentOf (begun tcs s) g q = repaid (allowance s g q) (spentOf s g q) := spentOf_budgetRepay (s := counted tcs s) rise hq g

/-! ## The boundary, case by case -/

/-- The system count goes on by the time that has passed (R12). -/
def ticked (ns : Nat) (s : State) : State := { s with frame := { s.frame with sysNs := (s.frame.sysNs + ns) % 2 ^ 64 } }

/-- Whether a reference is valid and the root PLL has locked (R481). -/
def Locked (s : State) : Prop := refBit s 4 = true ∧ refBit s 3 = false

/-- Frames that go on, or resume, are not suspended; where they resume, source 490 is pending. -/
theorem resumeFrames_spec {s : State} (h : s.plat.suspended = false ∨ Locked s) :
    (resumeFrames s).plat = { s.plat with suspended := false } ∧ (s.plat.suspended = true → irqPending (resumeFrames s) 490 = true) ∧
      resumeFrames s = { s with plat := (resumeFrames s).plat, host := (resumeFrames s).host, out := (resumeFrames s).out } := by
  unfold resumeFrames
  by_cases off : s.plat.suspended = false
  · rw [if_neg (by simp [off])]
    exact ⟨congrArg (fun b => { s.plat with suspended := b }) off, fun k => absurd k (by simp [off]), rfl⟩
  · have on : s.plat.suspended = true := by simpa using off
    obtain ⟨lock, held⟩ := h.resolve_left off
    rw [on, lock, held]
    refine ⟨?_, fun _ => irqPending_raise_self _ _, ?_⟩
    · simp
    · simp only [Bool.not_false, Bool.and_self, if_true]
      rw [raise_eq]

/-- Suspended frames wait for a reference. -/
theorem resumeFrames_waits {s : State} (h : ¬ Locked s) : resumeFrames s = s := by
  unfold resumeFrames
  refine if_neg fun k => h ?_
  simp only [Bool.and_eq_true, Bool.not_eq_true'] at k
  exact ⟨k.1.2, k.2⟩

/-- The program runs past the boundary: the boundary is skipped, counted and signalled, and safe state is entered for the cause FRAME where
an admitted launch is real-time. -/
theorem overrun_spec (tcs : Nat) (s : State) :
    let t := overrun tcs s
    irqPending t 138 = true ∧ t.frame = { s.frame with gone := s.frame.gone + tcs } ∧
      odGet t 0x2100 4 = satAdd (2 ^ 32 - 1) (odGet s 0x2100 4) 1 ∧ odGet t 0x2100 3 = odGet s 0x2100 3 ∧
      t = { s with frame := t.frame, od := t.od, win := t.win, host := t.host, safety := t.safety, out := t.out } ∧
      ((admittedLaunches s).any (·.realtime) = true → t.safety.outs = false ∧ bitOf t.safety.causes 2 = true) ∧
      ((admittedLaunches s).any (·.realtime) = false → t.safety = s.safety) := by
  let u : State := odBump { s with frame := { s.frame with gone := s.frame.gone + tcs } } 0x2100 4 32 1
  have skipped : odGet u 0x2100 4 = satAdd (2 ^ 32 - 1) (odGet s 0x2100 4) 1 := odGet_odSet_self _ _ _ _
  have count : odGet u 0x2100 3 = odGet s 0x2100 3 := (odGet_odSet _ _ _ _ _ _).trans (if_neg (by decide))
  have run : overrun tcs s = if (admittedLaunches s).any (·.realtime) then enterSafe 2 (dangerous (raise 138 u)) else raise 138 u := rfl
  rw [run]
  by_cases h : (admittedLaunches s).any (·.realtime) = true
  · rw [if_pos h]
    obtain ⟨safety, only, -, -⟩ := enterSafe_spec 2 (dangerous (raise 138 u))
    have kept : FrameKept (raise 138 u) (enterSafe 2 (dangerous (raise 138 u))) := (frameKept_dangerous _).trans (frameKept_enterSafe _ _)
    have entry {j : Nat} (hj : odKey 0x4000 6 ≠ odKey 0x2100 j) :
        odGet (enterSafe 2 (dangerous (raise 138 u))) 0x2100 j = odGet u 0x2100 j := by
      rw [only]
      exact ((odGet_odSet _ _ _ _ _ _).trans (if_neg hj)).trans (odGet_raise _ _ _ _)
    refine ⟨kept.pending 138 (irqPending_raise_self _ _), kept.frame.trans (raise_frame _ _), (entry (by decide)).trans skipped,
      (entry (by decide)).trans count, ?_, fun _ => ?_, fun k => absurd k (by simp [h])⟩
    · rw [only]
      unfold dangerous
      rw [raise_eq]
      rfl
    · rw [safety]
      refine ⟨rfl, ?_⟩
      rw [bitOf, Nat.testBit_or, Bool.or_eq_true]
      exact .inr (by decide)
  · rw [if_neg h]
    refine ⟨irqPending_raise_self _ _, raise_frame _ _, (odGet_raise _ _ _ _).trans skipped, (odGet_raise _ _ _ _).trans count, ?_,
      fun k => absurd k h, fun _ => raise_safety _ _⟩
    rw [raise_eq]
    rfl

/-- With CK_TILE running, the boundary is one of suspended frames, is overrun, or begins a frame (R13, R20, R481). -/
theorem exec_frameBoundary {s : State} {env : BoundaryEnv} (clock : muxStopped s 0 = false) {u : State}
    (h : resumeFrames (ticked env.ns s) = u) :
    exec (.frameBoundary env) s =
      if u.plat.suspended then .next (suspendedBoundary env.tcs u)
      else if u.frame.gone + env.tcs < stretchedTc u (planTc (liveLaunches u)) then .next (overrun env.tcs u)
      else .next (beginFrame env.crc env.err env.tcs (resumeFrames (ticked env.ns (drainAgenda (2 ^ 40) s)))) := by
  subst h
  exact if_neg (by simp [clock])

/-- A frame begins where the program is over: what was under way is done first. -/
theorem frameBoundary_begins {s : State} {env : BoundaryEnv} (clock : muxStopped s 0 = false) (on : s.plat.suspended = false ∨ Locked s)
    (past : ¬ s.frame.gone + env.tcs < stretchedTc s (planTc (liveLaunches s))) :
    exec (.frameBoundary env) s =
      .next (beginFrame env.crc env.err env.tcs (resumeFrames (ticked env.ns (drainAgenda (2 ^ 40) s)))) := by
  obtain ⟨plat, -, only⟩ := resumeFrames_spec (s := ticked env.ns s) on
  refine (exec_frameBoundary clock rfl).trans ((if_neg (by simp [plat])).trans (if_neg ?_))
  rw [only]
  exact past

/-- The state in which a boundary finds the module that it begins a frame of. -/
theorem beginFrame_of_drained (env : BoundaryEnv) {d : State} (on : d.plat.suspended = false ∨ Locked d) :
    let t := beginFrame env.crc env.err env.tcs (resumeFrames (ticked env.ns d))
    t.now = 0 ∧ t.frame.boundaries = d.frame.boundaries + 1 ∧ t.frame.gone = 0 ∧ t.frame.base = d.frame.base + d.frame.gone + env.tcs ∧
      t.frame.sysNs = (d.frame.sysNs + env.ns) % 2 ^ 64 ∧ t.plat = { d.plat with suspended := false } ∧
      (d.plat.suspended = true → irqPending t 490 = true) ∧ t.frame.tileStep = d.plat.nextStep ∧
      odGet t 0x2100 3 = satAdd (2 ^ 64 - 1) (odGet d 0x2100 3) 1 ∧ (∀ i j, odKey i j ≠ odKey 0x2100 3 → odForce t i j = odGet d i j) ∧
      (keysRise d.spent = true → ∀ g q, q < 16 → spentOf t g q = repaid (allowance d g q) (spentOf d g q)) := by
  obtain ⟨plat, raised, only⟩ := resumeFrames_spec (s := ticked env.ns d) on
  obtain ⟨now, frame, kept, force, spent, count, pending⟩ :=
    beginFrame_spec env.crc env.err env.tcs (resumeFrames (ticked env.ns d))
  generalize resumeFrames (ticked env.ns d) = b at *
  generalize beginFrame env.crc env.err env.tcs b = t at *
  have counts : t.frame = { d.frame with
      boundaries := d.frame.boundaries + 1, gone := 0, base := d.frame.base + d.frame.gone + env.tcs
      sysNs := (d.frame.sysNs + env.ns) % 2 ^ 64, tileStep := d.plat.nextStep } := by
    rw [frame, plat, only]
    rfl
  have od : (begun env.tcs b).od = kput d.od (odKey 0x2100 3) (satAdd (2 ^ 64 - 1) (odGet d 0x2100 3) 1) := by
    rw [only]
    rfl
  refine ⟨now, ?_, ?_, ?_, ?_, kept.trans plat, fun k => pending 490 (raised k), ?_, ?_, ?_, ?_⟩
  · rw [counts]
  · rw [counts]
  · rw [counts]
  · rw [counts]
  · rw [counts]
  · rw [odGet, count, od, kget_kput_self]
  · intro i j h
    rw [odForce, force, od, kget_kput_other _ _ (Ne.symm h), odGet]
  · intro rise g q hq
    have same : b.spent = d.spent := by rw [only]; rfl
    have at_ : spentOf b g q = spentOf d g q := by rw [spentOf, same, spentOf]
    have allowed : allowance b g q = allowance d g q := by rw [only]; rfl
    rw [spentOf, spent, ← allowed, ← at_]
    exact spentOf_begun (by rwa [same]) env.tcs hq g

/-- Settles O30, by what the boundary finds: no clock, frames that are suspended, a program that runs past it, or a program that is over. -/
theorem frameBoundaryBeginsAFrame : Obligations.FrameBoundaryBeginsAFrame := by
  intro s env f past locked
  refine ⟨fun stopped => if_pos stopped, fun clock suspended unlocked => ?suspends, fun clock awake late => ?overruns, ?begins⟩
  case suspends =>
    exact ⟨_, (exec_frameBoundary clock (resumeFrames_waits (s := ticked env.ns s) unlocked)).trans (if_pos suspended),
      odGet_odSet_self _ _ _ _, odKept_odSet s 0x2800 8 _, rfl⟩
  case overruns =>
    have on : ¬ (ticked env.ns s).plat.suspended = true := by simp [ticked, awake]
    have goes : resumeFrames (ticked env.ns s) = ticked env.ns s := if_neg (by simp [ticked, awake])
    exact ⟨_, (exec_frameBoundary clock goes).trans ((if_neg on).trans (if_pos late)), overrun_spec env.tcs (ticked env.ns s)⟩
  case begins =>
    intro d clock on reached
    have run := frameBoundary_begins clock on reached
    change exec (.frameBoundary env) s = .next (beginFrame env.crc env.err env.tcs (resumeFrames (ticked env.ns d))) at run
    clear_value d
    intro on'
    obtain ⟨now, boundaries, gone, base, sysNs, plat, raised, step, count, force, spent⟩ := beginFrame_of_drained env on'
    refine ⟨_, run, now, boundaries, gone, base, sysNs, plat, raised, step, count, force,
      fun rise g q hq => (spent rise g q hq).trans ?_⟩
    cases allowance d g q <;> rfl

end Sys2Proof.Machine
end

section
/-! PROOFS. An op that completes: it leaves the table, its status is posted, and what was posted, pending or noted before stays. -/

namespace Sys2Proof.Machine

/-! ## What has been posted stays posted -/

/-- Host writes that were sent or held, and interrupts that were pending, still are. -/
def PostsKept (s t : State) : Prop :=
  t.host.busMaster = s.host.busMaster ∧ s.out ⊆ t.out ∧ s.host.held ⊆ t.host.held ∧ PendingKept s t

theorem PostsKept.refl (s : State) : PostsKept s s := ⟨rfl, List.Subset.refl _, List.Subset.refl _, .refl s⟩

theorem PostsKept.trans {s t u : State} (h1 : PostsKept s t) (h2 : PostsKept t u) : PostsKept s u := by
  obtain ⟨b1, o1, d1, p1⟩ := h1
  obtain ⟨b2, o2, d2, p2⟩ := h2
  exact ⟨b2.trans b1, List.Subset.trans o1 o2, List.Subset.trans d1 d2, p1.trans p2⟩

theorem PostsKept.ite {s a b : State} (c : Prop) [Decidable c] (h1 : PostsKept s a) (h2 : PostsKept s b) : PostsKept s (if c then a else b) := by
  split <;> assumption

theorem PostsKept.of_eq {s t : State} (h : t.host = s.host) (o : t.out = s.out) : PostsKept s t := by
  refine ⟨by rw [h], by rw [o]; exact List.Subset.refl _, by rw [h]; exact List.Subset.refl _, .of_host_eq (by rw [h])⟩

theorem Posted.mono {a : Nat} {d : List Byte} {s t : State} (h : Posted a d s) (k : PostsKept s t) : Posted a d t := by
  obtain ⟨b, o, l, -⟩ := k
  unfold Posted at *
  rw [b]
  split
  · rename_i m
    rw [if_pos m] at h
    exact o h
  · rename_i m
    rw [if_neg m] at h
    exact l h

theorem postsKept_raise (n : Nat) (s : State) : PostsKept s (raise n s) := by
  obtain ⟨h, -⟩ := arrived_raise n s
  refine ⟨by rw [h], subset_out_raise (List.Subset.refl _) n, ?_, pendingKept_raise n s⟩
  rw [h]
  exact List.Subset.refl _

theorem postsKept_hostWrite (a : Nat) (d : List Byte) (s : State) : PostsKept s (hostWrite a d s) := by
  unfold hostWrite
  split
  · exact ⟨rfl, List.subset_cons_self _ _, List.Subset.refl _, .of_host_eq rfl⟩
  · exact ⟨rfl, List.Subset.refl _, List.subset_append_left _ _, .of_host_eq rfl⟩

/-! ## One op (R315) -/

/-- The write-backs of a completion, after its op has left the table (R315). -/
def notified (k : Nat) (o : Op) (st : Nat) (bufs : List Buf) (s : State) : State :=
  if o.orphan then barBump s 0x1028 0 32 1
  else match bufs.find? fun b => b.seq == keySeq k with
    | none => s
    | some b =>
      let t := hostWrite (b.addr + 64 * keyIdx k + 14) (leBytes 2 st) s
      let t1 := if bitOf (dFlags o.bytes) 0 then raise 0 t else t
      if goodStatus st then t1 else raise 5 t1

/-- The front end once an op has left it with its status. -/
def leftFront (k st : Nat) (e : FrontEnd) : FrontEnd :=
  { e with
    ops := kdel e.ops k
    reads := e.reads.filter fun p => readOp p.2.what != some k
    bufs := e.bufs.map fun b => if b.seq = keySeq k then { b with status := kput b.status (keyIdx k) st } else b }

theorem completeOne_eq (k : Nat) (o : Op) (st : Nat) (s : State) :
    completeOne k o st s =
      let t := notified k o st s.fe.bufs { s with fe := leftFront k st s.fe }
      if dNext o.bytes ≠ 0xFFFF then
        feWith (fun e => { e with triggers := e.triggers ++ [(opKey (keySeq k) (dNext o.bytes), goodStatus st)] }) t
      else t := by
  unfold completeOne notified
  rfl

theorem notified_fe (k : Nat) (o : Op) (st : Nat) (bufs : List Buf) (s : State) : (notified k o st bufs s).fe = s.fe := by
  have sent (a : Nat) (d : List Byte) : (hostWrite a d s).fe = s.fe := by rw [hostOnly_hostWrite a d s]
  unfold notified
  split
  · rfl
  · split
    · rfl
    · dsimp only
      repeat' split
      all_goals simp only [raise_fe, sent]

theorem notified_posted {k : Nat} {o : Op} {st : Nat} {bufs : List Buf} {b : Buf} (h : bufs.find? (fun x => x.seq == keySeq k) = some b)
    (ho : o.orphan = false) (s : State) : Posted (b.addr + 64 * keyIdx k + 14) (leBytes 2 st) (notified k o st bufs s) := by
  have sent := posted_hostWrite (b.addr + 64 * keyIdx k + 14) (leBytes 2 st) s
  have asked : Posted (b.addr + 64 * keyIdx k + 14) (leBytes 2 st)
      (if bitOf (dFlags o.bytes) 0 then raise 0 (hostWrite (b.addr + 64 * keyIdx k + 14) (leBytes 2 st) s)
        else hostWrite (b.addr + 64 * keyIdx k + 14) (leBytes 2 st) s) := by
    split
    · exact sent.mono (postsKept_raise _ _)
    · exact sent
  unfold notified
  rw [ho, h]
  dsimp only
  rw [if_neg (by decide)]
  split
  · exact asked
  · exact asked.mono (postsKept_raise _ _)

theorem postsKept_notified (k : Nat) (o : Op) (st : Nat) (bufs : List Buf) (s : State) : PostsKept s (notified k o st bufs s) := by
  unfold notified
  refine .ite _ (.of_eq rfl rfl) ?_
  split
  · exact .refl s
  · dsimp only
    have sent := postsKept_hostWrite
    have asked (b : Buf) := PostsKept.ite (bitOf (dFlags o.bytes) 0 = true)
      ((sent (b.addr + 64 * keyIdx k + 14) (leBytes 2 st) s).trans (postsKept_raise 0 _)) (sent (b.addr + 64 * keyIdx k + 14) (leBytes 2 st) s)
    exact .ite _ (asked _) ((asked _).trans (postsKept_raise 5 _))

theorem postsKept_completeOne (k : Nat) (o : Op) (st : Nat) (s : State) : PostsKept s (completeOne k o st s) := by
  rw [completeOne_eq]
  have told := (PostsKept.of_eq rfl rfl).trans (postsKept_notified k o st s.fe.bufs { s with fe := leftFront k st s.fe })
  exact .ite _ (told.trans (.of_eq rfl rfl)) told

/-- ORPHAN_COUNT is the only register of BAR0 that a completion changes. -/
theorem barKept_completeOne (k : Nat) (o : Op) (st : Nat) (s : State) : BarKept [0x1028] s (completeOne k o st s) := by
  have sent (a : Nat) (d : List Byte) (t : State) : (hostWrite a d t).bar0 = t.bar0 := by rw [hostOnly_hostWrite a d t]
  have told : BarKept [0x1028] s (notified k o st s.fe.bufs { s with fe := leftFront k st s.fe }) := by
    unfold notified
    split
    · exact (BarKept.refl _ s).barSet List.mem_cons_self _
    · split
      · exact .refl _ s
      · intro a _
        dsimp only
        repeat' split
        all_goals simp only [barGet, raise_bar0, sent]
  rw [completeOne_eq]
  dsimp only
  split <;> exact told

/-! ## The table of ops -/

/-- No entry of a table has a key. -/
def NoKey {α : Type} (m : KMap α) (k : Nat) : Prop := ∀ p ∈ m, p.1 ≠ k

theorem NoKey.kget_eq {α : Type} {m : KMap α} {k : Nat} (h : NoKey m k) : kget m k = none := by
  induction m with
  | nil => rfl
  | cons p l ih =>
    obtain ⟨a, x⟩ := p
    unfold kget
    rw [if_neg (h (a, x) List.mem_cons_self)]
    split
    · rfl
    · exact ih fun q hq => h q (List.mem_cons_of_mem _ hq)

theorem noKey_kdel {α : Type} (m : KMap α) (k : Nat) : NoKey (kdel m k) k := fun p hp => by
  simpa using (List.mem_filter.1 hp).2

theorem completeOne_ops (k : Nat) (o : Op) (st : Nat) (s : State) : (completeOne k o st s).fe.ops = kdel s.fe.ops k := by
  rw [completeOne_eq]
  dsimp only
  split <;> simp only [feWith, notified_fe, leftFront]

/-- An op that is no longer in the table does not come back. -/
theorem completeAll_keeps (n : Nat) (l : List (Nat × Nat)) (s : State) :
    PostsKept s (completeAll n l s) ∧ BarKept [0x1028] s (completeAll n l s) ∧ (completeAll n l s).fe.ops ⊆ s.fe.ops := by
  induction n generalizing l s with
  | zero => exact ⟨.refl s, .refl _ s, List.Subset.refl _⟩
  | succ n ih =>
    cases l with
    | nil => exact ⟨.refl s, .refl _ s, List.Subset.refl _⟩
    | cons p l =>
      obtain ⟨k, st⟩ := p
      unfold completeAll
      split
      · exact ih _ _
      · rename_i o _
        obtain ⟨hp, hb, ho⟩ := ih (l ++ ((if goodStatus st then [] else (dependants s k).filter fun d =>
          d != k && !l.any fun p => p.1 == d).map fun d => (d, stSkipped))) (completeOne k o st s)
        refine ⟨(postsKept_completeOne k o st s).trans hp, fun a ha => (hb a ha).trans (barKept_completeOne k o st s a ha), List.Subset.trans ho ?_⟩
        rw [completeOne_ops]
        exact List.filter_subset_self _

theorem completeAll_cons {k : Nat} {o : Op} {s : State} (h : kget s.fe.ops k = some o) (n st : Nat) (l : List (Nat × Nat)) :
    ∃ m, completeAll (n + 1) ((k, st) :: l) s = completeAll n m (completeOne k o st s) := by
  rw [completeAll, h]
  exact ⟨_, rfl⟩

/-- An op completes: it leaves the table with its status, and what was posted, pending, or in other registers stays (R315). -/
theorem completeOp_spec {k : Nat} {o : Op} {s : State} (h : kget s.fe.ops k = some o) (st : Nat) :
    OpDone k st o s (completeOp k st s) ∧ PostsKept s (completeOp k st s) ∧ BarKept [0x1028] s (completeOp k st s) := by
  obtain ⟨n, hn⟩ : ∃ n, 2 * s.fe.ops.length + [(k, st)].length + 1 = n + 1 := ⟨_, rfl⟩
  have run : ∃ l, completeOp k st s = dropOrphans (completeAll n l (completeOne k o st s)) := by
    unfold completeOp completeOps
    rw [hn]
    obtain ⟨l, e⟩ := completeAll_cons h n st []
    exact ⟨l, congrArg dropOrphans e⟩
  obtain ⟨l, run⟩ := run
  obtain ⟨posts, bar, ops⟩ := completeAll_keeps n l (completeOne k o st s)
  rw [completeOne_ops] at ops
  have dropped (t : State) : PostsKept t (dropOrphans t) := .of_eq rfl rfl
  rw [run]
  refine ⟨⟨?_, fun b hb ho => ?_⟩, ((postsKept_completeOne k o st s).trans posts).trans (dropped _), fun a ha => ?_⟩
  · exact NoKey.kget_eq fun p hp => noKey_kdel s.fe.ops k p (ops hp)
  · refine Posted.mono ?_ (posts.trans (dropped _))
    have told := notified_posted (st := st) hb ho { s with fe := leftFront k st s.fe }
    rw [completeOne_eq]
    dsimp only
    split <;> exact told
  · exact (bar a ha).trans (barKept_completeOne k o st s a ha)

/-- An op is done since any state that has the same front end. -/
theorem OpDone.of_fe_eq {k st : Nat} {o : Op} {s u t : State} (h : OpDone k st o u t) (e : u.fe = s.fe) : OpDone k st o s t := by
  unfold OpDone at *
  rwa [e] at h

end Sys2Proof.Machine
end

section
/-! PROOFS. The table of one launch, and what the life of a launch changes beside it: watches, slots, banks, its op. -/

namespace Sys2Proof.Machine

/-! ## A table of one launch -/

section Single

variable {k : Nat} {l : Launch} {s : State}

theorem eachLaunch_single (h : s.launches = [(k, l)]) (f : Nat → Launch → State → State) : eachLaunch f s = f k l s := by
  unfold eachLaunch
  rw [h]
  simp [h, kget]

theorem kget_single (h : s.launches = [(k, l)]) : kget s.launches k = some l := by simp [h, kget]

theorem setLaunch_single (h : s.launches = [(k, l)]) (m : Launch) : setLaunch k m s = { s with launches := [(k, m)] } := by
  simp [setLaunch, h, kput]

theorem adjLaunch_single (h : s.launches = [(k, l)]) (f : Launch → Launch) : adjLaunch k f s = { s with launches := [(k, f l)] } := by
  simp [adjLaunch, h, kadj]

theorem kdel_single (h : s.launches = [(k, l)]) : kdel s.launches k = [] := by simp [h, kdel]

end Single

/-! ## A launch leaves the table (R315, R330) -/

/-- A launch ends: its op is done, and beside the front end and the host link only launches, problems and re-execution checkpoints change. -/
theorem endOp_spec {k : Nat} {l : Launch} {o : Op} {s : State} (h : s.launches = [(k, l)]) (ho : kget s.fe.ops k = some o) (st : Nat) :
    (endOp k st s).launches = [] ∧ OpDone k st o s (endOp k st s) ∧ PostsKept s (endOp k st s) ∧ BarKept [0x1028] s (endOp k st s) ∧
      endOp k st s = { s with
        launches := (endOp k st s).launches, probs := (endOp k st s).probs, rx := (endOp k st s).rx, fe := (endOp k st s).fe
        bar0 := (endOp k st s).bar0, host := (endOp k st s).host, out := (endOp k st s).out } := by
  unfold endOp
  generalize hu : ({ s with
    launches := kdel s.launches k
    probs := kclear s.probs (probKey k 0) (probKey k 65536)
    rx := kclear s.rx (probKey k 0) (probKey k 65536) } : State) = u
  have frame : u = { s with launches := u.launches, probs := u.probs, rx := u.rx } := by subst hu; rfl
  have gone : u.launches = [] := by subst hu; exact kdel_single h
  have fe : u.fe = s.fe := by rw [frame]
  obtain ⟨done, posts, bar⟩ := completeOp_spec (fe ▸ ho) st
  have only := frontOnly_completeOp k st u
  unfold FrontOnly at only
  refine ⟨by rw [only]; exact gone, done.of_fe_eq fe, (PostsKept.of_eq (by rw [frame]) (by rw [frame])).trans posts,
    fun a ha => (bar a ha).trans (by rw [frame]; rfl), ?_⟩
  generalize completeOp k st u = t at only
  rw [only, frame]

/-! ## Drift watches (R143) -/

/-- Only entries and the baselines of drift watches. -/
def DriftOnly (s t : State) : Prop := t = { s with od := t.od, drift := t.drift }

theorem DriftOnly.refl (s : State) : DriftOnly s s := rfl

theorem DriftOnly.trans {s t u : State} (h1 : DriftOnly s t) (h2 : DriftOnly t u) : DriftOnly s u := by
  unfold DriftOnly at *
  rw [h2, h1]

theorem driftOnly_watchRefresh (w : Nat) (s : State) : DriftOnly s (watchRefresh w s) := by
  unfold watchRefresh
  extract_lets gone s1
  have restarted : DriftOnly s s1 := by
    simp only [s1]
    split <;> rfl
  clear_value s1
  split
  · exact restarted
  · split
    · exact restarted
    · exact restarted.trans rfl

theorem driftOnly_driftRefresh (s : State) : DriftOnly s (driftRefresh s) :=
  foldl_keeps DriftOnly.refl DriftOnly.trans (fun _ _ => driftOnly_watchRefresh _ _) _ _

/-! ## Digests read memory (R299, R300) -/

theorem noted_ownReads (a n : Nat) (s : State) : Noted s (ownReads a n s) := noted_foldl _ (fun _ _ => noted_tierReadChecks _ _ _ _) _ _
theorem noted_readBack (rs : List LRegion) (s : State) : Noted s (readBack rs s) := noted_foldl _ (fun _ _ => noted_ownReads _ _ _) _ _

/-! ## What an image reads, it reads of memory (R262, R520) -/

section Image

variable {s t : State}

theorem imgRead_of_mem_eq (h : t.mem = s.mem) : imgRead t = imgRead s := by
  funext rs
  induction rs with
  | nil => rfl
  | cons r rs ih =>
    funext off n
    unfold imgRead load
    rw [ih, h]

theorem imgNat_of_mem_eq (h : t.mem = s.mem) : imgNat t = imgNat s := by
  unfold imgNat
  rw [imgRead_of_mem_eq h]

theorem directory_of_mem_eq (h : t.mem = s.mem) : directory t = directory s := by
  unfold directory sectionAt
  rw [imgRead_of_mem_eq h]

theorem probImg_of_mem_eq (h : t.mem = s.mem) : probImg t = probImg s := by
  unfold probImg probSection imageDir readProb
  rw [directory_of_mem_eq h, imgNat_of_mem_eq h, imgRead_of_mem_eq h]

end Image

theorem length_leBytes (n x : Nat) : (leBytes n x).length = n := by
  induction n generalizing x with
  | zero => rfl
  | succ n ih => simp [leBytes, ih]

/-! ## Slots of a launch (R24, R332) -/

/-- Only tiles. -/
def TilesOnly (s t : State) : Prop := t = { s with tiles := t.tiles }

theorem TilesOnly.refl (s : State) : TilesOnly s s := rfl

theorem TilesOnly.trans {s t u : State} (h1 : TilesOnly s t) (h2 : TilesOnly t u) : TilesOnly s u := by
  unfold TilesOnly at *
  rw [h2, h1]

theorem tilesOnly_adjTile (pos : Nat) (f : Tile → Tile) (s : State) : TilesOnly s (adjTile pos f s) := rfl
theorem tileOf_adjTile (pos q : Nat) (f : Tile → Tile) (s : State) :
    tileOf (adjTile pos f s) q = if pos = q then f (tileOf s pos) else tileOf s q := by
  split
  · rename_i h
    rw [← h, tileOf_adjTile_self]
  · rename_i h
    exact tileOf_setTile_other _ _ h

/-- Every launch slot of a tile has a property. -/
def AllSlots (Q : SlotSt → Prop) (s : State) (pos : Nat) : Prop := ∀ p ∈ (tileOf s pos).slots, Q p.2

/-- A property that a step per tile gives the slots of its tile, and takes from no other, is had after all steps by every tile. -/
theorem allSlots_foldl {α : Type} {Q : SlotSt → Prop} {f : State → α → State} (pos : α → Nat) (gives : ∀ s x, AllSlots Q (f s x) (pos x))
    (keeps : ∀ s x q, AllSlots Q s q → AllSlots Q (f s x) q) (l : List α) (s : State) : ∀ x ∈ l, AllSlots Q (l.foldl f s) (pos x) := by
  have kept (l : List α) (s : State) (q : Nat) (h : AllSlots Q s q) : AllSlots Q (l.foldl f s) q := by
    induction l generalizing s with
    | nil => exact h
    | cons y l ih => exact ih _ (keeps s y q h)
  induction l generalizing s with
  | nil => exact fun _ h => absurd h List.not_mem_nil
  | cons y l ih =>
    intro x hx
    rcases List.mem_cons.1 hx with rfl | hx
    · exact kept l _ _ (gives s x)
    · exact ih _ x hx

end Sys2Proof.Machine
end

section
/-! PROOFS. Launches are admitted, take their seed, load and start (O46). -/

namespace Sys2Proof.Machine

/-! ## LAUNCH (R324, R343) -/

/-- A LAUNCH op whose constant buffer has come, long enough, enters admission. -/
theorem launch_enters {s : State} {k : Nat} {o : Op} {p : List Byte} (ho : kget s.fe.ops k = some o) (kind : dKind o.bytes = 3)
    (fresh : kget s.launches k = none) (started : o.phase = .started) (const : o.const = some p)
    (aux : LaunchAux) (peers : List (List Byte)) : exec (.launch k aux peers) s = .next (admitLaunch k o p aux peers s) := by
  change execLaunch k aux peers s = _
  unfold execLaunch
  simp only [ho, kind, fresh, started, const, ne_eq, not_true_eq_false, Option.isSome_none, Bool.false_eq_true, or_self, if_true, if_false]

/-- A refused launch: its op is done with the refusal, source 64 is pending, and the reason stands in the glove's entry (R343). -/
theorem refuseLaunch_spec {s : State} {k : Nat} {o : Op} (ho : kget s.fe.ops k = some o) (g r : Nat) :
    let t := refuseLaunch k g r s
    OpDone k stAdmissionRefused o s t ∧ irqPending t 64 = true ∧ odGet t 0x3003 g = r ∧ t.launches = s.launches ∧ t.mem = s.mem ∧
      t.tiles = s.tiles := by
  dsimp only
  unfold refuseLaunch
  have fe : (raise 64 (odSet s 0x3003 g r)).fe = s.fe := raise_fe _ _
  have frame := raise_eq 64 (odSet s 0x3003 g r)
  have pends := irqPending_raise_self 64 (odSet s 0x3003 g r)
  generalize raise 64 (odSet s 0x3003 g r) = u at *
  obtain ⟨done, ⟨-, -, -, posts⟩, -⟩ := completeOp_spec (fe ▸ ho) stAdmissionRefused
  have only := frontOnly_completeOp k stAdmissionRefused u
  unfold FrontOnly at only
  generalize completeOp k stAdmissionRefused u = t at *
  refine ⟨done.of_fe_eq fe, posts _ pends, ?_, by rw [only, frame]; rfl, by rw [only, frame]; rfl, by rw [only, frame]; rfl⟩
  rw [odGet_of_od_eq (s := odSet s 0x3003 g r) (by rw [only, frame]), odGet_odSet_self]

/-! ## SEED_DRAW (R195, R423) -/

/-- A drawn seed is taken: two words of the glove's buffer, low word first, on its allowance. -/
theorem seed_drawn {s : State} {k a b : Nat} {l : Launch} {d : Drbg} {rest : List Nat} (hs : s.launches = [(k, l)]) (phase : l.phase = .seed)
    (fresh : l.tried ≠ some s.frame.boundaries) (covered : seedCovered s l.glove = true) (words : seedWords s l.glove = some (a, b, d, rest)) :
    exec .seedDraw s = .next (budgetAdd l.glove 7 2 { s with
      launches := [(k, { l with seed := a + 2 ^ 32 * b, phase := .loading, since := s.frame.boundaries })]
      sec := { s.sec with inst := kput s.sec.inst (pageInst s l.glove) { d with buf := rest } } }) := by
  change Host.Outcome.next (eachLaunch drawSeed s) = _
  rw [eachLaunch_single hs]
  unfold drawSeed
  rw [if_neg (by simp [phase, fresh]), if_neg (by simp [covered]), words]
  dsimp only
  rw [setLaunch_single (by exact hs)]
  rfl

/-! ## LOADING_DONE (R262, R329) -/

/-- The loader leaves the front end, the frame, and of its launch all but the places in stores. -/
structure LoadKept (k : Nat) (s t : State) : Prop where
  fe : t.fe = s.fe
  frame : t.frame = s.frame
  launch : ∀ l, s.launches = [(k, l)] → ∃ ps, t.launches = [(k, { l with placed := ps })]

theorem LoadKept.of_eq {k : Nat} {s t : State} (fe : t.fe = s.fe) (frame : t.frame = s.frame) (launches : t.launches = s.launches) :
    LoadKept k s t := ⟨fe, frame, fun l h => ⟨l.placed, launches.trans h⟩⟩

theorem LoadKept.refl (k : Nat) (s : State) : LoadKept k s s := .of_eq rfl rfl rfl

theorem LoadKept.trans {k : Nat} {s t u : State} (h1 : LoadKept k s t) (h2 : LoadKept k t u) : LoadKept k s u := by
  refine ⟨h2.fe.trans h1.fe, h2.frame.trans h1.frame, fun l hl => ?_⟩
  obtain ⟨ps, hp⟩ := h1.launch l hl
  obtain ⟨qs, hq⟩ := h2.launch _ hp
  exact ⟨qs, hq⟩

theorem loadKept_foldl {α : Type} {k : Nat} {f : State → α → State} (step : ∀ s x, LoadKept k s (f s x)) (l : List α) (s : State) :
    LoadKept k s (l.foldl f s) := foldl_keeps (.refl k) .trans step l s

theorem loadKept_loadTile (k : Nat) (l : Launch) (pos : Nat) (s : State) : LoadKept k s (loadTile k l pos s) := by
  refine ⟨rfl, rfl, fun m hm => ?_⟩
  unfold loadTile
  dsimp only
  rw [adjLaunch_single (by exact hm)]
  exact ⟨_, rfl⟩

theorem loadKept_declareBank (k b code : Nat) (s : State) : LoadKept k s (declareBank b code s) := by
  unfold declareBank
  dsimp only
  repeat' split
  all_goals exact .of_eq rfl rfl rfl

theorem loadKept_loadBanks (k : Nat) (x : Nat × List WinDesc) (s : State) : LoadKept k s (loadBanks x s) := by
  have put (o : Option Nat) (b : Nat) (s : State) : LoadKept k s (match o with
      | some c => declareBank b c s
      | none => s) := by
    cases o with
    | some c => exact loadKept_declareBank _ _ _ _
    | none => exact .refl k s
  unfold loadBanks
  dsimp only
  split
  · exact (loadKept_foldl (fun _ _ => put _ _ _) _ _).trans (loadKept_foldl (fun _ _ => put _ _ _) _ _)
  · exact loadKept_foldl (fun _ _ => put _ _ _) _ _

theorem loadKept_loadRouter (k : Nat) (l : Launch) (pos : Nat) (s : State) : LoadKept k s (loadRouter k l pos s) := .of_eq rfl rfl rfl

theorem loadKept_loadAll (k : Nat) (l : Launch) (s : State) : LoadKept k s (loadAll k l s) := by
  unfold loadAll
  extract_lets s1 s2 s3 s4
  have tiles : LoadKept k s s1 := loadKept_foldl (fun _ _ => loadKept_loadTile _ _ _ _) _ _
  have banks : LoadKept k s1 s2 := loadKept_foldl (fun _ _ => loadKept_loadBanks _ _ _) _ _
  have routers : LoadKept k s2 s3 := loadKept_foldl (fun _ _ => loadKept_loadRouter _ _ _ _) _ _
  have ports : LoadKept k s3 s4 := by
    refine loadKept_foldl (fun _ _ => ?_) _ _
    exact .of_eq rfl rfl rfl
  refine ((tiles.trans banks).trans (routers.trans ports)).trans (loadKept_foldl (fun _ _ => ?_) _ _)
  exact .of_eq rfl rfl rfl

/-- The state in which a launch's loading ends: its op's progress counts what loading did. -/
def loadProgress (k : Nat) (l : Launch) (s : State) : State :=
  feWith (fun e => { e with ops := kadj e.ops k fun o => { o with progress := satAdd (2 ^ 64 - 1) o.progress (loadWords l) } }) s

/-- Whether the image is the one that was placed; a launch that moves is not asked again. -/
def SameImage (s : State) (l : Launch) : Prop :=
  l.reexecuted = true ∨ setDigest s (setRegions l.params 0) = imgRead s (placeRegion l.params) 0 48

theorem loaded_same {s : State} {k : Nat} {l : Launch} (hs : s.launches = [(k, l)]) (phase : l.phase = .loading)
    (formed : leavesFormed s l = true) (same : SameImage s l) :
    exec .loadingDone s = .next (adjLaunch k (fun l => { l with phase := .armed, since := s.frame.boundaries })
      (loadAll k l (loadProgress k l s))) := by
  change Host.Outcome.next (eachLaunch finishLoading s) = _
  rw [eachLaunch_single hs]
  unfold finishLoading
  rw [if_neg (by simp [phase, formed])]
  dsimp only
  rw [if_neg (by rintro ⟨a, b⟩; rcases same with c | c <;> simp_all)]
  rfl

theorem loaded_other {s : State} {k : Nat} {l : Launch} (hs : s.launches = [(k, l)]) (phase : l.phase = .loading)
    (formed : leavesFormed s l = true) (other : ¬ SameImage s l) :
    exec .loadingDone s = .next (killLaunch k stAdmissionRefused (raise 64 (odSet (loadAll k l (loadProgress k l s)) 0x3003 l.glove 3))) := by
  obtain ⟨moved, differs⟩ := not_or.1 other
  change Host.Outcome.next (eachLaunch finishLoading s) = _
  rw [eachLaunch_single hs]
  unfold finishLoading
  rw [if_neg (by simp [phase, formed])]
  dsimp only
  rw [if_pos ⟨by simpa using moved, differs⟩]
  rfl

/-- A launch that is killed, from a boundary on, with a status (R332). -/
def killedLaunch (at_ st : Nat) (l : Launch) : Launch :=
  { l with phase := .killing, killStatus := st, since := at_, toZero := if l.released then [] else declaredBanks l }

/-- A launch that is not being killed already is, from this boundary on (R332). -/
theorem killLaunch_single {s : State} {k : Nat} {l : Launch} (hs : s.launches = [(k, l)]) (phase : l.phase ≠ .killing) (st : Nat) :
    killLaunch k st s = { s with launches := [(k, killedLaunch s.frame.boundaries st l)] } := by
  unfold killLaunch
  rw [kget_single hs]
  dsimp only
  rw [if_neg (by simpa using phase), hs]
  simp [kput, killedLaunch]

/-- A launch that is refused at the end of its loading is killed, with source 64 and reason 3; what the loader wrote stays (R329). -/
theorem refusedLoading_spec {k : Nat} {l : Launch} (s : State) (hs : s.launches = [(k, l)]) (phase : l.phase = .loading) (g : Nat) :
    let t := killLaunch k stAdmissionRefused (raise 64 (odSet s 0x3003 g 3))
    t.launches = [(k, killedLaunch s.frame.boundaries stAdmissionRefused l)] ∧ t.fe = s.fe ∧ t.tiles = s.tiles ∧ t.routers = s.routers ∧
      t.ports = s.ports ∧ t.plx = s.plx ∧ t.mem = s.mem ∧ t.win = s.win ∧ irqPending t 64 = true ∧ odGet t 0x3003 g = 3 := by
  have marked := raise_eq 64 (odSet s 0x3003 g 3)
  have pends := irqPending_raise_self 64 (odSet s 0x3003 g 3)
  dsimp only
  generalize raise 64 (odSet s 0x3003 g 3) = u at *
  rw [killLaunch_single (l := l) (by rw [marked]; exact hs) (by simp [phase])]
  refine ⟨by rw [marked]; rfl, by rw [marked]; rfl, by rw [marked]; rfl, by rw [marked]; rfl, by rw [marked]; rfl, by rw [marked]; rfl,
    by rw [marked]; rfl, by rw [marked]; rfl, pends, ?_⟩
  rw [odGet_of_od_eq (s := odSet s 0x3003 g 3) (by rw [marked]), odGet_odSet_self]

/-! ## What a launch's start may change (R274, R282) -/

/-- Counters are set: only memory, counts, records and interrupts change, and of launches the count of discards (R47, R277). -/
structure CountersOnly (k : Nat) (s t : State) : Prop where
  frame : t = { s with
    od := t.od, win := t.win, vc3Held := t.vc3Held, vc3Wait := t.vc3Wait, host := t.host, out := t.out, mem := t.mem, ecc := t.ecc
    leaves := t.leaves, launches := t.launches }
  launch : ∀ l, s.launches = [(k, l)] → ∃ n, t.launches = [(k, { l with nd := n })]

theorem CountersOnly.of_launches_eq {k : Nat} {s t : State} (frame : t = { s with
    od := t.od, win := t.win, vc3Held := t.vc3Held, vc3Wait := t.vc3Wait, host := t.host, out := t.out, mem := t.mem, ecc := t.ecc
    leaves := t.leaves }) : CountersOnly k s t := by
  have table : t.launches = s.launches := by rw [frame]
  exact ⟨by rw [table]; exact frame, fun l h => ⟨l.nd, table.trans h⟩⟩

theorem CountersOnly.refl (k : Nat) (s : State) : CountersOnly k s s := .of_launches_eq rfl

theorem CountersOnly.trans {k : Nat} {s t u : State} (h1 : CountersOnly k s t) (h2 : CountersOnly k t u) : CountersOnly k s u := by
  refine ⟨?_, fun l hl => ?_⟩
  · rw [h2.frame, h1.frame]
  · obtain ⟨n, hn⟩ := h1.launch l hl
    obtain ⟨m, hm⟩ := h2.launch _ hn
    exact ⟨m, hm⟩

theorem Noted.countersOnly {s t : State} (h : Noted s t) (k : Nat) : CountersOnly k s t := by
  unfold Noted at h
  exact .of_launches_eq (by rw [h])

theorem countersOnly_ndCount (k key cause n : Nat) (s : State) : CountersOnly k s (ndCount key cause n s) := by
  unfold ndCount
  split
  · exact .refl k s
  · rename_i l hl
    refine ⟨rfl, fun m hm => ⟨satAdd (2 ^ 64 - 1) l.nd n, ?_⟩⟩
    have key_eq : key = k ∧ l = m := by
      rw [hm, kget] at hl
      by_cases e : k = key
      · rw [if_pos e, Option.some.injEq] at hl
        exact ⟨e.symm, hl.symm⟩
      · rw [if_neg e] at hl
        split at hl <;> cases hl
    obtain ⟨rfl, rfl⟩ := key_eq
    change kput s.launches _ _ = _
    rw [hm]
    simp [kput]

theorem noted_bankConflict (g b a : Nat) (s : State) : Noted s (bankConflict g b a s) :=
  ((noted_winBump _ _ _ _ _).trans (noted_raise _ _)).trans (noted_report _ _ _ _ _ _ _)

theorem countersOnly_clash (k g b a : Nat) (s : State) : CountersOnly k s (clash g b a s) := by
  refine ((noted_bankConflict g b a s).countersOnly k).trans ?_
  unfold clash ndDiscard
  split
  · exact countersOnly_ndCount _ _ _ _ _
  · exact .refl k _

/-- A write by port B is discarded, or stored (R47). -/
theorem portBAct_write (g b w off : Nat) (d : List Byte) (s : State) :
    (portBAct g b w (.write off d) s).2 = clash g b (wordAddr b w) s ∨ (portBAct g b w (.write off d) s).2 = store (wordAddr b w + off) d s := by
  unfold portBAct
  dsimp only
  split
  · exact .inl rfl
  · exact .inr rfl

theorem mem_clash (g b a : Nat) (s : State) : (clash g b a s).mem = s.mem := by
  have noted := noted_bankConflict g b a s
  unfold Noted at noted
  unfold clash ndDiscard ndCount
  repeat' split
  all_goals rw [noted]
  all_goals rfl

/-- A write of a whole word by port B: it is discarded, or it is stored, and then no byte outside the word changes. -/
theorem portB_write (k g b w : Nat) {d : List Byte} (hd : d.length = 64) (s : State) :
    let t := (bankAccess 1 g b w (.write 0 d) s).2
    CountersOnly k s t ∧ (s.memOk → t.memOk ∧ MemKept (wordAddr b w) 64 s t) := by
  have same {t : State} (h : t.mem = s.mem) (wf : s.memOk) : t.memOk ∧ MemKept (wordAddr b w) 64 s t :=
    ⟨by rwa [State.memOk, h], fun i _ => by rw [byteAt, byteAt, h]⟩
  obtain ⟨noted, passes, -⟩ := bankCheck_spec g 1 true b (wordAddr b w) s
  dsimp only
  unfold bankAccess
  rw [show BOp.stores (.write 0 d) = true from rfl]
  generalize bankCheck g 1 true b (wordAddr b w) s = x at *
  obtain ⟨st, s1⟩ := x
  dsimp only at noted passes ⊢
  split
  · unfold Noted at noted
    exact ⟨Noted.countersOnly noted k, same (by rw [noted])⟩
  · rename_i ok
    obtain ⟨-, -, here⟩ := passes (not_not.1 ok)
    rw [if_neg (by decide), here]
    rcases portBAct_write g b w 0 d s with e | e
    · rw [e]
      exact ⟨countersOnly_clash _ _ _ _ _, same (mem_clash _ _ _ _)⟩
    · rw [e, Nat.add_zero]
      refine ⟨.of_launches_eq rfl, fun wf => ?_⟩
      obtain ⟨kept, outside, -, -⟩ := store_spec (wordAddr b w) d s wf
      exact ⟨kept, hd ▸ outside⟩

/-! ## Problems start (R159, R211) -/

theorem MemKeptAll.trans {rs : List (Nat × Nat)} {s t u : State} (h1 : MemKeptAll rs s t) (h2 : MemKeptAll rs t u) : MemKeptAll rs s u :=
  fun i hi => (h2 i hi).trans (h1 i hi)

theorem MemKeptAll.mono {rs qs : List (Nat × Nat)} {s t : State} (h : MemKeptAll rs s t) (sub : rs ⊆ qs) : MemKeptAll qs s t :=
  fun i hi => h i fun r hr => hi r (sub hr)

/-- Setting counters writes the words where they stand, and no other byte. -/
theorem setCounters_spec (k g : Nat) (home : List (Nat × Nat)) (vals : List Nat) (s : State) :
    let t := setCounters g home vals s
    CountersOnly k s t ∧ (s.memOk → t.memOk ∧ MemKeptAll (home.map fun x => (wordAddr x.1 x.2, 64)) s t) := by
  refine foldl_keeps (R := fun s t => CountersOnly k s t ∧ (s.memOk → t.memOk ∧ MemKeptAll (home.map fun x => (wordAddr x.1 x.2, 64)) s t))
    (fun s => ⟨.refl k s, fun wf => ⟨wf, fun _ _ => rfl⟩⟩) (fun h1 h2 => ⟨h1.1.trans h2.1, fun wf => ?_⟩) (fun s n => ?_) _ s
  · obtain ⟨wf1, kept1⟩ := h1.2 wf
    obtain ⟨wf2, kept2⟩ := h2.2 wf1
    exact ⟨wf2, kept1.trans kept2⟩
  · split
    · rename_i x hx
      obtain ⟨only, mem⟩ := portB_write k g x.1 x.2 (length_leBytes 64 (ofLanes fun i => vals.getD (8 * n + i) 0)) s
      refine ⟨only, fun wf => ?_⟩
      obtain ⟨wf1, kept⟩ := mem wf
      exact ⟨wf1, fun i hi => kept i (hi _ (List.mem_map_of_mem (List.mem_of_getElem? hx)))⟩
    · exact ⟨.refl k s, fun wf => ⟨wf, fun _ _ => rfl⟩⟩

theorem mem_kput_self {α : Type} (m : KMap α) (k : Nat) (v : α) : (k, v) ∈ kput m k v := by
  induction m with
  | nil => exact List.mem_cons_self
  | cons p m ih =>
    unfold kput
    split
    · exact List.mem_cons_self
    · split
      · exact List.mem_cons_self
      · exact List.mem_cons_of_mem _ ih

/-- An entry with another key stays in a table. -/
theorem mem_kput_of_ne {α : Type} {m : KMap α} {k : Nat} {q : Nat × α} (h : q ∈ m) (ne : q.1 ≠ k) (v : α) : q ∈ kput m k v := by
  induction m with
  | nil => exact absurd h List.not_mem_nil
  | cons p m ih =>
    unfold kput
    split
    · rename_i e
      rcases List.mem_cons.1 h with rfl | h
      · exact absurd e ne
      · exact List.mem_cons_of_mem _ h
    · split
      · exact List.mem_cons_of_mem _ h
      · rcases List.mem_cons.1 h with rfl | h
        · exact List.mem_cons_self
        · exact List.mem_cons_of_mem _ (ih h)

/-- The words of all counters, as ranges. -/
def allCounters (m : KMap ProbSt) : List (Nat × Nat) := m.flatMap fun p => counterRanges p.2

/-- One problem of a launch starts, its counters at zero. -/
def startOne (k : Nat) (l : Launch) (s : State) (j : Nat) : State := match probCtx s k j with
  | none => s
  | some c => setCounters l.glove (startProb s c 0 0).counters [] (setProb k j (startProb s c 0 0) s)

theorem startProbs_eq (k : Nat) (l : Launch) (s : State) : startProbs k l s = (List.range (pNprob l.params)).foldl (startOne k l) s := rfl

/-- Only problems, and what counters change. -/
structure StartOnly (k : Nat) (s t : State) : Prop where
  frame : t = { s with
    od := t.od, win := t.win, vc3Held := t.vc3Held, vc3Wait := t.vc3Wait, host := t.host, out := t.out, mem := t.mem, ecc := t.ecc
    leaves := t.leaves, launches := t.launches, probs := t.probs, rx := t.rx }
  launch : ∀ l, s.launches = [(k, l)] → ∃ n, t.launches = [(k, { l with nd := n })]

theorem StartOnly.refl (k : Nat) (s : State) : StartOnly k s s := ⟨rfl, fun l h => ⟨l.nd, h⟩⟩

theorem StartOnly.trans {k : Nat} {s t u : State} (h1 : StartOnly k s t) (h2 : StartOnly k t u) : StartOnly k s u := by
  refine ⟨?_, fun l hl => ?_⟩
  · rw [h2.frame, h1.frame]
  · obtain ⟨n, hn⟩ := h1.launch l hl
    obtain ⟨m, hm⟩ := h2.launch _ hn
    exact ⟨m, hm⟩

theorem CountersOnly.startOnly {k : Nat} {s t : State} (h : CountersOnly k s t) : StartOnly k s t := ⟨by rw [h.frame], h.launch⟩

theorem ProbOnly.startOnly {s t : State} (h : ProbOnly s t) (k : Nat) : StartOnly k s t := by
  unfold ProbOnly at h
  exact ⟨by rw [h], fun l e => ⟨l.nd, by rw [h]; exact e⟩⟩

theorem startOnly_startOne (k : Nat) (l : Launch) (s : State) (j : Nat) : StartOnly k s (startOne k l s j) := by
  unfold startOne
  split
  · exact .refl k s
  · exact ((probOnly_setProb _ _ _ _).startOnly k).trans (setCounters_spec k _ _ _ _).1.startOnly

theorem startOnly_startProbs (k : Nat) (l : Launch) (s : State) : StartOnly k s (startProbs k l s) :=
  foldl_keeps (.refl k) .trans (startOnly_startOne k l) _ _

theorem probKey_inj {k i j : Nat} : probKey k i = probKey k j ↔ i = j := by
  unfold probKey
  omega

/-- Problems that start one after the other write the words of their counters, and no other byte; the problems of other numbers stay. -/
theorem startOnes_mem (k : Nat) (l : Launch) (js : List Nat) (nodup : js.Nodup) {s : State} (wf : s.memOk) :
    let t := js.foldl (startOne k l) s
    t.memOk ∧ MemKeptAll (allCounters t.probs) s t ∧ ∀ q ∈ s.probs, (∀ j ∈ js, q.1 ≠ probKey k j) → q ∈ t.probs := by
  induction js generalizing s with
  | nil => exact ⟨wf, fun _ _ => rfl, fun _ h _ => h⟩
  | cons j js ih =>
    obtain ⟨fresh, nodup⟩ := List.nodup_cons.1 nodup
    have first : (startOne k l s j).memOk ∧ ∃ rs, MemKeptAll rs s (startOne k l s j) ∧
        (∀ r ∈ rs, ∃ q ∈ (startOne k l s j).probs, q.1 = probKey k j ∧ r ∈ counterRanges q.2) ∧
        ∀ q ∈ s.probs, q.1 ≠ probKey k j → q ∈ (startOne k l s j).probs := by
      unfold startOne
      split
      · exact ⟨wf, [], fun _ _ => rfl, fun _ h => absurd h List.not_mem_nil, fun _ h _ => h⟩
      · rename_i c _
        obtain ⟨only, mem⟩ := setCounters_spec k l.glove (startProb s c 0 0).counters [] (setProb k j (startProb s c 0 0) s)
        obtain ⟨wf1, kept⟩ := mem wf
        have probs := congrArg State.probs only.frame
        refine ⟨wf1, counterRanges (startProb s c 0 0), kept, fun r hr => ⟨(probKey k j, startProb s c 0 0), ?_, rfl, hr⟩, fun q hq ne => ?_⟩
        · rw [probs]
          exact mem_kput_self _ _ _
        · rw [probs]
          exact mem_kput_of_ne hq ne _
    obtain ⟨wf1, rs, kept1, rs_of, others1⟩ := first
    obtain ⟨wf2, kept2, others2⟩ := ih nodup wf1
    dsimp only at wf2 kept2 others2 ⊢
    rw [List.foldl_cons]
    refine ⟨wf2, (kept1.mono fun r hr => ?_).trans kept2, fun q hq ne => ?_⟩
    · obtain ⟨q, hq, key, hr⟩ := rs_of r hr
      refine List.mem_flatMap.2 ⟨q, others2 q hq fun i hi e => fresh ?_, hr⟩
      rw [key, probKey_inj] at e
      exact e ▸ hi
    · exact others2 q (others1 q hq (ne j List.mem_cons_self)) fun i hi => ne i (List.mem_cons_of_mem _ hi)

/-! ## The spare set's dry run (R399) -/

/-- A launch slot of a launch runs a faulted dry run. -/
def DrySlot (k : Nat) (x : SlotSt) : Prop := x.launch = k → 2 ≤ x.dry

/-- A dry run begins on slots of a tile, by their numbers. -/
def dryTile (pos frame : Nat) (is : List Nat) (s : State) : State := is.foldl (fun u i => dryFrom pos i 2 frame u) s

theorem drySet_eq (k : Nat) (tiles : List Nat) (s : State) :
    drySet k tiles s = tiles.foldl (fun t p => dryTile p (s.frame.boundaries - 1) (launchSlots t p k) t) s := rfl

theorem tilesOnly_dryTile (pos frame : Nat) (is : List Nat) (s : State) : TilesOnly s (dryTile pos frame is s) :=
  foldl_keeps TilesOnly.refl TilesOnly.trans (fun _ _ => tilesOnly_adjTile _ _ _) _ _

theorem tilesOnly_drySet (k : Nat) (tiles : List Nat) (s : State) : TilesOnly s (drySet k tiles s) :=
  foldl_keeps TilesOnly.refl TilesOnly.trans (fun _ _ => tilesOnly_dryTile _ _ _ _) _ _

/-- A slot after a dry run has begun stood there before, at least as dry as it was, and faulted where the run is its own. -/
theorem dryTile_slot {pos frame : Nat} {is : List Nat} {s : State} {q : Nat} {p : Nat × SlotSt} (h : p ∈ (tileOf (dryTile pos frame is s) q).slots) :
    ∃ x ∈ (tileOf s q).slots, x.1 = p.1 ∧ x.2.launch = p.2.launch ∧ x.2.dry ≤ p.2.dry ∧ (q = pos → p.1 ∈ is → 2 ≤ p.2.dry) := by
  induction is generalizing s with
  | nil => exact ⟨p, h, rfl, rfl, le_rfl, fun _ m => absurd m List.not_mem_nil⟩
  | cons i is ih =>
    obtain ⟨x, hx, key, own, dry, faulted⟩ := ih (s := dryFrom pos i 2 frame s) h
    rw [dryFrom, tileOf_adjTile] at hx
    by_cases e : pos = q
    · rw [if_pos e] at hx
      obtain ⟨y, hy, rfl⟩ := List.mem_map.1 hx
      refine ⟨y, e ▸ hy, ?_⟩
      by_cases n : y.1 = i
      · rw [if_pos n] at key own dry
        exact ⟨key, own, (le_max_left _ _).trans dry, fun _ _ => (le_max_right _ _).trans dry⟩
      · rw [if_neg n] at key own dry
        refine ⟨key, own, dry, fun e2 m => faulted e2 ?_⟩
        exact (List.mem_cons.1 m).resolve_left fun e3 => n (key.trans e3)
    · rw [if_neg e] at hx
      exact ⟨x, hx, key, own, dry, fun e2 => absurd e2.symm e⟩

theorem drySet_slots (k : Nat) (tiles : List Nat) (s : State) : ∀ pos ∈ tiles, AllSlots (DrySlot k) (drySet k tiles s) pos := by
  rw [drySet_eq]
  refine allSlots_foldl (Q := DrySlot k) (f := fun t p => dryTile p (s.frame.boundaries - 1) (launchSlots t p k) t) id ?_ ?_ tiles s
  · intro t pos p hp own
    obtain ⟨x, hx, key, same, -, faulted⟩ := dryTile_slot hp
    refine faulted rfl ?_
    rw [← key]
    exact List.mem_map_of_mem (List.mem_filter.2 ⟨hx, by simp [same, own]⟩)
  · intro t pos q all p hp own
    obtain ⟨x, hx, -, same, dry, -⟩ := dryTile_slot hp
    exact (all x hx (same.trans own)).trans dry

/-! ## LAUNCH_START (R23, R274, R282) -/

/-- The launch that runs from the boundary that has passed: one that was not moved has its digests and the system count (R282). -/
def runningLaunch (s : State) (l : Launch) : Launch :=
  let l1 := { l with phase := .running, since := s.frame.boundaries, started := true, startFrame := s.frame.boundaries }
  if l.reexecuted then l1
  else { l1 with
    digests := fixedDigests s l ++ l.digests.drop 3
    count := s.frame.sysNs
    late := pMulti l.params && decide (pCount l.params + periodOf (odForce s 0x2100 1) (odForce s 0x2100 2) ≤ s.frame.sysNs) }

/-- The launch in the table, its streams at their begin, before its problems start. -/
def beforeProblems (k : Nat) (l : Launch) (s : State) : State :=
  resetPlaces k (setLaunch k (runningLaunch s l) (if l.reexecuted then s else readBack ((List.range 3).flatMap (setRegions l.params)) s))

/-- Its problems, started; those of a launch that moved go on from their re-execution checkpoints (R402). -/
def withProblems (k : Nat) (l : Launch) (s : State) : State :=
  let u := beforeProblems k l s
  let t := startProbs k (runningLaunch s l) u
  if l.reexecuted then u.probs.foldl (fun t p => restoreProb k (runningLaunch s l) p t) t else t

theorem launch_starts {s : State} {k : Nat} {l : Launch} (hs : s.launches = [(k, l)]) (phase : l.phase = .armed)
    (past : l.since < s.frame.boundaries) (turn : pMulti l.params = true → pCount l.params ≤ s.frame.sysNs) :
    exec .launchStart s = .next (if l.reexecuted ∧ l.drained.isSome then drainProbs k (runningLaunch s l) [] (withProblems k l s)
      else spareDry k l (withProblems k l s)) := by
  have now : startsNow s l = true := by
    cases h : pMulti l.params
    · simp [startsNow, phase, pastBoundary, past, h]
    · simp [startsNow, phase, pastBoundary, past, h, turn h]
  change Host.Outcome.next (eachLaunch startArmed s) = _
  rw [eachLaunch_single hs, startArmed, if_pos now]
  rfl

theorem runningLaunch_fields (s : State) (l : Launch) :
    let m := runningLaunch s l
    m.phase = .running ∧ m.started = true ∧ m.startFrame = s.frame.boundaries ∧ m.glove = l.glove ∧ m.seed = l.seed ∧ m.tiles = l.tiles := by
  dsimp only
  unfold runningLaunch
  split <;> exact ⟨rfl, rfl, rfl, rfl, rfl, rfl⟩

/-- A launch that was not moved has the system count at its start and the digests of its sets as they stand. -/
theorem runningLaunch_fixed {l : Launch} (h : l.reexecuted = false) (s : State) :
    (runningLaunch s l).count = s.frame.sysNs ∧ (runningLaunch s l).digests.take 3 = fixedDigests s l := by
  unfold runningLaunch
  rw [if_neg (by simp [h])]
  exact ⟨rfl, rfl⟩

theorem beforeProblems_spec {s : State} {k : Nat} {l : Launch} (hs : s.launches = [(k, l)]) :
    let u := beforeProblems k l s
    u.launches = [(k, runningLaunch s l)] ∧ u.tiles = s.tiles ∧ u.mem = s.mem := by
  dsimp only
  unfold beforeProblems
  generalize hu : (if l.reexecuted then s else readBack ((List.range 3).flatMap (setRegions l.params)) s) = u
  have noted : Noted s u := by
    subst hu
    split
    · exact .refl s
    · exact noted_readBack _ _
  unfold Noted at noted
  rw [setLaunch_single (l := l) (by rw [noted]; exact hs)]
  have tiles : u.tiles = s.tiles := by rw [noted]
  have mem : u.mem = s.mem := by rw [noted]
  exact ⟨rfl, tiles, mem⟩

theorem startOnly_restoreProb (k : Nat) (l : Launch) (x : Nat × ProbSt) (s : State) : StartOnly k s (restoreProb k l x s) := by
  have put (m : KMap ProbSt) : StartOnly k s { s with probs := m } := ⟨rfl, fun l h => ⟨l.nd, h⟩⟩
  unfold restoreProb
  split
  · exact .refl k s
  · exact (put _).trans (setCounters_spec k _ _ _ _).1.startOnly

theorem withProblems_spec {s : State} {k : Nat} {l : Launch} (hs : s.launches = [(k, l)]) :
    let t := withProblems k l s
    (∃ n, t.launches = [(k, { runningLaunch s l with nd := n })]) ∧ t.tiles = s.tiles ∧
      (l.reexecuted = false → s.memOk → MemKeptAll (allCounters t.probs) s t) := by
  obtain ⟨table, tiles, mem⟩ := beforeProblems_spec hs
  dsimp only
  unfold withProblems
  generalize beforeProblems k l s = u at *
  have started := startOnly_startProbs k (runningLaunch s l) u
  dsimp only
  have only : StartOnly k u (if l.reexecuted then
      u.probs.foldl (fun t p => restoreProb k (runningLaunch s l) p t) (startProbs k (runningLaunch s l) u)
      else startProbs k (runningLaunch s l) u) := by
    split
    · exact started.trans (foldl_keeps (.refl k) .trans (fun t p => startOnly_restoreProb k (runningLaunch s l) p t) _ _)
    · exact started
  refine ⟨only.launch _ table, ?_, fun stays wf => ?_⟩
  · rw [only.frame]
    exact tiles
  · rw [if_neg (by simp [stays]), startProbs_eq]
    obtain ⟨-, kept, -⟩ := startOnes_mem k (runningLaunch s l) (List.range (pNprob (runningLaunch s l).params)) List.nodup_range
      (s := u) (by rwa [State.memOk, mem])
    exact fun i hi => (kept i hi).trans (by rw [byteAt, byteAt, mem])

/-- The spare set, where there is one, is dry from the first frame; nothing else changes (R399). -/
theorem spareDry_spec (k : Nat) (l : Launch) (s : State) :
    TilesOnly s (spareDry k l s) ∧ (l.aux.safety = none → spareDry k l s = s) ∧
      ∀ x, l.aux.safety = some x → ∀ pos ∈ x.setC, AllSlots (DrySlot k) (spareDry k l s) pos := by
  unfold spareDry
  split
  · rename_i x hx
    refine ⟨tilesOnly_drySet _ _ _, fun e => absurd (hx.symm.trans e) (by simp), fun y hy => ?_⟩
    obtain rfl := Option.some.inj (hx.symm.trans hy)
    exact drySet_slots k x.setC s
  · rename_i hx
    exact ⟨.refl s, fun _ => rfl, fun y hy => absurd (hx.symm.trans hy) (by simp)⟩

/-- What a started launch leaves: it runs, its tiles are as they were but for a spare set, and where it was not moved only the words of
counters have changed in memory. -/
theorem launchStarted_spec {s : State} {k : Nat} {l : Launch} (hs : s.launches = [(k, l)]) :
    let t := if l.reexecuted ∧ l.drained.isSome then drainProbs k (runningLaunch s l) [] (withProblems k l s)
      else spareDry k l (withProblems k l s)
    ∃ n, t.launches = [(k, { runningLaunch s l with nd := n })] ∧ (l.aux.safety = none → t.tiles = s.tiles) ∧
      (l.reexecuted = false → (s.memOk → MemKeptAll (allCounters t.probs) s t) ∧
        ∀ x, l.aux.safety = some x → ∀ pos ∈ x.setC, AllSlots (DrySlot k) t pos) := by
  obtain ⟨⟨n, table⟩, same, mem⟩ := withProblems_spec hs
  dsimp only
  generalize withProblems k l s = u at *
  refine ⟨n, ?_⟩
  split
  · rename_i moved
    have only := probOnly_drainProbs k (runningLaunch s l) [] u
    generalize drainProbs k (runningLaunch s l) [] u = t at *
    unfold ProbOnly at only
    exact ⟨by rw [only]; exact table, fun _ => by rw [only]; exact same, fun stays => absurd moved.1 (by simp [stays])⟩
  · obtain ⟨only, none_, dry⟩ := spareDry_spec k l u
    unfold TilesOnly at only
    generalize spareDry k l u = t at *
    refine ⟨by rw [only]; exact table, fun no => by rw [none_ no]; exact same, fun stays => ⟨fun wf => ?_, dry⟩⟩
    rw [only]
    exact mem stays wf

/-! ## The obligation -/

/-- Settles O46, by the commands of a launch's first phases one by one, each by what its step leaves as it was. -/
theorem launchesAreAdmittedLoadedAndStarted : Obligations.LaunchesAreAdmittedLoadedAndStarted := by
  unfold Obligations.LaunchesAreAdmittedLoadedAndStarted
  refine ⟨fun s k r o p aux peers ho kind fresh started const long => ?_, fun s k a b l d rest hs phase fresh covered words => ?_,
    fun s k l hs phase formed => ?_, fun s k l hs phase past turn => ?_⟩
  · rw [launch_enters ho kind fresh started const, admitLaunch, if_neg (by omega)]
    refine ⟨fun admits => ?_, fun refuses => ?_⟩
    · have only := driftOnly_driftRefresh { s with launches := kput s.launches k (newLaunch s k o p aux peers) }
      rw [admits]
      generalize driftRefresh { s with launches := kput s.launches k (newLaunch s k o p aux peers) } = t at *
      unfold DriftOnly at only
      have table : t.launches = kput s.launches k (newLaunch s k o p aux peers) := by rw [only]
      refine ⟨t, newLaunch s k o p aux peers, rfl, by rw [table, kget_kput_self], rfl, rfl, rfl, rfl, rfl, rfl, rfl, fun n hn => ?_, ?_⟩
      · rw [table, kget_kput_other _ _ (Ne.symm hn)]
      · rw [table]
        exact only
    · rw [refuses]
      obtain ⟨done, pends, entry, table, mem, tiles⟩ := refuseLaunch_spec ho o.glove r
      exact ⟨_, rfl, table, done, pends, entry, mem, tiles⟩
  · exact ⟨_, seed_drawn hs phase fresh covered words, rfl, kgetD_kput_self _ _ _ _, kget_kput_self _ _ _, rfl⟩
  · have kept := loadKept_loadAll k l (loadProgress k l s)
    have same_state : ({ s with fe := (loadAll k l (loadProgress k l s)).fe } : State) = loadProgress k l s := by
      rw [kept.fe]
      rfl
    obtain ⟨ps, table⟩ := kept.launch l hs
    have frame : (loadAll k l (loadProgress k l s)).frame = s.frame := kept.frame
    by_cases same : SameImage s l
    · refine ⟨_, { l with placed := ps, phase := .armed, since := s.frame.boundaries }, loaded_same hs phase formed same, ?_⟩
      rw [adjLaunch_single table]
      dsimp only
      rw [same_state]
      exact ⟨rfl, rfl, rfl, rfl, rfl, ⟨rfl, rfl, rfl, rfl, rfl, rfl⟩, fun _ => rfl, fun other => absurd same other⟩
    · refine ⟨_, killedLaunch s.frame.boundaries stAdmissionRefused { l with placed := ps }, loaded_other hs phase formed same, ?_⟩
      obtain ⟨killed, fe, tiles, routers, ports, plx, mem, win, pends, entry⟩ := refusedLoading_spec (loadAll k l (loadProgress k l s)) table phase l.glove
      dsimp only
      rw [fe, same_state, killed, frame]
      exact ⟨rfl, rfl, rfl, rfl, rfl, ⟨tiles, routers, ports, plx, mem, win⟩, fun yes => absurd yes same, fun _ => ⟨rfl, rfl, pends, entry⟩⟩
  · obtain ⟨running, begun, first, glove, seed, tiles⟩ := runningLaunch_fields s l
    obtain ⟨n, table, same, fixed⟩ := launchStarted_spec hs
    exact ⟨_, _, launch_starts hs phase past turn, table, running, begun, first, glove, seed, tiles, same, fun stays =>
      ⟨(fixed stays).1, (runningLaunch_fixed stays s).1, (runningLaunch_fixed stays s).2, (fixed stays).2⟩⟩

end Sys2Proof.Machine
end

section
/-! PROOFS. Drains reach programs, launches end and release their windows, tickets are written, and killed launches leave zeroed banks (O47). -/

namespace Sys2Proof.Machine

/-! ## DRAIN_DELIVERY (R332) -/

/-- A launch slot of a launch has LAUNCHCTL bit 0 set. -/
def CtlSet (k : Nat) (x : SlotSt) : Prop := x.launch = k → x.ctl = true

/-- LAUNCHCTL bit 0 on one tile of a launch. -/
def ctlTile (k : Nat) (s : State) (x : Nat × List WinDesc) : State :=
  adjTile x.1 (fun u => { u with slots := u.slots.map fun p => if p.2.launch = k then (p.1, { p.2 with ctl := true }) else p }) s

theorem tilesOnly_setCtl (k : Nat) (l : Launch) (s : State) : TilesOnly s (setCtl k l s) :=
  foldl_keeps TilesOnly.refl TilesOnly.trans (fun _ _ => tilesOnly_adjTile _ _ _) _ _

theorem ctlTile_gives (k : Nat) (s : State) (x : Nat × List WinDesc) : AllSlots (CtlSet k) (ctlTile k s x) x.1 := by
  intro p hp
  rw [ctlTile, tileOf_adjTile_self] at hp
  obtain ⟨q, -, rfl⟩ := List.mem_map.1 hp
  intro h
  split
  · rfl
  · rename_i other
    rw [if_neg other] at h
    exact absurd h other

theorem ctlTile_keeps (k : Nat) (s : State) (x : Nat × List WinDesc) (q : Nat) (h : AllSlots (CtlSet k) s q) :
    AllSlots (CtlSet k) (ctlTile k s x) q := by
  by_cases e : x.1 = q
  · exact e ▸ ctlTile_gives k s x
  · intro p hp
    rw [ctlTile, tileOf_adjTile, if_neg e] at hp
    exact h p hp

theorem setCtl_slots (k : Nat) (l : Launch) (s : State) : ∀ x ∈ l.tiles, AllSlots (CtlSet k) (setCtl k l s) x.1 :=
  allSlots_foldl Prod.fst (ctlTile_gives k) (ctlTile_keeps k) l.tiles s

/-- The context of a problem of a launch whose parameters are as before has the same image. -/
theorem probCtx_img {s : State} {k j : Nat} {l m : Launch} {c : ProbCtx} (hl : kget s.launches k = some l) (hm : m.params = l.params)
    (h : probCtx s k j = some c) (ts : KMap Tile) :
    ∃ d, probCtx { s with launches := [(k, m)], tiles := ts } k j = some d ∧ d.img = c.img ∧ d.key = k ∧ d.no = j := by
  have found : kget [(k, m)] k = some m := by simp [kget]
  have same : probImg { s with launches := [(k, m)], tiles := ts } m.params j = probImg s l.params j := by
    have mem : ({ s with launches := [(k, m)], tiles := ts } : State).mem = s.mem := rfl
    rw [hm, probImg_of_mem_eq mem]
  unfold probCtx at h ⊢
  rw [hl] at h
  dsimp only at h ⊢
  rw [found]
  dsimp only
  rw [same]
  obtain ⟨x, hx, rfl⟩ := Option.map_eq_some_iff.1 h
  rw [hx]
  exact ⟨_, rfl, rfl, rfl, rfl⟩

/-- An offline problem that has not ended is halted by a drain (R168). -/
theorem drainProb_stop {s : State} {k j : Nat} {c : ProbCtx} {p : ProbSt} (hc : probCtx s k j = some c) (hk : c.key = k) (hj : c.no = j)
    (hp : probOf s k j = some p) (offline : c.img.realtime = false) (open_ : p.stop = none) (st : Option Stand) :
    (probOf (drainProb k j st s) k j).map (·.stop) = some (some 2) := by
  unfold drainProb
  rw [hc, hp]
  dsimp only
  rw [offline, open_, if_neg (by simp), probOf, probs_refresh, hk, hj, kget_kput_self]
  rfl

theorem drain_delivered {s : State} {k b : Nat} {l : Launch} (hs : s.launches = [(k, l)]) (running : l.phase = .running)
    (single : pMulti l.params = false) (fresh : l.drained = none) (asked : l.drainReq = some b) (before : b < s.frame.boundaries)
    (stands : List Stand) :
    exec (.drainDelivery stands) s = .next (drainProbs k { l with drained := some s.frame.boundaries } stands
      (setCtl k l { s with launches := [(k, { l with drained := some s.frame.boundaries })] })) := by
  change Host.Outcome.next (eachLaunch (deliverDrain stands) s) = _
  rw [eachLaunch_single hs]
  unfold deliverDrain
  simp [running, single, fresh, asked, before, setLaunch_single hs]

/-! ## LAUNCH_END (R330) -/

/-- The launch that LAUNCH_END leaves, before its result is digested. -/
def endedLaunch (s : State) (k : Nat) (l : Launch) : Launch := { l with phase := .release, since := s.frame.boundaries, status := endStatus s k l }

theorem launch_ended {s : State} {k : Nat} {l : Launch} (hs : s.launches = [(k, l)]) (running : l.phase = .running) (stays : l.reexDue = false)
    (past : l.since < s.frame.boundaries)
    (dry : (liveSlots s k l).all (fun x => x.dry != 0 && decide (x.dryIn < s.frame.boundaries)) = true) :
    exec .launchEnd s =
      .next (if l.realtime then setLaunch k (endedLaunch s k l) s else fixResult k (endedLaunch s k l) s) := by
  change Host.Outcome.next (eachLaunch examine s) = _
  rw [eachLaunch_single hs]
  unfold examine
  rw [if_neg (by simp [running, stays, pastBoundary, past, dry])]
  rfl

theorem noted_fixResult (k : Nat) (l : Launch) (s : State) :
    Noted (setLaunch k { l with digests := l.digests.set 3 (setDigest s (setRegions l.params 3)) } s) (fixResult k l s) :=
  noted_readBack _ _

/-! ## LAUNCH_RELEASE (R24) -/

/-- A launch slot is not a launch's. -/
def NotOf (k : Nat) (x : SlotSt) : Prop := x.launch ≠ k

theorem unloadTile_slots (k : Nat) (l : Launch) (pos q : Nat) (s : State) :
    (tileOf (unloadTile k l pos s) q).slots =
      if pos = q then (tileOf s pos).slots.filter (fun p => p.2.launch != k) else (tileOf s q).slots := by
  unfold unloadTile setWins
  rw [tileOf_adjTile, tileOf_setTile_self]
  split
  · rfl
  · rename_i h
    rw [tileOf_setTile_other _ _ h]

theorem tilesOnly_unloadTile (k : Nat) (l : Launch) (pos : Nat) (s : State) : TilesOnly s (unloadTile k l pos s) := rfl

theorem unloadTile_gives (k : Nat) (l : Launch) (s : State) (pos : Nat) : AllSlots (NotOf k) (unloadTile k l pos s) pos := by
  intro p hp
  rw [unloadTile_slots, if_pos rfl] at hp
  change p.2.launch ≠ k
  simpa using (List.mem_filter.1 hp).2

theorem unloadTile_keeps (k : Nat) (l : Launch) (s : State) (pos q : Nat) (h : AllSlots (NotOf k) s q) :
    AllSlots (NotOf k) (unloadTile k l pos s) q := by
  by_cases e : pos = q
  · exact e ▸ unloadTile_gives k l s pos
  · intro p hp
    rw [unloadTile_slots, if_neg e] at hp
    exact h p hp

/-- What a launch holds in stores and tables goes: its slots on the tiles that it was placed on, and nothing outside tiles, routers and
ports. -/
theorem unload_spec (k : Nat) (l : Launch) (s : State) :
    (∀ x ∈ l.placed, AllSlots (NotOf k) (unload k l s) x.1) ∧
      unload k l s = { s with
        tiles := (unload k l s).tiles, routers := (unload k l s).routers, ports := (unload k l s).ports, plx := (unload k l s).plx } := by
  unfold unload
  have slots := allSlots_foldl (f := fun t pos => unloadTile k l pos t) id (unloadTile_gives k l)
    (fun s pos q => unloadTile_keeps k l s pos q) (l.placed.map Prod.fst) s
  have only : TilesOnly s ((l.placed.map Prod.fst).foldl (fun t pos => unloadTile k l pos t) s) :=
    foldl_keeps TilesOnly.refl TilesOnly.trans (fun s pos => tilesOnly_unloadTile k l pos s) _ _
  generalize (l.placed.map Prod.fst).foldl (fun t pos => unloadTile k l pos t) s = u at slots only
  unfold TilesOnly at only
  refine ⟨fun x hx => slots x.1 (List.mem_map_of_mem hx), ?_⟩
  rw [only]

/-- The launch that has released its windows. -/
def releasedLaunch (s : State) (l : Launch) : Launch := { l with released := true, since := s.frame.boundaries, placed := [] }

/-- A launch that releases: its windows are gone, and a real-time launch's result is digested. -/
def releasedState (k : Nat) (l : Launch) (s : State) : State :=
  if l.realtime then fixResult k (releasedLaunch s l) (unload k l s) else setLaunch k (releasedLaunch s l) (unload k l s)

theorem releaseOne_eq {s : State} (k : Nat) {l : Launch} (phase : l.phase = .release) (held : l.released = false)
    (past : l.since < s.frame.boundaries) :
    releaseOne k l s =
      if pTicket l.params = true ∧ goodStatus l.status = true then adjLaunch k (fun l => { l with phase := .ticket }) (releasedState k l s)
      else endOp k l.status (releasedState k l s) := by
  unfold releaseOne
  rw [if_neg (by simp [releasesNow, held, pastBoundary, past, phase]), if_neg (by simp [phase])]
  rfl

/-- A launch that releases stays in the table; beside it, its windows and counts, nothing changes. -/
theorem releasedState_spec {s : State} {k : Nat} {l : Launch} (hs : s.launches = [(k, l)]) :
    let u := releasedState k l s
    (∃ m, u.launches = [(k, m)] ∧ m.released = true) ∧ (∀ x ∈ l.placed, AllSlots (NotOf k) u x.1) ∧ u.mem = s.mem ∧ u.fe = s.fe := by
  obtain ⟨slots, frame⟩ := unload_spec k l s
  have table : (unload k l s).launches = [(k, l)] := by rw [frame]; exact hs
  have mem : (unload k l s).mem = s.mem := by rw [frame]
  have fe : (unload k l s).fe = s.fe := by rw [frame]
  dsimp only
  unfold releasedState
  split
  · have noted := noted_fixResult k (releasedLaunch s l) (unload k l s)
    rw [setLaunch_single table] at noted
    unfold Noted at noted
    refine ⟨⟨_, by rw [noted], rfl⟩, fun x hx p hp => slots x hx p ?_, by rw [noted]; exact mem, by rw [noted]; exact fe⟩
    rw [noted] at hp
    exact hp
  · rw [setLaunch_single table]
    exact ⟨⟨_, rfl, rfl⟩, slots, mem, fe⟩

/-- The effects that follow a release leave memory, tiles, launches and the front end as they are. -/
theorem afterRelease (s : State) :
    driftRefresh (resetsProceed s) = { s with
      bank := (driftRefresh (resetsProceed s)).bank, od := (driftRefresh (resetsProceed s)).od
      drift := (driftRefresh (resetsProceed s)).drift } := by
  have only := driftOnly_driftRefresh (resetsProceed s)
  unfold DriftOnly at only
  generalize driftRefresh (resetsProceed s) = t at only
  rw [only]
  rfl

theorem OpDone.of_eq {k st : Nat} {o : Op} {s u t : State} (h : OpDone k st o s u) (fe : t.fe = u.fe) (host : t.host = u.host)
    (out : t.out = u.out) : OpDone k st o s t := by
  unfold OpDone Posted at *
  rwa [fe, host, out]

/-! ## TICKET_WRITE (R279 to R284) -/

theorem length_edSign (secret msg : List Byte) : (edSign secret msg).length = 64 := by
  unfold edSign
  dsimp only
  rw [List.length_append, length_leBytes, edCompress, length_leBytes]

/-- Digests of 48 bytes, joined. -/
theorem length_flatten_digests {ds : List (List Byte)} (h : ∀ d ∈ ds, d.length = 48) : ds.flatten.length = 48 * ds.length := by
  induction ds with
  | nil => rfl
  | cons d ds ih =>
    rw [List.flatten_cons, List.length_append, ih fun x hx => h x (List.mem_cons_of_mem _ hx), h d List.mem_cons_self, List.length_cons]
    omega

theorem length_ticketBody {l : Launch} (s : State) (h : l.digests.length = 5) (h48 : ∀ d ∈ l.digests, d.length = 48) :
    (ticketBody s l).length = 192 := by
  have three : (l.digests.take 3).flatten.length = 144 := by
    rw [length_flatten_digests fun d hd => h48 d (List.mem_of_mem_take hd), List.length_take, h]
    rfl
  simp only [ticketBody, List.length_append, length_leBytes, three, List.length_replicate, List.length_singleton]

theorem length_ticketAnnex {l : Launch} (h : l.digests.length = 5) (h48 : ∀ d ∈ l.digests, d.length = 48) : (ticketAnnex l).length = 96 := by
  rw [ticketAnnex, length_flatten_digests fun d hd => h48 d (List.mem_of_mem_drop hd), List.length_drop, h]

/-- Bytes that go to BAR0 reach the registers that they cover, and no other. -/
theorem barBytes_other {a off : Nat} {b : List Byte} (h : a < off ∨ off + b.length + 3 < a) (s : State) :
    barGet (barBytes off b s) a = barGet s a := by
  have past (n : Nat) (hn : 4 * n ≤ b.length + 3) (t : State) : barGet ((List.range n).foldl (fun t i =>
      let w := (b.drop (4 * i)).take 4
      let old := leBytes 4 (barGet t (off + 4 * i))
      barSet t (off + 4 * i) (leNat (w ++ old.drop w.length))) t) a = barGet t a := by
    induction n with
    | zero => rfl
    | succ n ih =>
      rw [List.range_succ, List.foldl_append, List.foldl_cons, List.foldl_nil]
      dsimp only
      rw [barGet_barSet, if_neg (by omega), ih (by omega)]
  exact past _ (by omega) s

/-- Bytes that stand one by one are loaded together. -/
theorem memBytes_eq {m : Memory} {a : Nat} {d : List Byte} (h : ∀ j, j < d.length → memRead m (a + j) = d.getD j 0) :
    memBytes m a d.length = d := by
  induction d generalizing a with
  | nil => rfl
  | cons b d ih =>
    rw [List.length_cons, memBytes, ih fun j hj => ?_]
    · exact congrArg (· :: d) (h 0 (Nat.succ_pos _))
    · have e := h (j + 1) (by simpa using hj)
      rw [Nat.add_right_comm, Nat.add_assoc, e]
      rfl

/-- A record that is raised changes no entry but the count of coalesced records, and leaves the host link and what is sent. -/
theorem report_keeps (pos code unit sub glove : Nat) (d : List Byte) (s : State) :
    OdKept [(0x2300, 6)] s (report pos code unit sub glove d s) ∧ (report pos code unit sub glove d s).host = s.host ∧
      (report pos code unit sub glove d s).out = s.out := by
  unfold report vc3Raise vc3Arrive vc3Take
  dsimp only
  repeat' split
  · exact ⟨odKept_odSet _ _ _ _, rfl, rfl⟩
  · exact ⟨.refl _ s, rfl, rfl⟩
  · exact ⟨.refl _ s, rfl, rfl⟩

/-- A refusal changes three entries: the count of refusals, the last of them, and the count of coalesced records. -/
theorem reject_keeps (g a len source reason unit : Nat) (s : State) :
    OdKept [(0x7500, 1), (0x7501, 1), (0x2300, 6)] s (reject g a len source reason unit s) ∧
      PostsKept s (reject g a len source reason unit s) := by
  unfold reject
  extract_lets d
  generalize hu : odSet (odBump s 0x7500 1 64 1) 0x7501 1 (leNat (d ++ leBytes 1 g ++ leBytes 1 source ++ leBytes 1 reason ++ [0])) = u
  have counted : OdKept [(0x7500, 1), (0x7501, 1), (0x2300, 6)] s u := by
    subst hu
    exact ((OdKept.refl _ s).odSet (by simp) _).odSet (by simp) _
  have posts : PostsKept s u := by
    subst hu
    exact .of_eq rfl rfl
  obtain ⟨od, host, out⟩ := report_keeps unit 0x0701 unit source g (d ++ leBytes 1 reason) u
  refine ⟨counted.trans ((od.mono (by simp)).trans (.of_od_eq (raise_od _ _))), posts.trans ((PostsKept.of_eq host out).trans ?_)⟩
  exact postsKept_raise _ _

/-- A write with a launch's glove stores where the glove owns the tier, and is rejected elsewhere; TKT_COUNT of the dictionary stays. -/
theorem tierWrite_spec (g a : Nat) (d : List Byte) {s : State} (wf : s.memOk) :
    let t := tierWrite g a d s
    let held := verdict s g a d.length true 348
    (held = .tier → load t a d.length = d ∧ MemKept a d.length s t) ∧ (held ≠ .tier → t.mem = s.mem ∧ irqPending t 258 = true) ∧
      PostsKept s t ∧ odGet t 0x5040 1 = odGet s 0x5040 1 ∧ t.launches = s.launches ∧ t.fe = s.fe ∧ t.bar0 = s.bar0 := by
  have rejected (reason unit : Nat) : let t := reject g a d.length 1 reason unit s
      (t.mem = s.mem ∧ irqPending t 258 = true) ∧
        PostsKept s t ∧ odGet t 0x5040 1 = odGet s 0x5040 1 ∧ t.launches = s.launches ∧ t.fe = s.fe ∧ t.bar0 = s.bar0 := by
    obtain ⟨noted, pends⟩ := reject_spec g a d.length 1 reason unit s
    obtain ⟨od, posts⟩ := reject_keeps g a d.length 1 reason unit s
    unfold Noted at noted
    exact ⟨⟨by rw [noted], pends⟩, posts, od.odGet_eq (by decide), by rw [noted], by rw [noted], by rw [noted]⟩
  obtain ⟨-, kept, stored, frame⟩ := store_spec a d s wf
  dsimp only
  unfold tierWrite
  split
  · rename_i h
    rw [h]
    exact ⟨fun _ => ⟨memBytes_eq stored, kept⟩, fun n => absurd rfl n, .of_eq rfl rfl, rfl, rfl, rfl, rfl⟩
  · rename_i h
    rw [h]
    exact ⟨fun n => absurd n (by simp), fun _ => (rejected _ _).1, (rejected _ _).2⟩
  · rename_i h _
    exact ⟨fun n => absurd n h, fun _ => (rejected _ _).1, (rejected _ _).2⟩

/-- The ticket, its annex, and their bytes together (R280, R283). -/
def ticketBytes (s : State) (l : Launch) : List Byte :=
  ticketBody s l ++ edSign (identitySecret s.plat.fuse) (ticketBody s l ++ ticketAnnex l)

/-- The slot of BAR0 takes a ticket: its bytes, the launch's identifier, and TKT_COUNT, which moves by two (R474). -/
def ticketSlot (id : Nat) (ticket annex : List Byte) (s : State) : State :=
  let u := barBytes 0x5100 annex (barBytes 0x5000 ticket s)
  barSet (barSet (barSet u 0x5204 (id % 2 ^ 32)) 0x5208 (id / 2 ^ 32)) 0x5200 (barGet u 0x5200 + 2)

theorem ticketSlot_spec {ticket annex : List Byte} (ht : ticket.length = 256) (ha : annex.length = 96) (id : Nat) (s : State) :
    BarOnly s (ticketSlot id ticket annex s) ∧ barGet (ticketSlot id ticket annex s) 0x5200 = (barGet s 0x5200 + 2) % 2 ^ 32 := by
  have apart : barGet (barBytes 0x5100 annex (barBytes 0x5000 ticket s)) 0x5200 = barGet s 0x5200 := by
    rw [barBytes_other (by omega), barBytes_other (by omega)]
  have bytes : BarOnly s (barBytes 0x5100 annex (barBytes 0x5000 ticket s)) := by
    have second := barOnly_barBytes 0x5100 annex (barBytes 0x5000 ticket s)
    unfold BarOnly at *
    rw [second, barOnly_barBytes 0x5000 ticket s]
  exact ⟨((bytes.barSet _ _).barSet _ _).barSet _ _, by rw [ticketSlot, barGet_barSet_self, apart]⟩

/-- The ticket stands at its address and in the slot (R283, R474). -/
def ticketed (s : State) (l : Launch) : State :=
  ticketSlot l.id (ticketBytes s l) (ticketAnnex l)
    (odBump (tierWrite l.glove (pTicketAddr l.params) (ticketBytes s l ++ ticketAnnex l) s) 0x5040 1 64 1)

theorem writeTicket_eq (k : Nat) (l : Launch) (s : State) : writeTicket k l s = endOp k l.status (ticketed s l) := rfl

theorem ticketed_spec {s : State} (wf : s.memOk) {l : Launch} (h : l.digests.length = 5) (h48 : ∀ d ∈ l.digests, d.length = 48) :
    let t := ticketed s l
    let bytes := ticketBytes s l ++ ticketAnnex l
    let held := verdict s l.glove (pTicketAddr l.params) bytes.length true 348
    (held = .tier → load t (pTicketAddr l.params) bytes.length = bytes ∧ MemKept (pTicketAddr l.params) bytes.length s t) ∧
      (held ≠ .tier → t.mem = s.mem ∧ irqPending t 258 = true) ∧ barGet t 0x5200 = (barGet s 0x5200 + 2) % 2 ^ 32 ∧
      odGet t 0x5040 1 = satAdd (2 ^ 64 - 1) (odGet s 0x5040 1) 1 ∧ t.launches = s.launches ∧ t.fe = s.fe := by
  have ticket : (ticketBytes s l).length = 256 := by
    rw [ticketBytes, List.length_append, length_ticketBody s h h48, length_edSign]
  obtain ⟨stored, refused, -, count, table, fe, bar⟩ := tierWrite_spec l.glove (pTicketAddr l.params) (ticketBytes s l ++ ticketAnnex l) wf
  dsimp only
  unfold ticketed
  generalize tierWrite l.glove (pTicketAddr l.params) (ticketBytes s l ++ ticketAnnex l) s = w at *
  obtain ⟨only, moved⟩ := ticketSlot_spec ticket (length_ticketAnnex h h48) l.id (odBump w 0x5040 1 64 1)
  unfold BarOnly at only
  generalize ticketSlot l.id (ticketBytes s l) (ticketAnnex l) (odBump w 0x5040 1 64 1) = t at *
  refine ⟨fun e => ?_, fun e => ?_, ?_, ?_, by rw [only]; exact table, by rw [only]; exact fe⟩
  · rw [only]
    exact stored e
  · rw [only]
    exact refused e
  · rw [moved]
    exact congrArg (fun n => (n + 2) % 2 ^ 32) (by rw [barGet, barGet, odBump, odSet_bar0, bar])
  · rw [only, ← count]
    exact odGet_odSet_self _ _ _ _

/-! ## KILL_DONE (R332) -/

/-- Every byte of a bank is zero. -/
def BankZero (s : State) (b : Nat) : Prop := ∀ i, i < 64 * bankWords b → byteAt s (bankBase b + i) = 0

theorem bankZero_zeroBank {s : State} (wf : s.memOk) {b : Nat} (c : Nat) (h : BankZero s b) : BankZero (zeroBank c s) b := by
  obtain ⟨-, outside, inside, -⟩ := zeroBank_spec c s wf
  intro i hi
  by_cases hc : bankBase c ≤ bankBase b + i ∧ bankBase b + i < bankBase c + 64 * bankWords c
  · have e := inside (bankBase b + i - bankBase c) (by omega)
    rwa [Nat.add_sub_cancel' hc.1] at e
  · rw [outside _ (by omega)]
    exact h i hi

/-- Banks are zeroed one after the other: each is zero, no other byte changes, and only memory and its marks do. -/
theorem zeroBanks_spec (bs : List Nat) {s : State} (wf : s.memOk) :
    let t := bs.foldl (fun t b => zeroBank b t) s
    t.memOk ∧ (∀ b, b ∈ bs ∨ BankZero s b → BankZero t b) ∧ MemKeptAll (bs.map fun b => (bankBase b, 64 * bankWords b)) s t ∧
      t = { s with mem := t.mem, ecc := t.ecc } := by
  induction bs generalizing s with
  | nil => exact ⟨wf, fun b hb => hb.resolve_left List.not_mem_nil, fun _ _ => rfl, rfl⟩
  | cons c bs ih =>
    obtain ⟨wf1, outside, inside, frame1⟩ := zeroBank_spec c s wf
    obtain ⟨wf2, zero, kept, frame2⟩ := ih wf1
    dsimp only at wf2 zero kept frame2 ⊢
    rw [List.foldl_cons]
    refine ⟨wf2, fun b hb => zero b ?_, fun i hi => ?_, ?_⟩
    · rcases hb with hb | hb
      · rcases List.mem_cons.1 hb with rfl | hb
        · exact .inr inside
        · exact .inl hb
      · exact .inr (bankZero_zeroBank wf c hb)
    · rw [kept i fun r hr => hi r (List.mem_cons_of_mem _ hr), outside i (hi _ List.mem_cons_self)]
    · generalize bs.foldl (fun t b => zeroBank b t) (zeroBank c s) = t at frame2
      rw [frame2, frame1]

/-! ## The obligation -/

/-- A launch that a drain reaches: its slots have LAUNCHCTL set, and its one offline problem that has not ended is halted (R168, R332). -/
theorem drained_spec {s : State} {k : Nat} {l m : Launch} (hs : s.launches = [(k, l)]) (hm : m.params = l.params)
    (stands : List Stand) :
    let t := drainProbs k m stands (setCtl k l { s with launches := [(k, m)] })
    t.launches = [(k, m)] ∧ (∀ x ∈ l.tiles, AllSlots (CtlSet k) t x.1) ∧ t.fe = s.fe ∧ t.win = s.win ∧
      ∀ c p, pNprob l.params = 1 → probCtx s k 0 = some c → probOf s k 0 = some p → c.img.realtime = false → p.stop = none →
        (probOf t k 0).map (·.stop) = some (some 2) := by
  have ctl := setCtl_slots k l { s with launches := [(k, m)] }
  have tiles : TilesOnly { s with launches := [(k, m)] } (setCtl k l { s with launches := [(k, m)] }) := tilesOnly_setCtl _ _ _
  generalize setCtl k l { s with launches := [(k, m)] } = u at ctl tiles
  unfold TilesOnly at tiles
  have only := probOnly_drainProbs k m stands u
  have halted : ∀ c p, pNprob l.params = 1 → probCtx s k 0 = some c → probOf s k 0 = some p → c.img.realtime = false → p.stop = none →
      (probOf (drainProbs k m stands u) k 0).map (·.stop) = some (some 2) := by
    intro c p one hc hp offline open_
    obtain ⟨d, hd, img, key, no⟩ := probCtx_img (kget_single hs) hm hc u.tiles
    rw [drainProbs, hm, one]
    refine drainProb_stop (c := d) (p := p) ?_ key no ?_ (img ▸ offline) open_ _
    · rw [tiles]
      exact hd
    · rw [tiles]
      exact hp
  dsimp only
  generalize drainProbs k m stands u = t at only halted
  unfold ProbOnly at only
  refine ⟨by rw [only, tiles], fun x hx p hp => ctl x hx p ?_, by rw [only, tiles], by rw [only, tiles], halted⟩
  rw [only] at hp
  exact hp

/-- A launch that ended with a ticket to write waits for it; another leaves the table, its op with its status (R24, R330). -/
theorem released_spec {s : State} {k : Nat} {l : Launch} {o : Op} (hs : s.launches = [(k, l)]) (ho : kget s.fe.ops k = some o)
    (phase : l.phase = .release) (held : l.released = false) (past : l.since < s.frame.boundaries) :
    let t := releaseOne k l s
    t.mem = s.mem ∧ (∀ x ∈ l.placed, AllSlots (NotOf k) t x.1) ∧
      (pTicket l.params = true → goodStatus l.status = true → ∃ m, t.launches = [(k, m)] ∧ m.phase = .ticket ∧ m.released = true) ∧
      ((pTicket l.params = false ∨ goodStatus l.status = false) → t.launches = [] ∧ OpDone k l.status o s t) := by
  obtain ⟨⟨m, table, rel⟩, slots, mem, fe⟩ := releasedState_spec hs
  dsimp only
  rw [releaseOne_eq k phase held past]
  generalize releasedState k l s = u at *
  split
  · rename_i good
    rw [adjLaunch_single table]
    refine ⟨mem, slots, fun _ _ => ⟨_, rfl, rfl, rel⟩, fun bad => ?_⟩
    simp [good] at bad
  · rename_i bad
    obtain ⟨gone, done, -, -, frame⟩ := endOp_spec table (fe ▸ ho) l.status
    generalize endOp k l.status u = t at *
    refine ⟨by rw [frame]; exact mem, fun x hx p hp => slots x hx p ?_, fun a b => absurd ⟨a, b⟩ bad, fun _ => ⟨gone, done.of_fe_eq fe⟩⟩
    rw [frame] at hp
    exact hp

/-- Settles O47, by the commands of a launch's last phases one by one, each by what its step leaves as it was. -/
theorem launchesDrainEndAndRelease : Obligations.LaunchesDrainEndAndRelease := by
  unfold Obligations.LaunchesDrainEndAndRelease
  intro s k l o stands wf hs ho
  refine ⟨fun b running single fresh asked before => ?_, fun running stays past dry => ?_, fun phase held past => ?_,
    fun phase runs h h48 => ?_, fun phase released => ?_⟩
  · obtain ⟨table, ctl, fe, win, halted⟩ := drained_spec (m := { l with drained := some s.frame.boundaries }) hs rfl stands
    exact ⟨_, _, drain_delivered hs running single fresh asked before stands, table, rfl, ctl, fe, win, halted⟩
  · refine ⟨_, if l.realtime then endedLaunch s k l else
        { endedLaunch s k l with digests := l.digests.set 3 (setDigest s (setRegions l.params 3)) }, launch_ended hs running stays past dry, ?_⟩
    cases realtime : l.realtime
    · have noted := noted_fixResult k (endedLaunch s k l) s
      rw [setLaunch_single hs] at noted
      rw [if_neg (by decide), if_neg (by decide)]
      generalize fixResult k (endedLaunch s k l) s = t at noted
      unfold Noted at noted
      exact ⟨by rw [noted]; rfl, rfl, rfl, rfl, fun _ => rfl, by rw [noted], by rw [noted], by rw [noted], fun e => absurd e (by decide)⟩
    · rw [if_pos rfl, if_pos rfl, setLaunch_single hs]
      exact ⟨rfl, rfl, rfl, rfl, fun e => absurd e (by decide), rfl, rfl, rfl, fun _ => rfl⟩
  · have command : exec .launchRelease s = .next (driftRefresh (resetsProceed (releaseOne k l s))) := by
      change Host.Outcome.next (driftRefresh (resetsProceed (eachLaunch releaseOne s))) = _
      rw [eachLaunch_single hs]
    obtain ⟨mem, slots, waits, ends⟩ := released_spec hs ho phase held past
    refine ⟨_, command, ?_⟩
    have frame := afterRelease (releaseOne k l s)
    generalize releaseOne k l s = u at *
    generalize driftRefresh (resetsProceed u) = t at *
    refine ⟨by rw [frame]; exact mem, fun x hx p hp => slots x hx p (by rw [frame] at hp; exact hp), fun a b => ?_, fun a => ?_⟩
    · rw [frame]
      exact waits a b
    · obtain ⟨gone, done⟩ := ends a
      exact ⟨by rw [frame]; exact gone, done.of_eq (by rw [frame]) (by rw [frame]) (by rw [frame])⟩
  · have command : exec .ticketWrite s = .next (endOp k l.status (ticketed s l)) := by
      change (if secRuns s then _ else _) = _
      rw [if_pos runs, eachLaunch_single hs, if_pos phase, writeTicket_eq]
    obtain ⟨stored, refused, moved, count, table, fe⟩ := ticketed_spec wf h h48
    generalize ticketed s l = u at *
    obtain ⟨gone, done, ⟨-, -, -, pends⟩, bar, frame⟩ := endOp_spec (table.trans hs) (fe ▸ ho) l.status
    refine ⟨_, command, gone, done.of_fe_eq fe, ?_⟩
    generalize endOp k l.status u = t at *
    have mem : t.mem = u.mem := by rw [frame]
    have od : t.od = u.od := by rw [frame]
    refine ⟨fun e => ?_, fun e => ⟨mem.trans (refused e).1, pends _ (refused e).2⟩, (bar _ (by decide)).trans moved,
      (odGet_of_od_eq od _ _).trans count⟩
    obtain ⟨loaded, kept⟩ := stored e
    exact ⟨by rw [load, mem]; exact loaded, fun i hi => by rw [byteAt, mem]; exact kept i hi⟩
  · have command : exec .killDone s = .next (endOp k l.killStatus (l.toZero.foldl (fun t b => zeroBank b t) s)) := by
      change Host.Outcome.next (eachLaunch killedOne s) = _
      rw [eachLaunch_single hs, killedOne, if_neg (by simp [phase, released])]
    obtain ⟨wfu, zero, kept, zeroed⟩ := zeroBanks_spec l.toZero wf
    refine ⟨_, command, ?_⟩
    generalize l.toZero.foldl (fun t b => zeroBank b t) s = u at *
    have fe : u.fe = s.fe := by rw [zeroed]
    obtain ⟨gone, done, -, -, frame⟩ := endOp_spec (k := k) (l := l) (s := u) (by rw [zeroed]; exact hs) (fe ▸ ho) l.killStatus
    generalize endOp k l.killStatus u = t at *
    have mem : t.mem = u.mem := by rw [frame]
    refine ⟨gone, done.of_fe_eq fe, by rw [State.memOk, mem]; exact wfu, fun b hb i hi => ?_, fun i hi => ?_⟩
    · rw [byteAt, mem]
      exact zero b (.inl hb) i hi
    · rw [byteAt, mem]
      exact kept i hi

end Sys2Proof.Machine
end

section
/-! PROOFS. What every command keeps: the fuses, the audit log's count, the waiting queue, and the canonical form of memory and of the
keyed tables (O3, O5): the relation, and the updates that touch what it speaks of. -/

namespace Sys2Proof.Machine

/-! ## The relation -/

/-- What the relation speaks of: fields that differ nowhere here make no difference to it. -/
def tracked (s : State) : Fuse × Nat × List Instr × Memory × KMap Nat × KMap Nat × KMap Nat × KMap Chunk × KMap Nat × KMap Session ×
    KMap (List Vc3Ent) :=
  (s.plat.fuse, s.serv.auditCount, s.pending, s.mem, s.od, s.bar0, s.spent, s.chunks, s.host.irq, s.serv.sessions, s.vc3Held)

/-- From r to s the fuses and the waiting queue are as they were, the audit log has lost no record of its count, and the canonical forms
of memory and tables still stand. -/
structure Keeps (r s : State) : Prop where
  fuse : s.plat.fuse = r.plat.fuse
  audit : r.serv.auditCount ≤ s.serv.auditCount
  queue : s.pending = r.pending
  memOk : r.memOk → s.memOk
  od : keysRise r.od = true → keysRise s.od = true
  keyed : r.keyed → s.keyed

/-- What a meaning answers keeps all of it. -/
def KeepsNext (r : State) (x : Result) : Prop := ∀ t, x = .next t → Keeps r t

variable {s₀ s t : State}

theorem Keeps.refl (s : State) : Keeps s s := ⟨rfl, Nat.le_refl _, rfl, id, id, id⟩

/-- An update of other fields. -/
theorem Keeps.same (h : Keeps s₀ s) (e : tracked t = tracked s) : Keeps s₀ t := by
  simp only [tracked, Prod.mk.injEq] at e
  obtain ⟨fuse, count, queue, mem, od, bar, spent, chunks, irq, sessions, held⟩ := e
  refine ⟨fuse.trans h.fuse, count ▸ h.audit, queue.trans h.queue, fun k => ?_, fun k => ?_, fun k => ?_⟩
  · rw [State.memOk, mem]
    exact h.memOk k
  · rw [od]
    exact h.od k
  · rw [State.keyed, od, bar, spent, chunks, irq, sessions, held]
    exact h.keyed k

theorem Keeps.ite {c : Prop} [Decidable c] (h1 : Keeps s₀ s) (h2 : Keeps s₀ t) : Keeps s₀ (if c then s else t) := by
  split <;> assumption

theorem Keeps.foldl {α : Type} {f : State → α → State} (step : ∀ t x, Keeps s₀ t → Keeps s₀ (f t x)) {l : List α} (h : Keeps s₀ s) :
    Keeps s₀ (l.foldl f s) := by
  induction l generalizing s with
  | nil => exact h
  | cons x l ih => exact ih (step s x h)

theorem Keeps.foldlFst {α β : Type} {f : State × β → α → State × β} (step : ∀ p x, Keeps s₀ p.1 → Keeps s₀ (f p x).1) {l : List α}
    {p : State × β} (h : Keeps s₀ p.1) : Keeps s₀ (l.foldl f p).1 := by
  induction l generalizing p with
  | nil => exact h
  | cons x l ih => exact ih (step p x h)

theorem Keeps.foldlSnd {α β : Type} {f : β × State → α → β × State} (step : ∀ p x, Keeps s₀ p.2 → Keeps s₀ (f p x).2) {l : List α}
    {p : β × State} (h : Keeps s₀ p.2) : Keeps s₀ (l.foldl f p).2 := by
  induction l generalizing p with
  | nil => exact h
  | cons x l ih => exact ih (step p x h)

/-- The state in a pair that is taken apart. -/
theorem Keeps.snd {α : Type} {p : α × State} {x : α} (e : p = (x, t)) (h : Keeps s₀ p.2) : Keeps s₀ t := by
  rw [e] at h
  exact h

theorem KeepsNext.next (h : Keeps s₀ s) : KeepsNext s₀ (.next s) := fun t e => by
  injection e with e
  exact e ▸ h

theorem KeepsNext.ite {c : Prop} [Decidable c] {x y : Result} (h1 : KeepsNext s₀ x) (h2 : KeepsNext s₀ y) :
    KeepsNext s₀ (if c then x else y) := by
  split <;> assumption

/-! ## The updates of tables and memory -/

/-- An update of one table or of the memory that leaves its form. -/
theorem Keeps.withMem {m : Memory} (h : Keeps s₀ s) (k : memWf s.mem = true → memWf m = true) : Keeps s₀ { s with mem := m } :=
  ⟨h.fuse, h.audit, h.queue, fun w => k (h.memOk w), h.od, h.keyed⟩

theorem Keeps.withOd {m : KMap Nat} (h : Keeps s₀ s) (k : keysRise s.od = true → keysRise m = true) : Keeps s₀ { s with od := m } :=
  ⟨h.fuse, h.audit, h.queue, h.memOk, fun w => k (h.od w), fun w => let ⟨od, rest⟩ := h.keyed w; ⟨k od, rest⟩⟩

theorem Keeps.withBar0 {m : KMap Nat} (h : Keeps s₀ s) (k : keysRise s.bar0 = true → keysRise m = true) : Keeps s₀ { s with bar0 := m } :=
  ⟨h.fuse, h.audit, h.queue, h.memOk, h.od, fun w => let ⟨od, bar, rest⟩ := h.keyed w; ⟨od, k bar, rest⟩⟩

theorem Keeps.withSpent {m : KMap Nat} (h : Keeps s₀ s) (k : keysRise s.spent = true → keysRise m = true) :
    Keeps s₀ { s with spent := m } :=
  ⟨h.fuse, h.audit, h.queue, h.memOk, h.od, fun w => let ⟨od, bar, spent, rest⟩ := h.keyed w; ⟨od, bar, k spent, rest⟩⟩

theorem Keeps.withChunks {m : KMap Chunk} (h : Keeps s₀ s) (k : keysRise s.chunks = true → keysRise m = true) :
    Keeps s₀ { s with chunks := m } :=
  ⟨h.fuse, h.audit, h.queue, h.memOk, h.od, fun w =>
    let ⟨od, bar, spent, chunks, rest⟩ := h.keyed w; ⟨od, bar, spent, k chunks, rest⟩⟩

/-- An update of the host link that leaves the pending interrupts in order. -/
theorem Keeps.withHost {x : HostSt} (h : Keeps s₀ s) (k : keysRise s.host.irq = true → keysRise x.irq = true) :
    Keeps s₀ { s with host := x } :=
  ⟨h.fuse, h.audit, h.queue, h.memOk, h.od, fun w =>
    let ⟨od, bar, spent, chunks, irq, rest⟩ := h.keyed w; ⟨od, bar, spent, chunks, k irq, rest⟩⟩

/-- An update of the service that leaves the sessions in order and loses no audit record. -/
theorem Keeps.withServ {x : Serv} (h : Keeps s₀ s) (count : s.serv.auditCount ≤ x.auditCount)
    (k : keysRise s.serv.sessions = true → keysRise x.sessions = true) : Keeps s₀ { s with serv := x } :=
  ⟨h.fuse, h.audit.trans count, h.queue, h.memOk, h.od, fun w =>
    let ⟨od, bar, spent, chunks, irq, sessions, held⟩ := h.keyed w; ⟨od, bar, spent, chunks, irq, k sessions, held⟩⟩

theorem Keeps.withHeld {m : KMap (List Vc3Ent)} (h : Keeps s₀ s) (k : keysRise s.vc3Held = true → keysRise m = true) :
    Keeps s₀ { s with vc3Held := m } :=
  ⟨h.fuse, h.audit, h.queue, h.memOk, h.od, fun w =>
    let ⟨od, bar, spent, chunks, irq, sessions, held⟩ := h.keyed w; ⟨od, bar, spent, chunks, irq, sessions, k held⟩⟩

/-- A table whose values change at the keys that it has. -/
theorem keysRise_map {α β : Type} {m : KMap α} {f : Nat × α → Nat × β} (same : ∀ p, (f p).1 = p.1) (h : keysRise m = true) :
    keysRise (m.map f) = true := by
  rw [keysRise_iff] at *
  rwa [List.map_map, show Prod.fst ∘ f = Prod.fst from funext same]

theorem Keeps.odSet {i j v : Nat} (h : Keeps s₀ s) : Keeps s₀ (odSet s i j v) := h.withOd (keysRise_kput _ _ _)

theorem Keeps.barSet {off v : Nat} (h : Keeps s₀ s) : Keeps s₀ (barSet s off v) := h.withBar0 (keysRise_kput _ _ _)

theorem Keeps.budgetAdd {g sub n : Nat} (h : Keeps s₀ s) : Keeps s₀ (budgetAdd g sub n s) := h.withSpent (keysRise_kput _ _ _)

theorem Keeps.budgetRepay (h : Keeps s₀ s) : Keeps s₀ (budgetRepay s) :=
  .same (h.withSpent (m := (Machine.budgetRepay s).spent) fun k => keysRise_filter _ _ (keysRise_map (fun _ => rfl) k)) rfl

/-- An update of the host link and of what is sent. -/
theorem Keeps.hostOnly (h : Keeps s₀ s) (e : HostOnly s t) (k : keysRise s.host.irq = true → keysRise t.host.irq = true) :
    Keeps s₀ t := by
  rw [e]
  exact .same (h.withHost k) rfl

theorem Keeps.vectorStep (h : Keeps s₀ s) : Keeps s₀ (vectorStep s) :=
  h.hostOnly (hostOnly_vectorStep s) (by rw [vectorStep_irq]; exact id)

theorem Keeps.raise {n : Nat} (h : Keeps s₀ s) : Keeps s₀ (raise n s) :=
  h.hostOnly (hostOnly_raise n s) (by rw [raise_irq]; exact keysRise_kput _ _ _)

theorem Keeps.zeroBank {b : Nat} (h : Keeps s₀ s) : Keeps s₀ (zeroBank b s) :=
  .same (h.withMem (memWf_memZero _ (bankBase b) (bankBase b + 64 * bankWords b))) rfl

theorem Keeps.store {a : Nat} {d : List Byte} (h : Keeps s₀ s) : Keeps s₀ (store a d s) :=
  .same (h.withMem (memWf_memStore _ a d)) rfl

end Sys2Proof.Machine
end

section
/-! PROOFS. What every command keeps (O3, O5): the shared operations, the log and the dictionary, the queue, security,
the banks, the tiles and gloves, power and the host link.
One lemma per function of the model, in the model's order: `h` says that the relation holds before it. -/

namespace Sys2Proof.Machine

variable {s₀ s t : State}

/-! ### Ops.lean -/

theorem Keeps.winSet {a v : Nat} (h : Keeps s₀ s) : Keeps s₀ (winSet s a v) := .same h rfl

theorem Keeps.winBump {a lo w d : Nat} (h : Keeps s₀ s) : Keeps s₀ (winBump s a lo w d) := .winSet h

theorem Keeps.winPut {a lo w x : Nat} (h : Keeps s₀ s) : Keeps s₀ (winPut s a lo w x) := .winSet h

theorem Keeps.winMax {a lo w x : Nat} (h : Keeps s₀ s) : Keeps s₀ (winMax s a lo w x) := .winSet h

theorem Keeps.winCount64 {a d : Nat} (h : Keeps s₀ s) : Keeps s₀ (winCount64 s a d) := .winSet (.winSet h)

theorem Keeps.barPut {off lo w x : Nat} (h : Keeps s₀ s) : Keeps s₀ (barPut s off lo w x) := .barSet h

theorem Keeps.barBump {off lo w d : Nat} (h : Keeps s₀ s) : Keeps s₀ (barBump s off lo w d) := .barSet h

theorem Keeps.odBump {index sub w d : Nat} (h : Keeps s₀ s) : Keeps s₀ (odBump s index sub w d) := .odSet h

theorem Keeps.forceAll (h : Keeps s₀ s) : Keeps s₀ (forceAll s) := .same h rfl

theorem Keeps.msixSend {v : Nat} (h : Keeps s₀ s) : Keeps s₀ (msixSend s v) := .ite (.same h rfl) (.same h rfl)

theorem Keeps.msixFlush (h : Keeps s₀ s) : Keeps s₀ (msixFlush s) := .foldl (fun _ _ h1 => .ite (.msixSend h1) h1) h

theorem Keeps.drawFree (h : Keeps s₀ s) : Keeps s₀ (drawFree s).2 := .same h rfl

theorem Keeps.vc3Take {pos : Nat} {e : Vc3Ent} (h : Keeps s₀ s) : Keeps s₀ (vc3Take pos e s) :=
  have held (l : List Vc3Ent) : Keeps s₀ { s with vc3Held := kput s.vc3Held pos l } := h.withHeld (keysRise_kput _ _ _)
  .ite (.odBump (.winBump (held _))) (.winMax (held _))

theorem Keeps.vc3Arrive {pos : Nat} {e : Vc3Ent} (h : Keeps s₀ s) : Keeps s₀ (vc3Arrive pos e s) := .ite (.vc3Take h) (.same h rfl)

theorem Keeps.vc3Raise {pos : Nat} {r : Vc3} (h : Keeps s₀ s) : Keeps s₀ (vc3Raise pos r s) := .vc3Arrive h

theorem Keeps.report {pos code unit sub glove : Nat} {detail : List Byte} (h : Keeps s₀ s) :
    Keeps s₀ (report pos code unit sub glove detail s) :=
  .vc3Raise h

theorem Keeps.enterSafe {bit : Nat} (h : Keeps s₀ s) : Keeps s₀ (enterSafe bit s) := .ite (.raise (.winPut (.same h rfl))) (.same h rfl)

theorem Keeps.holdCause {bit : Nat} {on : Bool} (h : Keeps s₀ s) : Keeps s₀ (holdCause bit on s) := .same h rfl

theorem Keeps.dangerous (h : Keeps s₀ s) : Keeps s₀ (dangerous s) := .odBump (.winBump h)

theorem Keeps.setDomain {d code : Nat} (h : Keeps s₀ s) : Keeps s₀ (setDomain s d code) := .odSet h

theorem Keeps.setBankState {b code : Nat} (h : Keeps s₀ s) : Keeps s₀ (setBankState b code s) := .winPut h

theorem Keeps.setBankAux {b : Nat} {x : BankAux} (h : Keeps s₀ s) : Keeps s₀ (setBankAux b x s) := .same h rfl

theorem Keeps.ownerReject {g port b addr : Nat} (h : Keeps s₀ s) : Keeps s₀ (ownerReject g port b addr s) :=
  .report (.ite (.odBump h) (.odBump h))

theorem Keeps.stateFault {g port : Nat} {write : Bool} {b addr : Nat} (h : Keeps s₀ s) : Keeps s₀ (stateFault g port write b addr s) := by
  unfold Machine.stateFault
  extract_lets _ _ t s1
  have h' : Keeps s₀ t := .winPut (.winPut (.winPut (.winPut (.winBump h))))
  have h1 : Keeps s₀ s1 := .ite (.winPut (.winPut (.winPut (.winPut (.winBump h))))) (.winSet h')
  exact .raise h1

theorem Keeps.bankCheck {g port : Nat} {write : Bool} {b addr : Nat} (h : Keeps s₀ s) : Keeps s₀ (bankCheck g port write b addr s).2 := by
  unfold Machine.bankCheck
  split
  · exact .ownerReject h
  · split
    · exact .stateFault h
    · exact h

theorem Keeps.bankConflict {g b addr : Nat} (h : Keeps s₀ s) : Keeps s₀ (bankConflict g b addr s) := .report (.raise (.winBump h))

theorem Keeps.tierReadChecks {g a n : Nat} (h : Keeps s₀ s) : Keeps s₀ (tierReadChecks g a n s) := by
  unfold Machine.tierReadChecks
  refine .foldl (fun _ _ k => ?_) h
  extract_lets _ _ t1
  have h1 : Keeps s₀ t1 := .odBump (.winBump k)
  split
  · exact k
  · exact .odBump (.winBump k)
  · exact .ite h1 (.raise (.report h1))

theorem Keeps.ownReads {a n : Nat} (h : Keeps s₀ s) : Keeps s₀ (ownReads a n s) := .foldl (fun _ _ h1 => .tierReadChecks h1) h

theorem Keeps.reject {g a len source reason unit : Nat} (h : Keeps s₀ s) : Keeps s₀ (reject g a len source reason unit s) :=
  .raise (.report (.odSet (.odBump h)))

theorem Keeps.hostWrite {a : Nat} {d : List Byte} (h : Keeps s₀ s) : Keeps s₀ (hostWrite a d s) := .ite (.same h rfl) (.same h rfl)

theorem Keeps.budgetStall {g : Nat} (h : Keeps s₀ s) : Keeps s₀ (budgetStall g s) :=
  .ite (.ite (.odBump h) (.odBump h)) (.raise (.same (.ite (.odBump h) (.odBump h)) rfl))

/-! ### Operands.lean -/

theorem Keeps.barBytes {off : Nat} {b : List Byte} (h : Keeps s₀ s) : Keeps s₀ (barBytes off b s) := .foldl (fun _ _ h1 => .barSet h1) h

theorem Keeps.mailboxAnswer {op : Nat} {req : OdReq} {session abort : Nat} {data : List Byte} (h : Keeps s₀ s) :
    Keeps s₀ (mailboxAnswer op req session abort data s) :=
  .raise (.same (.barPut (.barPut (.barBytes h))) rfl)

theorem Keeps.respond {req : OdReq} {session abort : Nat} {data : List Byte} (h : Keeps s₀ s) :
    Keeps s₀ (respond req session abort data s) := by
  unfold Machine.respond
  extract_lets s1
  have h1 : Keeps s₀ s1 := .same h rfl
  split
  · exact .ite (.mailboxAnswer h1) h1
  · exact h1

theorem Keeps.auditSign (h : Keeps s₀ s) : Keeps s₀ (auditSign s) := by
  unfold Machine.auditSign
  split
  · extract_lets seq count msg s1
    have h1 : Keeps s₀ s1 := .odSet (.odSet (.odSet (.odSet h)))
    exact .raise (.odBump (h1.withServ (Nat.le_refl _) id))
  · exact h.withServ (Nat.le_refl _) id

theorem Keeps.auditStore {w : AuditWait} (h : Keeps s₀ s) : Keeps s₀ (auditStore w s) :=
  have stored (a : KMap (List Byte)) (c : List Byte) :
      Keeps s₀ { s with serv := { s.serv with audit := a, auditCount := s.serv.auditCount + 1, chain := c } } :=
    h.withServ (Nat.le_succ _) id
  .ite (.auditSign (stored _ _)) (stored _ _)

theorem Keeps.odAccept {index sub v : Nat} (h : Keeps s₀ s) : Keeps s₀ (odAccept index sub v s) := .odSet h

theorem Keeps.setSysTime {v : Nat} (h : Keeps s₀ s) : Keeps s₀ (setSysTime v s) := .ite h (.raise (.odSet h))

theorem Keeps.refreshSysTime (h : Keeps s₀ s) : Keeps s₀ (refreshSysTime s) := .ite h (.ite (.setSysTime h) (.setSysTime h))

theorem Keeps.restartCells {v : Nat} (h : Keeps s₀ s) : Keeps s₀ (restartCells v s) :=
  .ite (.setSysTime (.same h rfl)) (.refreshSysTime (.same h rfl))

theorem Keeps.applyWrite {req : OdReq} (h : Keeps s₀ s) : Keeps s₀ (applyWrite req s) := by
  unfold Machine.applyWrite
  extract_lets _ _ _ _ s1
  have h1 : Keeps s₀ s1 := .odAccept h
  exact .ite (.same h rfl) (.ite (.same h rfl) (.ite (.same h1 rfl) (.ite (.restartCells h1) (.ite (.restartCells h1) h1))))

theorem Keeps.auditNext (h : Keeps s₀ s) : Keeps s₀ (auditNext s) := by
  unfold Machine.auditNext
  split
  · exact h
  · extract_lets _ s1
    have h1 : Keeps s₀ s1 := .auditStore (.same h rfl)
    exact .respond (.ite (.applyWrite h1) h1)

theorem Keeps.auditFlush (h : Keeps s₀ s) : Keeps s₀ (auditFlush s) := .foldl (fun _ _ h1 => .auditNext h1) h

theorem Keeps.mgmtWake (h : Keeps s₀ s) : Keeps s₀ (mgmtWake s) := .ite (.raise (.odBump (.setDomain h))) h

theorem Keeps.serveNext (h : Keeps s₀ s) : Keeps s₀ (serveNext s) := .auditFlush (.mgmtWake h)

/-- What an entry with behaviour of its own does, accepted or refused. -/
def OwnEntry.Keeping (e : OwnEntry) : Prop :=
  ∀ (s₀ s : State) (req : OdReq), Keeps s₀ s → Keeps s₀ (e.effect req s) ∧ Keeps s₀ (e.refused req s)

theorem Keeps.odWriteOwn {e : OwnEntry} {req : OdReq} (he : e.Keeping) (h : Keeps s₀ s) : Keeps s₀ (odWriteOwn e req s) := by
  unfold Machine.odWriteOwn
  split
  · extract_lets s0 a0 a s1
    have h1 : Keeps s₀ s1 := .ite (.auditStore (.serveNext h)) (.serveNext h)
    obtain ⟨effect, refused⟩ := he s₀ s1 req h1
    exact .respond (.ite effect (.ite refused h1))
  · exact h

theorem Keeps.accessLog {bar2 : Bool} {off be reason : Nat} (h : Keeps s₀ s) : Keeps s₀ (accessLog bar2 off be reason s) :=
  .raise (.barSet (.barPut (.barPut (.barPut (.barBump h)))))

/-! ### Params.lean -/

theorem Keeps.ndCount {key cause n : Nat} (h : Keeps s₀ s) : Keeps s₀ (ndCount key cause n s) := by
  unfold Machine.ndCount
  split
  · exact h
  · extract_lets
    exact .odBump (.odBump (.same h rfl))

theorem Keeps.ndHostWrite {g a n : Nat} (h : Keeps s₀ s) : Keeps s₀ (ndHostWrite g a n s) :=
  .foldl (fun _ _ h1 => .ite (.ite h1 (.ndCount h1)) h1) h

theorem Keeps.ndDiscard {g : Nat} (h : Keeps s₀ s) : Keeps s₀ (ndDiscard g s) := by
  unfold Machine.ndDiscard
  split
  · exact .ndCount h
  · exact h

/-! ### Queue.lean -/

theorem Keeps.hqError {bit : Nat} (h : Keeps s₀ s) : Keeps s₀ (hqError bit s) := .raise (.barPut h)

theorem Keeps.feWith {f : FrontEnd → FrontEnd} (h : Keeps s₀ s) : Keeps s₀ (feWith f s) := .same h rfl

theorem Keeps.setOp {k : Nat} {o : Op} (h : Keeps s₀ s) : Keeps s₀ (setOp k o s) := .feWith h

theorem Keeps.bufAdj {seq : Nat} {f : Buf → Buf} (h : Keeps s₀ s) : Keeps s₀ (bufAdj seq f s) := .feWith h

theorem Keeps.hostRead {w : ReadFor} {addr len : Nat} (h : Keeps s₀ s) : Keeps s₀ (hostRead w addr len s) := .same h rfl

theorem Keeps.dropOrphans (h : Keeps s₀ s) : Keeps s₀ (dropOrphans s) := .feWith h

theorem Keeps.completeOne {k : Nat} {o : Op} {st : Nat} (h : Keeps s₀ s) : Keeps s₀ (completeOne k o st s) := by
  unfold Machine.completeOne
  extract_lets s1 s2 s3
  have h1 : Keeps s₀ s1 := .feWith h
  have h2 : Keeps s₀ s2 := .bufAdj h1
  have h3 : Keeps s₀ s3 := by
    unfold s3
    split
    · exact .barBump h2
    · split
      · exact h2
      · extract_lets t t1
        have h' : Keeps s₀ t := .hostWrite h2
        have h1' : Keeps s₀ t1 := .ite (.raise h') h'
        exact .ite h1' (.raise h1')
  exact .ite (.feWith h3) h3

theorem Keeps.completeAll {n : Nat} {l : List (Nat × Nat)} (h : Keeps s₀ s) : Keeps s₀ (completeAll n l s) := by
  induction n generalizing l s with
  | zero => exact h
  | succ n ih =>
    cases l with
    | nil => exact h
    | cons p l =>
      unfold Machine.completeAll
      split
      · exact ih h
      · exact ih (.completeOne h)

theorem Keeps.completeOps {l : List (Nat × Nat)} (h : Keeps s₀ s) : Keeps s₀ (completeOps l s) := .dropOrphans (.completeAll h)

theorem Keeps.completeOp {k st : Nat} (h : Keeps s₀ s) : Keeps s₀ (completeOp k st s) := .completeOps h

theorem Keeps.startOp {k kind : Nat} {engine : List Nat} {o : Op} (h : Keeps s₀ s) (e : startOp s k kind engine = some (o, t)) :
    Keeps s₀ t := by
  unfold Machine.startOp at e
  split at e
  · cases e
  · split at e <;> cases e
    exact .setOp h

theorem Keeps.killLaunch {key st : Nat} (h : Keeps s₀ s) : Keeps s₀ (killLaunch key st s) := by
  unfold Machine.killLaunch
  split
  · exact h
  · exact .ite h (.same h rfl)

theorem Keeps.endLaunch {k : Nat} {o : Op} {kill : Bool} (h : Keeps s₀ s) : Keeps s₀ (endLaunch k o kill s) := by
  unfold Machine.endLaunch
  split
  · exact .completeOp h
  · exact .ite (.completeOp h) (.ite (.completeOp h) (.completeOp (.ite (.killLaunch h) (.same h rfl))))

theorem KeepsNext.execHqTailWrite {data : Reg} (h : Keeps s₀ s) : KeepsNext s₀ (execHqTailWrite data s) :=
  .ite (.next (.hqError h)) (.next (.barSet h))

theorem Keeps.ringReset (h : Keeps s₀ s) : Keeps s₀ (ringReset s) := .completeOps (.feWith h)

theorem KeepsNext.execHqReset {data : Reg} (h : Keeps s₀ s) : KeepsNext s₀ (execHqReset data s) :=
  .ite (.next (.barPut h)) (.next (.ringReset (.barPut h)))

theorem Keeps.ringResetDone (h : Keeps s₀ s) : Keeps s₀ (ringResetDone s) := .raise (.feWith (.barPut (.barSet (.barSet h))))

theorem KeepsNext.execHqResetDone (h : Keeps s₀ s) : KeepsNext s₀ (execHqResetDone s) := .ite (.next (.ringResetDone h)) (.next h)

theorem Keeps.readEntry (h : Keeps s₀ s) : Keeps s₀ (readEntry s) := .hostRead (.feWith h)

theorem KeepsNext.execBufferPrefetch (h : Keeps s₀ s) : KeepsNext s₀ (execBufferPrefetch s) := .ite (.next (.readEntry h)) (.next h)

theorem Keeps.preAdj {seq : Nat} {f : Buf → Buf} (h : Keeps s₀ s) : Keeps s₀ (preAdj seq f s) := .feWith h

theorem Keeps.readDescs {b : Buf} {n : Nat} (h : Keeps s₀ s) : Keeps s₀ (readDescs b n s) := .ite (.hostRead h) h

theorem Keeps.bufferData {w : ReadFor} {data : Option (List Byte)} (h : Keeps s₀ s) : Keeps s₀ (bufferData w data s) := by
  unfold Machine.bufferData
  split
  · extract_lets _ s1
    have h1 : Keeps s₀ s1 := .preAdj h
    exact .ite h1 (.readDescs h1)
  · exact .preAdj h
  · extract_lets
    exact .preAdj h
  · exact .preAdj h
  · exact h

theorem Keeps.becomeCurrent {b : Buf} (h : Keeps s₀ s) : Keeps s₀ (becomeCurrent b s) :=
  .ite (.hqError (.barPut (.barSet (.feWith h)))) (.barSet (.feWith h))

theorem KeepsNext.execBufferCurrent (h : Keeps s₀ s) : KeepsNext s₀ (execBufferCurrent s) := by
  unfold Machine.execBufferCurrent
  split
  · exact .next h
  · split
    · exact .ite (.next (.readEntry h)) (.next h)
    · exact .ite (.next h) (.ite (.next (.becomeCurrent h)) (.ite (.next (.readDescs h)) (.next h)))

theorem KeepsNext.execOpDispatch (h : Keeps s₀ s) : KeepsNext s₀ (execOpDispatch s) := by
  unfold Machine.execOpDispatch
  split
  · exact .next h
  · split
    · exact .next h
    · split
      · exact .next h
      · extract_lets _ _ s1
        have h1 : Keeps s₀ s1 := .setOp (.bufAdj h)
        exact .ite (.next (.completeOp h1)) (.ite (.next (.completeOp h1)) (.next h1))

theorem KeepsNext.execNopOp {op : Nat} (h : Keeps s₀ s) : KeepsNext s₀ (execNopOp op s) := by
  unfold Machine.execNopOp
  split
  · exact .next h
  · rename_i fst s1 e
    have hs1 : Keeps s₀ s1 := .startOp h e
    exact .next (.completeOp hs1)

theorem KeepsNext.execDrain {op : Nat} (h : Keeps s₀ s) : KeepsNext s₀ (execDrain op s) := by
  unfold Machine.execDrain
  split
  · exact .next h
  · rename_i o s1 e
    have hs1 : Keeps s₀ s1 := .startOp h e
    exact .next (.endLaunch hs1)

theorem KeepsNext.execKill {op : Nat} (h : Keeps s₀ s) : KeepsNext s₀ (execKill op s) := by
  unfold Machine.execKill
  split
  · exact .next h
  · rename_i o s1 e
    have hs1 : Keeps s₀ s1 := .startOp h e
    exact .next (.endLaunch hs1)

theorem KeepsNext.execOpTrigger (h : Keeps s₀ s) : KeepsNext s₀ (execOpTrigger s) := by
  unfold Machine.execOpTrigger
  split
  · exact .next h
  · extract_lets s1
    have h1 : Keeps s₀ s1 := .feWith h
    split
    · exact .next h1
    · exact .ite (.next h1) (.ite (.next (.setOp h1)) (.next (.completeOp h1)))

theorem KeepsNext.execBufferRetire (h : Keeps s₀ s) : KeepsNext s₀ (execBufferRetire s) := by
  unfold Machine.execBufferRetire
  split
  · exact .next h
  · split
    · exact .next h
    · extract_lets s1 s2 _ s3 s4
      have h1 : Keeps s₀ s1 := .feWith h
      have h2 : Keeps s₀ s2 := .ite (.hostWrite h1) h1
      have h3 : Keeps s₀ s3 := .barSet h2
      have h4 : Keeps s₀ s4 := .ite (.hostWrite h3) h3
      exact .next (.ite (.raise h4) h4)

theorem KeepsNext.execNoProgressLimit {op : Nat} (h : Keeps s₀ s) : KeepsNext s₀ (execNoProgressLimit op s) := by
  unfold Machine.execNoProgressLimit
  split
  · exact .next h
  · split
    · exact .next h
    · extract_lets s1
      have h1 : Keeps s₀ s1 := .raise (.barPut h)
      split
      · exact .ite (.next (.same h1 rfl)) (.next (.killLaunch h1))
      · exact .ite (.ite (.next (.setOp h1)) (.next (.completeOp h1))) (.next (.completeOp h1))

/-! ### Security.lean -/

theorem Keeps.setSec {x : SecSt} (h : Keeps s₀ s) : Keeps s₀ (setSec x s) := .same h rfl

theorem Keeps.pkeStart (h : Keeps s₀ s) : Keeps s₀ (pkeStart s) := by
  unfold Machine.pkeStart
  split
  · exact .ite (.setSec h) h
  · exact h

theorem Keeps.secEnter {m : SecMode} (h : Keeps s₀ s) : Keeps s₀ (secEnter m s) := by
  unfold Machine.secEnter
  split
  · exact h
  · extract_lets _ s1 s2
    have h1 : Keeps s₀ s1 := .raise (.setSec h)
    have h2 : Keeps s₀ s2 := .ite h1 (.pkeStart h1)
    exact .ite (.auditSign h2) h2

theorem Keeps.drbgInstantiate {i : Nat} {seed : List Byte} (h : Keeps s₀ s) : Keeps s₀ (drbgInstantiate i seed s) := .setSec h

theorem Keeps.drbgReseedWith {i : Nat} {seed : List Byte} (h : Keeps s₀ s) : Keeps s₀ (drbgReseedWith i seed s) := by
  unfold Machine.drbgReseedWith
  split
  · exact h
  · extract_lets
    exact .setSec h

theorem Keeps.drbgDrop {i : Nat} (h : Keeps s₀ s) : Keeps s₀ (drbgDrop i s) := .setSec h

theorem Keeps.drbgDue {i : Nat} (h : Keeps s₀ s) : Keeps s₀ (drbgDue i s) := by
  unfold Machine.drbgDue
  split
  · exact h
  · exact .ite h (.setSec h)

theorem Keeps.drbgGenerate {i : Nat} (h : Keeps s₀ s) : Keeps s₀ (drbgGenerate i s) := by
  unfold Machine.drbgGenerate
  split
  · exact h
  · split
    rename_i t v eq
    split
    rename_i k2 v2 eq'
    extract_lets _ _ _ s1 s2 s3
    have h1 : Keeps s₀ s1 := .setSec h
    have h2 : Keeps s₀ s2 := .ite (.drbgDue h1) h1
    have h3 : Keeps s₀ s3 := .ite (.raise h2) h2
    exact .ite (.raise h3) h3

theorem Keeps.drbgDraw {i : Nat} (h : Keeps s₀ s) : Keeps s₀ (drbgDraw i s).2 := by
  unfold Machine.drbgDraw
  split
  · exact h
  · extract_lets s1
    have h1 : Keeps s₀ s1 := .drbgGenerate h
    split
    · exact h1
    · exact .setSec h1

theorem Keeps.serveSeeds {n : Nat} (h : Keeps s₀ s) : Keeps s₀ (serveSeeds n s) := by
  induction n generalizing s with
  | zero => exact h
  | succ n ih =>
    unfold Machine.serveSeeds
    split
    · refine ih ?_
      dsimp only
      have h2 {x : SecSt} {i : Nat} {seed : List Byte} {new : Bool} :
          Keeps s₀ (if new then Machine.drbgInstantiate i seed (Machine.setSec x s) else Machine.drbgReseedWith i seed (Machine.setSec x s)) :=
        .ite (.drbgInstantiate (.setSec h)) (.drbgReseedWith (.setSec h))
      exact .ite (.secEnter h2) h2
    · exact h

theorem Keeps.wantGlove {g : Nat} (h : Keeps s₀ s) : Keeps s₀ (wantGlove g s) := .serveSeeds (.setSec h)

theorem Keeps.secFail (h : Keeps s₀ s) : Keeps s₀ (secFail s) := .secEnter (.setSec h)

theorem Keeps.secPowerUp (h : Keeps s₀ s) : Keeps s₀ (secPowerUp s) := .raise (.setSec h)

theorem Keeps.secRecover (h : Keeps s₀ s) : Keeps s₀ (secRecover s) := .ite (.secEnter (.setSec h)) h

theorem Keeps.publishCells (h : Keeps s₀ s) : Keeps s₀ (publishCells s) := .odSet h

theorem Keeps.cellFail {i : Nat} (h : Keeps s₀ s) : Keeps s₀ (cellFail i s) := .secRecover (.publishCells (.raise (.odBump (.setSec h))))

theorem Keeps.sampleCells {bits : Nat} (h : Keeps s₀ s) : Keeps s₀ (sampleCells bits s) := by
  refine .foldl (fun t i k => ?_) h
  dsimp only
  split
  · exact k
  · exact .ite k (.ite (.cellFail (.setSec k)) (.setSec k))

theorem Keeps.takeBlock {b : List Byte} (h : Keeps s₀ s) : Keeps s₀ (takeBlock b s) := by
  unfold Machine.takeBlock
  extract_lets _ _ s1
  have h1 : Keeps s₀ s1 := .odBump (.setSec h)
  exact .ite (.setSec h) (by split; exacts [.setSec h1, .setSec h1, .serveSeeds h1])

theorem Keeps.conditioningCall (h : Keeps s₀ s) : Keeps s₀ (conditioningCall s) := .ite (.takeBlock (.setSec h)) h

theorem Keeps.katDone {wrong : Nat} (h : Keeps s₀ s) : Keeps s₀ (katDone wrong s) := by
  unfold Machine.katDone
  split
  · exact h
  · extract_lets _ _ s1
    have h1 : Keeps s₀ s1 := .raise (.odSet (.setSec h))
    split
    · exact .secFail (.raise h1)
    · split
      · exact .secRecover (.serveSeeds (.secEnter (.drbgInstantiate (.setSec h1))))
      · exact .secRecover (.serveSeeds (.secEnter (.drbgReseedWith (.setSec h1))))
      · exact .serveSeeds (.secEnter h1)
      · exact h1

theorem Keeps.ecSignNow {hash : List Byte} (h : Keeps s₀ s) : Keeps s₀ (ecSignNow hash s).2 := by
  unfold Machine.ecSignNow
  split
  rename_i draw s1 eq
  have h1 : Keeps s₀ s1 := .snd eq (.drbgDraw h)
  extract_lets
  split
  rename_i r sv eq'
  split
  · exact h1
  · exact h1

theorem Keeps.pkeRun {r : PkeReq} (h : Keeps s₀ s) : Keeps s₀ (pkeRun r s).2 := by
  unfold Machine.pkeRun
  split
  · exact h
  · exact h
  · exact .ecSignNow h
  · exact h
  · split
    · exact h
    · exact .ecSignNow h

theorem Keeps.pkeAsk {r : PkeReq} (h : Keeps s₀ s) : Keeps s₀ (pkeAsk r s) := .pkeStart (.setSec h)

theorem Keeps.pkeComplete (h : Keeps s₀ s) : Keeps s₀ (pkeComplete s) := by
  unfold Machine.pkeComplete
  split
  · exact h
  · split
    rename_i res s1 eq
    have h1 : Keeps s₀ s1 := .snd eq (.pkeRun h)
    extract_lets _ s2 s3
    have h2 : Keeps s₀ s2 := .odBump (.setSec h1)
    have h3 : Keeps s₀ s3 := .ite h2 (.raise (.odBump h2))
    split
    · exact .ite (.pkeStart (.raise (.same h3 rfl))) (.pkeStart (.setSec h3))
    · exact .pkeStart h3

theorem Keeps.attestEffect {k : Nat} (h : Keeps s₀ s) : Keeps s₀ (attestEffect k s) := .pkeAsk (.same h rfl)

theorem Keeps.katEffect {mask : Nat} (h : Keeps s₀ s) : Keeps s₀ (katEffect mask s) := .secEnter (.setSec h)

theorem Keeps.drbgRead {g : Nat} (h : Keeps s₀ s) : Keeps s₀ (drbgRead g s).2 := by
  unfold Machine.drbgRead
  extract_lets
  split
  · split
    · split
      · exact .budgetAdd (.setSec h)
      · exact .ite (.barSet (.ite (.budgetStall h) h)) (.raise (.barSet (.ite (.budgetStall h) h)))
    · exact .ite (.barSet (.ite (.budgetStall h) h)) (.raise (.barSet (.ite (.budgetStall h) h)))
  · exact .ite (.barSet (.ite (.budgetStall h) h)) (.raise (.barSet (.ite (.budgetStall h) h)))

theorem KeepsNext.execEntropyCellSample {bits : Nat} (h : Keeps s₀ s) : KeepsNext s₀ (execEntropyCellSample bits s) := by
  unfold Machine.execEntropyCellSample
  exact .next (by split; exacts [h, h, .sampleCells h])

theorem KeepsNext.execCellStartupTestDone {cell : Nat} (h : Keeps s₀ s) : KeepsNext s₀ (execCellStartupTestDone cell s) := by
  unfold Machine.execCellStartupTestDone
  split
  · exact .next h
  · exact .next (by split; exacts [.ite (.publishCells (.setSec h)) h, h])

theorem KeepsNext.execCellRetest {cell : Nat} (h : Keeps s₀ s) : KeepsNext s₀ (execCellRetest cell s) := by
  unfold Machine.execCellRetest
  split
  · exact .next h
  · exact .next (.ite (.setSec h) h)

theorem KeepsNext.execConditioningCall (h : Keeps s₀ s) : KeepsNext s₀ (execConditioningCall s) := .next (.conditioningCall h)

theorem KeepsNext.execSecStartupTimeout (h : Keeps s₀ s) : KeepsNext s₀ (execSecStartupTimeout s) := .next (.ite (.secFail h) h)

theorem KeepsNext.execRecoveryTimeout (h : Keeps s₀ s) : KeepsNext s₀ (execRecoveryTimeout s) := .next (.ite (.secFail h) h)

theorem keeping_katEntry : OwnEntry.Keeping katEntry := fun _ _ _ h => ⟨.katEffect h, h⟩

theorem KeepsNext.execKatRequest {req : OdReq} (h : Keeps s₀ s) : KeepsNext s₀ (execKatRequest req s) :=
  .next (.odWriteOwn keeping_katEntry h)

theorem KeepsNext.execKatDone {wrong : Nat} (h : Keeps s₀ s) : KeepsNext s₀ (execKatDone wrong s) := .next (.katDone h)

theorem KeepsNext.execDrbgGenerate {inst : Nat} (h : Keeps s₀ s) : KeepsNext s₀ (execDrbgGenerate inst s) := by
  unfold Machine.execDrbgGenerate
  exact .next (by split; exacts [h, .ite (.drbgGenerate h) h])

theorem KeepsNext.execDrbgReseed (h : Keeps s₀ s) : KeepsNext s₀ (execDrbgReseed s) := by
  unfold Machine.execDrbgReseed
  extract_lets
  exact .next (by split; exacts [.drbgReseedWith (.setSec h), h])

theorem keeping_reseedEntry : OwnEntry.Keeping reseedEntry := fun _ _ _ h => ⟨.drbgDue h, h⟩

theorem KeepsNext.execDrbgReseedRequest {req : OdReq} (h : Keeps s₀ s) : KeepsNext s₀ (execDrbgReseedRequest req s) :=
  .next (.odWriteOwn keeping_reseedEntry h)

theorem KeepsNext.execDrbgDataRead {g be : Nat} (h : Keeps s₀ s) : KeepsNext s₀ (execDrbgDataRead g be s) :=
  .ite (.next h) (.next (.same (.drbgRead h) rfl))

theorem keeping_attestEntry : OwnEntry.Keeping attestEntry := fun _ _ _ h => ⟨.attestEffect h, h⟩

theorem KeepsNext.execAttestRequest {req : OdReq} (h : Keeps s₀ s) : KeepsNext s₀ (execAttestRequest req s) :=
  .next (.odWriteOwn keeping_attestEntry h)

theorem KeepsNext.execEd25519Sign {msg : List Byte} (h : Keeps s₀ s) : KeepsNext s₀ (execEd25519Sign msg s) := .next (.pkeAsk h)

theorem KeepsNext.execEd25519Verify {key msg sig : List Byte} (h : Keeps s₀ s) : KeepsNext s₀ (execEd25519Verify key msg sig s) :=
  .next (.pkeAsk h)

theorem KeepsNext.execEcdsaSign {hash : List Byte} (h : Keeps s₀ s) : KeepsNext s₀ (execEcdsaSign hash s) := .next (.pkeAsk h)

theorem KeepsNext.execEcdsaVerify {key hash sig : List Byte} (h : Keeps s₀ s) : KeepsNext s₀ (execEcdsaVerify key hash sig s) :=
  .next (.pkeAsk h)

theorem KeepsNext.execPkeComplete (h : Keeps s₀ s) : KeepsNext s₀ (execPkeComplete s) := .next (.pkeComplete h)

/-! ### Bank.lean -/

theorem Keeps.applyOp {a : Nat} {op : BOp} (h : Keeps s₀ s) : Keeps s₀ (applyOp a op s) := by
  unfold Machine.applyOp
  split
  · exact h
  · exact .store h
  · exact .foldl (fun _ _ h1 => .ite (.store h1) h1) h
  · exact .foldl (fun _ _ h1 => .ite (.store h1) h1) h

theorem Keeps.portAAct {b w : Nat} {op : BOp} (h : Keeps s₀ s) : Keeps s₀ (portAAct b w op s).2 := .applyOp (.setBankAux h)

theorem Keeps.clash {g b a : Nat} (h : Keeps s₀ s) : Keeps s₀ (clash g b a s) := .ndDiscard (.bankConflict h)

theorem Keeps.portBAct {g b w : Nat} {op : BOp} (h : Keeps s₀ s) : Keeps s₀ (portBAct g b w op s).2 := by
  have clashed : Keeps s₀ (Machine.clash g b (wordAddr b w) s) := .clash h
  have applied : Keeps s₀ (Machine.applyOp (wordAddr b w) op s) := .applyOp h
  unfold Machine.portBAct
  dsimp only
  cases op with
  | read => exact h
  | write => dsimp only; split <;> assumption
  | _ => dsimp only; split <;> assumption

theorem Keeps.bankAccess {port g b w : Nat} {op : BOp} (h : Keeps s₀ s) : Keeps s₀ (bankAccess port g b w op s).2 := by
  unfold Machine.bankAccess
  split
  rename_i st s1 eq
  have h1 : Keeps s₀ s1 := .snd eq (.bankCheck h)
  split
  · exact h1
  · split
    · exact .portAAct h1
    · exact .portBAct h1

/-! ### Tile.lean -/

theorem Keeps.setTile {pos : Nat} {t : Tile} (h : Keeps s₀ s) : Keeps s₀ (setTile pos t s) := .same h rfl

theorem Keeps.adjTile {pos : Nat} {f : Tile → Tile} (h : Keeps s₀ s) : Keeps s₀ (adjTile pos f s) := .setTile h

theorem Keeps.putItem {x : Item} (h : Keeps s₀ s) : Keeps s₀ (putItem x s) := .same h rfl

theorem Keeps.schedAt {c : Ctx} {tc : Nat} {a : Act} (h : Keeps s₀ s) : Keeps s₀ (schedAt c tc a s) := .putItem h

theorem Keeps.sched {c : Ctx} {d : Nat} {a : Act} (h : Keeps s₀ s) : Keeps s₀ (sched c d a s) := .schedAt h

theorem Keeps.schedIn {c : Ctx} {d : Nat} {a : Act} (h : Keeps s₀ s) : Keeps s₀ (schedIn c d a s) := .schedAt h

theorem Keeps.cancel {c : Ctx} (h : Keeps s₀ s) : Keeps s₀ (cancel c s) := .same h rfl

theorem Keeps.shift {c : Ctx} (h : Keeps s₀ s) : Keeps s₀ (shift c s) := .same h rfl

theorem Keeps.countIssue {c : Ctx} (h : Keeps s₀ s) : Keeps s₀ (countIssue c s) := .ite (.winCount64 h) (.same h rfl)

theorem Keeps.stepOn {c : Ctx} {cost : Nat} (h : Keeps s₀ s) : Keeps s₀ (stepOn c cost s) := .adjTile (.countIssue h)

theorem Keeps.excRecord {c : Ctx} {cause : Nat} (h : Keeps s₀ s) : Keeps s₀ (excRecord c cause s) :=
  .report (.ite h (.winSet (.winSet (.winSet h))))

theorem Keeps.setLatch {pos lslot : Nat} (h : Keeps s₀ s) : Keeps s₀ (setLatch pos lslot s) := .adjTile h

theorem Keeps.dryFrom {pos lslot dry frame : Nat} (h : Keeps s₀ s) : Keeps s₀ (dryFrom pos lslot dry frame s) := .adjTile h

theorem Keeps.setDry {pos lslot dry : Nat} (h : Keeps s₀ s) : Keeps s₀ (setDry pos lslot dry s) := .dryFrom h

theorem Keeps.noteFault {c : Ctx} {cause : Nat} (h : Keeps s₀ s) : Keeps s₀ (noteFault c cause s) := .ite h (.same h rfl)

theorem Keeps.takeExc {c : Ctx} {cause : Nat} (h : Keeps s₀ s) : Keeps s₀ (takeExc c cause s) :=
  .ite h (.ite (.cancel (.excRecord h)) (.setLatch (.setDry (.noteFault (.cancel (.excRecord h))))))

theorem Keeps.early {c : Ctx} {cause : Nat} (h : Keeps s₀ s) : Keeps s₀ (early c cause s) := .stepOn (.takeExc h)

theorem Keeps.startRead {c : Ctx} {cmn : Bool} {addr : Nat} {got : List (Nat × Nat)} {arg : Nat} (h : Keeps s₀ s) :
    Keeps s₀ (startRead c cmn addr got arg s) :=
  .sched h

theorem Keeps.handWords {c : Ctx} {d : Nat} {l : List Flit} (h : Keeps s₀ s) : Keeps s₀ (handWords c d l s) := by
  unfold Machine.handWords
  exact .foldl (fun _ _ h1 => by split; exacts [.sched h1, h1]) h

theorem Keeps.handNow {pos : Nat} {f : Flit} (h : Keeps s₀ s) : Keeps s₀ (handNow pos f s) :=
  .ite (.winMax (.setTile h)) (.report (.winBump h))

theorem Keeps.queueFlits {pos : Nat} {l : List VcFlit} (h : Keeps s₀ s) : Keeps s₀ (queueFlits pos l s) := .adjTile h

theorem Keeps.declareBank {b code : Nat} (h : Keeps s₀ s) : Keeps s₀ (declareBank b code s) := by
  unfold Machine.declareBank
  extract_lets _ _ s1
  have h1 : Keeps s₀ s1 := .ite h (.zeroBank h)
  exact .ite (.setBankState (.setBankAux h1)) (.ite (.setBankState (.setBankAux h)) (.setBankState (.setBankAux h)))

theorem Keeps.declare {pos : Nat} {w : WinDesc} {after : Bool} (h : Keeps s₀ s) : Keeps s₀ (declare pos w after s) :=
  .foldl (fun _ _ h1 => .declareBank h1) (.foldl (fun _ _ h1 => .declareBank h1) h)

theorem Keeps.unclaimed {pos tc : Nat} {f : Flit} (h : Keeps s₀ s) : Keeps s₀ (unclaimed pos tc f s) := .report (.winBump h)

/-! ### Glove.lean -/

theorem Keeps.setHand {b : Nat} {h : Option Handover} (kept : Keeps s₀ s) : Keeps s₀ (setHand b h s) := .setBankAux kept

theorem Keeps.beginHandover {b : Nat} {h : Handover} (kept : Keeps s₀ s) : Keeps s₀ (beginHandover b h s) := .setHand (.winPut kept)

theorem Keeps.endHandover {b : Nat} (h : Keeps s₀ s) : Keeps s₀ (endHandover b s) := .raise (.setHand (.winPut h))

theorem Keeps.resetsProceed (h : Keeps s₀ s) : Keeps s₀ (resetsProceed s) := .same h rfl

theorem KeepsNext.execBankHandoverRequest {bank : Nat} {data : Reg} (h : Keeps s₀ s) :
    KeepsNext s₀ (execBankHandoverRequest bank data s) := by
  unfold Machine.execBankHandoverRequest
  split
  · exact .next h
  · extract_lets _ _ s1 s2
    have h1 : Keeps s₀ s1 := .ite (.winPut h) h
    have h2 : Keeps s₀ s2 := .ite h1 (.winPut h1)
    exact .ite (.next h2) (.ite (.next (.raise (.winPut h1))) (.next (.beginHandover h2)))

theorem Keeps.defaultRow {g : Nat} (h : Keeps s₀ s) : Keeps s₀ (defaultRow g s) :=
  .same (h.withOd (m := (Machine.defaultRow g s).od) (keysRise_filter _ _)) rfl

theorem Keeps.openGlove {g tag : Nat} (h : Keeps s₀ s) : Keeps s₀ (openGlove g tag s) :=
  .wantGlove (.odSet (.odSet (.odSet (.odSet (.defaultRow h)))))

theorem keeping_gloveOpenEntry : OwnEntry.Keeping gloveOpenEntry :=
  fun _ _ _ h => ⟨by dsimp only [gloveOpenEntry]; split; exacts [h, .openGlove h], .raise (.odSet h)⟩

theorem KeepsNext.execGloveOpenRequest {req : OdReq} (h : Keeps s₀ s) : KeepsNext s₀ (execGloveOpenRequest req s) :=
  .next (.odWriteOwn keeping_gloveOpenEntry h)

theorem Keeps.resetInst {g : Nat} (h : Keeps s₀ s) : Keeps s₀ (resetInst g s) := by
  unfold Machine.resetInst
  split
  · exact h
  · exact .drbgDue (.setSec h)

theorem Keeps.resetGlove {g : Nat} (h : Keeps s₀ s) : Keeps s₀ (resetGlove g s) := by
  unfold Machine.resetGlove
  extract_lets s1 mine s2 s3 b s4
  have h2 : Keeps s₀ s2 := .foldl (fun _ _ h1 => .killLaunch h1) (.odSet h)
  have h4 : Keeps s₀ s4 := .foldl (fun _ _ h1 => .beginHandover (.winPut (.winPut h1))) (.completeOps h2)
  exact .resetInst (h4.withSpent (keysRise_filter _ _))

theorem keeping_gloveResetEntry : OwnEntry.Keeping gloveResetEntry := fun _ _ _ h => ⟨by dsimp only [gloveResetEntry]; exact .resetGlove h, h⟩

theorem KeepsNext.execGloveReset {req : OdReq} (h : Keeps s₀ s) : KeepsNext s₀ (execGloveReset req s) :=
  .next (.odWriteOwn keeping_gloveResetEntry h)

theorem KeepsNext.execGloveResetDone {g : Nat} (h : Keeps s₀ s) : KeepsNext s₀ (execGloveResetDone g s) :=
  .ite (.next h) (.next (.raise (.odSet h)))

theorem Keeps.closeGlove {g : Nat} (h : Keeps s₀ s) : Keeps s₀ (closeGlove g s) := .drbgDrop (.odSet (.odSet (.odSet (.defaultRow h))))

theorem keeping_gloveCloseEntry : OwnEntry.Keeping gloveCloseEntry := fun _ _ _ h => ⟨.closeGlove h, h⟩

theorem KeepsNext.execGloveClose {req : OdReq} (h : Keeps s₀ s) : KeepsNext s₀ (execGloveClose req s) :=
  .next (.odWriteOwn keeping_gloveCloseEntry h)

theorem keeping_relaxedEntry : OwnEntry.Keeping relaxedEntry := fun _ _ _ h => ⟨.odSet h, h⟩

theorem KeepsNext.execGloveRelaxedWrite {req : OdReq} (h : Keeps s₀ s) : KeepsNext s₀ (execGloveRelaxedWrite req s) :=
  .next (.odWriteOwn keeping_relaxedEntry h)

theorem keeping_budgetEntry : OwnEntry.Keeping budgetEntry := fun _ _ _ h => ⟨.odSet h, h⟩

theorem KeepsNext.execGloveBudgetWrite {req : OdReq} (h : Keeps s₀ s) : KeepsNext s₀ (execGloveBudgetWrite req s) :=
  .next (.odWriteOwn keeping_budgetEntry h)

/-! ### Power.lean -/

theorem Keeps.setRefBit {i : Nat} {on : Bool} (h : Keeps s₀ s) : Keeps s₀ (setRefBit i on s) := .winPut h

theorem Keeps.setHoldover {on : Bool} (h : Keeps s₀ s) : Keeps s₀ (setHoldover on s) := .ite h (.raise (.setRefBit h))

theorem Keeps.refLoss {b : Bool} (h : Keeps s₀ s) : Keeps s₀ (refLoss b s) := by
  unfold Machine.refLoss
  split
  · exact h
  · extract_lets s1 _ _ s2 _ s3
    have h1 : Keeps s₀ s1 := .raise (.odBump (.setRefBit h))
    have h2 : Keeps s₀ s2 := .ite (.setRefBit (.setHoldover h1)) h1
    have h3 : Keeps s₀ s3 := .same h2 rfl
    exact .ite h3 (.setRefBit (.holdCause (.enterSafe h3)))

theorem Keeps.refValid {b : Bool} (h : Keeps s₀ s) : Keeps s₀ (refValid b s) :=
  .ite h (.ite (.same (.raise (.holdCause (.setRefBit h))) rfl) (.raise (.holdCause (.setRefBit h))))

theorem Keeps.pllRelock (h : Keeps s₀ s) : Keeps s₀ (pllRelock s) := by
  unfold Machine.pllRelock
  split
  · exact h
  · extract_lets _ s1
    have h1 : Keeps s₀ s1 := .setHoldover (.setRefBit (.setRefBit (.setRefBit (.same h rfl))))
    exact h1

theorem Keeps.holdoverExpiry (h : Keeps s₀ s) : Keeps s₀ (holdoverExpiry s) := .ite (.raise (.same h rfl)) h

theorem KeepsNext.execRefLoss {b : Bool} (h : Keeps s₀ s) : KeepsNext s₀ (execRefLoss b s) := .next (.refLoss h)

theorem KeepsNext.execPllRelock (h : Keeps s₀ s) : KeepsNext s₀ (execPllRelock s) := .next (.pllRelock h)

theorem KeepsNext.execHoldoverExpiry (h : Keeps s₀ s) : KeepsNext s₀ (execHoldoverExpiry s) := .next (.holdoverExpiry h)

theorem Keeps.dieMonitor {t : Int} (h : Keeps s₀ s) : Keeps s₀ (dieMonitor t s) :=
  .ite (.ite (.holdCause h) (.raise (.enterSafe (.holdCause h)))) (.ite (.raise (.holdCause h)) (.holdCause h))

theorem Keeps.dieTempRead {t : Int} (h : Keeps s₀ s) : Keeps s₀ (dieTempRead t s) :=
  .dieMonitor (.same (.ite (.raise (.odSet h)) (.odSet h)) rfl)

theorem KeepsNext.execDieTempRead {temp : Int} (h : Keeps s₀ s) : KeepsNext s₀ (execDieTempRead temp s) := .next (.dieTempRead h)

theorem Keeps.clkGateWrite {d : Nat} (h : Keeps s₀ s) : Keeps s₀ (clkGateWrite d s) := by
  unfold Machine.clkGateWrite
  extract_lets s1 _ _ _ s2
  have h1 : Keeps s₀ s1 := .winPut h
  have h2 : Keeps s₀ s2 := .winPut h1
  exact .ite h1 (.ite (.raise (.winPut h1)) (.ite h2 (.winPut h2)))

theorem KeepsNext.execClkGateRequest {data : Reg} (h : Keeps s₀ s) : KeepsNext s₀ (execClkGateRequest data s) := .next (.clkGateWrite h)

theorem Keeps.clkMuxWrite {d : Nat} (h : Keeps s₀ s) : Keeps s₀ (clkMuxWrite d s) := by
  unfold Machine.clkMuxWrite
  extract_lets s0 s1 _ s2
  have h0 : Keeps s₀ s0 := .ite (.winPut h) h
  have h1 : Keeps s₀ s1 := .winPut h0
  have h2 : Keeps s₀ s2 := .winPut h1
  exact .ite h1 (.ite (.raise (.winPut h1)) (.ite h1 (.same h2 rfl)))

theorem Keeps.clkMuxDone (h : Keeps s₀ s) : Keeps s₀ (clkMuxDone s) := by
  unfold Machine.clkMuxDone
  split
  · exact h
  · exact .ite h (.raise (.winPut (.winPut (.same h rfl))))

theorem KeepsNext.execClkMuxSwitch {data : Reg} (h : Keeps s₀ s) : KeepsNext s₀ (execClkMuxSwitch data s) := .next (.clkMuxWrite h)

theorem KeepsNext.execClkMuxDone (h : Keeps s₀ s) : KeepsNext s₀ (execClkMuxDone s) := .next (.clkMuxDone h)

theorem Keeps.fcntWrite {d : Nat} (h : Keeps s₀ s) : Keeps s₀ (fcntWrite d s) := by
  unfold Machine.fcntWrite
  extract_lets s1 s2
  have h1 : Keeps s₀ s1 := .winPut (.winPut h)
  have h2 : Keeps s₀ s2 := .ite (.winPut h1) h1
  exact .ite (.same h2 rfl) h2

theorem Keeps.fcntDone {edges : Nat} (h : Keeps s₀ s) : Keeps s₀ (fcntDone edges s) := .ite h (.raise (.winPut (.winSet (.same h rfl))))

theorem KeepsNext.execFreqMeasure {data : Reg} (h : Keeps s₀ s) : KeepsNext s₀ (execFreqMeasure data s) := .next (.fcntWrite h)

theorem KeepsNext.execFreqMeasureDone {edges : Nat} (h : Keeps s₀ s) : KeepsNext s₀ (execFreqMeasureDone edges s) := .next (.fcntDone h)

theorem Keeps.fenceTile {pos : Nat} (h : Keeps s₀ s) : Keeps s₀ (fenceTile pos s) := .ite h (.raise (.odBump (.odSet h)))

theorem Keeps.domResult {st : Nat} (h : Keeps s₀ s) : Keeps s₀ (domResult st s) := .winPut (.odSet h)

theorem Keeps.domRefuse (h : Keeps s₀ s) : Keeps s₀ (domRefuse s) := .raise (.domResult h)

theorem Keeps.domAccept {d : Nat} {on : Bool} (h : Keeps s₀ s) : Keeps s₀ (domAccept d on s) := by
  unfold Machine.domAccept
  extract_lets
  split
  · exact .ite (.domResult (.setDomain (.same h rfl))) (.domResult h)
  · exact .ite (.domResult h) (.domResult (.setDomain (.same h rfl)))

theorem Keeps.domRegWrite {fw : Bool} {data : Nat} (h : Keeps s₀ s) : Keeps s₀ (domRegWrite fw data s) :=
  .ite (.winPut h) (.ite (.domRefuse (.winPut h)) (.domAccept (.winPut h)))

theorem keeping_domEntry {on : Bool} : OwnEntry.Keeping (domEntry on) := fun _ _ _ h => ⟨.domAccept h, .domRefuse h⟩

theorem Keeps.domRequest {on : Bool} {r : DomReq} (h : Keeps s₀ s) : Keeps s₀ (domRequest on r s) := by
  unfold Machine.domRequest
  split
  · exact .ite (.domRegWrite h) h
  · exact .odWriteOwn keeping_domEntry h

theorem KeepsNext.execDomainOffRequest {req : DomReq} (h : Keeps s₀ s) : KeepsNext s₀ (execDomainOffRequest req s) :=
  .next (.domRequest h)

theorem KeepsNext.execDomainOnRequest {req : DomReq} (h : Keeps s₀ s) : KeepsNext s₀ (execDomainOnRequest req s) := .next (.domRequest h)

theorem Keeps.domSwitched {d : Nat} (h : Keeps s₀ s) : Keeps s₀ (domSwitched d s) :=
  .ite (.domResult (.same (.raise (.odBump h)) rfl)) (.raise (.odBump h))

theorem Keeps.loseBanks {d : Nat} (h : Keeps s₀ s) : Keeps s₀ (loseBanks d s) := .foldl (fun _ _ h1 => .zeroBank (.setBankAux h1)) h

theorem Keeps.loseChunks {d : Nat} (h : Keeps s₀ s) : Keeps s₀ (loseChunks d s) :=
  .same (h.withChunks (m := (Machine.loseChunks d s).chunks) (keysRise_filter _ _)) rfl

theorem Keeps.portsDown {d : Nat} (h : Keeps s₀ s) : Keeps s₀ (portsDown d s) := by
  unfold Machine.portsDown
  split
  · exact .foldl (fun _ _ h1 => .odSet h1) (.winSet (.winSet h))
  · exact .ite (.foldl (fun _ _ h1 => .winPut h1) (.odSet (.odSet h))) h

theorem Keeps.domainLost {d : Nat} (h : Keeps s₀ s) : Keeps s₀ (domainLost d s) :=
  .ite (.setDomain h) (.ite (.loseChunks (.setDomain h)) (.portsDown (.loseBanks (.setDomain h))))

theorem KeepsNext.execDomainOffDone {d : Nat} (h : Keeps s₀ s) : KeepsNext s₀ (execDomainOffDone d s) :=
  .ite (.next h) (.ite (.next h) (.next (.domSwitched (.domainLost h))))

theorem Keeps.wakeBanks {d : Nat} (h : Keeps s₀ s) : Keeps s₀ (wakeBanks d s) := .foldl (fun _ _ h1 => .ite (.setBankAux h1) h1) h

theorem Keeps.domainUp {d : Nat} {failed : List Nat} (h : Keeps s₀ s) : Keeps s₀ (domainUp d failed s) := by
  unfold Machine.domainUp
  extract_lets s1
  have h1 : Keeps s₀ s1 := .setDomain h
  exact .ite (.foldl (fun _ _ h2 => .fenceTile h2) (.wakeBanks h1)) (.ite (.wakeBanks h1) h1)

theorem KeepsNext.execDomainOnDone {d : Nat} {failed : List Nat} (h : Keeps s₀ s) : KeepsNext s₀ (execDomainOnDone d failed s) :=
  .ite (.next h) (.ite (.next h) (.next (.domSwitched (.domainUp h))))

theorem Keeps.resetTile {pos : Nat} (h : Keeps s₀ s) : Keeps s₀ (resetTile pos s) := .winSet (.winSet (.winSet (.setTile (.same h rfl))))

theorem Keeps.countedReset {pos : Nat} (h : Keeps s₀ s) : Keeps s₀ (countedReset pos s) := .resetTile (.winBump h)

theorem Keeps.tileResetWrite {d : Nat} (h : Keeps s₀ s) : Keeps s₀ (tileResetWrite d s) := by
  unfold Machine.tileResetWrite
  extract_lets s0 s1
  have h0 : Keeps s₀ s0 := .ite (.winPut h) h
  have h1 : Keeps s₀ s1 := .winPut h0
  exact .ite h1 (.ite (.winPut h1) (.countedReset h1))

theorem KeepsNext.execTileReset {data : Reg} (h : Keeps s₀ s) : KeepsNext s₀ (execTileReset data s) := .next (.tileResetWrite h)

theorem Keeps.resetMgmt (h : Keeps s₀ s) : Keeps s₀ (resetMgmt s) := .foldl (fun _ _ h1 => .adjTile h1) h

theorem Keeps.missedKick (h : Keeps s₀ s) : Keeps s₀ (missedKick s) := by
  unfold Machine.missedKick
  extract_lets s1
  have h1 : Keeps s₀ s1 := .winBump (.enterSafe h)
  exact .resetMgmt (.same h1 rfl)

theorem Keeps.kickWrite {v : Nat} (h : Keeps s₀ s) : Keeps s₀ (kickWrite v s) := .ite (.same h rfl) (.missedKick h)

theorem KeepsNext.execHlmKick {data : Reg} (h : Keeps s₀ s) : KeepsNext s₀ (execHlmKick data s) := .next (.kickWrite h)

/-! ### Host.lean -/

theorem Keeps.after {x : Result} (hx : KeepsNext s₀ x) (h : Keeps s₀ s) : Keeps s₀ (after x s) := by
  cases x with
  | next t => exact hx t rfl
  | fault | refused => exact h

theorem Keeps.devRead {p : Path} {clear : Bool} {a : Nat} (h : Keeps s₀ s) : Keeps s₀ (devRead p clear a s).2 := by
  unfold Machine.devRead
  split
  · exact h
  · split
    · exact .same h rfl
    · split
      · exact h
      · split
        · extract_lets
          split
          · exact h
          · exact .drawFree h
        · split
          · exact .winSet h
          · exact h

theorem Keeps.devWrite {p : Path} {a d : Nat} (h : Keeps s₀ s) : Keeps s₀ (devWrite p a d s) := by
  unfold Machine.devWrite
  split
  · exact h
  · exact .after (.execBankHandoverRequest h) h
  · extract_lets
    split
    · exact .clkMuxWrite h
    · split
      · exact .fcntWrite h
      · split
        · exact .clkGateWrite h
        · exact .ite (.domRegWrite h) (.ite (.tileResetWrite h) (.ite (.kickWrite h) (.ite (.ite (.winSet h) h) (.winSet h))))

theorem Keeps.devWords {p : Path} {a : Nat} {d : List Byte} (h : Keeps s₀ s) : Keeps s₀ (devWords p a d s) :=
  .foldl (fun _ _ h1 => .ite (.devWrite h1) h1) h

theorem Keeps.devBytes {p : Path} {clear : Bool} {n a : Nat} (h : Keeps s₀ s) : Keeps s₀ (devBytes p clear n a s).2 := by
  induction n generalizing a s with
  | zero => exact h
  | succ n ih => exact ih (.devRead h)

theorem Keeps.portWords {g b : Nat} {l : List (Nat × Nat × Nat)} (h : Keeps s₀ s) : Keeps s₀ (portWords g b l s).2 := by
  induction l generalizing s with
  | nil => exact h
  | cons x l ih =>
    have h1 : Keeps s₀ (Machine.portBAct g b x.1 .read s).2 := .portBAct h
    exact ih h1

theorem Keeps.portRead {g b a n : Nat} (h : Keeps s₀ s) : Keeps s₀ (portRead g b a n s).2 := by
  unfold Machine.portRead
  split
  rename_i st s1 eq
  have h1 : Keeps s₀ s1 := .snd eq (.bankCheck h)
  split
  · exact h1
  · exact .ite (.raise (.portWords h1)) (.portWords h1)

theorem Keeps.portStore {g b : Nat} {d : List Byte} {l : List (Nat × Nat × Nat)} (h : Keeps s₀ s) : Keeps s₀ (portStore g b d l s).2 := by
  induction l generalizing d s with
  | nil => exact h
  | cons x l ih =>
    have h1 : Keeps s₀ (Machine.portBAct g b x.1 (.write x.2.1 (d.take x.2.2)) s).2 := .portBAct h
    exact ih h1

theorem Keeps.portWrite {g b a : Nat} {d : List Byte} (h : Keeps s₀ s) : Keeps s₀ (portWrite g b a d s).2 := by
  unfold Machine.portWrite
  split
  rename_i st s1 eq
  have h1 : Keeps s₀ s1 := .snd eq (.bankCheck h)
  split
  · exact h1
  · exact .portStore h1

theorem Keeps.portAtomic {g b a : Nat} {swap : Bool} {x : Nat} (h : Keeps s₀ s) : Keeps s₀ (portAtomic g b a swap x s).2.2.2 :=
  .ite (.raise (.bankAccess h)) (.bankAccess h)

theorem Keeps.meshWrite {g a : Nat} {d : List Byte} {source other : Nat} (h : Keeps s₀ s) :
    Keeps s₀ (meshWrite g a d source other s) := by
  unfold Machine.meshWrite
  split
  · exact .store h
  · exact .portWrite h
  · exact .devWords h
  · exact .reject h

theorem Keeps.deliver {pos g a : Nat} {d : List Byte} {source : Nat} {due : Option (Nat × Nat)} (h : Keeps s₀ s) :
    Keeps s₀ (deliver pos g a d source due s) := by
  unfold Machine.deliver
  split
  · exact .ite (.ndCount (.portWrite h)) (.portWrite h)
  · exact .meshWrite h

theorem Keeps.completeWrite {pos g a n : Nat} (h : Keeps s₀ s) : Keeps s₀ (completeWrite pos g a n s) := by
  unfold Machine.completeWrite
  split
  · exact .portAtomic h
  · exact .reject h
  · exact .reject h
  · exact .reject h

theorem Keeps.dmaRead {g a n : Nat} (h : Keeps s₀ s) : Keeps s₀ (dmaRead g a n s).2 := by
  unfold Machine.dmaRead
  split
  · exact .portRead h
  · exact .devBytes h
  · exact h
  · split
    · exact .tierReadChecks h
    · exact h

theorem Keeps.dmaWrite {g a : Nat} {d : List Byte} (h : Keeps s₀ s) : Keeps s₀ (dmaWrite g a d s).2 := by
  unfold Machine.dmaWrite
  split
  · exact .portWrite h
  · exact .devWords h
  · exact h
  · split
    · exact .ndHostWrite (.store h)
    · exact h

theorem Keeps.burstWord {o : Op} {j : Nat} {data : List Byte} {status : Nat} {bad : Bool} (h : Keeps s₀ s) :
    Keeps s₀ (burstWord o j data status bad s).2 := by
  unfold Machine.burstWord
  extract_lets
  split
  rename_i r s1 eq
  have h1 : Keeps s₀ s1 := .snd eq (by split; exacts [h, (by split; exacts [h, .dmaRead h])])
  split
  rename_i st s2 eq'
  have h2 : Keeps s₀ s2 := .snd eq' (by split; exacts [h1, .dmaWrite h1])
  exact h2

theorem Keeps.endBurst {k : Nat} {o : Op} {n : Nat} {data : List Byte} {st : Nat} {bad : Bool} (h : Keeps s₀ s) :
    Keeps s₀ (endBurst k o n data st bad s) := by
  unfold Machine.endBurst
  extract_lets s1
  have h1 : Keeps s₀ s1 := .ite (.hostWrite h) h
  exact .ite (.completeOp h1) (.ite (.completeOp h1) (.setOp h1))

theorem Keeps.burstWords {o : Op} {n j : Nat} {data : List Byte} {st : Nat} {bad : Bool} (h : Keeps s₀ s) :
    Keeps s₀ (burstWords o n j data st bad s).2 := by
  induction n generalizing j data st bad s with
  | zero => exact h
  | succ n ih =>
    have h1 : Keeps s₀ (Machine.burstWord o j data st bad s).2 := .burstWord h
    exact ih h1

end Sys2Proof.Machine
end

section
/-! PROOFS. What every command keeps (O3, O5): a tile's instructions and the passing of time.
One lemma per function of the model, in the model's order: `h` says that the relation holds before it. -/

namespace Sys2Proof.Machine

variable {s₀ s t : State}

/-! ### MTile.lean -/

theorem Keeps.parityCheck {c : Ctx} {cols : List Column} (h : Keeps s₀ s) : Keeps s₀ (parityCheck c cols s) := by
  unfold Machine.parityCheck
  split
  · exact h
  · extract_lets _ _ s1 s2
    have h1 : Keeps s₀ s1 := .winPut (.winBump (.winPut h))
    have h2 : Keeps s₀ s2 := .setLatch h1
    exact .ite h2 (.report (.adjTile h2))

theorem Keeps.vectorNow {c : Ctx} {b w0 w1 : Nat} {bad : Bool} (h : Keeps s₀ s) : Keeps s₀ (vectorNow c b w0 w1 bad s) :=
  .schedIn (.winCount64 h)

theorem Keeps.sumsNow {c : Ctx} {b w0 w1 : Nat} {bad : Bool} {entered : Nat} (h : Keeps s₀ s) :
    Keeps s₀ (sumsNow c b w0 w1 bad entered s) := by
  unfold Machine.sumsNow
  exact .adjTile (.parityCheck h)

theorem Keeps.fwdWord {c : Ctx} {d : Nat} {x : Nat × Nat} (h : Keeps s₀ s) : Keeps s₀ (fwdWord c d x s) := .ite (.schedIn (.drawFree h)) h

theorem Keeps.lacWord {c : Ctx} {j : Nat} {before : Option (Nat × Nat)} {x y : Nat × Nat} (h : Keeps s₀ s) :
    Keeps s₀ (lacWord c j before x y s) := by
  unfold Machine.lacWord
  extract_lets _ _ s1
  have h1 : Keeps s₀ s1 := .fwdWord h
  split
  · exact .schedIn (.fwdWord (.fwdWord h))
  · exact .ite (.schedIn h1) (by split; exacts [.ite (.schedIn h1) h1, h1])

theorem Keeps.lacTake {rd : MeshRd} {f : Flit} (h : Keeps s₀ s) : Keeps s₀ (lacTake rd f s) := by
  unfold Machine.lacTake
  extract_lets _ _ _ _ s1 s2
  have h1 : Keeps s₀ s1 := .adjTile h
  have h2 : Keeps s₀ s2 := .ite (.schedIn h1) h1
  exact .ite (.schedIn h2) (by split; exacts [.ite (.schedIn h2) h2, h2])

theorem Keeps.loadNow {c : Ctx} {j x : Nat} {bad all : Bool} (h : Keeps s₀ s) : Keeps s₀ (loadNow c j x bad all s) := .adjTile h

theorem Keeps.residueCheck {c : Ctx} {topk said : Bool} {slot : Nat} {rows : List Nat} (h : Keeps s₀ s) :
    Keeps s₀ (residueCheck c topk said slot rows s).2 := by
  unfold Machine.residueCheck
  extract_lets
  split
  · exact h
  · extract_lets _ s1 s2
    have h1 : Keeps s₀ s1 := .winPut (.winPut (.winBump (.winPut h)))
    have h2 : Keeps s₀ s2 := .setLatch h1
    split
    · exact h2
    · exact .report h2

theorem Keeps.statAt {c : Ctx} {tc tag : Nat} {lanes : List Nat} (h : Keeps s₀ s) : Keeps s₀ (statAt c tc tag lanes s) := by
  unfold Machine.statAt
  split
  · exact h
  · extract_lets
    exact .ite h (.ite (.ite h (.schedAt h)) (.schedAt h))

theorem Keeps.countSat {pos n : Nat} (h : Keeps s₀ s) : Keeps s₀ (countSat pos n s) := .winBump h

theorem Keeps.putOut {c : Ctx} {d b w tag x : Nat} (h : Keeps s₀ s) : Keeps s₀ (putOut c d b w tag x s) := .ite (.schedIn h) (.schedIn h)

theorem Keeps.topkOut {c : Ctx} {d0 d1 sat : Nat} {cands : List Nat} (h : Keeps s₀ s) : Keeps s₀ (topkOut c d0 d1 sat cands s) :=
  .statAt (.foldl (fun _ _ h1 => .putOut h1) h)

theorem Keeps.rowsNow {c : Ctx} {r : RowsSt} (h : Keeps s₀ s) : Keeps s₀ (rowsNow c r s) := by
  unfold Machine.rowsNow
  extract_lets _ _ _ _ _ _ _ s0
  have h0 : Keeps s₀ s0 := .ite (.winPut h) h
  split
  · exact .schedIn h0
  · split
    rename_i said s1 eq
    have h1 : Keeps s₀ s1 := .snd eq (.residueCheck h0)
    extract_lets s2
    have h2 : Keeps s₀ s2 := .ite h1 (.countSat h1)
    split
    rename_i b w eq'
    extract_lets s3
    have h3 : Keeps s₀ s3 := .ite (.putOut h2) h2
    exact .ite (.schedIn h3) (.ite (.statAt h3) (.ite (.schedIn h3) (.topkOut h3)))

/-! ### VTile.lean -/

theorem Keeps.countDraws {c : Ctx} {n : Nat} (h : Keeps s₀ s) : Keeps s₀ (countDraws c n s) := .winCount64 h

theorem Keeps.vtFault {c : Ctx} {bit : Nat} (h : Keeps s₀ s) : Keeps s₀ (vtFault c bit s) := .winPut h

theorem Keeps.romCheck {c : Ctx} {lg : Bool} {reads : List Nat} (h : Keeps s₀ s) : Keeps s₀ (romCheck c lg reads s) := by
  unfold Machine.romCheck
  split
  · exact h
  · exact .report (.drawFree (.setLatch (.vtFault h)))

theorem Keeps.catsNow {c : Ctx} {got : List (Nat × Nat)} {delay : Nat} (h : Keeps s₀ s) : Keeps s₀ (catsNow c got delay s) := by
  unfold Machine.catsNow
  extract_lets _ _ _ s0
  have h0 : Keeps s₀ s0 := .ite (.vtFault h) h
  split
  rename_i p dd eq
  split
  · exact .schedIn h0
  · extract_lets
    split
    · exact .schedIn (.vtFault h0)
    · extract_lets s1
      have h1 : Keeps s₀ s1 := .winPut (.winBump (.countDraws h0))
      exact .romCheck (.sched h1)

theorem Keeps.qldNow {c : Ctx} {got : List (Nat × Nat)} {delay : Nat} (h : Keeps s₀ s) : Keeps s₀ (qldNow c got delay s) :=
  .ite (.schedIn h) (.ite (.schedIn h) (.sched h))

/-! ### Advance.lean -/

theorem Keeps.readyNow {pos key : Nat} (h : Keeps s₀ s) : Keeps s₀ (readyNow pos key s) := .adjTile h

theorem Keeps.landNow {c : Ctx} {r : Landing} (h : Keeps s₀ s) : Keeps s₀ (landNow c r s) := .readyNow (.adjTile h)

theorem Keeps.landIn {c : Ctx} {d : Nat} {l : List Landing} (h : Keeps s₀ s) : Keeps s₀ (landIn c d l s) :=
  .foldl (fun _ _ h1 => .sched h1) h

theorem Keeps.hold {c : Ctx} {unit d : Nat} (h : Keeps s₀ s) : Keeps s₀ (hold c unit d s) := .sched h

theorem Keeps.queueMessage {c : Ctx} {vc : Nat} {h : MsgHead} {hdrBad : Bool} {words : List (Nat × Nat)} (kept : Keeps s₀ s) :
    Keeps s₀ (queueMessage c vc h hdrBad words s) := by
  unfold Machine.queueMessage
  extract_lets
  split
  · exact .foldl (fun _ _ h1 => .foldl (fun _ _ h2 => .reject h2) h1) (.queueFlits kept)
  · split
    · exact .queueFlits kept
    · exact .queueFlits kept
    · exact .reject (.ite kept (.queueFlits kept))

theorem Keeps.sendmHead {c : Ctx} {room : Nat} {x : Nat × Nat} (h : Keeps s₀ s) : Keeps s₀ (sendmHead c room x s).2 := by
  unfold Machine.sendmHead
  extract_lets
  split
  · exact .schedIn h
  · split
    · exact .report (.winBump h)
    · exact h

theorem Keeps.sendmEnd {c : Ctx} {got : List (Nat × Nat)} {whole : Bool} (h : Keeps s₀ s) : Keeps s₀ (sendmEnd c got whole s) := by
  unfold Machine.sendmEnd
  split
  · exact h
  · extract_lets
    exact .ite h (.queueMessage h)

theorem Keeps.useWord {c : Ctx} {j arg late : Nat} {got : List (Nat × Nat)} {x y : Nat × Nat} (h : Keeps s₀ s) :
    Keeps s₀ (useWord c j arg late got x y s) := by
  unfold Machine.useWord
  extract_lets
  split
  · exact .schedIn h
  · exact .foldl (fun _ _ h1 => .schedIn h1) h
  · exact .lacWord h
  · exact .schedIn h
  · exact .schedIn h
  · exact .ite (.sched h) (.schedIn h)
  · exact h

theorem Keeps.lastWord {c : Ctx} {arg late : Nat} {got : List (Nat × Nat)} (h : Keeps s₀ s) : Keeps s₀ (lastWord c arg late got s) := by
  unfold Machine.lastWord
  split
  · exact .sendmEnd h
  · exact .topkOut h
  · exact .sched h
  · exact .sched h
  · exact h

theorem Keeps.readOn {c : Ctx} {b w j arg : Nat} {got : List (Nat × Nat)} {x y : Nat × Nat} (h : Keeps s₀ s) :
    Keeps s₀ (readOn c b w j arg got x y s) := by
  unfold Machine.readOn
  extract_lets
  split
  · exact .schedIn h
  · split
    rename_i ok s1 eq
    have h1 : Keeps s₀ s1 := .snd eq (by split; exacts [.sendmHead h, h])
    exact .ite h1 (.ite (.schedIn (.useWord h1)) (.lastWord (.useWord h1)))

theorem Keeps.readDone {c : Ctx} {b w j arg : Nat} {got : List (Nat × Nat)} {cause : Option Nat} {x y : Nat × Nat} (h : Keeps s₀ s) :
    Keeps s₀ (readDone c b w j arg got cause x y s) := by
  unfold Machine.readDone
  split
  · exact .ite (.readOn h) (.schedIn (.ite (.sendmEnd h) h))
  · exact .readOn (.ite h (.raise (.setLatch h)))

theorem Keeps.portAOne {c : Ctx} {b w : Nat} {op : BOp} (h : Keeps s₀ s) : Keeps s₀ (portAOne c b w op s).2.2 := by
  unfold Machine.portAOne
  split
  · exact h
  · split
    rename_i r s1 eq
    have h1 : Keeps s₀ s1 := .snd eq (.bankAccess h)
    split
    · exact h1
    · exact h1

theorem Keeps.serve {x : Item} (h : Keeps s₀ s) : Keeps s₀ (serve x s) := by
  have port {b w : Nat} {op : BOp} {t : State} (k : Keeps s₀ t) : Keeps s₀ (Machine.portAOne x.c b w op t).2.2 := .portAOne k
  unfold Machine.serve
  dsimp only
  split
  · exact .ite (.readDone (port (port h))) (.readDone (port h))
  · refine .ite h ?_
    split
    · exact .schedIn (port h)
    · exact port h
  · split
    · exact .schedIn (port h)
    · exact port h
  · exact h

theorem Keeps.delay {x : Item} (h : Keeps s₀ s) : Keeps s₀ (delay x s) := .putItem (.shift h)

theorem Keeps.serveOwn {l : List Item} (h : Keeps s₀ s) : Keeps s₀ (serveOwn l s) := .foldl (fun _ _ h1 => .ite (.delay h1) (.serve h1)) h

theorem Keeps.serveWrites {b : Nat} {x : Item} {l : List Item} (h : Keeps s₀ s) : Keeps s₀ (serveWrites b x l s) :=
  .foldl (fun _ _ h1 => .ite (.serve h1) (.bankConflict h1)) h

theorem Keeps.serveReads {b : Nat} {x : Item} {l : List Item} (h : Keeps s₀ s) : Keeps s₀ (serveReads b x l s) :=
  .ite (.foldl (fun _ _ h1 => .serve h1) h) (.winCount64 (.foldl (fun _ _ h1 => .serve h1) h))

theorem Keeps.serveCmn {b : Nat} {l : List Item} (h : Keeps s₀ s) : Keeps s₀ (serveCmn b l s) := by
  unfold Machine.serveCmn
  split
  · exact h
  · extract_lets _ _ s1 s2
    have h1 : Keeps s₀ s1 := .ite (.serveReads h) (.ite (.serveWrites h) (.serve h))
    have h2 : Keeps s₀ s2 := .foldl (fun _ _ h2 => .ite (.putItem h2) (.delay h2)) h1
    exact .ite h2 (.winBump h2)

theorem Keeps.servePorts {l : List Item} (h : Keeps s₀ s) : Keeps s₀ (servePorts l s) := .foldl (fun _ _ h1 => .serveCmn h1) (.serveOwn h)

theorem Keeps.due {tc : Nat} {p : Item → Bool} (h : Keeps s₀ s) : Keeps s₀ (due tc p s).2 := .same h rfl

theorem Keeps.performAll {tc : Nat} {p : Item → Bool} {f : Item → State → State} (hf : ∀ x t, Keeps s₀ t → Keeps s₀ (f x t))
    (h : Keeps s₀ s) : Keeps s₀ (performAll tc p f s) :=
  .foldl (fun _ _ h1 => hf _ _ h1) (.due h)

theorem Keeps.dmaWord {c : Ctx} {k j n : Nat} {data : List Byte} {st : Nat} {bad : Bool} (h : Keeps s₀ s) :
    Keeps s₀ (dmaWord c k j n data st bad s) := by
  unfold Machine.dmaWord
  split
  · exact h
  · rename_i o _
    have h1 : Keeps s₀ (Machine.burstWord o j data st bad s).2 := .burstWord h
    exact .ite (.schedIn h1) (.endBurst h1)

theorem Keeps.perform {x : Item} (h : Keeps s₀ s) : Keeps s₀ (perform x s) := by
  unfold Machine.perform
  split
  · exact .loadNow h
  · exact .vectorNow h
  · exact .sumsNow h
  · exact .landNow h
  · exact .handNow h
  · exact .readyNow h
  · exact .ite h (.bankAccess h)
  · exact .dmaWord h
  · exact .deliver h
  · exact .completeWrite h
  · exact h

theorem Keeps.takeDue {tc : Nat} (h : Keeps s₀ s) : Keeps s₀ (takeDue tc s) := .foldl (fun _ _ h1 => .takeExc h1) (.due h)

theorem Keeps.runTc {tc : Nat} (h : Keeps s₀ s) : Keeps s₀ (runTc tc s) := by
  unfold Machine.runTc
  split
  rename_i l s1 eq
  have h1 : Keeps s₀ s1 := .snd eq (.due (.performAll (fun _ _ h1 => .perform h1) (.same h rfl)))
  extract_lets s2 s3
  have h2 : Keeps s₀ s2 := .performAll (fun _ _ h2 => by split; exacts [.rowsNow h2, h2]) (.servePorts h1)
  have h3 : Keeps s₀ s3 := .performAll (fun _ _ h3 => by split; exacts [.ite (.catsNow h3) (.qldNow h3), h3]) h2
  exact .foldl (fun _ _ h4 => .performAll (fun _ _ h5 => .perform h5) h4) (.takeDue h3)

theorem Keeps.runTo {tc n : Nat} (h : Keeps s₀ s) : Keeps s₀ (runTo tc n s) := by
  induction n generalizing s with
  | zero => exact h
  | succ n ih =>
    unfold Machine.runTo
    split
    · exact h
    · exact .ite h (ih (.runTc h))

theorem Keeps.advance {tc : Nat} (h : Keeps s₀ s) : Keeps s₀ (advance tc s) := .same (.runTo h) rfl

theorem Keeps.advanceTo {tc : Nat} (h : Keeps s₀ s) : Keeps s₀ (advanceTo tc s) := .ite h (.same (.runTo h) rfl)

theorem Keeps.drainAgenda {n : Nat} (h : Keeps s₀ s) : Keeps s₀ (drainAgenda n s) := by
  induction n generalizing s with
  | zero => exact h
  | succ n ih =>
    unfold Machine.drainAgenda
    split
    · exact h
    · exact ih (.runTc h)

theorem Keeps.settle (h : Keeps s₀ s) : Keeps s₀ (settle s) := .ite (.runTo h) h

theorem KeepsNext.atTc {tc : Nat} {f : State → State} (h : Keeps s₀ s) (hf : ∀ t, Keeps s₀ t → Keeps s₀ (f t)) :
    KeepsNext s₀ (atTc tc s f) :=
  .ite (.next h) (.next (hf _ (.advance h)))

theorem KeepsNext.atTc? {tc : Option Nat} {f : State → State} (h : Keeps s₀ s) (hf : ∀ t, Keeps s₀ t → Keeps s₀ (f t)) :
    KeepsNext s₀ (atTc? tc s f) := by
  cases tc with
  | none => exact .next (hf _ h)
  | some tc => exact .atTc h hf

theorem Keeps.holdUnits {c : Ctx} {fmt : Nat} (h : Keeps s₀ s) : Keeps s₀ (holdUnits c fmt s) := .foldl (fun _ _ h1 => .hold h1) h

/-- An instruction of a tile, whatever its meaning, whether it issues, is illegal, or is not the tile's next (R226). -/
theorem KeepsNext.runInstr {pos tc opc reserved : Nat} {go : Ctx → State → State} (h : Keeps s₀ s)
    (hf : ∀ c t, Keeps s₀ t → Keeps s₀ (go c t)) : KeepsNext s₀ (runInstr s pos tc opc reserved go) := by
  refine .ite (.next h) ?_
  extract_lets s1
  have h1 : Keeps s₀ s1 := .ite h (.advance h)
  split
  · exact .next h
  · exact .ite (.next h) (.next (.early h1))
  · exact .ite (.next (.settle (hf _ _ h1))) (.ite (.next (hf _ _ h1)) (.next h))

/-! ### Issue.lean -/

theorem KeepsNext.execNop {pos tc : Nat} (h : Keeps s₀ s) : KeepsNext s₀ (execNop pos tc s) := .runInstr h (fun _ _ h1 => .stepOn h1)

theorem KeepsNext.execWaitt {pos tc : Nat} (h : Keeps s₀ s) : KeepsNext s₀ (execWaitt pos tc s) :=
  .runInstr h (fun _ _ h1 => .ite (.early h1) (.ite (.stepOn (.winBump h1)) (.stepOn h1)))

theorem Keeps.loopOver {c : Ctx} {count body : Nat} (h : Keeps s₀ s) : Keeps s₀ (loopOver c count body s) :=
  .ite (.early h) (.adjTile (.countIssue h))

theorem KeepsNext.execLoop {pos tc : Nat} (h : Keeps s₀ s) : KeepsNext s₀ (execLoop pos tc s) :=
  .runInstr h (fun _ _ h1 => .ite (.ite (.early h1) (.loopOver h1)) (.loopOver h1))

theorem KeepsNext.execYield {pos tc : Nat} (h : Keeps s₀ s) : KeepsNext s₀ (execYield pos tc s) :=
  .runInstr h (fun _ _ h1 => .adjTile (.stepOn h1))

theorem KeepsNext.execHaltf {pos tc : Nat} (h : Keeps s₀ s) : KeepsNext s₀ (execHaltf pos tc s) :=
  .runInstr h (fun _ _ h1 => .ite (.setDry (.stepOn h1)) (.stepOn h1))

theorem KeepsNext.execBar {pos tc : Nat} (h : Keeps s₀ s) : KeepsNext s₀ (execBar pos tc s) :=
  .runInstr h (fun _ _ h1 => .handWords (.stepOn h1))

theorem KeepsNext.execFlag {pos tc : Nat} (h : Keeps s₀ s) : KeepsNext s₀ (execFlag pos tc s) :=
  .runInstr h (fun _ _ h1 => .handWords (.stepOn h1))

theorem KeepsNext.execSend {pos tc : Nat} (h : Keeps s₀ s) : KeepsNext s₀ (execSend pos tc s) := by
  unfold Machine.execSend
  refine .runInstr h fun _ _ k => ?_
  extract_lets
  split
  · exact .startRead (.stepOn k)
  · exact .startRead (.stepOn k)
  · exact .ite (.early k) (.handWords (.stepOn k))
  · exact .ite (.early k) (.handWords (.stepOn k))

theorem KeepsNext.execRecv {pos tc : Nat} (h : Keeps s₀ s) : KeepsNext s₀ (execRecv pos tc s) :=
  .runInstr h (fun _ _ h1 => .ite (.early h1) (.adjTile (.stepOn h1)))

theorem KeepsNext.execBarw {pos tc : Nat} (h : Keeps s₀ s) : KeepsNext s₀ (execBarw pos tc s) :=
  .runInstr h (fun _ _ h1 => .adjTile (.countIssue h1))

theorem Keeps.endBarw {pos tc : Nat} (h : Keeps s₀ s) : Keeps s₀ (endBarw pos tc s) := .adjTile h

theorem KeepsNext.execBarwTimeout {pos tc : Nat} (h : Keeps s₀ s) : KeepsNext s₀ (execBarwTimeout pos tc s) := by
  refine .ite (.next h) (.atTc h fun t h1 => ?_)
  dsimp only
  split
  · exact .ite (.endBarw (.takeExc h1)) h1
  · exact h1

theorem KeepsNext.execLdp {pos tc : Nat} (h : Keeps s₀ s) : KeepsNext s₀ (execLdp pos tc s) :=
  .runInstr h (fun _ _ h1 => .ite (.early h1) (.ite (.early h1) (.holdUnits (.startRead (.stepOn h1)))))

theorem KeepsNext.execSendm {pos tc : Nat} (h : Keeps s₀ s) : KeepsNext s₀ (execSendm pos tc s) :=
  .runInstr h (fun _ _ h1 => .startRead (.stepOn h1))

theorem Keeps.dropLandings {pos lo hi : Nat} (h : Keeps s₀ s) : Keeps s₀ (dropLandings pos lo hi s) := .same h rfl

theorem KeepsNext.execWindowStart {pos win : Nat} (h : Keeps s₀ s) : KeepsNext s₀ (execWindowStart pos win s) := by
  unfold Machine.execWindowStart
  split
  · exact .next h
  · extract_lets
    split
    · exact .next h
    · exact .ite (.next h) (.next (.declare (.setTile (.ite (.dropLandings (.advanceTo h)) (.advanceTo h)))))

theorem KeepsNext.execWindowEnd {pos : Nat} (h : Keeps s₀ s) : KeepsNext s₀ (execWindowEnd pos s) := by
  unfold Machine.execWindowEnd
  split
  · exact .next h
  · split
    · exact .next h
    · split
      · exact .next h
      · extract_lets s0
        have h0 : Keeps s₀ s0 := .advanceTo h
        split
        · exact .next h
        · extract_lets _ s1
          have h1 : Keeps s₀ s1 := .ite h0 (.ite (.takeExc h0) (.ite (.takeExc h0) h0))
          exact .next (.declare (.adjTile h1))

theorem KeepsNext.execCommonsQueuedService {cluster bank : Nat} (h : Keeps s₀ s) :
    KeepsNext s₀ (execCommonsQueuedService cluster bank s) := by
  unfold Machine.execCommonsQueuedService
  exact .ite (.next h) (by split; exacts [.next (.advance h), .next h])

theorem KeepsNext.execBankOwnerChange {bank : Nat} (h : Keeps s₀ s) : KeepsNext s₀ (execBankOwnerChange bank s) := by
  unfold Machine.execBankOwnerChange
  split
  · exact .next h
  · split
    · exact .next h
    · split
      · exact .next h
      · extract_lets s0 _ _ s1
        have h0 : Keeps s₀ s0 := .ite (.advanceTo h) h
        have h1 : Keeps s₀ s1 := .winPut h0
        exact .ite (.next (.setHand (.setBankState (.winPut h1)))) (.next (.endHandover h1))

theorem KeepsNext.execBankHandoverScrubDone {bank : Nat} (h : Keeps s₀ s) : KeepsNext s₀ (execBankHandoverScrubDone bank s) :=
  .ite (.next h) (.ite (.next h) (.next (.endHandover (.setBankAux (.setBankState (.zeroBank h))))))

theorem KeepsNext.execBankWake {bank : Nat} (h : Keeps s₀ s) : KeepsNext s₀ (execBankWake bank s) :=
  .ite (.next h) (.ite (.next (.setBankState h)) (.next h))

theorem Keeps.latchOwner {b : Nat} (h : Keeps s₀ s) : Keeps s₀ (latchOwner b s) := by
  unfold Machine.latchOwner
  extract_lets
  exact .foldl (fun _ _ h1 => by split; exacts [.ite (.setLatch h1) h1, h1]) h

theorem KeepsNext.execBankScrubVisit {bank word : Nat} (h : Keeps s₀ s) : KeepsNext s₀ (execBankScrubVisit bank word s) :=
  .ite (.next h) (.ite (.next h) (.next (.ite (.same h rfl) (.raise (.latchOwner (.same h rfl))))))

/-! ### STile.lean -/

theorem Keeps.toReg {c : Ctx} {reads : List Nat} {gd d : Nat} {v : Option Nat} (h : Keeps s₀ s) : Keeps s₀ (toReg c s reads gd d v) := by
  unfold Machine.toReg
  split
  · exact .early h
  · split
    · exact .early h
    · exact .sched (.stepOn h)

theorem KeepsNext.execAlu {pos tc : Nat} (h : Keeps s₀ s) : KeepsNext s₀ (execAlu pos tc s) := .runInstr h (fun _ _ h1 => .toReg h1)

theorem KeepsNext.execAlui {pos tc : Nat} (h : Keeps s₀ s) : KeepsNext s₀ (execAlui pos tc s) := .runInstr h (fun _ _ h1 => .toReg h1)

theorem KeepsNext.execFpu {pos tc : Nat} (h : Keeps s₀ s) : KeepsNext s₀ (execFpu pos tc s) := by
  refine .runInstr h fun c t k => ?_
  dsimp only
  split
  · exact .early k
  · split
    · exact .early k
    · split
      · exact .landIn (.stepOn (.drawFree k))
      · exact .landIn (.stepOn k)

theorem KeepsNext.execLd {pos tc : Nat} (h : Keeps s₀ s) : KeepsNext s₀ (execLd pos tc s) := by
  unfold Machine.execLd
  exact .runInstr h (fun _ _ h1 => by split; exacts [.early h1, .sched (.stepOn h1)])

theorem KeepsNext.execSt {pos tc : Nat} (h : Keeps s₀ s) : KeepsNext s₀ (execSt pos tc s) := by
  unfold Machine.execSt
  exact .runInstr h (fun _ _ h1 => by split; exacts [.early h1, .sched (.stepOn h1)])

theorem Keeps.branch {c : Ctx} {taken : Bool} {target : Nat} (h : Keeps s₀ s) : Keeps s₀ (branch c taken target s) :=
  .ite (.adjTile (.stepOn h)) (.stepOn h)

theorem KeepsNext.execBr {pos tc : Nat} (h : Keeps s₀ s) : KeepsNext s₀ (execBr pos tc s) := by
  unfold Machine.execBr
  refine .runInstr h fun _ _ k => ?_
  extract_lets
  split
  · exact .early k
  · split
    · exact .early k
    · exact .branch k

theorem KeepsNext.execSys {pos tc : Nat} (h : Keeps s₀ s) : KeepsNext s₀ (execSys pos tc s) := by
  unfold Machine.execSys
  refine .runInstr h fun _ _ k => ?_
  extract_lets _ _ _ t0
  have h0 : Keeps s₀ t0 := .adjTile k
  split
  · exact .early k
  · split
    · exact .adjTile k
    · split
      · exact .ite (.early h0) (by split; exacts [.early h0, .sched (.stepOn h0)])
      · split
        · exact .early h0
        · exact .ite (.early h0) (.ite (.ndCount (.sched (.stepOn h0))) (.sched (.stepOn h0)))

theorem KeepsNext.execLi {pos tc : Nat} (h : Keeps s₀ s) : KeepsNext s₀ (execLi pos tc s) :=
  .runInstr h (fun _ _ h1 => .ite (.toReg h1) (.toReg h1))

theorem KeepsNext.execFls {pos tc : Nat} (h : Keeps s₀ s) : KeepsNext s₀ (execFls pos tc s) := by
  unfold Machine.execFls
  refine .runInstr h fun _ _ k => ?_
  extract_lets
  exact .ite (.toReg k) (by split; exacts [.early k, .sched (.stepOn k)])

/-! ### Combine.lean -/

theorem Keeps.drawWord (h : Keeps s₀ s) : Keeps s₀ (drawWord s).2 := .same h rfl

/-! ### Exchange.lean -/

theorem Keeps.setPlx {pos : Nat} {p : PlxPort} (h : Keeps s₀ s) : Keeps s₀ (setPlx pos p s) := .same h rfl

theorem Keeps.adjPlx {pos : Nat} {f : PlxPort → PlxPort} (h : Keeps s₀ s) : Keeps s₀ (adjPlx pos f s) := .setPlx h

theorem Keeps.emitCell {pos : Nat} {head : List Byte} (h : Keeps s₀ s) : Keeps s₀ (emitCell pos head s) :=
  .ite (.same h rfl) (.ite (.same h rfl) (.ite (.setPlx h) h))

theorem Keeps.sendCell {pos kind tag : Nat} {poison : Bool} {glove version : Nat} {data : List Byte} (h : Keeps s₀ s) :
    Keeps s₀ (sendCell pos kind tag poison glove version data s) :=
  .emitCell (.adjPlx h)

theorem Keeps.releaseHeld {pos n : Nat} (h : Keeps s₀ s) : Keeps s₀ (releaseHeld pos n s) := by
  induction n generalizing s with
  | zero => exact h
  | succ n ih =>
    unfold Machine.releaseHeld
    dsimp only
    split
    · exact h
    · exact .ite (ih (.same h rfl)) h

theorem Keeps.entAdj {pos i : Nat} {f : XEnt → XEnt} (h : Keeps s₀ s) : Keeps s₀ (entAdj pos i f s) := .adjPlx h

theorem Keeps.fixChoice {pos i r : Nat} (h : Keeps s₀ s) : Keeps s₀ (fixChoice pos i r s) := by
  unfold Machine.fixChoice
  split
  · exact h
  · exact .ite h (.ite (.entAdj h) (.ndCount (.entAdj h)))

theorem Keeps.settleEnt {pos i : Nat} (h : Keeps s₀ s) : Keeps s₀ (settleEnt pos i s) := by
  unfold Machine.settleEnt
  split
  · exact h
  · extract_lets _ _ s1
    have h1 : Keeps s₀ s1 := .entAdj h
    exact .foldl (fun _ _ h2 => .sendCell h2) h1

theorem Keeps.pumpEnt {pos i n : Nat} (h : Keeps s₀ s) : Keeps s₀ (pumpEnt pos i n s) := by
  induction n generalizing s with
  | zero => exact h
  | succ n ih =>
    unfold Machine.pumpEnt
    split
    · exact h
    · refine .ite h ?_
      split
      · exact h
      · exact ih (.settleEnt (.sendCell (.entAdj (.ite (.fixChoice h) h))))

theorem Keeps.pumpAll {pos : Nat} (h : Keeps s₀ s) : Keeps s₀ (pumpAll pos s) := .foldl (fun _ _ h1 => .pumpEnt h1) h

theorem Keeps.sendOnce {l : Launch} {key : Nat × Nat} {kind : Nat} {data : List Byte} (h : Keeps s₀ s) :
    Keeps s₀ (sendOnce l key kind data s) :=
  .foldl (fun _ _ h1 => .ite h1 (.sendCell (.adjPlx h1))) h

theorem Keeps.sendNotice {l : Launch} {kill step : Nat} (h : Keeps s₀ s) : Keeps s₀ (sendNotice l kill step s) := .ite (.sendOnce h) h

theorem Keeps.plxTake {pos : Nat} {f : Flit} (h : Keeps s₀ s) (e : plxTake pos f s = some t) : Keeps s₀ t := by
  obtain ⟨i, -, rfl⟩ := Option.map_eq_some_iff.1 e
  exact .pumpEnt (.entAdj h)

theorem Keeps.plxHand {pos tag glove : Nat} (h : Keeps s₀ s) : Keeps s₀ (plxHand pos tag glove s).2 := by
  unfold Machine.plxHand
  extract_lets
  split
  · exact h
  · split
    · exact h
    · extract_lets _ s1
      have h1 : Keeps s₀ s1 := .ite (.fixChoice h) h
      split
      · exact h
      · exact .settleEnt (.entAdj h1)

theorem Keeps.barRecord {pos : Nat} {e : XEnt} {mine whole : Nat} (h : Keeps s₀ s) : Keeps s₀ (barRecord pos e mine whole s) :=
  .ite (.raise (.report (.odBump (.odSet (.odSet h))))) (.odSet (.odSet h))

theorem Keeps.combineEnt {pos i : Nat} (h : Keeps s₀ s) : Keeps s₀ (combineEnt pos i s) := by
  unfold Machine.combineEnt
  split
  · exact h
  · extract_lets _ _ _ _ _ s1 s2 s3
    have h1 : Keeps s₀ s1 := .fixChoice h
    have h2 : Keeps s₀ s2 := .entAdj h1
    have h3 : Keeps s₀ s3 := .ite (.barRecord h2) h2
    exact .ite h (.pumpEnt (.settleEnt h3))

theorem KeepsNext.execExchangeCombine {pos tag : Nat} (h : Keeps s₀ s) : KeepsNext s₀ (execExchangeCombine pos tag s) := by
  unfold Machine.execExchangeCombine
  split
  · exact .next h
  · extract_lets
    refine .next ?_
    exact .foldl (fun _ _ h1 => by split; exacts [.ite (.combineEnt h1) h1, h1]) h

end Sys2Proof.Machine
end

section
/-! PROOFS. What every command keeps (O3, O5): the mesh, the memory tiers, the field bus and the monitor.
One lemma per function of the model, in the model's order: `h` says that the relation holds before it. -/

namespace Sys2Proof.Machine

variable {s₀ s t : State}

/-! ### Mesh.lean -/

theorem Keeps.setRouter {pos : Nat} {r : Router} (h : Keeps s₀ s) : Keeps s₀ (setRouter pos r s) := .same h rfl

theorem Keeps.adjRouter {pos : Nat} {f : Router → Router} (h : Keeps s₀ s) : Keeps s₀ (adjRouter pos f s) := .setRouter h

theorem Keeps.setPort {pos : Nat} {p : PortSt} (h : Keeps s₀ s) : Keeps s₀ (setPort pos p s) := .same h rfl

theorem Keeps.adjPort {pos : Nat} {f : PortSt → PortSt} (h : Keeps s₀ s) : Keeps s₀ (adjPort pos f s) := .setPort h

theorem Keeps.planFault {pos field code input glove : Nat} {detail : List Byte} (h : Keeps s₀ s) :
    Keeps s₀ (planFault pos field code input glove detail s) :=
  .raise (.report (.winBump h))

theorem Keeps.planMiss {pos tc input : Nat} {e : SlotEnt} (h : Keeps s₀ s) : Keeps s₀ (planMiss pos tc input e s) := .planFault h

theorem Keeps.planExtra {pos tc input : Nat} {f : Flit} (h : Keeps s₀ s) : Keeps s₀ (planExtra pos tc input f s) := .planFault h

theorem Keeps.tagFault {pos tc input : Nat} {e : SlotEnt} {f : Flit} (h : Keeps s₀ s) : Keeps s₀ (tagFault pos tc input e f s) :=
  .planFault h

theorem Keeps.gloveFault {pos tc input : Nat} {e : SlotEnt} {f : Flit} (h : Keeps s₀ s) : Keeps s₀ (gloveFault pos tc input e f s) :=
  .planFault h

theorem Keeps.linkErrors {pos vc glove : Nat} {e : LinkErr} (h : Keeps s₀ s) : Keeps s₀ (linkErrors pos vc glove e s) :=
  .ite (.ite h (.winBump h)) (.raise (.report (.winBump (.ite h (.winBump h)))))

theorem Keeps.spoilFlit {e : LinkErr} {f : Flit} (h : Keeps s₀ s) : Keeps s₀ (spoilFlit e f s).2 := by
  unfold Machine.spoilFlit
  split
  · exact h
  · exact .drawWord h

theorem Keeps.latchErrors {pos input tc lag : Nat} {errs : List LinkErr} (h : Keeps s₀ s) :
    Keeps s₀ (latchErrors pos input tc lag errs s) := by
  unfold Machine.latchErrors
  split
  · exact .adjRouter (.spoilFlit (.linkErrors h))
  · exact h

theorem Keeps.refreshAhead {pos a : Nat} (h : Keeps s₀ s) : Keeps s₀ (refreshAhead pos a s) := .adjPort h

theorem Keeps.streamHand {pos tc : Nat} {e : SlotEnt} (h : Keeps s₀ s) : Keeps s₀ (streamHand pos tc e s).2 := by
  unfold Machine.streamHand
  extract_lets
  split
  · exact h
  · split
    · exact .setPort h
    · exact .raise (.report (.odBump (.drawWord (.setPort h))))

theorem Keeps.streamTake {pos : Nat} {f : Flit} (h : Keeps s₀ s) (e : streamTake pos f s = some t) : Keeps s₀ t := by
  obtain ⟨i, -, rfl⟩ := Option.map_eq_some_iff.1 e
  exact .ite (.setPort h) (.refreshAhead (.store (.setPort h)))

theorem Keeps.latchTake {pos input tc lag : Nat} (h : Keeps s₀ s) : Keeps s₀ (latchTake pos input tc lag s).2 := by
  unfold Machine.latchTake
  extract_lets
  split
  · exact h
  · extract_lets
    exact .setRouter h

theorem Keeps.ownTake.fresh {pos tc : Nat} (h : Keeps s₀ s) : Keeps s₀ (ownTake.fresh pos tc s).2 := by
  unfold Machine.ownTake.fresh
  dsimp only
  exact .adjRouter (.ite (.setTile h) h)

theorem Keeps.ownTake {pos tc : Nat} (h : Keeps s₀ s) : Keeps s₀ (ownTake pos tc s).2 := by
  unfold Machine.ownTake
  dsimp only
  split
  · split
    · exact h
    · exact Keeps.ownTake.fresh h
  · exact Keeps.ownTake.fresh h

theorem Keeps.plxOwn.fresh {pos tc : Nat} {e : SlotEnt} (h : Keeps s₀ s) : Keeps s₀ (plxOwn.fresh pos tc e s).2 := by
  have handed : Keeps s₀ (Machine.plxHand pos e.tag e.glove s).2 := .plxHand h
  unfold Machine.plxOwn.fresh
  dsimp only
  exact .adjRouter handed

theorem Keeps.plxOwn {pos tc launch : Nat} {e : SlotEnt} (h : Keeps s₀ s) : Keeps s₀ (plxOwn pos tc launch e s).2 := by
  unfold Machine.plxOwn
  split
  · exact h
  · dsimp only
    split
    · split
      · exact h
      · exact Keeps.plxOwn.fresh h
    · exact Keeps.plxOwn.fresh h

theorem Keeps.laneFill {pos tc : Nat} {l : List Nat} (h : Keeps s₀ s) : Keeps s₀ (laneFill pos tc l s).2 := by
  induction l generalizing s with
  | nil => exact h
  | cons o l ih =>
    unfold Machine.laneFill
    split
    · exact ih h
    · split
      · exact ih h
      · exact ih (.streamHand h)

theorem Keeps.laneTake {pos tc out : Nat} (h : Keeps s₀ s) : Keeps s₀ (laneTake pos tc out s).2 := by
  have filled : Keeps s₀ (Machine.laneFill pos tc (List.range 4) s).2 := .laneFill h
  unfold Machine.laneTake
  dsimp only
  split
  · exact h
  · dsimp only
    exact .adjPort filled

theorem Keeps.inputTake {pos out tc launch input lag : Nat} {e : SlotEnt} (h : Keeps s₀ s) :
    Keeps s₀ (inputTake pos out tc launch input lag e s).2 := by
  unfold Machine.inputTake
  split
  · exact .latchTake h
  · split
    · exact .laneTake h
    · split
      · exact .plxOwn h
      · exact .ownTake h

theorem Keeps.inputCheck {pos tc input : Nat} {e : SlotEnt} {x : Option Flit} (h : Keeps s₀ s) :
    Keeps s₀ (inputCheck pos tc input e x s).2.2 := by
  unfold Machine.inputCheck
  split
  · exact .planMiss h
  · extract_lets s1
    have h1 : Keeps s₀ s1 := .ite h (.tagFault h)
    split
    · exact h1
    · exact .gloveFault h1

theorem Keeps.gather {pos out tc launch lag : Nat} {errs : List LinkErr} {e : SlotEnt} {l : List Nat} (h : Keeps s₀ s) :
    Keeps s₀ (gather pos out tc launch lag errs e l s).2 := by
  induction l generalizing s with
  | nil => exact h
  | cons i l ih => exact ih (.inputCheck (.inputTake (.latchErrors h)))

theorem Keeps.linkSend {pos out tc : Nat} {f : Flit} (h : Keeps s₀ s) : Keeps s₀ (linkSend pos out tc f s) := by
  unfold Machine.linkSend
  split
  · exact h
  · extract_lets
    exact .ite (.planExtra h) (.adjRouter h)

theorem Keeps.recvTake {r : RecvSt} {f : Flit} (h : Keeps s₀ s) : Keeps s₀ (recvTake r f s) := by
  unfold Machine.recvTake
  extract_lets _ s1
  have h1 : Keeps s₀ s1 := .adjTile h
  split
  · exact .ite h1 (.schedIn h1)
  · exact .ite (.takeExc h1) (.ite h1 (.schedIn h1))
  · exact .ite h1 (.ite (.schedIn h1) (.foldl (fun _ _ h2 => .schedIn h2) h1))

theorem Keeps.statTake {pos launch : Nat} {f : Flit} (h : Keeps s₀ s) (e : statTake pos launch f s = some t) : Keeps s₀ t := by
  unfold Machine.statTake at e
  split at e
  · split at e <;> cases e
    exact .ite h (.schedIn h)
  · cases e

theorem Keeps.tileDeliver {pos tc : Nat} {f : Flit} (h : Keeps s₀ s) : Keeps s₀ (tileDeliver pos tc f s) := by
  unfold Machine.tileDeliver
  extract_lets
  split
  · exact .unclaimed h
  · extract_lets s1
    have h1 : Keeps s₀ s1 := .ite (.setLatch h) h
    split
    · exact .ite (.endBarw h1) (.unclaimed h1)
    · split
      · exact .lacTake h1
      · exact .recvTake h1
      · exact .ite (.endBarw h1) (.unclaimed h1)

theorem Keeps.localDeliver {pos tc launch : Nat} {f : Flit} (h : Keeps s₀ s) : Keeps s₀ (localDeliver pos tc launch f s) := by
  unfold Machine.localDeliver
  split
  · split
    · rename_i e
      exact .statTake h e
    · exact .tileDeliver h
  · dsimp only
    split
    · rename_i e
      split at e
      · exact .streamTake h e
      · split at e
        · exact .plxTake h e
        · cases e
    · exact .report h

theorem Keeps.slotSend {pos out tc launch : Nat} {f : Flit} (h : Keeps s₀ s) : Keeps s₀ (slotSend pos out tc launch f s) :=
  .ite (.linkSend h) (.ite h (.localDeliver h))

theorem Keeps.forwardAll {pos out tc launch : Nat} {e : SlotEnt} {l : List (Nat × Option Flit × Bool)} (h : Keeps s₀ s) :
    Keeps s₀ (forwardAll pos out tc launch e l s) := by
  induction l generalizing s with
  | nil => exact h
  | cons x l ih =>
    unfold Machine.forwardAll
    split
    · exact ih (.slotSend h)
    · exact ih (.slotSend (.drawWord h))

theorem Keeps.combineWords {l : List (Nat × Option Flit × Bool)} (h : Keeps s₀ s) : Keeps s₀ (combineWords l s).2 := by
  induction l generalizing s with
  | nil => exact h
  | cons x l ih =>
    unfold Machine.combineWords
    split
    · exact ih h
    · exact ih (.drawWord h)

theorem Keeps.combineOut {pos out : Nat} {e : SlotEnt} {ws : List (Nat × Nat)} {bad stat : Bool} (h : Keeps s₀ s) :
    Keeps s₀ (combineOut pos out e ws bad stat s).2 := by
  unfold Machine.combineOut
  extract_lets
  split
  · exact h
  · exact .setRouter h
  · exact h
  · exact h

theorem Keeps.slotUse {op pos out tc : Nat} {errs : List LinkErr} (h : Keeps s₀ s) : Keeps s₀ (slotUse op pos out tc errs s) := by
  unfold Machine.slotUse
  split
  · exact h
  · exact .ite h (.ite (.forwardAll (.gather h)) (.slotSend (.combineOut (.combineWords (.gather h)))))

theorem KeepsNext.slotRun {op pos out tc : Nat} {errs : List LinkErr} (h : Keeps s₀ s) : KeepsNext s₀ (slotRun op pos out tc errs s) :=
  .ite (.next h) (.atTc h (fun _ h1 => .slotUse h1))

theorem KeepsNext.execSlotFwd {pos out tc : Nat} {errs : List LinkErr} (h : Keeps s₀ s) : KeepsNext s₀ (execSlotFwd pos out tc errs s) :=
  .slotRun h

theorem KeepsNext.execCombineAdd {pos out tc : Nat} {errs : List LinkErr} (h : Keeps s₀ s) :
    KeepsNext s₀ (execCombineAdd pos out tc errs s) :=
  .slotRun h

theorem KeepsNext.execCombineTopk {pos out tc : Nat} {errs : List LinkErr} (h : Keeps s₀ s) :
    KeepsNext s₀ (execCombineTopk pos out tc errs s) :=
  .slotRun h

theorem KeepsNext.execCombineBar {pos out tc : Nat} {errs : List LinkErr} (h : Keeps s₀ s) :
    KeepsNext s₀ (execCombineBar pos out tc errs s) :=
  .slotRun h

theorem KeepsNext.execCombineFlag {pos out tc : Nat} {errs : List LinkErr} (h : Keeps s₀ s) :
    KeepsNext s₀ (execCombineFlag pos out tc errs s) :=
  .slotRun h

/-! ### Vc.lean -/

theorem KeepsNext.atReal {k : Nat} {f : State → State} (h : Keeps s₀ s) (hf : ∀ t, Keeps s₀ t → Keeps s₀ (f t)) :
    KeepsNext s₀ (atReal k s f) :=
  .ite (.next h) (.next (hf _ (.ite (.advance h) (.advanceTo h))))

theorem Keeps.deliverAt {k glove : Nat} {a : Act} (h : Keeps s₀ s) : Keeps s₀ (deliverAt k glove a s) := .schedAt h

theorem Keeps.healthArrive {launch tile : Nat} {latch : Bool} (h : Keeps s₀ s) : Keeps s₀ (healthArrive launch tile latch s) :=
  .same h rfl

theorem Keeps.storeArrive {pos src : Nat} {f : VcFlit} {data : Nat} (h : Keeps s₀ s) : Keeps s₀ (storeArrive pos src f data s) :=
  .adjPort h

theorem Keeps.grantArrive {pos words : Nat} {ok : Bool} {f : VcFlit} (h : Keeps s₀ s) : Keeps s₀ (grantArrive pos words ok f s) := by
  unfold Machine.grantArrive
  exact .adjTile h

theorem Keeps.flitArrive {pos a k : Nat} {f : VcFlit} (h : Keeps s₀ s) : Keeps s₀ (flitArrive pos a k f s) := by
  unfold Machine.flitArrive
  split
  · exact h
  · exact .ite h (.deliverAt h)
  · exact .ite h (.deliverAt h)
  · exact .ite h (.adjPort h)
  · exact .storeArrive h
  · exact .grantArrive h
  · exact .ite h (.deliverAt h)
  · exact .healthArrive h

theorem Keeps.countClass {pos cls to_ : Nat} (h : Keeps s₀ s) : Keeps s₀ (countClass pos cls to_ s) := .ite (.winBump h) h

theorem Keeps.flitLeave {pos input cls out k : Nat} {err : Option LinkErr} {f : VcFlit} (h : Keeps s₀ s) :
    Keeps s₀ (flitLeave pos input cls out k err f s) := by
  unfold Machine.flitLeave
  extract_lets _ _ s1
  have h1 : Keeps s₀ s1 := .countClass h
  split
  · exact .foldl (fun _ _ h2 => .flitArrive h2) h
  · split
    · exact h
    · extract_lets
      split
      · exact .adjRouter h1
      · exact .adjRouter (.linkErrors h1)

theorem Keeps.ownLeave {pos out k i : Nat} {err : Option LinkErr} {f : VcFlit} (h : Keeps s₀ s) :
    Keeps s₀ (ownLeave pos out k i err f s) :=
  .flitLeave (.ite (.adjTile h) (.budgetAdd (.adjTile h)))

theorem Keeps.bufLeave {pos input vc cls out k : Nat} {err : Option LinkErr} {f : VcFlit} (h : Keeps s₀ s) :
    Keeps s₀ (bufLeave pos input vc cls out k err f s) :=
  .flitLeave (.adjRouter h)

theorem Keeps.stallOwn {pos vc out now : Nat} (h : Keeps s₀ s) : Keeps s₀ (stallOwn pos vc out now s) :=
  .foldl (fun _ _ h1 => .ite (.adjTile (.budgetStall h1)) h1) h

theorem Keeps.dropEmpty {pos : Nat} (h : Keeps s₀ s) : Keeps s₀ (dropEmpty pos s) := .ite (.adjTile h) h

theorem Keeps.noteWait {pos vc now : Nat} {f : VcFlit} (h : Keeps s₀ s) : Keeps s₀ (noteWait pos vc now f s) := .winMax h

theorem Keeps.serveSource {pos vc out k src : Nat} {err : Option LinkErr} (h : Keeps s₀ s)
    (e : serveSource pos vc out k src err s = some t) : Keeps s₀ t := by
  unfold Machine.serveSource at e
  extract_lets now at e
  split at e
  · split at e
    · split at e <;> cases e
      exact .noteWait (.ownLeave h)
    · cases e
  · split at e
    · split at e <;> cases e
      exact .noteWait (.bufLeave h)
    · cases e

theorem Keeps.serveVc {pos vc out k : Nat} {err : Option LinkErr} (h : Keeps s₀ s) (e : serveVc pos vc out k err s = some t) :
    Keeps s₀ t := by
  obtain ⟨j, -, e⟩ := List.exists_of_findSome?_eq_some e
  obtain ⟨u, served, rfl⟩ := Option.map_eq_some_iff.1 e
  exact .adjRouter (.serveSource h served)

theorem Keeps.vc3Refill {pos : Nat} (h : Keeps s₀ s) : Keeps s₀ (vc3Refill pos s) := by
  unfold Machine.vc3Refill
  refine .foldl (fun _ _ k => ?_) h
  extract_lets
  refine .foldl (fun _ _ k' => ?_) k
  split
  · exact .ite (.vc3Take (.same k' rfl)) k'
  · exact k'

theorem Keeps.spoilRecord {e : LinkErr} {r : Vc3} (h : Keeps s₀ s) : Keeps s₀ (spoilRecord e r s).2 := by
  unfold Machine.spoilRecord
  split
  · exact h
  · exact .drawWord h

theorem Keeps.vc3Leave {pos out k : Nat} {err : Option LinkErr} {e : Vc3Ent} (h : Keeps s₀ s) :
    Keeps s₀ (vc3Leave pos out k err e s) := by
  unfold Machine.vc3Leave
  split
  · exact .same h rfl
  · split
    · exact h
    · extract_lets _ s1
      have h1 : Keeps s₀ s1 := .countClass h
      exact .vc3Arrive (by split; exacts [h1, .spoilRecord (.linkErrors h1)])

theorem Keeps.serveVc3 {pos out k : Nat} {err : Option LinkErr} (h : Keeps s₀ s) (e : serveVc3 pos out k err s = some t) :
    Keeps s₀ t := by
  obtain ⟨x, -, rfl⟩ := Option.map_eq_some_iff.1 e
  refine .vc3Refill (.vc3Leave (h.withHeld fun k => ?_))
  split
  · exact keysRise_kdel _ _ k
  · exact keysRise_kput _ _ _ k

theorem Keeps.useOpenTc {pos out k : Nat} {err : Option LinkErr} {only3 : Bool} (h : Keeps s₀ s) :
    Keeps s₀ (useOpenTc pos out k err only3 s) := by
  unfold Machine.useOpenTc
  extract_lets now s1
  have h1 : Keeps s₀ s1 := .stallOwn (.stallOwn (.dropEmpty h))
  refine .ite h ?_
  split
  · rename_i vc t e
    obtain ⟨vc, -, e⟩ := List.exists_of_findSome?_eq_some e
    obtain ⟨u, served, e⟩ := Option.map_eq_some_iff.1 e
    cases e
    refine .ite h (.adjRouter ?_)
    split at served
    · exact .serveVc3 h1 served
    · exact .serveVc h1 served
  · exact .ite h h1

theorem KeepsNext.execVcFlitForward {pos out tc : Nat} {err : Option LinkErr} (h : Keeps s₀ s) :
    KeepsNext s₀ (execVcFlitForward pos out tc err s) :=
  .ite (.next h) (.atReal h (fun _ h1 => .useOpenTc h1))

theorem Keeps.releaseRecord {pos tc : Nat} {err : Option LinkErr} (h : Keeps s₀ s) : Keeps s₀ (releaseRecord pos tc err s) := by
  unfold Machine.releaseRecord
  split
  · exact h
  · split
    · exact h
    · exact .useOpenTc h

theorem KeepsNext.execVc3RecordRelease {pos tc : Nat} {err : Option LinkErr} (h : Keeps s₀ s) :
    KeepsNext s₀ (execVc3RecordRelease pos tc err s) :=
  .ite (.next h) (.atReal h (fun _ h1 => .releaseRecord h1))

theorem Keeps.readDead {pos : Nat} {r : MemReq} (h : Keeps s₀ s) : Keeps s₀ (readDead pos r s) :=
  .foldl (fun _ _ h1 => .foldl (fun _ _ h2 => .reject h2) h1) h

theorem Keeps.refuseRequest {pos : Nat} {r : MemReq} (h : Keeps s₀ s) : Keeps s₀ (refuseRequest pos r s) := by
  unfold Machine.refuseRequest
  exact .ite (.queueFlits (.readDead h)) (by split; exacts [.queueFlits h, h])

theorem Keeps.sendGrant {pos : Nat} {r : MemReq} (h : Keeps s₀ s) : Keeps s₀ (sendGrant pos r s) := by
  unfold Machine.sendGrant
  split
  · exact .ite (.queueFlits h) h
  · exact h

theorem KeepsNext.execLedgerRequest {pos op : Nat} (h : Keeps s₀ s) : KeepsNext s₀ (execLedgerRequest pos op s) := by
  unfold Machine.execLedgerRequest
  split
  · exact .next h
  · split
    · split
      · exact .ite (.next h) (.next (.adjPort h))
      · exact .next h
    · split
      · exact .next h
      · extract_lets s1
        have h1 : Keeps s₀ s1 := .adjPort h
        exact .ite (.next (.refuseRequest (.reject h1))) (.next (.adjPort h1))
    · exact .next h

theorem Keeps.grantReq {pos : Nat} {x : LedgerReq} (h : Keeps s₀ s) : Keeps s₀ (grantReq pos x s) := by
  unfold Machine.grantReq
  extract_lets s1
  have h1 : Keeps s₀ s1 := .adjPort h
  split
  · exact .budgetAdd (.sendGrant h1)
  · exact .same h1 rfl

theorem Keeps.grantAll {pos : Nat} {l : List LedgerReq} (h : Keeps s₀ s) : Keeps s₀ (grantAll pos l s) := by
  induction l generalizing s with
  | nil => exact h
  | cons x l ih => exact .ite (.adjPort (.budgetStall h)) (ih (.grantReq h))

theorem Keeps.ledgerVisit {pos : Nat} (h : Keeps s₀ s) : Keeps s₀ (ledgerVisit pos s) := by
  unfold Machine.ledgerVisit
  extract_lets
  split
  · extract_lets _ _ s1 s2
    have h1 : Keeps s₀ s1 := .setPort h
    have h2 : Keeps s₀ s2 := .grantAll h1
    exact .ite h2 (.adjPort h2)
  · split
    · exact .setPort h
    · exact .grantAll (.setPort h)

theorem KeepsNext.execLedgerGrant {pos : Nat} (h : Keeps s₀ s) : KeepsNext s₀ (execLedgerGrant pos s) :=
  .ite (.next h) (.next (.ledgerVisit h))

theorem KeepsNext.execColRetrain {row rate : Nat} (h : Keeps s₀ s) : KeepsNext s₀ (execColRetrain row rate s) :=
  .ite (.next h) (.ite (.next h) (.next (.raise (.report (.odSet h)))))

/-! ### Tier.lean -/

theorem Keeps.takeGranted {pos : Nat} {r : MemReq} (h : Keeps s₀ s) : Keeps s₀ (takeGranted pos r s) := .adjPort h

theorem KeepsNext.execMemRead {pos : Nat} (h : Keeps s₀ s) : KeepsNext s₀ (execMemRead pos s) := by
  unfold Machine.execMemRead
  split
  · exact .next h
  · split
    · exact .next h
    · extract_lets s1
      have h1 : Keeps s₀ s1 := .takeGranted h
      split
      · exact .next (.refuseRequest (.reject h1))
      · exact .next (.queueFlits (.readDead (.tierReadChecks h1)))

theorem Keeps.writeData {a : Nat} {l : Words2} (h : Keeps s₀ s) : Keeps s₀ (writeData a l s) := by
  induction l generalizing a s with
  | nil => exact h
  | cons x l ih => exact ih (.ite h (.store h))

theorem Keeps.writeDone {pos : Nat} {r : MemReq} (h : Keeps s₀ s) : Keeps s₀ (writeDone pos r s) := by
  unfold Machine.writeDone
  split
  · split
    · exact .queueFlits h
    · exact .reject h
  · exact h

theorem KeepsNext.execMemWrite {pos : Nat} (h : Keeps s₀ s) : KeepsNext s₀ (execMemWrite pos s) := by
  unfold Machine.execMemWrite
  split
  · exact .next h
  · split
    · exact .next h
    · extract_lets s1
      have h1 : Keeps s₀ s1 := .takeGranted h
      split
      · exact .next (.reject h1)
      · exact .next (.writeDone (.writeData h1))

theorem KeepsNext.execStreamReadAhead {pos tag : Nat} (h : Keeps s₀ s) : KeepsNext s₀ (execStreamReadAhead pos tag s) := by
  unfold Machine.execStreamReadAhead
  split
  · exact .next h
  · extract_lets
    split
    · exact .next h
    · extract_lets
      exact .ite (.next h) (.next (.adjPort (.tierReadChecks h)))

theorem Keeps.correctWord {a : Nat} (h : Keeps s₀ s) : Keeps s₀ (correctWord a s) := .same h rfl

theorem KeepsNext.execEccWriteBack {addr : Nat} (h : Keeps s₀ s) : KeepsNext s₀ (execEccWriteBack addr s) :=
  .ite (.next (.correctWord h)) (.next h)

theorem KeepsNext.execPatrolScrubVisit {addr : Nat} (h : Keeps s₀ s) : KeepsNext s₀ (execPatrolScrubVisit addr s) :=
  .ite (.next (.correctWord (.tierReadChecks h))) (.next h)

theorem KeepsNext.execHashPassStart {pos : Nat} {quiet : List Nat} (h : Keeps s₀ s) : KeepsNext s₀ (execHashPassStart pos quiet s) := by
  refine .ite (.next h) ?_
  dsimp only
  split
  · exact .next h
  · exact .ite (.next h) (.next (.same h rfl))

theorem KeepsNext.execHashPassDone {pos chunk : Nat} (h : Keeps s₀ s) : KeepsNext s₀ (execHashPassDone pos chunk s) :=
  .ite (.next h) (.ite (.next (.ownReads (.same h rfl))) (.next h))

theorem KeepsNext.execMemTempRead {pos : Nat} {temp : Int} (h : Keeps s₀ s) : KeepsNext s₀ (execMemTempRead pos temp s) :=
  .ite (.next h) (.next (.winPut h))

theorem Keeps.applyRate {pos : Nat} (h : Keeps s₀ s) : Keeps s₀ (applyRate pos s) := .ite h (.raise (.report (.odSet (.winPut h))))

theorem Keeps.applyRates (h : Keeps s₀ s) : Keeps s₀ (applyRates s) := .foldl (fun _ _ h1 => .applyRate h1) h

theorem keeping_assignEntry : OwnEntry.Keeping assignEntry := fun _ _ _ h => ⟨.odSet (.same h rfl), .ite h (.odSet h)⟩

theorem KeepsNext.execMemAssignCommit {req : OdReq} (h : Keeps s₀ s) : KeepsNext s₀ (execMemAssignCommit req s) :=
  .next (.odWriteOwn keeping_assignEntry h)

theorem Keeps.setChunk {k : Nat} {c : Chunk} (h : Keeps s₀ s) : Keeps s₀ (setChunk k c s) := by
  refine h.withChunks fun w => ?_
  split
  · exact keysRise_kdel _ _ w
  · exact keysRise_kput _ _ _ w

theorem KeepsNext.execMemAssignTransit (h : Keeps s₀ s) : KeepsNext s₀ (execMemAssignTransit s) := by
  unfold Machine.execMemAssignTransit
  split
  · exact .next h
  · exact .ite (.next h) (.next (.odSet (.same (.foldl (fun _ _ h1 => .setChunk h1) h) rfl)))

theorem KeepsNext.execChunkScrubDone {chunk : Nat} (h : Keeps s₀ s) : KeepsNext s₀ (execChunkScrubDone chunk s) := by
  unfold Machine.execChunkScrubDone
  split
  · exact .next h
  · exact .ite (.next h)
      (.next (.same (h.withMem (memWf_memZero _ (chunk * chunkBytes) (chunk * chunkBytes + chunkBytes))) rfl))

theorem KeepsNext.execMemAssignDone (h : Keeps s₀ s) : KeepsNext s₀ (execMemAssignDone s) := by
  unfold Machine.execMemAssignDone
  split
  · exact .next h
  · exact .ite (.next h) (.next (.odSet (.same (.foldl (fun _ _ h1 => .setChunk h1) h) rfl)))

/-! ### Dma.lean -/

theorem Keeps.dmaCheck {g a n : Nat} {write : Bool} (h : Keeps s₀ s) : Keeps s₀ (dmaCheck g a n write s).2 := by
  unfold Machine.dmaCheck
  split
  · exact .reject h
  · split
    · exact .reject h
    · exact .reject (.drawFree h)
    · split
      · exact .bankCheck h
      · exact h

theorem Keeps.dmaSpend {o : Op} {n : Nat} (h : Keeps s₀ s) : Keeps s₀ (dmaSpend o n s) := .ite (.budgetAdd h) (.budgetAdd (.budgetAdd h))

theorem Keeps.moveBurst {k : Nat} {o : Op} {n : Nat} {data : List Byte} {tc : Option Nat} (h : Keeps s₀ s) :
    Keeps s₀ (moveBurst k o n data tc s) := by
  unfold Machine.moveBurst
  split
  · exact .dmaWord h
  · exact .endBurst (.burstWords h)

theorem Keeps.dmaBurst {k : Nat} {o : Op} {tc : Option Nat} (h : Keeps s₀ s) : Keeps s₀ (dmaBurst k o tc s) :=
  .ite h (.ite (.setOp (.budgetStall h)) (.ite (.hostRead (.dmaSpend h)) (.moveBurst (.dmaSpend h))))

theorem Keeps.copyData {k : Nat} {o : Op} {d : List Byte} {tc : Option Nat} (h : Keeps s₀ s) : Keeps s₀ (copyData k o d tc s) :=
  .moveBurst h

theorem Keeps.startDma {k kind : Nat} (h : Keeps s₀ s) : Keeps s₀ (startDma k kind s) := by
  unfold Machine.startDma
  split
  · exact h
  · split
    · exact h
    · rename_i o s1 e
      have hs1 : Keeps s₀ s1 := .startOp h e
      split
      · exact .completeOp hs1
      · split
        rename_i st s2 eq
        have h2 : Keeps s₀ s2 := .snd eq (.foldlSnd (fun _ _ h2 => by split; exacts [h2, .dmaCheck h2]) hs1)
        exact .ite h2 (.completeOp h2)

theorem KeepsNext.execCopy {op : Nat} (h : Keeps s₀ s) : KeepsNext s₀ (execCopy op s) := .next (.startDma h)

theorem KeepsNext.execFill {op : Nat} (h : Keeps s₀ s) : KeepsNext s₀ (execFill op s) := .next (.startDma h)

theorem Keeps.burst {op : Nat} {tc : Option Nat} (h : Keeps s₀ s) : Keeps s₀ (burst op tc s) := by
  unfold Machine.burst
  split
  · exact h
  · exact .ite (.dmaBurst h) h

theorem KeepsNext.execDmaBurst {op : Nat} {tc : Option Nat} (h : Keeps s₀ s) : KeepsNext s₀ (execDmaBurst op tc s) :=
  .atTc? h (fun _ h1 => .burst h1)

theorem Keeps.semValue {k : Nat} {o : Op} {v : Nat} {bad : Bool} (h : Keeps s₀ s) : Keeps s₀ (semValue k o v bad s) :=
  .ite (.completeOp h) (.ite (.completeOp h) h)

theorem Keeps.semNote {tc : Option Nat} {a : Nat} (h : Keeps s₀ s) : Keeps s₀ (semNote tc a s) := by
  unfold Machine.semNote
  split
  · exact .same h rfl
  · exact h

theorem Keeps.semRead {k : Nat} {o : Op} {tc : Option Nat} (h : Keeps s₀ s) : Keeps s₀ (semRead k o tc s) := by
  unfold Machine.semRead
  dsimp only
  split
  · exact .ite (.hostRead h) h
  · split
    · exact .semValue (.tierReadChecks h)
    · rename_i b _
      have h1 : Keeps s₀ (Machine.portRead o.glove b (dAddr o.bytes) 8 s).2 := .portRead h
      exact .ite (.semValue h1) (.completeOp h1)
    · have h1 : Keeps s₀ (Machine.devBytes .host true 2 (dAddr o.bytes) s).2 := .devBytes h
      exact .semValue h1
    · exact .completeOp (.reject h)

theorem Keeps.waitSem {op : Nat} {tc : Option Nat} (h : Keeps s₀ s) : Keeps s₀ (waitSem op tc s) := by
  unfold Machine.waitSem
  split
  · exact h
  · rename_i o s1 e
    have hs1 : Keeps s₀ s1 := .startOp h e
    exact .ite (.semRead hs1) (.completeOp hs1)

theorem KeepsNext.execWaitSem {op : Nat} {tc : Option Nat} (h : Keeps s₀ s) : KeepsNext s₀ (execWaitSem op tc s) :=
  .atTc? h (fun _ h1 => .waitSem h1)

theorem Keeps.pollSem {op : Nat} {tc : Option Nat} (h : Keeps s₀ s) : Keeps s₀ (pollSem op tc s) := by
  unfold Machine.pollSem
  split
  · exact h
  · exact .ite (.semRead h) h

theorem KeepsNext.execWaitSemPoll {op : Nat} {tc : Option Nat} (h : Keeps s₀ s) : KeepsNext s₀ (execWaitSemPoll op tc s) :=
  .atTc? h (fun _ h1 => .pollSem h1)

theorem Keeps.signalLost {k : Nat} (h : Keeps s₀ s) : Keeps s₀ (signalLost k s) := .completeOp (.drawFree h)

theorem Keeps.signalTier {k : Nat} {o : Op} {tc : Option Nat} (h : Keeps s₀ s) : Keeps s₀ (signalTier k o tc s) :=
  .ite (.signalLost (.tierReadChecks h)) (.completeOp (.ndHostWrite (.store (.semNote (.tierReadChecks h)))))

theorem Keeps.signalBank {k : Nat} {o : Op} {b : Nat} {tc : Option Nat} (h : Keeps s₀ s) : Keeps s₀ (signalBank k o b tc s) :=
  .ite (.signalLost (.portAtomic (.semNote h))) (.completeOp (.portAtomic (.semNote h)))

theorem Keeps.signalDevice {k : Nat} {o : Op} {tc : Option Nat} (h : Keeps s₀ s) : Keeps s₀ (signalDevice k o tc s) := by
  unfold Machine.signalDevice
  extract_lets
  split
  rename_i st s1 eq
  have h1 : Keeps s₀ s1 := .snd eq (.dmaCheck h)
  refine .ite (.completeOp h1) (.ite (.setOp (.budgetStall h1)) ?_)
  dsimp only
  have h2 : Keeps s₀ (Machine.budgetAdd o.glove 6 8 s1) := .budgetAdd h1
  split
  · exact .signalTier h2
  · exact .signalBank h2
  · have h3 : Keeps s₀ (Machine.devBytes .host true 2 (dAddr o.bytes) (Machine.budgetAdd o.glove 6 8 s1)).2 := .devBytes h2
    exact .completeOp (.devWords h3)

theorem Keeps.signal {k : Nat} {o : Op} {tc : Option Nat} (h : Keeps s₀ s) : Keeps s₀ (signal k o tc s) :=
  .ite h (.ite (.ite (.completeOp h) (.ite (.completeOp (.hostWrite h)) h)) (.signalDevice h))

theorem Keeps.signalSem {op : Nat} {tc : Option Nat} (h : Keeps s₀ s) : Keeps s₀ (signalSem op tc s) := by
  unfold Machine.signalSem
  split
  · rename_i o s1 e
    have hs1 : Keeps s₀ s1 := .startOp h e
    exact .ite (.signal hs1) (.completeOp hs1)
  · split
    · exact h
    · exact .ite (.signal h) h

theorem KeepsNext.execSignalSem {op : Nat} {tc : Option Nat} (h : Keeps s₀ s) : KeepsNext s₀ (execSignalSem op tc s) :=
  .atTc? h (fun _ h1 => .signalSem h1)

theorem KeepsNext.execBudgetStallRetry {op : Nat} (h : Keeps s₀ s) : KeepsNext s₀ (execBudgetStallRetry op s) := by
  unfold Machine.execBudgetStallRetry
  split
  · exact .next h
  · split
    · exact .next h
    · exact .ite (.next h) (.ite (.next (.setOp h)) (.next (.setOp (.budgetStall h))))

/-! ### Field.lean -/

theorem Keeps.fieldWith {f : FieldSt → FieldSt} (h : Keeps s₀ s) : Keeps s₀ (fieldWith f s) := .same h rfl

theorem Keeps.setRx {k : Nat} {r : RxSt} (h : Keeps s₀ s) : Keeps s₀ (setRx k r s) := .fieldWith h

theorem Keeps.setTx {k : Nat} {r : TxSt} (h : Keeps s₀ s) : Keeps s₀ (setTx k r s) := .fieldWith h

theorem Keeps.setConn {c : Nat} {r : Conn} (h : Keeps s₀ s) : Keeps s₀ (setConn c r s) := .odSet (.fieldWith h)

theorem Keeps.pdEvent {tile field : Nat} (h : Keeps s₀ s) : Keeps s₀ (pdEvent tile field s) := .winBump h

theorem Keeps.meterRun {i n ns : Nat} (h : Keeps s₀ s) : Keeps s₀ (meterRun s i n ns).2 := by
  unfold Machine.meterRun
  dsimp only
  split
  · exact h
  · dsimp only
    exact .fieldWith h

theorem Keeps.rxDrop {port : Nat} (h : Keeps s₀ s) : Keeps s₀ (rxDrop port s) := .pdEvent (.odBump h)

theorem Keeps.rxKeep {port k : Nat} {late : Bool} {x : Nat × List Byte} (h : Keeps s₀ s) : Keeps s₀ (rxKeep port k late x s) :=
  .ite (.rxDrop (.setRx h)) (.setRx h)

theorem Keeps.rxAccept {port : Nat} {late : Bool} {f : RxFrame} (h : Keeps s₀ s) : Keeps s₀ (rxAccept port late f s) := by
  unfold Machine.rxAccept
  split
  · exact h
  · extract_lets
    exact .ite (.rxDrop h) (.ite (.rxKeep (.setRx h)) (.setRx h))

theorem KeepsNext.execRxFrame {port : Nat} {late : Bool} {ns : Nat} {data : List Byte} (h : Keeps s₀ s) :
    KeepsNext s₀ (execRxFrame port late ns data s) := by
  unfold Machine.execRxFrame
  split
  · exact .next h
  · split
    · exact .next h
    · extract_lets s1
      have h1 : Keeps s₀ s1 := .odBump h
      split
      · exact .next h1
      · split
        · exact .next h1
        · split
          · exact .next (.rxDrop h1)
          · exact .ite (.next (.rxDrop h1)) (.next (.ite (.rxAccept (.meterRun h1)) (.rxDrop (.meterRun h1))))

theorem Keeps.crcDisagree {tile : Nat} (h : Keeps s₀ s) : Keeps s₀ (crcDisagree tile s) := .raise (.enterSafe (.dangerous (.pdEvent h)))

theorem Keeps.connRun {c tile : Nat} {bad : Bool} {piece : Option (List Byte × Nat)} (h : Keeps s₀ s) :
    Keeps s₀ (connRun c tile bad piece s) := by
  unfold Machine.connRun
  extract_lets _ _ _ _ s0 s1
  have h0 : Keeps s₀ s0 := .ite (.odBump h) h
  have h1 : Keeps s₀ s1 := .ite h0 (.ite (.crcDisagree h0) (.pdEvent h0))
  exact .ite h (.ite (.raise (.setConn (.ite (.odBump h1) h1))) (.setConn (.ite (.odBump h1) h1)))

theorem Keeps.connEnable (h : Keeps s₀ s) : Keeps s₀ (connEnable s) := by
  refine .foldl (fun t p h1 => ?_) h
  dsimp only
  split
  · exact h1
  · exact .ite h1 (.setConn h1)

theorem Keeps.pdDeliver {o : PdOut} (h : Keeps s₀ s) : Keeps s₀ (pdDeliver o s) :=
  .foldl (fun _ _ h1 => .foldl (fun _ _ h2 => .reject h2) h1) (.queueFlits h)

theorem Keeps.rxBoundary {crc : List Nat} {k : Nat} (h : Keeps s₀ s) : Keeps s₀ (rxBoundary crc k s).2 :=
  .foldl (fun _ _ h1 => .ite h1 (.connRun h1)) (.ite (.setRx h) (.raise (.odBump (.setRx h))))

theorem Keeps.streamEnable {before : State} (k1 : Keeps s₀ s) : Keeps s₀ (streamEnable before s) :=
  .foldl (fun _ _ h2 => .ite (.setTx (.ite (.setRx h2) h2)) (.ite (.setRx h2) h2)) k1

theorem Keeps.connIdle (h : Keeps s₀ s) : Keeps s₀ (connIdle s) := .foldl (fun _ _ h1 => .ite (.connRun h1) h1) h

theorem Keeps.fieldBoundary {crc : List Nat} {before : State} (h : Keeps s₀ s) : Keeps s₀ (fieldBoundary crc before s) := by
  unfold Machine.fieldBoundary
  extract_lets s0 s1
  have h0 : Keeps s₀ s0 := .fieldWith h
  have h1 : Keeps s₀ s1 := .connEnable (.streamEnable h0)
  clear_value s1
  split
  rename_i outs s2 eq
  have h2 : Keeps s₀ s2 := by
    refine .snd eq (.foldlSnd (fun a k h2 => ?_) h1)
    split
    · exact .rxBoundary h2
    · exact h2
  exact .foldl (fun _ _ k => .pdDeliver k) (.connIdle h2)

theorem Keeps.txRead {tile g n : Nat} {d : Nat × Nat} (h : Keeps s₀ s) : Keeps s₀ (txRead tile g n d s).2 := by
  unfold Machine.txRead
  split
  · exact .reject h
  · extract_lets
    split
    · split
      rename_i r s1 eq
      have h1 : Keeps s₀ s1 := .snd eq (.portRead (.budgetAdd h))
      split
      · exact .budgetStall (.ite h h1)
      · exact h1
    · exact .reject h
    · exact .reject h

theorem Keeps.txReadAll {tile g n : Nat} {l : List (Nat × Nat)} (h : Keeps s₀ s) : Keeps s₀ (txReadAll tile g n l s).2 := by
  induction l generalizing s with
  | nil => exact h
  | cons d l ih => exact ih (.txRead h)

theorem Keeps.txFetch {stream : Nat} (h : Keeps s₀ s) : Keeps s₀ (txFetch stream s) :=
  .ite h (.foldl (fun _ _ h1 => .setTx (.txReadAll h1)) (.setTx h))

theorem KeepsNext.execTxFetch {stream tc : Nat} (h : Keeps s₀ s) : KeepsNext s₀ (execTxFetch stream tc s) :=
  .ite (.next h) (.atTc h (fun _ h1 => .txFetch h1))

theorem Keeps.txDeadline {k : Nat} (h : Keeps s₀ s) : Keeps s₀ (txDeadline k s) :=
  .ite h (.ite (.raise (.pdEvent (.odBump (.setTx h)))) (.setTx h))

theorem KeepsNext.execTxDataDeadline {stream : Nat} (h : Keeps s₀ s) : KeepsNext s₀ (execTxDataDeadline stream s) :=
  .ite (.next h) (.ite (.next (.txDeadline h)) (.next h))

theorem Keeps.txPayload {crc : List Nat} {k : Nat} {l : List Piece} {b : List Byte} (h : Keeps s₀ s) :
    Keeps s₀ (txPayload crc k l b s).2 := by
  induction l generalizing b s with
  | nil => exact h
  | cons p l ih =>
    unfold Machine.txPayload
    dsimp only
    split
    · exact ih h
    · split
      · exact ih h
      · split
        · exact ih (.crcDisagree h)
        · exact ih (.setConn h)

theorem Keeps.txSend {k : Nat} {noData : Bool} {payload : List Byte} (h : Keeps s₀ s) : Keeps s₀ (txSend k noData payload s) := by
  have sent {t : State} {p : Nat} {x : List Out} (h1 : Keeps s₀ t) : Keeps s₀ { Machine.odBump t (0x7100 + p) 2 64 1 with out := x } :=
    have h2 : Keeps s₀ (Machine.odBump t (0x7100 + p) 2 64 1) := .odBump h1
    .same h2 rfl
  unfold Machine.txSend
  extract_lets m ports two up s1 late s2
  have h1 : Keeps s₀ s1 := .foldl (fun t p h1 => sent h1) h
  have h2 : Keeps s₀ s2 := .ite (.pdEvent h1) h1
  exact .setTx h2

theorem KeepsNext.execTxFrame {stream : Nat} {crc : List Nat} (h : Keeps s₀ s) : KeepsNext s₀ (execTxFrame stream crc s) := by
  refine .ite (.next h) (.ite (.next h) ?_)
  have h1 : Keeps s₀ (Machine.txDeadline stream s) := .txDeadline h
  dsimp only
  split
  · exact .next (.txSend h1)
  · exact .next (.txSend (.txPayload h1))

theorem keeping_gclEntry : OwnEntry.Keeping gclEntry := fun _ _ _ h => ⟨by dsimp only [gclEntry]; exact .fieldWith h, h⟩

theorem KeepsNext.execGclCommit {req : OdReq} (h : Keeps s₀ s) : KeepsNext s₀ (execGclCommit req s) :=
  .next (.odWriteOwn keeping_gclEntry h)

theorem keeping_ackEntry : OwnEntry.Keeping ackEntry := fun _ _ _ h => ⟨.ite (.setConn h) h, h⟩

theorem KeepsNext.execSafetyAck {req : OdReq} (h : Keeps s₀ s) : KeepsNext s₀ (execSafetyAck req s) :=
  .next (.odWriteOwn keeping_ackEntry h)

theorem keeping_enableEntry : OwnEntry.Keeping enableEntry := fun _ _ _ h => ⟨.odSet h, h⟩

theorem KeepsNext.execStreamEnableWrite {req : OdReq} (h : Keeps s₀ s) : KeepsNext s₀ (execStreamEnableWrite req s) :=
  .next (.odWriteOwn keeping_enableEntry h)

theorem Keeps.endSessions {f : Nat → Session → Bool} (h : Keeps s₀ s) : Keeps s₀ (endSessions f s) := by
  unfold Machine.endSessions
  extract_lets gone _ s1 s2
  have h1 : Keeps s₀ s1 := h.withServ (Nat.le_refl _) (keysRise_filter _ _)
  have h2 : Keeps s₀ s2 := by
    refine .foldl (fun t n k => ?_) h1
    exact k.withServ (Nat.le_refl _) id
  exact .ite (.odSet (h2.withServ (Nat.le_refl _) id)) h2

theorem KeepsNext.execPortLinkChange {port : Nat} {up : Bool} (h : Keeps s₀ s) : KeepsNext s₀ (execPortLinkChange port up s) := by
  unfold Machine.execPortLinkChange
  exact .ite (.next h) (.ite (.next h) (.next (.raise (.ite (.winPut (.odSet h)) (.endSessions (.winPut (.odSet h)))))))

theorem KeepsNext.execArpRequest {port : Nat} {data : List Byte} (h : Keeps s₀ s) : KeepsNext s₀ (execArpRequest port data s) := by
  unfold Machine.execArpRequest
  split
  · exact .next h
  · exact .ite (.next h) (by split; exacts [.next (.same h rfl), .next h])

/-! ### Watch.lean -/

theorem Keeps.setLaunch {k : Nat} {l : Launch} (h : Keeps s₀ s) : Keeps s₀ (setLaunch k l s) := .same h rfl

theorem Keeps.adjLaunch {k : Nat} {f : Launch → Launch} (h : Keeps s₀ s) : Keeps s₀ (adjLaunch k f s) := .same h rfl

theorem Keeps.sentinelBump {g sub : Nat} (h : Keeps s₀ s) : Keeps s₀ (sentinelBump g sub s) := .odBump h

theorem Keeps.sentinelEvent {g code : Nat} (h : Keeps s₀ s) : Keeps s₀ (sentinelEvent g code s) := .odSet h

theorem Keeps.sentinelStop {g : Nat} (h : Keeps s₀ s) : Keeps s₀ (sentinelStop g s) := .ite (.enterSafe h) h

theorem KeepsNext.execHealthFlit {launch pos : Nat} {s0 : State} (h : Keeps s₀ s0) : KeepsNext s₀ (execHealthFlit launch pos s0) := by
  unfold Machine.execHealthFlit
  split
  · exact .next h
  · split
    · exact .next h
    · split
      · exact .next h
      · extract_lets _ s _ _ s1
        have h' : Keeps s₀ s := .advanceTo h
        have h1 : Keeps s₀ s1 := .adjTile h'
        exact .ite (.next h) (by split; exacts [.next h1, .next (.queueFlits h1)])

theorem Keeps.chooseCopies {os : List (Nat × Nat)} {w : Nat} (h : Keeps s₀ s) : Keeps s₀ (chooseCopies os w s) := by
  unfold Machine.chooseCopies
  exact .foldl (fun _ _ h1 => by split; exacts [.setTx h1, h1]) h

theorem Keeps.fenceSets {k : Nat} {l : Launch} {t : SafetyTable} {xs : List Nat} (h : Keeps s₀ s) : Keeps s₀ (fenceSets k l t xs s) :=
  .foldl (fun _ _ h1 => .sentinelBump h1) (.raise (.adjLaunch h))

theorem Keeps.compareSets {k : Nat} {l : Launch} {t : SafetyTable} (h : Keeps s₀ s) : Keeps s₀ (compareSets k l t s) := by
  unfold Machine.compareSets
  extract_lets
  split
  · exact .raise h
  · split
    · extract_lets
      split
      · exact .sentinelStop (.sentinelEvent (.fenceSets h))
      · split
        · exact .sentinelEvent (.fenceSets (.chooseCopies h))
        · split
          · exact .sentinelEvent (.fenceSets (.chooseCopies h))
          · exact .ite (.chooseCopies h) (.sentinelStop (.raise (.sentinelEvent (.sentinelBump h))))
    · exact .ite (.sentinelStop (.raise h)) (.chooseCopies h)
    · exact .raise h

theorem KeepsNext.execReplicaComparison {launch : Nat} {agree : Bool} (h : Keeps s₀ s) :
    KeepsNext s₀ (execReplicaComparison launch agree s) := by
  unfold Machine.execReplicaComparison
  split
  · exact .next h
  · split
    · exact .next h
    · exact .ite (.next h) (.ite (.next (.raise (.raise (.enterSafe h)))) (.next (.compareSets h)))

theorem Keeps.drySet {k : Nat} {tiles : List Nat} (h : Keeps s₀ s) : Keeps s₀ (drySet k tiles s) :=
  .foldl (fun _ _ h1 => .foldl (fun _ _ h2 => .dryFrom h2) h1) h

theorem KeepsNext.execReplicaFence {launch : Nat} (h : Keeps s₀ s) : KeepsNext s₀ (execReplicaFence launch s) := by
  unfold Machine.execReplicaFence
  split
  · exact .next h
  · split
    · exact .next h
    · extract_lets _ _ _ s1 s2
      have h1 : Keeps s₀ s1 := .drySet (.setLaunch h)
      have h2 : Keeps s₀ s2 := .foldl (fun _ _ h2 => .fenceTile h2) h1
      exact .ite (.next h) (.next (.ite (.odSet h2) h2))

theorem KeepsNext.execSpareRestart {launch : Nat} (h : Keeps s₀ s) : KeepsNext s₀ (execSpareRestart launch s) := by
  unfold Machine.execSpareRestart
  split
  · exact .next h
  · split
    · exact .next h
    · exact .ite (.next h) (.next (.raise (.odSet (.sentinelBump (.foldl (fun _ _ h1 => .countedReset h1) (.setLaunch h))))))

theorem Keeps.sentinelBoundary (h : Keeps s₀ s) : Keeps s₀ (sentinelBoundary s) := by
  unfold Machine.sentinelBoundary
  refine .foldl (fun _ _ k => ?_) h
  extract_lets _ _ _ t1 _ t2
  have h1 : Keeps s₀ t1 := .adjLaunch k
  have h2 : Keeps s₀ t2 := .odSet h1
  exact .ite k (.ite h1 (.ite h2 (.sentinelStop (.raise (.sentinelEvent (.adjLaunch h2))))))

theorem Keeps.faultLaunch {k : Nat} (h : Keeps s₀ s) : Keeps s₀ (faultLaunch k s) := .adjLaunch h

theorem Keeps.endFaulted (h : Keeps s₀ s) : Keeps s₀ (endFaulted s) := .foldl (fun _ _ h1 => .ite (.drySet h1) h1) h

theorem Keeps.affect {f : Nat → Launch → Bool} {mend : Bool} (h : Keeps s₀ s) : Keeps s₀ (affect f mend s) :=
  .foldl (fun _ _ h1 => .ite h1 (.ite (.adjLaunch h1) (.faultLaunch h1))) h

theorem Keeps.planReaction {r : Vc3} (h : Keeps s₀ s) : Keeps s₀ (planReaction r s) := .affect (.odBump (.dangerous h))

theorem Keeps.react {r : Vc3} (h : Keeps s₀ s) : Keeps s₀ (react r s) := by
  unfold Machine.react
  extract_lets _ _ s1 _ s1'
  have h1 : Keeps s₀ s1 := .raise (.dangerous h)
  have h1' : Keeps s₀ s1' := .fenceTile h
  split
  · exact h
  · split
    · exact .planReaction h
    · exact .planReaction h
    · exact .planReaction h
    · exact .planReaction h
    · exact .planReaction h
    · exact .ite (.enterSafe h) h
    · exact .affect (.fenceTile (.dangerous h))
    · exact .affect (.fenceTile (.dangerous h))
    · exact .affect (.fenceTile (.dangerous h))
    · exact .affect (.dangerous h)
    · exact .planReaction h
    · exact .planReaction h
    · exact .affect (.affect h1)
    · exact .planReaction h
    · exact .ite (.affect (.enterSafe h)) h
    · exact .raise (.fenceTile h)
    · exact .ite (.enterSafe h1') h1'
    · exact h

theorem Keeps.tellPeers {r : Vc3} (h : Keeps s₀ s) : Keeps s₀ (tellPeers r s) :=
  .ite h (.foldl (fun _ _ h1 => .ite (.sendOnce (.adjLaunch h1)) h1) h)

theorem KeepsNext.execFaultRecord (h : Keeps s₀ s) : KeepsNext s₀ (execFaultRecord s) := by
  unfold Machine.execFaultRecord
  split
  · exact .next h
  · exact .next (.tellPeers (.react (.same h rfl)))

theorem Keeps.monitor {bit : Nat} {bad : Bool} (h : Keeps s₀ s) : Keeps s₀ (monitor bit bad s) :=
  .ite h (.raise (.ite (.enterSafe (.holdCause h)) (.holdCause h)))

theorem Keeps.helmetCheck {fine : Bool} (h : Keeps s₀ s) : Keeps s₀ (helmetCheck fine s) :=
  .ite h (.ite (.holdCause h) (.enterSafe (.holdCause h)))

theorem KeepsNext.execMonitorSample {mv48 mv33 : Nat} {rails : List Int} {temp tileDev aonDev : Int} {helmet : Bool} (h : Keeps s₀ s) :
    KeepsNext s₀ (execMonitorSample mv48 mv33 rails temp tileDev aonDev helmet s) :=
  .next (.helmetCheck (.monitor (.monitor (.monitor (.monitor (.monitor (.monitor h)))))))

theorem KeepsNext.execWatchdogExpiry (h : Keeps s₀ s) : KeepsNext s₀ (execWatchdogExpiry s) := .next (.missedKick h)

theorem KeepsNext.execFrameWatchdogExpiry (h : Keeps s₀ s) : KeepsNext s₀ (execFrameWatchdogExpiry s) := .next (.enterSafe h)

theorem keeping_safeAckEntry : OwnEntry.Keeping safeAckEntry := fun _ _ _ h => ⟨.same h rfl, h⟩

theorem KeepsNext.execSafeStateAck {req : OdReq} (h : Keeps s₀ s) : KeepsNext s₀ (execSafeStateAck req s) :=
  .next (.odWriteOwn keeping_safeAckEntry h)

theorem keeping_safeTripEntry : OwnEntry.Keeping safeTripEntry := fun _ _ _ h => ⟨.enterSafe h, h⟩

theorem KeepsNext.execSafeTestTrip {req : OdReq} (h : Keeps s₀ s) : KeepsNext s₀ (execSafeTestTrip req s) :=
  .next (.odWriteOwn keeping_safeTripEntry h)

theorem KeepsNext.execSafeStateExit (h : Keeps s₀ s) : KeepsNext s₀ (execSafeStateExit s) := .ite (.next (.raise (.same h rfl))) (.next h)

theorem KeepsNext.execSelfTest {pos step secs : Nat} {wrong silent : Bool} (h : Keeps s₀ s) :
    KeepsNext s₀ (execSelfTest pos step secs wrong silent s) := by
  unfold Machine.execSelfTest
  split
  · exact .next h
  · split
    · exact .next h
    · extract_lets _ _ s1 s2 s3
      have h1 : Keeps s₀ s1 := .winPut (.countedReset h)
      have h2 : Keeps s₀ s2 := .ite (.report (.winBump h1)) h1
      have h3 : Keeps s₀ s3 := .ite (.report (.winBump h2)) h2
      exact .next (.ite (.odSet (.same h3 rfl)) (.same h3 rfl))

end Sys2Proof.Machine
end

section
/-! PROOFS. What every command keeps (O3, O5): problems, checkpoints, launches, frames and the Prolux links.
One lemma per function of the model, in the model's order: `h` says that the relation holds before it. -/

namespace Sys2Proof.Machine

variable {s₀ s t : State}

/-! ### Problem.lean -/

theorem Keeps.setProb {k j : Nat} {p : ProbSt} (h : Keeps s₀ s) : Keeps s₀ (setProb k j p s) := .same h rfl

theorem Keeps.setCounters {g : Nat} {home : List (Nat × Nat)} {vals : List Nat} (h : Keeps s₀ s) :
    Keeps s₀ (setCounters g home vals s) := by
  unfold Machine.setCounters
  exact .foldl (fun _ _ h1 => by split; exacts [.bankAccess h1, h1]) h

theorem Keeps.addCounters {g : Nat} {home : List (Nat × Nat)} {gains : List Nat} (h : Keeps s₀ s) :
    Keeps s₀ (addCounters g home gains s) := by
  unfold Machine.addCounters
  exact .foldl (fun _ _ h1 => by split; exacts [.bankAccess h1, h1]) h

theorem Keeps.startProbs {k : Nat} {l : Launch} (h : Keeps s₀ s) : Keeps s₀ (startProbs k l s) := by
  unfold Machine.startProbs
  exact .foldl (fun _ _ h1 => by split; exacts [h1, .setCounters (.setProb h1)]) h

theorem Keeps.putRecord {c : ProbCtx} {kind rep nc : Nat} {energy aux : Int} {x : ProbSt × State} (h : Keeps s₀ x.2) :
    Keeps s₀ (putRecord c kind rep nc energy aux x).2 := by
  unfold Machine.putRecord
  extract_lets
  split
  · exact h
  · exact .store h

theorem Keeps.writeOutputs {c : ProbCtx} {p : ProbSt} (h : Keeps s₀ s) : Keeps s₀ (writeOutputs c p s) := by
  unfold Machine.writeOutputs
  extract_lets s1 _ s2
  have h1 : Keeps s₀ s1 := .store h
  have h2 : Keeps s₀ s2 := .store h1
  split
  · exact h2
  · exact .store h2

theorem Keeps.refresh {c : ProbCtx} {p : ProbSt} (h : Keeps s₀ s) : Keeps s₀ (refresh c p s) :=
  .ite (.setProb h) (.ite (.store (.setProb h)) (.writeOutputs (.setProb h)))

/-! ### Checkpoint.lean -/

theorem Keeps.traceStep {c : ProbCtx} {r nc : Nat} {changed : Bool} {e : Int} {x : ProbSt × State} (h : Keeps s₀ x.2) :
    Keeps s₀ (traceStep c r nc changed e x).2 := by
  unfold Machine.traceStep
  extract_lets t0 t1
  split
  rename_i t2 x2 eq
  have h2 : Keeps s₀ x2.2 := by
    split at eq
    · exact (Prod.mk.inj eq).2 ▸ h
    · dsimp only at eq
      split at eq
      · exact (Prod.mk.inj eq).2 ▸ .putRecord h
      · exact (Prod.mk.inj eq).2 ▸ h
  split
  rename_i t3 x3 eq
  split at eq
  · exact (Prod.mk.inj eq).2 ▸ .putRecord h2
  · exact (Prod.mk.inj eq).2 ▸ h2

theorem Keeps.bestStep {c : ProbCtx} {nc : Nat} {es : List Int} {sps : List (List Bool)} {x : ProbSt × State} (h : Keeps s₀ x.2) :
    Keeps s₀ (bestStep c nc es sps x).2 := by
  unfold Machine.bestStep
  extract_lets r e better y bytes _ x1
  have h1 : Keeps s₀ x1.2 := by
    dsimp only [x1]
    split
    · exact h
    · exact .store (.putRecord h)
  split
  · exact h1
  · split
    · exact .putRecord h1
    · exact h1

theorem Keeps.keepCheckpoint {c : ProbCtx} {q : Nat} {p : ProbSt} (h : Keeps s₀ s) : Keeps s₀ (keepCheckpoint c q p s) := by
  unfold Machine.keepCheckpoint
  split
  · exact h
  · exact .ite h (.same h rfl)

theorem Keeps.putFrameOutput {c : ProbCtx} {nc : Nat} {p : ProbSt} {es : List Int} {sps : List (List Bool)} (h : Keeps s₀ s) :
    Keeps s₀ (putFrameOutput c nc p es sps s) := by
  unfold Machine.putFrameOutput
  split
  · exact .ite (.store h) h
  · exact h

theorem Keeps.checkpoint {c : ProbCtx} {p : ProbSt} (h : Keeps s₀ s) : Keeps s₀ (checkpoint c p s) :=
  .putFrameOutput (.keepCheckpoint (.refresh (.bestStep (.foldlSnd (fun _ _ h1 => .traceStep h1) h))))

theorem KeepsNext.execCheckpoint {stand : Stand} (h : Keeps s₀ s) : KeepsNext s₀ (execCheckpoint stand s) := by
  unfold Machine.execCheckpoint
  split
  · exact .ite (.next (.checkpoint h)) (.next h)
  · exact .next h

theorem Keeps.finishFrame {k j n : Nat} (h : Keeps s₀ s) : Keeps s₀ (finishFrame k j n s) := by
  induction n generalizing s with
  | zero => exact h
  | succ n ih =>
    unfold Machine.finishFrame
    split
    · refine .ite h ?_
      split
      · exact h
      · refine ih ?_
        split
        · exact .checkpoint h
        · exact h
    · exact h

theorem Keeps.frameProb {k j : Nat} (h : Keeps s₀ s) : Keeps s₀ (frameProb k j s) := by
  unfold Machine.frameProb
  split
  · exact .ite h (.setProb h)
  · exact h

theorem Keeps.frameProbs (h : Keeps s₀ s) : Keeps s₀ (frameProbs s) := .foldl (fun _ _ h1 => .frameProb (.finishFrame h1)) h

theorem KeepsNext.execSamplePoint {stand : Stand} (h : Keeps s₀ s) : KeepsNext s₀ (execSamplePoint stand s) := by
  unfold Machine.execSamplePoint
  split
  · split
    · exact .next h
    · exact .ite (.next h) (.next (.refresh (.foldl (fun _ _ h1 => .addCounters h1) h)))
  · exact .next h

theorem Keeps.putI32 {a i : Nat} {v : Int} (h : Keeps s₀ s) : Keeps s₀ (putI32 a i v s) := .store h

theorem Keeps.updateMasters {c : ProbCtx} {b : SampBlk} {p : ProbSt} (h : Keeps s₀ s) : Keeps s₀ (updateMasters c b p s).1 :=
  .putI32 (.foldlFst (fun _ _ h1 => .putI32 h1) (.foldlFst (fun _ _ h1 => .putI32 h1) h))

theorem KeepsNext.execLearningIteration {launch problem steps : Nat} (h : Keeps s₀ s) :
    KeepsNext s₀ (execLearningIteration launch problem steps s) := by
  unfold Machine.execLearningIteration
  split
  · split
    · exact .next h
    · exact .ite (.next h) (.next (.refresh (.setCounters (.updateMasters h))))
  · exact .next h

theorem Keeps.rowAdd {l : Launch} {tag : Nat} {lanes : List Nat} (h : Keeps s₀ s) : Keeps s₀ (rowAdd l tag lanes s) := by
  unfold Machine.rowAdd
  split
  · exact h
  · exact .ite h (.bankAccess h)

theorem Keeps.writeLearned {c : ProbCtx} {d : ProblemData} (h : Keeps s₀ s) : Keeps s₀ (writeLearned c d s) :=
  .foldl (fun _ _ h1 => .meshWrite h1) h

theorem KeepsNext.execLearningCheckpoint {launch problem steps : Nat} (h : Keeps s₀ s) :
    KeepsNext s₀ (execLearningCheckpoint launch problem steps s) := by
  unfold Machine.execLearningCheckpoint
  split
  · split
    · exact .next h
    · exact .ite (.next h) (.next (.refresh (.writeLearned (.foldl (fun _ _ h1 => .rowAdd h1) (.rowAdd h)))))
  · exact .next h

theorem Keeps.drainProb {k j : Nat} {st : Option Stand} (h : Keeps s₀ s) : Keeps s₀ (drainProb k j st s) := by
  unfold Machine.drainProb
  split
  · exact .ite h (.refresh h)
  · exact h

theorem Keeps.drainProbs {k : Nat} {l : Launch} {stands : List Stand} (h : Keeps s₀ s) : Keeps s₀ (drainProbs k l stands s) :=
  .foldl (fun _ _ h1 => .drainProb h1) h

/-! ### DriftW.lean -/

theorem Keeps.watchRestart {w : Nat} (h : Keeps s₀ s) : Keeps s₀ (watchRestart w s) := .odSet (.same h rfl)

theorem Keeps.watchRefresh {w : Nat} (h : Keeps s₀ s) : Keeps s₀ (watchRefresh w s) := by
  unfold Machine.watchRefresh
  extract_lets _ s1
  have h1 : Keeps s₀ s1 := .ite (.watchRestart h) h
  exact .ite h1 (by split; exacts [h1, .odSet (.same h1 rfl)])

theorem Keeps.driftRefresh (h : Keeps s₀ s) : Keeps s₀ (driftRefresh s) := .foldl (fun _ _ h1 => .watchRefresh h1) h

theorem Keeps.odSetOpt {index sub : Nat} {a : Option Nat} (h : Keeps s₀ s) : Keeps s₀ (odSetOpt s index sub a) := by
  unfold Machine.odSetOpt
  split
  · exact .odSet h
  · exact h

theorem Keeps.driftOutcome {w : Nat} {c : DriftCmp} (h : Keeps s₀ s) : Keeps s₀ (driftOutcome w c s) :=
  .ite (.raise (.odBump (.odSet (.odBump (.odSetOpt (.odSetOpt h)))))) (.odBump (.odSetOpt (.odSetOpt h)))

theorem Keeps.driftRead {w : Nat} (h : Keeps s₀ s) : Keeps s₀ (driftRead w s) := by
  unfold Machine.driftRead
  split
  · exact h
  · split
    · exact h
    · split
      rename_i r s1 eq
      have h1 : Keeps s₀ s1 := .snd eq (.bankAccess (.budgetAdd h))
      extract_lets _ s2
      have h2 : Keeps s₀ s2 := .same h1 rfl
      split
      · exact .odSet h2
      · exact .driftOutcome h2

theorem Keeps.driftReads {l : List Nat} (h : Keeps s₀ s) : Keeps s₀ (driftReads l s) := by
  induction l generalizing s with
  | nil => exact .same h rfl
  | cons w l ih => exact .ite (.budgetStall (.same h rfl)) (ih (.driftRead h))

theorem KeepsNext.execDriftCheck (h : Keeps s₀ s) : KeepsNext s₀ (execDriftCheck s) :=
  .ite (.next h) (.ite (.next (.ite h (.driftReads h))) (.ite (.next h) (.next (.driftReads (.same h rfl)))))

theorem keeping_driftEntry {sub : Nat} : OwnEntry.Keeping (driftEntry sub) :=
  fun _ _ _ h => ⟨.watchRefresh (.watchRestart (.odAccept h)), h⟩

theorem KeepsNext.execDriftGloveWrite {req : OdReq} (h : Keeps s₀ s) : KeepsNext s₀ (execDriftGloveWrite req s) :=
  .next (.odWriteOwn keeping_driftEntry h)

theorem KeepsNext.execDriftTensorWrite {req : OdReq} (h : Keeps s₀ s) : KeepsNext s₀ (execDriftTensorWrite req s) :=
  .next (.odWriteOwn keeping_driftEntry h)

theorem KeepsNext.execDriftEnableWrite {req : OdReq} (h : Keeps s₀ s) : KeepsNext s₀ (execDriftEnableWrite req s) :=
  .next (.odWriteOwn keeping_driftEntry h)

/-! ### Admit.lean -/

theorem Keeps.refuseLaunch {k g reason : Nat} (h : Keeps s₀ s) : Keeps s₀ (refuseLaunch k g reason s) := .completeOp (.raise (.odSet h))

theorem Keeps.admitLaunch {k : Nat} {o : Op} {p : List Byte} {aux : LaunchAux} {peers : List (List Byte)} (h : Keeps s₀ s) :
    Keeps s₀ (admitLaunch k o p aux peers s) := by
  unfold Machine.admitLaunch
  split
  · exact .completeOp h
  · split
    · exact .refuseLaunch h
    · exact .driftRefresh (.same h rfl)

theorem Keeps.startLaunch {k : Nat} {o : Op} {aux : LaunchAux} {peers : List (List Byte)} (h : Keeps s₀ s) :
    Keeps s₀ (startLaunch k o aux peers s) := by
  unfold Machine.startLaunch
  extract_lets
  split
  · exact .refuseLaunch h
  · split
    · exact .hostRead h
    · split
      rename_i st s1 eq
      have h1 : Keeps s₀ s1 := .snd eq (.dmaCheck h)
      exact .ite (.completeOp h1) (.ite (.completeOp (.dmaRead h1)) (.admitLaunch (.setOp (.dmaRead h1))))

theorem KeepsNext.execLaunch {op : Nat} {aux : LaunchAux} {peers : List (List Byte)} (h : Keeps s₀ s) :
    KeepsNext s₀ (execLaunch op aux peers s) := by
  unfold Machine.execLaunch
  split
  · exact .next h
  · split
    · exact .next h
    · split
      · split
        · exact .next (.admitLaunch h)
        · exact .next h
      · split
        · exact .next h
        · split
          · exact .next h
          · rename_i o1 s1 e
            have hs1 : Keeps s₀ s1 := .startOp h e
            exact .next (.startLaunch hs1)

/-! ### Launch.lean -/

theorem Keeps.eachLaunch {f : Nat → Launch → State → State} (hf : ∀ k l t, Keeps s₀ t → Keeps s₀ (f k l t)) (h : Keeps s₀ s) :
    Keeps s₀ (eachLaunch f s) := by
  refine .foldl (fun t k h1 => ?_) h
  split
  · exact hf _ _ _ h1
  · exact h1

theorem Keeps.warnRisk {before : Bool} (h : Keeps s₀ s) : Keeps s₀ (warnRisk before s) := .ite (.raise h) h

theorem Keeps.stretchFrame (h : Keeps s₀ s) : Keeps s₀ (stretchFrame s) := by
  unfold Machine.stretchFrame
  split
  rename_i cause m eq
  extract_lets s1 s2
  have h1 : Keeps s₀ s1 := .odSet h
  have h2 : Keeps s₀ s2 := .ite h1 (.raise (.odBump (.odSet h1)))
  exact .ite h2 (.same h2 rfl)

theorem Keeps.readBack {rs : List LRegion} (h : Keeps s₀ s) : Keeps s₀ (readBack rs s) := .foldl (fun _ _ h1 => .ownReads h1) h

theorem Keeps.fixResult {k : Nat} {l : Launch} (h : Keeps s₀ s) : Keeps s₀ (fixResult k l s) := .readBack (.setLaunch h)

theorem Keeps.drawSeed {k : Nat} {l : Launch} (h : Keeps s₀ s) : Keeps s₀ (drawSeed k l s) := by
  unfold Machine.drawSeed
  split
  · exact h
  · split
    · exact .budgetStall (.setLaunch h)
    · split
      · exact .setLaunch h
      · exact .budgetAdd (.setLaunch (.setSec h))

theorem KeepsNext.execSeedDraw (h : Keeps s₀ s) : KeepsNext s₀ (execSeedDraw s) := .next (.eachLaunch (fun _ _ _ h1 => .drawSeed h1) h)

theorem Keeps.setWins {pos : Nat} {new : List WinDesc} (h : Keeps s₀ s) : Keeps s₀ (setWins pos new s) := .adjTile h

theorem Keeps.loadTile {k : Nat} {l : Launch} {pos : Nat} (h : Keeps s₀ s) : Keeps s₀ (loadTile k l pos s) :=
  .adjLaunch (.setWins (.setTile h))

theorem Keeps.loadBanks {t : Nat × List WinDesc} (h : Keeps s₀ s) : Keeps s₀ (loadBanks t s) := by
  unfold Machine.loadBanks
  extract_lets put s1
  have declared {b : Nat} {l : List (WinDesc × Nat × Nat)} {u : State} (k : Keeps s₀ u) : Keeps s₀ (put b l u) := by
    dsimp only [put]
    split
    · exact .declareBank k
    · exact k
  have h1 : Keeps s₀ s1 := .foldl (fun _ _ k => declared k) h
  exact .ite (.foldl (fun _ _ k => declared k) h1) h1

theorem Keeps.loadRouter {k : Nat} {l : Launch} {pos : Nat} (h : Keeps s₀ s) : Keeps s₀ (loadRouter k l pos s) := .same h rfl

theorem Keeps.loadAll {k : Nat} {l : Launch} (h : Keeps s₀ s) : Keeps s₀ (loadAll k l s) := by
  unfold Machine.loadAll
  extract_lets s1 s2 s3 s4
  have h1 : Keeps s₀ s1 := .foldl (fun _ _ k => .loadTile k) h
  have h2 : Keeps s₀ s2 := .foldl (fun _ _ k => .loadBanks k) h1
  have h3 : Keeps s₀ s3 := .foldl (fun _ _ k => .loadRouter k) h2
  have h4 : Keeps s₀ s4 := by
    refine .foldl (fun t x k => ?_) h3
    exact .same k rfl
  exact .foldl (fun _ _ k => .adjPlx k) h4

theorem Keeps.finishLoading {k : Nat} {l : Launch} (h : Keeps s₀ s) : Keeps s₀ (finishLoading k l s) :=
  .ite h (.ite (.killLaunch (.raise (.odSet (.loadAll (.feWith h))))) (.adjLaunch (.loadAll (.feWith h))))

theorem KeepsNext.execLoadingDone (h : Keeps s₀ s) : KeepsNext s₀ (execLoadingDone s) :=
  .next (.eachLaunch (fun _ _ _ h1 => .finishLoading h1) h)

theorem Keeps.resetPlaces {k : Nat} (h : Keeps s₀ s) : Keeps s₀ (resetPlaces k s) := .same h rfl

theorem Keeps.restoreProb {k : Nat} {l : Launch} {x : Nat × ProbSt} (h : Keeps s₀ s) : Keeps s₀ (restoreProb k l x s) :=
  .ite h (.setCounters (.same h rfl))

theorem Keeps.spareDry {k : Nat} {l : Launch} (h : Keeps s₀ s) : Keeps s₀ (spareDry k l s) := by
  unfold Machine.spareDry
  split
  · exact .drySet h
  · exact h

theorem Keeps.startNow {k : Nat} {l : Launch} (h : Keeps s₀ s) : Keeps s₀ (startNow k l s) := by
  unfold Machine.startNow
  extract_lets _ _ _ s0 s1 _ s2 s3
  have h0 : Keeps s₀ s0 := .ite h (.readBack h)
  have h1 : Keeps s₀ s1 := .resetPlaces (.setLaunch h0)
  have h2 : Keeps s₀ s2 := .startProbs h1
  have h3 : Keeps s₀ s3 := .ite (.foldl (fun _ _ h4 => .restoreProb h4) h2) h2
  exact .ite (.drainProbs h3) (.spareDry h3)

theorem Keeps.startArmed {k : Nat} {l : Launch} (h : Keeps s₀ s) : Keeps s₀ (startArmed k l s) := .ite (.startNow h) h

theorem KeepsNext.execLaunchStart (h : Keeps s₀ s) : KeepsNext s₀ (execLaunchStart s) :=
  .next (.eachLaunch (fun _ _ _ h1 => .startArmed h1) h)

theorem Keeps.setCtl {k : Nat} {l : Launch} (h : Keeps s₀ s) : Keeps s₀ (setCtl k l s) := .foldl (fun _ _ h1 => .adjTile h1) h

theorem Keeps.announceDrain {stands : List Stand} {k : Nat} {l : Launch} (h : Keeps s₀ s) : Keeps s₀ (announceDrain stands k l s) :=
  .sendNotice (.setLaunch h)

theorem Keeps.deliverDrain {stands : List Stand} {k : Nat} {l : Launch} (h : Keeps s₀ s) : Keeps s₀ (deliverDrain stands k l s) := by
  unfold Machine.deliverDrain
  extract_lets
  split
  · exact h
  · split
    · exact .announceDrain h
    · exact .ite h (.ite (.drainProbs (.setCtl (.setLaunch h))) (.ite h (.ite (.setCtl (.setLaunch h)) (.killLaunch h))))

theorem KeepsNext.execDrainDelivery {stands : List Stand} (h : Keeps s₀ s) : KeepsNext s₀ (execDrainDelivery stands s) :=
  .next (.eachLaunch (fun _ _ _ h1 => .deliverDrain h1) h)

theorem Keeps.examine {k : Nat} {l : Launch} (h : Keeps s₀ s) : Keeps s₀ (examine k l s) := .ite h (.ite (.setLaunch h) (.fixResult h))

theorem KeepsNext.execLaunchEnd (h : Keeps s₀ s) : KeepsNext s₀ (execLaunchEnd s) := .next (.eachLaunch (fun _ _ _ h1 => .examine h1) h)

theorem Keeps.unloadTile {k : Nat} {l : Launch} {pos : Nat} (h : Keeps s₀ s) : Keeps s₀ (unloadTile k l pos s) := .setWins (.setTile h)

theorem Keeps.unload {k : Nat} {l : Launch} (h : Keeps s₀ s) : Keeps s₀ (unload k l s) :=
  .same (.foldl (fun _ _ h1 => .unloadTile h1) h) rfl

theorem Keeps.endOp {k st : Nat} (h : Keeps s₀ s) : Keeps s₀ (endOp k st s) := .completeOp (.same h rfl)

theorem Keeps.releaseOne {k : Nat} {l : Launch} (h : Keeps s₀ s) : Keeps s₀ (releaseOne k l s) := by
  unfold Machine.releaseOne
  split
  · exact h
  · extract_lets _ s1 s2
    have h1 : Keeps s₀ s1 := .unload h
    have h2 : Keeps s₀ s2 := .ite (.fixResult h1) (.setLaunch h1)
    exact .ite (.foldl (fun _ _ h3 => .declareBank h3) (.setLaunch (.unload (.sendNotice h)))) (.ite (.adjLaunch h2) (.endOp h2))

theorem KeepsNext.execLaunchRelease (h : Keeps s₀ s) : KeepsNext s₀ (execLaunchRelease s) :=
  .next (.driftRefresh (.resetsProceed (.eachLaunch (fun _ _ _ h1 => .releaseOne h1) h)))

theorem Keeps.killedOne {k : Nat} {l : Launch} (h : Keeps s₀ s) : Keeps s₀ (killedOne k l s) :=
  .ite h (.endOp (.foldl (fun _ _ h1 => .zeroBank h1) h))

theorem KeepsNext.execKillDone (h : Keeps s₀ s) : KeepsNext s₀ (execKillDone s) := .next (.eachLaunch (fun _ _ _ h1 => .killedOne h1) h)

theorem Keeps.tierWrite {g a : Nat} {d : List Byte} (h : Keeps s₀ s) : Keeps s₀ (tierWrite g a d s) := by
  unfold Machine.tierWrite
  split
  · exact .store h
  · exact .reject h
  · exact .reject h

theorem Keeps.writeTicket {k : Nat} {l : Launch} (h : Keeps s₀ s) : Keeps s₀ (writeTicket k l s) :=
  .endOp (.barSet (.barSet (.barSet (.barBytes (.barBytes (.odBump (.tierWrite h)))))))

theorem KeepsNext.execTicketWrite (h : Keeps s₀ s) : KeepsNext s₀ (execTicketWrite s) :=
  .ite (.next (.eachLaunch (fun _ _ _ h1 => .ite (.writeTicket h1) h1) h)) (.next h)

theorem Keeps.restoreProbs {k : Nat} {l : Launch} {newest : Option Nat} (h : Keeps s₀ s) : Keeps s₀ (restoreProbs k l newest s) := by
  unfold Machine.restoreProbs
  exact .foldl (fun _ _ h1 => by split; exacts [.setProb h1, .same h1 rfl]) h

theorem Keeps.writeNewest {l : Launch} {newest : Option Nat} (h : Keeps s₀ s) : Keeps s₀ (writeNewest l newest s) := by
  unfold Machine.writeNewest
  split
  · exact h
  · exact .tierWrite h

theorem Keeps.reexecute {k : Nat} {l : Launch} {newest : Option Nat} (h : Keeps s₀ s) : Keeps s₀ (reexecute k l newest s) := by
  unfold Machine.reexecute
  extract_lets _ s1 s2
  have h1 : Keeps s₀ s1 := .foldl (fun _ _ h1 => .zeroBank (.declareBank h1)) (.unload h)
  have h2 : Keeps s₀ s2 := .restoreProbs (.writeNewest (.foldl (fun _ _ h2 => .fenceTile h2) h1))
  split
  · exact .raise (.endOp h2)
  · exact .raise (.odBump (.setLaunch h2))

theorem KeepsNext.execReexecution {launch : Nat} {newest : Option Nat} (h : Keeps s₀ s) :
    KeepsNext s₀ (execReexecution launch newest s) := by
  unfold Machine.execReexecution
  split
  · exact .next h
  · exact .ite (.next (.driftRefresh (.resetsProceed (.reexecute h)))) (.next h)

theorem Keeps.pinWaits {launch pos tc : Nat} (h : Keeps s₀ s) : Keeps s₀ (pinWaits launch pos tc s) := by
  unfold Machine.pinWaits
  refine .foldl (fun _ _ k => ?_) h
  split
  · exact k
  · split
    · exact k
    · exact .ite (.entAdj k) k

theorem KeepsNext.execWindowHoldTest {launch start stop : Nat} (h : Keeps s₀ s) :
    KeepsNext s₀ (execWindowHoldTest launch start stop s) := by
  unfold Machine.execWindowHoldTest
  split
  · exact .next h
  · split
    · exact .next h
    · extract_lets _ _ _ s1
      have h1 : Keeps s₀ s1 := .setLaunch h
      exact .next (.ite (.foldl (fun _ _ h2 => .pinWaits (.winBump h2)) (.odBump h1)) (.foldl (fun _ _ h2 => .pumpAll h2) h1))

/-! ### Frame.lean -/

theorem Keeps.setSync {v : Nat} (h : Keeps s₀ s) : Keeps s₀ (setSync v s) := .ite h (.raise (.odSet h))

theorem KeepsNext.execSyncMessage {offset : Int} (h : Keeps s₀ s) : KeepsNext s₀ (execSyncMessage offset s) := by
  unfold Machine.execSyncMessage
  extract_lets s0 _ _ s1
  have h0 : Keeps s₀ s0 := .odSet h
  have h1 : Keeps s₀ s1 := .same h0 rfl
  exact .ite (.next h0) (.next (.refreshSysTime (.ite (.setSync h1) h1)))

theorem KeepsNext.execSyncTimeout (h : Keeps s₀ s) : KeepsNext s₀ (execSyncTimeout s) :=
  .ite (.next h) (.next (.refreshSysTime (.setSync (.same h rfl))))

theorem KeepsNext.execGrandmasterChange {identity : List Byte} (h : Keeps s₀ s) : KeepsNext s₀ (execGrandmasterChange identity s) :=
  .ite (.next (.odSet h)) (.next (.refreshSysTime (.setSync (.same (.odSet h) rfl))))

theorem Keeps.endSlew {err : Int} (h : Keeps s₀ s) : Keeps s₀ (endSlew err s) :=
  .refreshSysTime (.ite (.setSysTime (.ite (.setSync h) h)) (.ite (.setSync h) h))

theorem keeping_frameSourceEntry : OwnEntry.Keeping frameSourceEntry :=
  fun _ _ _ h => ⟨.refreshSysTime (.setSync (.odAccept (.same h rfl))), h⟩

theorem KeepsNext.execFrameSourceWrite {req : OdReq} (h : Keeps s₀ s) : KeepsNext s₀ (execFrameSourceWrite req s) :=
  .next (.odWriteOwn keeping_frameSourceEntry h)

theorem keeping_framePeriodEntry : OwnEntry.Keeping framePeriodEntry := fun _ _ _ h => ⟨.odAccept h, h⟩

theorem KeepsNext.execFramePeriodWrite {req : OdReq} (h : Keeps s₀ s) : KeepsNext s₀ (execFramePeriodWrite req s) :=
  .next (.odWriteOwn keeping_framePeriodEntry h)

theorem Keeps.unitsFrame (h : Keeps s₀ s) : Keeps s₀ (unitsFrame s) := .same h rfl

theorem Keeps.applyStep (h : Keeps s₀ s) : Keeps s₀ (applyStep s) := .ite h (.raise (.odSet (.odSet (.same h rfl))))

theorem Keeps.resumeExchange (h : Keeps s₀ s) : Keeps s₀ (resumeExchange s) := .foldl (fun _ _ h1 => .pumpAll h1) h

theorem Keeps.beginFrame {crc : List Nat} {err : Int} {tcs : Nat} (h : Keeps s₀ s) : Keeps s₀ (beginFrame crc err tcs s) := by
  unfold Machine.beginFrame
  extract_lets _ _ s1 s2 s3 s4
  have h1 : Keeps s₀ s1 := .odBump (.same h rfl)
  have h2 : Keeps s₀ s2 := .forceAll (.budgetRepay h1)
  have h3 : Keeps s₀ s3 := .stretchFrame (.applyRates (.applyStep (.endFaulted (.unitsFrame h2))))
  have h4 : Keeps s₀ s4 := .resumeExchange (.warnRisk h3)
  exact .endSlew (.frameProbs (.sentinelBoundary (.fieldBoundary (.resetsProceed h4))))

theorem Keeps.overrun {tcs : Nat} (h : Keeps s₀ s) : Keeps s₀ (overrun tcs s) :=
  .ite (.enterSafe (.dangerous (.raise (.odBump (.same h rfl))))) (.raise (.odBump (.same h rfl)))

theorem Keeps.suspendedBoundary {tcs : Nat} (h : Keeps s₀ s) : Keeps s₀ (suspendedBoundary tcs s) := .odBump (.same h rfl)

theorem Keeps.resumeFrames (h : Keeps s₀ s) : Keeps s₀ (resumeFrames s) := .ite (.raise (.same h rfl)) h

theorem KeepsNext.execFrameBoundary {env : BoundaryEnv} (h : Keeps s₀ s) : KeepsNext s₀ (execFrameBoundary env s) := by
  unfold Machine.execFrameBoundary
  extract_lets _ s1
  have h1 : Keeps s₀ s1 := .resumeFrames (.same h rfl)
  split
  · exact .next (.same h rfl)
  · split
    · exact .next (.suspendedBoundary h1)
    · exact .ite (.next (.overrun h1)) (.next (.beginFrame (.resumeFrames (.same (.drainAgenda h) rfl))))

/-! ### Prolux.lean -/

theorem Keeps.refreshLink {l : Nat} (h : Keeps s₀ s) : Keeps s₀ (refreshLink l s) := .ite h (.raise (.odSet (.odSet h)))

theorem Keeps.setHalf {pos st lanes : Nat} (h : Keeps s₀ s) : Keeps s₀ (setHalf pos st lanes s) := .winPut (.winPut h)

theorem Keeps.linkOn {l : Nat} (h : Keeps s₀ s) : Keeps s₀ (linkOn l s) := .foldl (fun _ _ h1 => .setHalf (.adjPlx h1)) h

theorem keeping_plxEnableEntry : OwnEntry.Keeping plxEnableEntry :=
  fun _ _ _ h => ⟨.ite (.refreshLink (.foldl (fun _ _ h1 => .setHalf h1) (.odAccept h))) (.ite (.refreshLink (.linkOn (.odAccept h)))
      (.odAccept h)), h⟩

theorem KeepsNext.execPlxEnable {req : OdReq} (h : Keeps s₀ s) : KeepsNext s₀ (execPlxEnable req s) :=
  .next (.odWriteOwn keeping_plxEnableEntry h)

theorem Keeps.linkFailed {l h : Nat} (kept : Keeps s₀ s) : Keeps s₀ (linkFailed l h s) := by
  have counted {t : State} {x : FrameSt} (k : Keeps s₀ t) : Keeps s₀ (Machine.setSysTime 2 { t with frame := x }) :=
    have k1 : Keeps s₀ { t with frame := x } := .same k rfl
    .setSysTime k1
  unfold Machine.linkFailed
  extract_lets s1 s2 mine s3 s4 _ s5
  have h1 : Keeps s₀ s1 := .foldl (fun _ _ k => .setHalf k) kept
  have h2 : Keeps s₀ s2 := .report h1
  have h3 : Keeps s₀ s3 := .foldl (fun _ _ k => .adjLaunch k) h2
  have h4 : Keeps s₀ s4 := .foldl (fun _ _ k => .pumpAll (.foldl (fun _ _ k => .combineEnt k) k)) h3
  have h5 : Keeps s₀ s5 := .ite (counted h4) h4
  exact .refreshLink h5

theorem KeepsNext.execPlxTrainingDone {link lanes0 lanes1 serial coord peer : Nat} (h : Keeps s₀ s) :
    KeepsNext s₀ (execPlxTrainingDone link lanes0 lanes1 serial coord peer s) := by
  unfold Machine.execPlxTrainingDone
  split
  · exact .next h
  · split
    · exact .next h
    · split
      · exact .next (.linkFailed h)
      · split
        · exact .next (.linkFailed h)
        · extract_lets _ _ s1 s2 s3
          have h1 : Keeps s₀ s1 := .odSet (.odSet h)
          have h2 : Keeps s₀ s2 := .setHalf (.setHalf h1)
          have h3 : Keeps s₀ s3 := .ite (.foldl (fun _ _ h3 => .releaseHeld h3) h2) (.report h2)
          exact .next (.refreshLink h3)

theorem KeepsNext.execPlxRetrain {pos : Nat} (h : Keeps s₀ s) : KeepsNext s₀ (execPlxRetrain pos s) :=
  .ite (.next h) (.ite (.next h) (.next (.refreshLink (.odBump (.winBump (.winPut h))))))

theorem Keeps.replayAll {pos : Nat} (h : Keeps s₀ s) : Keeps s₀ (replayAll pos s) := .same h rfl

theorem KeepsNext.execPlxRetrainDone {pos lanes : Nat} (h : Keeps s₀ s) : KeepsNext s₀ (execPlxRetrainDone pos lanes s) := by
  unfold Machine.execPlxRetrainDone
  split
  · exact .next h
  · split
    · exact .next h
    · split
      rename_i l h' eq
      extract_lets _ s1 s2 s3
      have h1 : Keeps s₀ s1 := .setHalf h
      have h2 : Keeps s₀ s2 := .ite h1 (.report h1)
      have h3 : Keeps s₀ s3 := .replayAll h2
      exact .ite (.next (.linkFailed h)) (.next (.refreshLink (.releaseHeld h3)))

theorem KeepsNext.execPlxLinkFailed {pos : Nat} (h : Keeps s₀ s) : KeepsNext s₀ (execPlxLinkFailed pos s) :=
  .ite (.next h) (.ite (.next h) (.next (.linkFailed h)))

theorem Keeps.sendNak {pos : Nat} (h : Keeps s₀ s) : Keeps s₀ (sendNak pos s) := .same h rfl

theorem Keeps.acked {pos ack : Nat} (h : Keeps s₀ s) : Keeps s₀ (acked pos ack s) := by
  unfold Machine.acked
  extract_lets
  split
  · exact h
  · exact .releaseHeld (.setPlx h)

theorem Keeps.cellIn {pos : Nat} {c : List Byte} {f : State → State} (hf : ∀ t, Keeps s₀ t → Keeps s₀ (f t)) (h : Keeps s₀ s) :
    Keeps s₀ (cellIn pos c f s) :=
  .ite h (.ite (.sendNak h) (.ite (.ite (hf _ h) h)
    (.ite (hf _ (.adjPlx (.acked h))) (.ite (.acked h) (.sendNak (.acked h))))))

theorem Keeps.discardCell {pos : Nat} (h : Keeps s₀ s) : Keeps s₀ (discardCell pos s) := .winBump h

theorem Keeps.exchangeIn {pos : Nat} {c : List Byte} (h : Keeps s₀ s) : Keeps s₀ (exchangeIn pos c s) := by
  unfold Machine.exchangeIn
  extract_lets
  split
  · exact .discardCell h
  · exact .pumpEnt (.entAdj h)

theorem Keeps.creditIn {pos : Nat} {c : List Byte} (h : Keeps s₀ s) : Keeps s₀ (creditIn pos c s) := by
  unfold Machine.creditIn
  extract_lets
  split
  · exact .discardCell h
  · exact .pumpEnt (.entAdj h)

theorem Keeps.replayFrom {pos seq : Nat} (h : Keeps s₀ s) : Keeps s₀ (replayFrom pos seq s) := .ite h (.same (.odBump (.winBump h)) rfl)

theorem KeepsNext.execPlxCell {pos : Nat} {cell : List Byte} {corrected : Nat} {nak : Option Nat} (h : Keeps s₀ s) :
    KeepsNext s₀ (execPlxCell pos cell corrected nak s) := by
  unfold Machine.execPlxCell
  split
  · exact .next h
  · extract_lets s1
    have h1 : Keeps s₀ s1 := .winBump h
    split
    · exact .next (.replayFrom h1)
    · exact .ite (.next h1) (.next (.cellIn (fun _ h2 => .ite (.exchangeIn h2) (.ite (.creditIn h2) h2)) h1))

theorem KeepsNext.execTimeCellSend {now : Nat} (h : Keeps s₀ s) : KeepsNext s₀ (execTimeCellSend now s) :=
  .next (.foldl (fun _ _ h1 => .ite (.sendCell h1) h1) h)

theorem Keeps.followCell {off : Int} {hops : Nat} (h : Keeps s₀ s) : Keeps s₀ (followCell off hops s) :=
  .ite (.setSysTime (.same (.odSet (.odSet h)) rfl)) (.same (.odSet (.odSet h)) rfl)

theorem KeepsNext.execTimeCell {pos : Nat} {cell : List Byte} {now hops : Nat} (h : Keeps s₀ s) :
    KeepsNext s₀ (execTimeCell pos cell now hops s) := by
  unfold Machine.execTimeCell
  split
  · exact .next h
  · exact .ite (.next h) (.next (.cellIn (fun _ h1 => .ite (.followCell (.winSet (.adjPlx h1))) (.winSet (.adjPlx h1))) h))

theorem KeepsNext.execSystimeHoldover (h : Keeps s₀ s) : KeepsNext s₀ (execSystimeHoldover s) :=
  .ite (.next (.setSysTime (.same h rfl))) (.next h)

theorem Keeps.noticeIn {c : List Byte} (h : Keeps s₀ s) : Keeps s₀ (noticeIn c s) := by
  unfold Machine.noticeIn
  extract_lets s1
  have h1 : Keeps s₀ s1 := .raise h
  split
  · exact h1
  · split
    · exact .killLaunch (.sendNotice h1)
    · extract_lets s2
      have h2 : Keeps s₀ s2 := .sendNotice h1
      exact .ite (.setLaunch h2) (.ite (.killLaunch h2) h2)

theorem KeepsNext.execPlxNotice {pos : Nat} {cell : List Byte} (h : Keeps s₀ s) : KeepsNext s₀ (execPlxNotice pos cell s) :=
  .ite (.next h) (.ite (.next h) (.next (.cellIn (fun _ h1 => .noticeIn h1) h)))

theorem Keeps.recordIn {pos : Nat} {c : List Byte} (h : Keeps s₀ s) : Keeps s₀ (recordIn pos c s) :=
  .ite h (.foldl (fun _ _ h1 => .sendOnce h1) (.vc3Raise h))

theorem KeepsNext.execPlxRecord {pos : Nat} {cell : List Byte} (h : Keeps s₀ s) : KeepsNext s₀ (execPlxRecord pos cell s) :=
  .ite (.next h) (.ite (.next h) (.next (.cellIn (fun _ h1 => .recordIn h1) h)))

end Sys2Proof.Machine
end

section
/-! PROOFS. What every command keeps (O3, O5): the dictionary's writes, BAR0, start-up and resets, and every command.
One lemma per function of the model, in the model's order: `h` says that the relation holds before it. -/

namespace Sys2Proof.Machine

variable {s₀ s t : State}

/-! ### Dict.lean -/

theorem Keeps.serveRead {req : OdReq} (h : Keeps s₀ s) : Keeps s₀ (serveRead req s) := .respond h

theorem keeping_signEntry : OwnEntry.Keeping signEntry := fun _ _ _ h => ⟨.auditSign h, h⟩

theorem Keeps.servePlain {req : OdReq} (h : Keeps s₀ s) : Keeps s₀ (servePlain req s) :=
  .ite (.same h rfl) (.respond (.ite (.applyWrite h) h))

theorem keeping_ownEntries : ∀ e ∈ ownEntries, e.Keeping := by
  simp only [ownEntries, List.mem_cons, List.not_mem_nil, or_false, forall_eq_or_imp, forall_eq]
  exact ⟨keeping_frameSourceEntry, keeping_framePeriodEntry, keeping_driftEntry, keeping_driftEntry, keeping_driftEntry,
    keeping_assignEntry, keeping_plxEnableEntry, keeping_domEntry, keeping_domEntry, keeping_gloveOpenEntry, keeping_gloveResetEntry,
    keeping_gloveCloseEntry, keeping_relaxedEntry, keeping_budgetEntry, keeping_safeAckEntry, keeping_safeTripEntry, keeping_ackEntry,
    keeping_enableEntry, keeping_gclEntry, keeping_katEntry, keeping_reseedEntry, keeping_attestEntry, keeping_signEntry⟩

theorem Keeps.serveWrite {req : OdReq} (h : Keeps s₀ s) : Keeps s₀ (serveWrite req s) := by
  unfold Machine.serveWrite
  split
  · rename_i e found
    exact .odWriteOwn (keeping_ownEntries e (List.mem_of_find?_eq_some found)) h
  · exact .servePlain h

theorem Keeps.serveNonce {req : OdReq} (h : Keeps s₀ s) : Keeps s₀ (serveNonce req s) := by
  unfold Machine.serveNonce
  exact .ite (.respond h) (.ite (.respond h) (.ite (.respond h) (.ite (.respond h) (.respond (.same (.drbgDraw h) rfl)))))

theorem Keeps.serveOpen {req : OdReq} (h : Keeps s₀ s) : Keeps s₀ (serveOpen req s) := by
  unfold Machine.serveOpen
  extract_lets d good a sb s1 _ s2
  refine .ite (.respond h) (.ite (.respond h) (.ite (.respond h) (.ite (.respond h) ?_)))
  have hb : Keeps s₀ sb := .odBump h
  have h1 : Keeps s₀ s1 := .ite (.ite hb (.raise (.odBump hb))) h
  have h2 : Keeps s₀ s2 := h1.withServ (Nat.le_refl _) id
  split
  · exact .ite (.respond (h2.withServ (Nat.le_refl _) (keysRise_kput _ _ _))) (.respond h2)
  · exact .respond h2

theorem Keeps.serveClose {req : OdReq} (h : Keeps s₀ s) : Keeps s₀ (serveClose req s) :=
  .ite (.respond h) (.ite (.respond h) (.ite (.respond h) (.ite (.respond h) (.respond (.endSessions h)))))

theorem Keeps.serveOp {op : Nat} {req : OdReq} (h : Keeps s₀ s) : Keeps s₀ (serveOp op req s) := by
  unfold Machine.serveOp
  split
  · exact .respond h
  · split
    · exact .serveRead h
    · exact .serveWrite h
    · exact .serveNonce h
    · exact .serveOpen h
    · exact .serveClose h
    · exact .respond h

theorem Keeps.serveMailbox (h : Keeps s₀ s) : Keeps s₀ (serveMailbox s) := by
  unfold Machine.serveMailbox
  split
  · exact .ite h (.serveOp (.auditFlush h))
  · exact h

theorem Keeps.doorbellWrite {d : Nat} (h : Keeps s₀ s) : Keeps s₀ (doorbellWrite d s) :=
  .ite h (.ite (.barPut h) (.serveMailbox (.same (.barPut h) rfl)))

theorem Keeps.wakeServe (h : Keeps s₀ s) : Keeps s₀ (wakeServe s) := .serveMailbox (.mgmtWake h)

theorem KeepsNext.onRequest {f : OdReq → State → State} {req : OdReq} (hf : ∀ q t, Keeps s₀ t → Keeps s₀ (f q t)) (h : Keeps s₀ s) :
    KeepsNext s₀ (onRequest f req s) :=
  .next (.ite (hf _ _ (.serveNext h)) h)

theorem KeepsNext.execReadEntry {req : OdReq} (h : Keeps s₀ s) : KeepsNext s₀ (execReadEntry req s) :=
  .onRequest (fun _ _ h1 => .serveRead h1) h

theorem KeepsNext.execWriteEntry {req : OdReq} (h : Keeps s₀ s) : KeepsNext s₀ (execWriteEntry req s) :=
  .onRequest (fun _ _ h1 => .serveWrite h1) h

theorem KeepsNext.execCredentialWrite {req : OdReq} (h : Keeps s₀ s) : KeepsNext s₀ (execCredentialWrite req s) :=
  .ite (.onRequest (fun _ _ h1 => .servePlain h1) h) (.next h)

theorem KeepsNext.execNonceRequest {req : OdReq} (h : Keeps s₀ s) : KeepsNext s₀ (execNonceRequest req s) :=
  .onRequest (fun _ _ h1 => .serveNonce h1) h

theorem KeepsNext.execOpenSession {req : OdReq} (h : Keeps s₀ s) : KeepsNext s₀ (execOpenSession req s) :=
  .onRequest (fun _ _ h1 => .serveOpen h1) h

theorem KeepsNext.execCloseSession {req : OdReq} (h : Keeps s₀ s) : KeepsNext s₀ (execCloseSession req s) :=
  .onRequest (fun _ _ h1 => .serveClose h1) h

theorem KeepsNext.execSessionIdleTimeout {session : Nat} (h : Keeps s₀ s) : KeepsNext s₀ (execSessionIdleTimeout session s) :=
  .next (.endSessions h)

theorem KeepsNext.execAuditRecordStored (h : Keeps s₀ s) : KeepsNext s₀ (execAuditRecordStored s) := .next (.auditNext h)

theorem KeepsNext.execAuditSignRequest {req : OdReq} (h : Keeps s₀ s) : KeepsNext s₀ (execAuditSignRequest req s) :=
  .next (.odWriteOwn keeping_signEntry h)

theorem KeepsNext.execOdmDoorbell {data : Reg} (h : Keeps s₀ s) : KeepsNext s₀ (execOdmDoorbell data s) := .next (.doorbellWrite h)

theorem KeepsNext.execMgmtWake {frame : Bool} (h : Keeps s₀ s) : KeepsNext s₀ (execMgmtWake frame s) := .next (.ite (.wakeServe h) h)

theorem KeepsNext.execPwrWakeExpiry (h : Keeps s₀ s) : KeepsNext s₀ (execPwrWakeExpiry s) :=
  .next (.ite h (.ite (.wakeServe (.raise (.winSet h))) (.raise (.winSet h))))

/-! ### Bar0.lean -/

theorem Keeps.claim {p n : Nat} (h : Keeps s₀ s) : Keeps s₀ (claim p n s).2 := by
  unfold Machine.claim
  split
  · split
    · exact .vectorStep (h.withHost (keysRise_kdel _ _))
    · exact h
  · exact h

theorem KeepsNext.execIcClaim {proc n : Nat} (h : Keeps s₀ s) : KeepsNext s₀ (execIcClaim proc n s) :=
  .ite (.next h) (.next (.same (.claim h) rfl))

theorem Keeps.pageRead {off : Nat} (h : Keeps s₀ s) : Keeps s₀ (pageRead off s).2 := by
  unfold Machine.pageRead
  extract_lets
  split
  · exact h
  · exact .drbgRead h
  · exact h
  · exact h

theorem Keeps.bar0Read {p : Path} {off : Nat} (h : Keeps s₀ s) : Keeps s₀ (bar0Read p off s).2 := by
  unfold Machine.bar0Read
  split
  · exact .claim h
  · split
    · exact .pageRead h
    · split
      · exact h
      · exact .ite h (.barSet h)
      · exact h

theorem Keeps.rwlWrite {p : Path} {off : Nat} {r : RegSpec} {d : Nat} (h : Keeps s₀ s) : Keeps s₀ (rwlWrite p off r d s) :=
  .ite (.barSet h) (.accessLog (.drawFree (.barSet h)))

theorem Keeps.bar0Write {p : Path} {off d : Nat} (h : Keeps s₀ s) : Keeps s₀ (bar0Write p off d s) := by
  unfold Machine.bar0Write
  split
  · exact .after (.execHqReset h) h
  · split
    · exact .after (.execHqTailWrite h) h
    · split
      · exact .doorbellWrite h
      · split
        · exact .ite (.barPut h) h
        · split
          · exact h
          · exact .ite (.hqError h) (.ite (.vectorStep (.rwlWrite h)) (.ite (.msixFlush (.barSet h)) (.barSet h)))

theorem Keeps.regRead {p : Path} {at_ : RegAt} (h : Keeps s₀ s) : Keeps s₀ (regRead p at_ s).2 := by
  unfold Machine.regRead
  split
  · exact .bar0Read h
  · exact .devRead h

theorem Keeps.regWrite {p : Path} {at_ : RegAt} {d : Nat} (h : Keeps s₀ s) : Keeps s₀ (regWrite p at_ d s) := by
  unfold Machine.regWrite
  split
  · exact .bar0Write h
  · exact .devWrite h

theorem Keeps.logAccess {p : Path} {bar2 : Bool} {off be reason : Nat} (h : Keeps s₀ s) : Keeps s₀ (logAccess p bar2 off be reason s) :=
  .ite (.accessLog h) h

theorem Keeps.classRead {p : Path} {at_ : RegAt} {off dws be : Nat} (h : Keeps s₀ s) : Keeps s₀ (classRead p at_ off dws be s) := by
  unfold Machine.classRead
  extract_lets
  split
  · exact .same (.regRead h) rfl
  · exact .same (.regRead h) rfl
  · exact .same (.regRead (.regRead h)) rfl
  · exact .logAccess (.same h rfl)

theorem Keeps.writeIgnored {p : Path} {at_ : RegAt} {off dws be reason : Nat} (h : Keeps s₀ s) :
    Keeps s₀ (writeIgnored p at_ off dws be reason s) :=
  .ite (.logAccess h) h

theorem Keeps.classWrite {p : Path} {at_ : RegAt} {off dws be data : Nat} (h : Keeps s₀ s) :
    Keeps s₀ (classWrite p at_ off dws be data s) := by
  unfold Machine.classWrite
  split
  · exact .regWrite h
  · exact .writeIgnored h
  · exact .regWrite (.regWrite h)
  · exact .writeIgnored h

theorem KeepsNext.readCommand {path : Path} {at_ : RegAt} {dws be : Nat} (h : Keeps s₀ s) :
    KeepsNext s₀ (readCommand path at_ dws be s) :=
  .ite (.next (.classRead h)) (.next h)

theorem KeepsNext.execRegisterWrite {path : Path} {at_ : RegAt} {dws be data : Nat} (h : Keeps s₀ s) :
    KeepsNext s₀ (execRegisterWrite path at_ dws be data s) :=
  .ite (.next (.classWrite h)) (.next h)

theorem KeepsNext.execRcRead {path : Path} {at_ : RegAt} {dws be : Nat} (h : Keeps s₀ s) : KeepsNext s₀ (execRcRead path at_ dws be s) :=
  .readCommand h

theorem KeepsNext.execCounterLoRead {path : Path} {at_ : RegAt} {dws be : Nat} (h : Keeps s₀ s) :
    KeepsNext s₀ (execCounterLoRead path at_ dws be s) :=
  .readCommand h

theorem Keeps.bar2Draw {g a n : Nat} {ok write : Bool} (h : Keeps s₀ s) : Keeps s₀ (bar2Draw s g a n ok write) := by
  unfold Machine.bar2Draw
  split
  · exact h
  · exact .drawFree h
  · exact h

theorem Keeps.bar2Read {r : BusReq} (h : Keeps s₀ s) : Keeps s₀ (bar2Read r s) := by
  unfold Machine.bar2Read
  split
  rename_i g base ok eq
  split
  rename_i first n eq'
  extract_lets
  split
  · exact .same h rfl
  · split
    · exact .same (.tierReadChecks h) rfl
    · exact .same (.portRead h) rfl
    · exact .classRead h
    · exact .same (.reject h) rfl

theorem Keeps.bar2Write {r : BusReq} {d : List Byte} (h : Keeps s₀ s) : Keeps s₀ (bar2Write r d s) := by
  unfold Machine.bar2Write
  split
  rename_i g base ok eq
  split
  rename_i first n eq'
  split
  · exact h
  · split
    · exact .ndHostWrite (.foldl (fun _ _ h1 => .store h1) h)
    · exact .ite (.bankCheck h) (.foldl (fun _ _ h1 => .portStore h1) (.bankCheck h))
    · exact .classWrite h
    · exact .reject (.bar2Draw h)

theorem KeepsNext.execBar2Read {req : BusReq} {tc : Option Nat} (h : Keeps s₀ s) : KeepsNext s₀ (execBar2Read req tc s) :=
  .ite (.atTc? h (fun _ h1 => .bar2Read h1)) (.next h)

theorem KeepsNext.execBar2Write {req : BusReq} {data : List Byte} {tc : Option Nat} (h : Keeps s₀ s) :
    KeepsNext s₀ (execBar2Write req data tc s) :=
  .ite (.atTc? h (fun _ h1 => .bar2Write h1)) (.next h)

theorem Keeps.opData {k : Nat} {what : ReadFor} {data : Option (List Byte)} {tc : Option Nat} (h : Keeps s₀ s) :
    Keeps s₀ (opData k what data tc s) := by
  unfold Machine.opData
  split
  · exact h
  · split
    · exact .completeOp h
    · split
      · exact .setOp h
      · exact .copyData h
      · exact .semValue h
      · exact h

theorem Keeps.readEnds {tag : Nat} {ok : Bool} {data : List Byte} {tc : Option Nat} (h : Keeps s₀ s) :
    Keeps s₀ (readEnds tag ok data tc s) := by
  unfold Machine.readEnds
  split
  · exact h
  · refine .ite h ?_
    dsimp only
    split
    · exact .opData (.feWith h)
    · exact .bufferData (.feWith h)

theorem KeepsNext.execHostReadCompletion {tag : Nat} {ok : Bool} {data : List Byte} {tc : Option Nat} (h : Keeps s₀ s) :
    KeepsNext s₀ (execHostReadCompletion tag ok data tc s) :=
  .atTc? h (fun _ h1 => .readEnds h1)

theorem Keeps.sendHeld (h : Keeps s₀ s) : Keeps s₀ (sendHeld s) := .ite (.same h rfl) h

theorem KeepsNext.execBusMasterEnableWrite {cfg : CfgWrite} (h : Keeps s₀ s) : KeepsNext s₀ (execBusMasterEnableWrite cfg s) :=
  .next (.msixFlush (.sendHeld (.same h rfl)))

theorem Keeps.functionReset {held : Nat} (h : Keeps s₀ s) : Keeps s₀ (functionReset held s) := by
  have key (p : Nat × Nat) : (clearHost p).1 = p.1 := by
    unfold clearHost
    split <;> rfl
  unfold Machine.functionReset
  extract_lets s1 s2 s3 _ s4 _ s5 s6
  have h1 : Keeps s₀ s1 := .barBump (.auditFlush h)
  have h2 : Keeps s₀ s2 := .ite h1 (.raise (.barBump h1))
  have h3 : Keeps s₀ s3 := .ringResetDone (.ite h2 (.ringReset h2))
  have h4 : Keeps s₀ s4 := .endSessions (h3.withServ (Nat.le_refl _) id)
  have bar : Keeps s₀ { s4 with bar0 := (s4.bar0.filter fun p => !flrClears p.1).map clearHost } :=
    h4.withBar0 fun k => keysRise_map key (keysRise_filter _ _ k)
  have h6 : Keeps s₀ s6 := .vectorStep (bar.withHost id)
  exact h6.withHost id

theorem KeepsNext.execFlr {held : Nat} (h : Keeps s₀ s) : KeepsNext s₀ (execFlr held s) := .next (.functionReset h)

theorem KeepsNext.execPerstAssert {held : Nat} (h : Keeps s₀ s) : KeepsNext s₀ (execPerstAssert held s) :=
  .next (.same (.ite (.functionReset h) h) rfl)

theorem KeepsNext.execPerstRelease (h : Keeps s₀ s) : KeepsNext s₀ (execPerstRelease s) := .next (.same h rfl)

theorem Keeps.stepTime {n us : Nat} (h : Keeps s₀ s) : Keeps s₀ (stepTime n us s) := .odSet h

theorem KeepsNext.execPcieLinkTrainingDone {us : Nat} (h : Keeps s₀ s) : KeepsNext s₀ (execPcieLinkTrainingDone us s) :=
  .ite (.next (.ite (.stepTime (.same h rfl)) (.same h rfl))) (.next h)

/-! ### MIssue.lean -/

theorem KeepsNext.execLac {pos tc : Nat} (h : Keeps s₀ s) : KeepsNext s₀ (execLac pos tc s) := by
  unfold Machine.execLac
  refine .runInstr h fun _ _ k => ?_
  extract_lets _ t1
  have h1 : Keeps s₀ t1 := .holdUnits (.stepOn k)
  exact .ite (.early k) (.ite (.adjTile h1) (.startRead h1))

theorem KeepsNext.ldc {pos tc kind : Nat} (h : Keeps s₀ s) : KeepsNext s₀ (ldc pos tc kind s) := by
  unfold Machine.ldc
  extract_lets
  exact .ite (.next h) (.runInstr h (fun _ _ h1 => .ite (.early h1) (.ite (.early h1) (.holdUnits (.startRead (.stepOn h1))))))

theorem KeepsNext.execLdcA {pos tc : Nat} (h : Keeps s₀ s) : KeepsNext s₀ (execLdcA pos tc s) := .ldc h

theorem KeepsNext.execLdcB {pos tc : Nat} (h : Keeps s₀ s) : KeepsNext s₀ (execLdcB pos tc s) := .ldc h

theorem KeepsNext.execLdcS {pos tc : Nat} (h : Keeps s₀ s) : KeepsNext s₀ (execLdcS pos tc s) := .ldc h

theorem KeepsNext.execRsc {pos tc : Nat} (h : Keeps s₀ s) : KeepsNext s₀ (execRsc pos tc s) := by
  unfold Machine.execRsc
  refine .runInstr h fun _ _ k => ?_
  extract_lets
  split
  rename_i b w eq
  split
  · exact .early k
  · exact .holdUnits (.sched (.stepOn k))

theorem KeepsNext.execTopk {pos tc : Nat} (h : Keeps s₀ s) : KeepsNext s₀ (execTopk pos tc s) := by
  unfold Machine.execTopk
  refine .runInstr h fun _ _ k => ?_
  extract_lets
  split
  rename_i lb lw eq
  split
  rename_i db dw eq'
  split
  · exact .early k
  · exact .holdUnits (.sched (.stepOn k))

/-! ### Start.lean -/

theorem Keeps.dropFences (h : Keeps s₀ s) : Keeps s₀ (dropFences s) :=
  .same (h.withOd (m := (Machine.dropFences s).od) (keysRise_filter _ _)) rfl

/-- A reset of the die keeps the fuses, the log and the entries that are not volatile, and empties every other table (R496). -/
theorem Keeps.dieReset (h : Keeps s₀ s) : Keeps s₀ (dieReset s) :=
  ⟨h.fuse, h.audit, h.queue, fun _ => memWf_nil, fun k => keysRise_filter _ _ (h.od k), fun k =>
    ⟨keysRise_filter _ _ (h.keyed k).1, rfl, rfl, rfl, rfl, rfl, rfl⟩⟩

theorem Keeps.setStep {n : Nat} (h : Keeps s₀ s) : Keeps s₀ (setStep n s) := .same h rfl

theorem Keeps.startRails (h : Keeps s₀ s) : Keeps s₀ (startRails s) := .odBump (.same h rfl)

theorem Keeps.startClocks {env : StartEnv} (h : Keeps s₀ s) : Keeps s₀ (startClocks env s) := .winSet h

theorem Keeps.startTiers (h : Keeps s₀ s) : Keeps s₀ (startTiers s) := .foldl (fun _ _ h1 => .setDomain h1) h

theorem Keeps.startMesh {env : StartEnv} (h : Keeps s₀ s) : Keeps s₀ (startMesh env s) := by
  unfold Machine.startMesh
  extract_lets _ s1 s2 s3
  have h1 : Keeps s₀ s1 := .same h rfl
  have h2 : Keeps s₀ s2 := .foldl (fun _ _ h2 => .setDomain h2) h1
  have h3 : Keeps s₀ s3 := .foldl (fun _ _ h3 => .fenceTile h3) h2
  exact .foldl (fun _ _ h4 => .ite (.odSet h4) h4) h3

theorem Keeps.startSec (h : Keeps s₀ s) : Keeps s₀ (startSec s) := .secPowerUp (.setDomain h)

theorem Keeps.loadFirmware {slot : Nat} {x : FwSlot} (h : Keeps s₀ s) : Keeps s₀ (loadFirmware slot x s) :=
  .foldl (fun _ _ h1 => .setTile h1) (.odSet (.same h rfl))

theorem Keeps.startFirmware {env : StartEnv} (h : Keeps s₀ s) : Keeps s₀ (startFirmware env s) := .ite (.loadFirmware h) (.loadFirmware h)

theorem Keeps.startReady (h : Keeps s₀ s) : Keeps s₀ (startReady s) := by
  unfold Machine.startReady
  extract_lets s1 s2
  have h1 : Keeps s₀ s1 := .foldl (fun _ _ h1 => .setDomain h1) h
  have h2 : Keeps s₀ s2 := .ite h1 (.odSet h1)
  exact .refreshSysTime (.same h2 rfl)

theorem Keeps.stepWork {n : Nat} {env : StartEnv} (h : Keeps s₀ s) : Keeps s₀ (stepWork n env s) := by
  unfold Machine.stepWork
  split
  · exact .startRails h
  · exact .startClocks h
  · exact .startTiers h
  · exact .startMesh h
  · exact .startSec h
  · exact .startFirmware h
  · exact .startReady h
  · exact .same h rfl
  · exact h

theorem Keeps.runSteps {fail : Nat} {env : StartEnv} {l : List Nat} (h : Keeps s₀ s) : Keeps s₀ (runSteps fail env l s).1 := by
  induction l generalizing s with
  | nil => exact h
  | cons n l ih =>
    unfold Machine.runSteps
    split
    · exact h
    · split
      · exact .ite (.same h rfl) h
      · exact ih (.stepTime (.setStep (.stepWork h)))

theorem Keeps.firstHalt (h : Keeps s₀ s) : Keeps s₀ (firstHalt s) := .odSet (.same (.dieReset h) rfl)

theorem Keeps.secondHalt {n : Nat} (h : Keeps s₀ s) : Keeps s₀ (secondHalt n s) := .same h rfl

theorem Keeps.startUp {first : Nat} {env : StartEnv} (h : Keeps s₀ s) : Keeps s₀ (startUp first env s) := by
  have done {fail : Nat} {l : List Nat} {t u : State} {n : Option Nat} (k : Keeps s₀ t) (e : Machine.runSteps fail env l t = (u, n)) :
      Keeps s₀ u := by
    have k1 : Keeps s₀ (Machine.runSteps fail env l t).1 := .runSteps k
    rwa [e] at k1
  unfold Machine.startUp
  extract_lets _ s0
  have h0 : Keeps s₀ s0 := .same h rfl
  split
  · rename_i e
    exact done h0 e
  · rename_i e
    have h1 := done h0 e
    split
    · split
      · rename_i e
        exact done (.firstHalt h1) e
      · rename_i e
        exact .secondHalt (done (.firstHalt h1) e)
    · exact .secondHalt h1

theorem KeepsNext.execPowerOn {env : StartEnv} (h : Keeps s₀ s) : KeepsNext s₀ (execPowerOn env s) :=
  .ite (.next h) (.next (.startUp (.odSet (.odSet (.same (.dropFences (.dieReset h)) rfl)))))

theorem KeepsNext.execMainSupplyLoss (h : Keeps s₀ s) : KeepsNext s₀ (execMainSupplyLoss s) :=
  .ite (.next h) (.next (.odSet (.same (.dieReset (.enterSafe h)) rfl)))

theorem KeepsNext.execMainSupplyReturn {env : StartEnv} (h : Keeps s₀ s) : KeepsNext s₀ (execMainSupplyReturn env s) :=
  .ite (.next h) (.next (.startUp (.same (.dropFences (.dieReset (.enterSafe h))) rfl)))

theorem KeepsNext.execAuxSupplyLoss (h : Keeps s₀ s) : KeepsNext s₀ (execAuxSupplyLoss s) := .next (.same (.dieReset h) rfl)

theorem Keeps.resetPin (h : Keeps s₀ s) : Keeps s₀ (resetPin s) := .odSet (.same (.dieReset (.enterSafe (.auditFlush h))) rfl)

theorem KeepsNext.execResetN {ns : Nat} (h : Keeps s₀ s) : KeepsNext s₀ (execResetN ns s) :=
  .ite (.next h) (.ite (.next (.resetPin h)) (.next (.ite (.resetPin (.drawFree h)) (.drawFree h))))

theorem KeepsNext.execResetNRelease {env : StartEnv} (h : Keeps s₀ s) : KeepsNext s₀ (execResetNRelease env s) :=
  .ite (.next h) (.next (.ite (.startUp (.same h rfl)) (.same h rfl)))

theorem KeepsNext.execRefValid {b : Bool} (h : Keeps s₀ s) : KeepsNext s₀ (execRefValid b s) := by
  unfold Machine.execRefValid
  split
  · exact .next (.refValid h)
  · extract_lets
    exact .next (.startUp (.same h rfl))

/-! ### VIssue.lean -/

theorem KeepsNext.execVld {pos tc : Nat} (h : Keeps s₀ s) : KeepsNext s₀ (execVld pos tc s) :=
  .runInstr h (fun _ _ h1 => .ite (.early h1) (.holdUnits (.startRead (.stepOn h1))))

theorem KeepsNext.execVst {pos tc : Nat} (h : Keeps s₀ s) : KeepsNext s₀ (execVst pos tc s) := by
  unfold Machine.execVst
  refine .runInstr h fun _ _ k => ?_
  extract_lets
  split
  · exact .early k
  · split
    · exact .early k
    · exact .holdUnits (.foldl (fun _ _ h2 => .sched h2) (.stepOn k))

theorem KeepsNext.execVop {pos tc : Nat} (h : Keeps s₀ s) : KeepsNext s₀ (execVop pos tc s) :=
  .runInstr h (fun _ _ h1 => .ite (.early h1) (.landIn (.stepOn h1)))

theorem KeepsNext.execVlut {pos tc : Nat} (h : Keeps s₀ s) : KeepsNext s₀ (execVlut pos tc s) :=
  .runInstr h (fun _ _ h1 => .romCheck (.landIn (.stepOn h1)))

theorem KeepsNext.samp {pos tc kind : Nat} {need : Ctx → Tile → List (Bool × Nat)} {reads : Ctx → List Nat} {looks : Ctx → Tile → List Nat}
    {land : State → Ctx → Bool → Tile → List Landing} (h : Keeps s₀ s) :
    KeepsNext s₀ (samp pos tc kind need reads looks land s) := by
  unfold Machine.samp
  extract_lets
  split
  · exact .next h
  · refine .runInstr h fun _ _ k => ?_
    split
    · exact .early k
    · extract_lets _ _ t1
      have h1 : Keeps s₀ t1 := .countDraws (.stepOn k)
      split
      · exact .early k
      · exact .romCheck (.landIn (.ite (.vtFault h1) h1))

theorem KeepsNext.execSampUniform {pos tc : Nat} (h : Keeps s₀ s) : KeepsNext s₀ (execSampUniform pos tc s) := .samp h

theorem KeepsNext.execSampBernoulli {pos tc : Nat} (h : Keeps s₀ s) : KeepsNext s₀ (execSampBernoulli pos tc s) := .samp h

theorem KeepsNext.execSampGaussian {pos tc : Nat} (h : Keeps s₀ s) : KeepsNext s₀ (execSampGaussian pos tc s) := .samp h

theorem KeepsNext.execSampMetropolis {pos tc : Nat} (h : Keeps s₀ s) : KeepsNext s₀ (execSampMetropolis pos tc s) := .samp h

theorem KeepsNext.execSampHeatBath {pos tc : Nat} (h : Keeps s₀ s) : KeepsNext s₀ (execSampHeatBath pos tc s) := .samp h

theorem KeepsNext.dyn {pos tc mode : Nat} {need : Tile → List (Bool × Nat)} {land : Ctx → Bool → Tile → List Landing} (h : Keeps s₀ s) :
    KeepsNext s₀ (dyn pos tc mode need land s) := by
  unfold Machine.dyn
  extract_lets
  split
  · exact .next h
  · refine .runInstr h fun _ _ k => ?_
    split
    · exact .early k
    · extract_lets _ _ t1
      have h1 : Keeps s₀ t1 := .countDraws (.stepOn k)
      split
      · exact .early k
      · exact .landIn (.ite (.vtFault h1) h1)

theorem KeepsNext.execDynStep {pos tc : Nat} (h : Keeps s₀ s) : KeepsNext s₀ (execDynStep pos tc s) := .dyn h

theorem KeepsNext.execDynGroupTransfer {pos tc : Nat} (h : Keeps s₀ s) : KeepsNext s₀ (execDynGroupTransfer pos tc s) := .dyn h

theorem KeepsNext.execDynGroupRound {pos tc : Nat} (h : Keeps s₀ s) : KeepsNext s₀ (execDynGroupRound pos tc s) := .dyn h

theorem KeepsNext.execCats {pos tc : Nat} (h : Keeps s₀ s) : KeepsNext s₀ (execCats pos tc s) := by
  unfold Machine.execCats
  refine .runInstr h fun _ _ k => ?_
  extract_lets
  split
  · exact .early k
  · split
    · exact .early (.ite (.vtFault k) k)
    · exact .holdUnits (.startRead (.stepOn k))

theorem KeepsNext.execQld {pos tc : Nat} (h : Keeps s₀ s) : KeepsNext s₀ (execQld pos tc s) := by
  unfold Machine.execQld
  refine .runInstr h fun _ _ k => ?_
  extract_lets
  split
  · exact .early k
  · split
    · exact .early k
    · exact .holdUnits (.startRead (.stepOn k))

theorem KeepsNext.execQmap {pos tc : Nat} (h : Keeps s₀ s) : KeepsNext s₀ (execQmap pos tc s) := by
  unfold Machine.execQmap
  refine .runInstr h fun _ _ k => ?_
  extract_lets
  split
  · exact .early k
  · split
    · exact .stepOn k
    · extract_lets
      exact .statAt (.sched (.stepOn k))

theorem KeepsNext.execDinc {pos tc : Nat} (h : Keeps s₀ s) : KeepsNext s₀ (execDinc pos tc s) := by
  unfold Machine.execDinc
  refine .runInstr h fun _ _ k => ?_
  extract_lets
  exact .ite (.early k) (by split; exacts [.early k, .sched (.stepOn k)])

theorem KeepsNext.exec (c : Instr) (h : Keeps s₀ s) : KeepsNext s₀ (exec c s) := by
  cases c with
  | powerOn => exact .execPowerOn h
  | resetN => exact .execResetN h
  | mainSupplyLoss => exact .execMainSupplyLoss h
  | auxSupplyLoss => exact .execAuxSupplyLoss h
  | perstRelease => exact .execPerstRelease h
  | perstAssert => exact .execPerstAssert h
  | flr => exact .execFlr h
  | refLoss => exact .execRefLoss h
  | refValid => exact .execRefValid h
  | pllRelock => exact .execPllRelock h
  | holdoverExpiry => exact .execHoldoverExpiry h
  | dieTempRead => exact .execDieTempRead h
  | frameBoundary => exact .execFrameBoundary h
  | frameSourceWrite => exact .execFrameSourceWrite h
  | framePeriodWrite => exact .execFramePeriodWrite h
  | syncMessage => exact .execSyncMessage h
  | syncTimeout => exact .execSyncTimeout h
  | windowStart => exact .execWindowStart h
  | windowEnd => exact .execWindowEnd h
  | bankWake => exact .execBankWake h
  | bankScrubVisit => exact .execBankScrubVisit h
  | commonsQueuedService => exact .execCommonsQueuedService h
  | slotFwd => exact .execSlotFwd h
  | combineAdd => exact .execCombineAdd h
  | combineTopk => exact .execCombineTopk h
  | combineBar => exact .execCombineBar h
  | combineFlag => exact .execCombineFlag h
  | vcFlitForward => exact .execVcFlitForward h
  | vc3RecordRelease => exact .execVc3RecordRelease h
  | ledgerRequest => exact .execLedgerRequest h
  | ledgerGrant => exact .execLedgerGrant h
  | colRetrain => exact .execColRetrain h
  | nop => exact .execNop h
  | waitt => exact .execWaitt h
  | loop => exact .execLoop h
  | yield => exact .execYield h
  | haltf => exact .execHaltf h
  | send => exact .execSend h
  | recv => exact .execRecv h
  | sendm => exact .execSendm h
  | bar => exact .execBar h
  | barw => exact .execBarw h
  | barwTimeout => exact .execBarwTimeout h
  | flag => exact .execFlag h
  | ldp => exact .execLdp h
  | lac => exact .execLac h
  | ldcA => exact .execLdcA h
  | ldcB => exact .execLdcB h
  | ldcS => exact .execLdcS h
  | rsc => exact .execRsc h
  | topk => exact .execTopk h
  | vld => exact .execVld h
  | vst => exact .execVst h
  | vop => exact .execVop h
  | vlut => exact .execVlut h
  | sampUniform => exact .execSampUniform h
  | sampBernoulli => exact .execSampBernoulli h
  | sampGaussian => exact .execSampGaussian h
  | sampMetropolis => exact .execSampMetropolis h
  | sampHeatBath => exact .execSampHeatBath h
  | dynStep => exact .execDynStep h
  | dynGroupTransfer => exact .execDynGroupTransfer h
  | dynGroupRound => exact .execDynGroupRound h
  | cats => exact .execCats h
  | qld => exact .execQld h
  | qmap => exact .execQmap h
  | dinc => exact .execDinc h
  | alu => exact .execAlu h
  | alui => exact .execAlui h
  | fpu => exact .execFpu h
  | ld => exact .execLd h
  | st => exact .execSt h
  | br => exact .execBr h
  | sys => exact .execSys h
  | li => exact .execLi h
  | fls => exact .execFls h
  | checkpoint => exact .execCheckpoint h
  | samplePoint => exact .execSamplePoint h
  | learningIteration => exact .execLearningIteration h
  | learningCheckpoint => exact .execLearningCheckpoint h
  | driftCheck => exact .execDriftCheck h
  | driftGloveWrite => exact .execDriftGloveWrite h
  | driftTensorWrite => exact .execDriftTensorWrite h
  | driftEnableWrite => exact .execDriftEnableWrite h
  | hqTailWrite => exact .execHqTailWrite h
  | hqReset => exact .execHqReset h
  | hqResetDone => exact .execHqResetDone h
  | bufferPrefetch => exact .execBufferPrefetch h
  | bufferCurrent => exact .execBufferCurrent h
  | opDispatch => exact .execOpDispatch h
  | nopOp => exact .execNopOp h
  | copy => exact .execCopy h
  | fill => exact .execFill h
  | dmaBurst => exact .execDmaBurst h
  | launch => exact .execLaunch h
  | seedDraw => exact .execSeedDraw h
  | loadingDone => exact .execLoadingDone h
  | launchStart => exact .execLaunchStart h
  | launchEnd => exact .execLaunchEnd h
  | launchRelease => exact .execLaunchRelease h
  | ticketWrite => exact .execTicketWrite h
  | waitSem => exact .execWaitSem h
  | waitSemPoll => exact .execWaitSemPoll h
  | signalSem => exact .execSignalSem h
  | drain => exact .execDrain h
  | kill => exact .execKill h
  | drainDelivery => exact .execDrainDelivery h
  | killDone => exact .execKillDone h
  | opTrigger => exact .execOpTrigger h
  | bufferRetire => exact .execBufferRetire h
  | noProgressLimit => exact .execNoProgressLimit h
  | budgetStallRetry => exact .execBudgetStallRetry h
  | memRead => exact .execMemRead h
  | memWrite => exact .execMemWrite h
  | eccWriteBack => exact .execEccWriteBack h
  | streamReadAhead => exact .execStreamReadAhead h
  | hashPassStart => exact .execHashPassStart h
  | hashPassDone => exact .execHashPassDone h
  | patrolScrubVisit => exact .execPatrolScrubVisit h
  | memTempRead => exact .execMemTempRead h
  | memAssignCommit => exact .execMemAssignCommit h
  | memAssignTransit => exact .execMemAssignTransit h
  | chunkScrubDone => exact .execChunkScrubDone h
  | memAssignDone => exact .execMemAssignDone h
  | bar2Read => exact .execBar2Read h
  | bar2Write => exact .execBar2Write h
  | registerWrite => exact .execRegisterWrite h
  | rcRead => exact .execRcRead h
  | counterLoRead => exact .execCounterLoRead h
  | gloveOpenRequest => exact .execGloveOpenRequest h
  | gloveReset => exact .execGloveReset h
  | gloveResetDone => exact .execGloveResetDone h
  | gloveClose => exact .execGloveClose h
  | gloveRelaxedWrite => exact .execGloveRelaxedWrite h
  | gloveBudgetWrite => exact .execGloveBudgetWrite h
  | bankHandoverRequest => exact .execBankHandoverRequest h
  | bankOwnerChange => exact .execBankOwnerChange h
  | bankHandoverScrubDone => exact .execBankHandoverScrubDone h
  | rxFrame => exact .execRxFrame h
  | portLinkChange => exact .execPortLinkChange h
  | txFetch => exact .execTxFetch h
  | replicaComparison => exact .execReplicaComparison h
  | txDataDeadline => exact .execTxDataDeadline h
  | txFrame => exact .execTxFrame h
  | gclCommit => exact .execGclCommit h
  | safetyAck => exact .execSafetyAck h
  | streamEnableWrite => exact .execStreamEnableWrite h
  | arpRequest => exact .execArpRequest h
  | readEntry => exact .execReadEntry h
  | writeEntry => exact .execWriteEntry h
  | nonceRequest => exact .execNonceRequest h
  | openSession => exact .execOpenSession h
  | closeSession => exact .execCloseSession h
  | sessionIdleTimeout => exact .execSessionIdleTimeout h
  | credentialWrite => exact .execCredentialWrite h
  | auditRecordStored => exact .execAuditRecordStored h
  | auditSignRequest => exact .execAuditSignRequest h
  | odmDoorbell => exact .execOdmDoorbell h
  | healthFlit => exact .execHealthFlit h
  | replicaFence => exact .execReplicaFence h
  | spareRestart => exact .execSpareRestart h
  | faultRecord => exact .execFaultRecord h
  | reexecution => exact .execReexecution h
  | icClaim => exact .execIcClaim h
  | mgmtWake => exact .execMgmtWake h
  | monitorSample => exact .execMonitorSample h
  | hlmKick => exact .execHlmKick h
  | watchdogExpiry => exact .execWatchdogExpiry h
  | frameWatchdogExpiry => exact .execFrameWatchdogExpiry h
  | safeStateAck => exact .execSafeStateAck h
  | safeTestTrip => exact .execSafeTestTrip h
  | safeStateExit => exact .execSafeStateExit h
  | selfTest => exact .execSelfTest h
  | cellStartupTestDone => exact .execCellStartupTestDone h
  | cellRetest => exact .execCellRetest h
  | conditioningCall => exact .execConditioningCall h
  | secStartupTimeout => exact .execSecStartupTimeout h
  | recoveryTimeout => exact .execRecoveryTimeout h
  | katRequest => exact .execKatRequest h
  | katDone => exact .execKatDone h
  | drbgGenerate => exact .execDrbgGenerate h
  | drbgReseed => exact .execDrbgReseed h
  | drbgReseedRequest => exact .execDrbgReseedRequest h
  | drbgDataRead => exact .execDrbgDataRead h
  | attestRequest => exact .execAttestRequest h
  | ed25519Sign => exact .execEd25519Sign h
  | ed25519Verify => exact .execEd25519Verify h
  | ecdsaSign => exact .execEcdsaSign h
  | ecdsaVerify => exact .execEcdsaVerify h
  | pkeComplete => exact .execPkeComplete h
  | plxEnable => exact .execPlxEnable h
  | plxTrainingDone => exact .execPlxTrainingDone h
  | plxCell => exact .execPlxCell h
  | plxRetrain => exact .execPlxRetrain h
  | plxRetrainDone => exact .execPlxRetrainDone h
  | plxLinkFailed => exact .execPlxLinkFailed h
  | timeCellSend => exact .execTimeCellSend h
  | timeCell => exact .execTimeCell h
  | systimeHoldover => exact .execSystimeHoldover h
  | windowHoldTest => exact .execWindowHoldTest h
  | exchangeCombine => exact .execExchangeCombine h
  | plxNotice => exact .execPlxNotice h
  | plxRecord => exact .execPlxRecord h
  | clkMuxSwitch => exact .execClkMuxSwitch h
  | clkMuxDone => exact .execClkMuxDone h
  | freqMeasure => exact .execFreqMeasure h
  | freqMeasureDone => exact .execFreqMeasureDone h
  | clkGateRequest => exact .execClkGateRequest h
  | domainOffRequest => exact .execDomainOffRequest h
  | domainOnRequest => exact .execDomainOnRequest h
  | domainOffDone => exact .execDomainOffDone h
  | domainOnDone => exact .execDomainOnDone h
  | tileReset => exact .execTileReset h
  | pwrWakeExpiry => exact .execPwrWakeExpiry h
  | mainSupplyReturn => exact .execMainSupplyReturn h
  | resetNRelease => exact .execResetNRelease h
  | entropyCellSample => exact .execEntropyCellSample h
  | grandmasterChange => exact .execGrandmasterChange h
  | pcieLinkTrainingDone => exact .execPcieLinkTrainingDone h
  | hostReadCompletion => exact .execHostReadCompletion h
  | busMasterEnableWrite => exact .execBusMasterEnableWrite h

/-! ### The obligations -/

/-- Settles O3: what every command keeps, from the state whose first waiting command is taken. -/
theorem everyStepKeepsMemorysForm : Obligations.EveryStepKeepsMemorysForm := by
  intro s t h
  unfold step at h
  split at h
  · cases h
    exact ⟨id, id⟩
  · rename_i c rest _
    have kept : Keeps { s with pending := rest } t := KeepsNext.exec c (.refl _) t h
    exact ⟨kept.memOk, kept.keyed⟩

/-- Settles O5: what every command keeps, from the state itself. -/
theorem fusesStayAndTheAuditLogOnlyGrows : Obligations.FusesStayAndTheAuditLogOnlyGrows := by
  intro c s t h
  have kept : Keeps s t := KeepsNext.exec c (.refl s) t h
  exact ⟨kept.fuse, kept.audit, kept.queue⟩

end Sys2Proof.Machine
end

section
/-! PROOFS. Issue of an instruction that puts acts under way, and an access that port A serves alone in its tc. -/

namespace Sys2Proof.Machine

/-! ## Issue (R226, R256) -/

/-- An instruction whose meaning puts acts under way has issued with them. -/
theorem runInstr_issued {s u : State} {pos tc opc r : Nat} {c : Ctx} {l : List (Nat × Act)} (h : Issues s pos tc opc r c)
    {go : Ctx → State → State} (e : go c (reached s pos tc) = underWay c l u) : runInstr s pos tc opc r go = .next (issued c l u) := by
  rw [runInstr_go h, e]
  rfl

/-- An instruction of plan time does what its meaning does. -/
theorem runInstr_inPlan {s : State} {pos tc opc r : Nat} {c : Ctx} (h : Issues s pos tc opc r c) (hc : c.free = false)
    (go : Ctx → State → State) : runInstr s pos tc opc r go = .next (go c (reached s pos tc)) := by
  rw [runInstr_go h, hc]
  rfl

/-- No cause is found at issue where poison alone is in question, and there is none or a dry run. -/
theorem issueCause_poison {c : Ctx} {bad : Bool} (h : c.dry ≠ 0 ∨ bad = false) : issueCause c [(bad, excPoison)] = none := by
  cases bad with
  | false => rfl
  | true =>
    have dry : c.dry ≠ 0 := by simpa using h
    simp [issueCause, excPoison, dry]

/-- A cause that is absent is passed over. -/
theorem issueCause_absent (c : Ctx) (k : Nat) (l : List (Bool × Nat)) : issueCause c ((false, k) :: l) = issueCause c l := rfl

theorem tileFrame_stepOn_at {c : Ctx} {pos : Nat} (h : c.pos = pos) (cost : Nat) (s : State) : TileFrame pos s (stepOn c cost s) :=
  h ▸ tileFrame_stepOn c cost s

theorem tileOf_stepOn_at {c : Ctx} {pos : Nat} (h : c.pos = pos) (cost : Nat) (s : State) :
    tileOf (stepOn c cost s) pos = tileAfter c cost (tileOf s pos) :=
  h ▸ tileOf_stepOn c cost s

/-! ## One access of port A (R44 to R48, R56, R57) -/

/-- Where one access alone reaches port A in a tc, it is served; a dry run sends no write to the commons. -/
theorem servePorts_one {x : Item} {b : Nat} (hb : x.bank = some b) (write : x.kind = 1 → x.c.dry = 0) (s : State) :
    servePorts [x] s = serve x s := by
  have first (y : Item) : firstItem s.plat.fuse [y] = some y := rfl
  have same : sameAccess x x = true := by
    unfold sameAccess
    split <;> simp
  have own : serveOwn [x] s = serve x s := by
    have wins : losesA [x] x = false := by simp [losesA, hb]
    simp [serveOwn, wins]
  have cmn : serveCmn b [x] s = serve x s := by
    unfold serveCmn
    rw [first]
    simp only [List.filter_cons, same, Bool.not_true, List.filter_nil, Bool.false_eq_true, if_false, if_true, List.foldl_nil, List.isEmpty_nil]
    split
    · have one : [x].countP (fun y => (bankCheck y.c.glove 0 false b (wordAddr b x.row) s).1 == stOk && decide (x.row < bankWords b)) ≤ 1 :=
        List.countP_le_length
      exact if_pos one
    · split
      · unfold serveWrites
        dsimp only [List.foldl_cons, List.foldl_nil]
        refine if_pos ?_
        cases refused : (bankCheck x.c.glove 0 true b (wordAddr b x.row) s).1 != stOk
        · exact .inr (by simp [refused, first])
        · exact .inl rfl
      · rfl
  have sent : (x.kind == 1 && x.c.dry != 0) = false := by
    by_cases k : x.kind = 1
    · simp [write k]
    · simp [k]
  unfold servePorts
  cases hc : bankIsCmn b
  · simp only [hb, hc, List.filter_cons, List.filter_nil, Bool.false_and, Bool.not_false, if_true, Bool.false_eq_true, if_false]
    exact own
  · simp only [hb, hc, sent, List.filter_cons, List.filter_nil, Bool.true_and, Bool.not_false, Bool.not_true, if_true, Bool.false_eq_true,
      if_false, List.filterMap_cons, List.filterMap_nil]
    rw [show [b].eraseDups = [b] from rfl, List.foldl_cons, List.foldl_nil, if_pos (beq_self_eq_true _)]
    exact cmn

/-- Port A has acted on a word: the word holds what the operation leaves, and the bank knows of the access in this tc (R47). -/
def portAActed (b w : Nat) (op : BOp) (s : State) : State := (portAAct b w op s).2

/-- An access that is served finds the word as it stands, and acts on it. -/
theorem portAOne_served {c : Ctx} {s : State} {b w : Nat} (h : Served s c.glove b w) (op : BOp) :
    portAOne c b w op s = (none, wordAt s b w, portAActed b w op s) := by
  obtain ⟨word, on, mine⟩ := h
  unfold portAOne bankAccess
  rw [if_neg (Nat.not_le.2 word), (bankCheck_spec c.glove 0 op.stores b (wordAddr b w) s).2.2 mine on]
  rfl

/-- A read of port A leaves the bank's accesses alone changed. -/
theorem portAActed_read (b w : Nat) (s : State) : portAActed b w .read s = { s with bank := (portAActed b w .read s).bank } := rfl

/-- A store of port A changes its bytes alone, and leaves beside them the bank's accesses. -/
theorem portAActed_write (b w off : Nat) (d : List Byte) {s : State} (wf : s.memOk) :
    let t := portAActed b w (.write off d) s
    MemKept (wordAddr b w + off) d.length s t ∧ (∀ j, j < d.length → byteAt t (wordAddr b w + off + j) = d.getD j 0) ∧
      t = { s with mem := t.mem, ecc := t.ecc, leaves := t.leaves, bank := t.bank } := by
  obtain ⟨-, kept, bytes, -⟩ := store_spec (wordAddr b w + off) d (setBankAux b { bankAux s b with acc := accsNow s b ++
    [⟨s.frame.boundaries, s.now, w, true, false, loadNat s (wordAddr b w) 64, eccMask s (wordAddr b w)⟩] } s) wf
  exact ⟨kept, bytes, rfl⟩

/-! ## What a read leaves (R45, R397, R409) -/

/-- Uncorrectable lanes set the check latch and raise source 141. -/
def noticed (c : Ctx) (bad : Nat) (s : State) : State := if bad = 0 then s else raise 141 (setLatch c.pos c.lslot s)

theorem readDone_none (c : Ctx) (b w j arg : Nat) (got : List (Nat × Nat)) (d : Nat × Nat) (s : State) :
    readDone c b w j arg got none d (0, 0) s = readOn c b w j arg got d (0, 0) (noticed c d.2 s) := by
  simp [readDone, noticed]

theorem noticed_eq (c : Ctx) (bad : Nat) (s : State) :
    noticed c bad s = { s with tiles := (noticed c bad s).tiles, host := (noticed c bad s).host, out := (noticed c bad s).out } := by
  unfold noticed
  split
  · rfl
  · rw [raise_eq]
    rfl

/-- The check latch stands in the tile's slots. -/
theorem tileOf_setLatch (pos lslot q : Nat) (s : State) :
    tileOf (setLatch pos lslot s) q = { tileOf s q with slots := (tileOf (setLatch pos lslot s) q).slots } := by
  unfold setLatch
  by_cases h : pos = q
  · subst h
    rw [tileOf_adjTile_self]
  · rw [adjTile, tileOf_setTile_other _ _ h]

theorem tileOf_noticed (c : Ctx) (bad q : Nat) (s : State) :
    tileOf (noticed c bad s) q = { tileOf s q with slots := (tileOf (noticed c bad s) q).slots } := by
  unfold noticed
  split
  · rfl
  · rw [tileOf_raise]
    exact tileOf_setLatch c.pos c.lslot q s

/-- The state after a read of port A that is alone in its tc. -/
def readState (s : State) (x : Item) (l : List Item) (b w : Nat) : State :=
  noticed x.c (wordAt s b w).2 (portAActed b w .read (dueState s x l))

theorem afterRead_readState (s : State) (x : Item) (l : List Item) (b w : Nat) :
    AfterRead s x l (wordAt s b w).2 (readState s x l b w) := by
  unfold readState
  refine ⟨?_, fun zero => ?_, fun bad => ?_, fun k => ?_⟩
  · rw [noticed_eq, portAActed_read]
  · rw [noticed, if_pos zero]
    exact ⟨rfl, rfl, rfl⟩
  · rw [noticed, if_neg bad]
    exact irqPending_raise_self _ _
  · exact tileOf_noticed x.c _ k _

/-! ## What comes due later -/

theorem mem_insItem {x y : Item} {l : List Item} (h : y ∈ insItem x l) : y = x ∨ y ∈ l := by
  induction l with
  | nil => exact .inl (List.mem_singleton.1 h)
  | cons z l ih =>
    unfold insItem at h
    split at h
    · exact List.mem_cons.1 h
    · rcases List.mem_cons.1 h with e | e
      · exact .inr (e ▸ List.mem_cons_self)
      · exact (ih e).imp id (List.mem_cons_of_mem _)

/-- An act that follows some tc later leaves a tc in which nothing more is due. -/
theorem later_schedIn {c : Ctx} {d : Nat} {tc : Nat} {s : State} (plan : c.free = false) (hd : 0 < d) (now : s.now = tc) (h : Later tc s)
    (a : Act) : Later tc (schedIn c d a s) := by
  intro y hy
  rcases mem_insItem hy with rfl | hy
  · simp only [plan, Bool.false_eq_true, if_false]
    omega
  · exact h y hy

/-- A lone access of port A, of which nothing more is due in its tc, is all that happens in it. -/
theorem advance_served {s u : State} {x : Item} {l : List Item} {b : Nat} (h : Alone s x l) (hb : x.bank = some b)
    (write : x.kind = 1 → x.c.dry = 0) (e : serve x (dueState s x l) = u) (now : u.now = x.tc) (later : Later x.tc u) :
    advance x.tc s = u := by
  have run : servePorts [x] (dueState s x l) = u := (servePorts_one hb write _).trans e
  rw [advance_port h (by rw [Item.isPort, hb]; rfl) (run ▸ now) (run ▸ later), run]

end Sys2Proof.Machine
end

section
/-! PROOFS. FPU, LD, ST and BR complete (O12). -/

namespace Sys2Proof.Machine

/-! ## FPU (R250) -/

/-- The flag of a tiny result, by a free value (IEEE 754). -/
def tininess (o : FRes) (s : State) : Nat := if o.tiny && bitOf (drawFree s).1.toNat 0 then fpUnderflow else 0

theorem tininess_eq (o : FRes) (s : State) : tininess o s = 0 ∨ (o.tiny = true ∧ tininess o s = fpUnderflow) := by
  unfold tininess
  split
  · rename_i e
    exact .inr ⟨(Bool.and_eq_true_iff.1 e).1, rfl⟩
  · exact .inl rfl

theorem fpu_issued {s : State} {pos tc : Nat} {c : Ctx} {o : FRes} (h : Issues s pos tc 0x32 (bits 36 0) c)
    (clean : c.dry ≠ 0 ∨ readsPoison c (reached s pos tc) (fpuReads c) = false)
    (ho : fpuResult (c.f 52 6) (gGet (tileOf (reached s pos tc) pos) (c.f 42 5)) (gGet (tileOf (reached s pos tc) pos) (c.f 37 5)) = some o) :
    ∃ t u k, exec (.fpu pos tc) s = .next t ∧ (k = 0 ∨ (o.tiny = true ∧ k = fpUnderflow)) ∧
      TileFrame pos { reached s pos tc with freeCtr := (reached s pos tc).freeCtr + ofBool o.tiny } u ∧
      tileOf u pos = tileAfter c 1 (tileOf (reached s pos tc) pos) ∧
      t = issued c [(fpuLatency (c.f 52 6), .land (.g (c.f 47 5) o.bits (readsPoison c (reached s pos tc) (fpuReads c)))),
        (fpuLatency (c.f 52 6), .land (.fpOr (o.flags + k)))] u := by
  obtain ⟨hpos, -, -⟩ := h.spec
  generalize hr : reached s pos tc = r at *
  have cause := issueCause_poison clean
  refine ⟨_, stepOn c 1 { r with freeCtr := r.freeCtr + ofBool o.tiny }, tininess o r, ?_, tininess_eq o r,
    tileFrame_stepOn_at hpos 1 _, tileOf_stepOn_at hpos 1 _, rfl⟩
  change execFpu pos tc s = _
  refine runInstr_issued h ?_
  rw [hr, hpos]
  dsimp only
  rw [ho]
  dsimp only
  rw [cause]
  dsimp only [tininess]
  cases ht : o.tiny
  · rfl
  · rfl

/-! ## LD and ST (R251) -/

theorem bankLag_zero (n : Nat) : bankLag (n == 1) 0 = if n = 1 then 2 else 1 := by
  by_cases h : n = 1 <;> simp [bankLag, h]

theorem ld_issued {s : State} {pos tc : Nat} {c : Ctx} (h : Issues s pos tc 0x33 (bits 18 0) c)
    (cause : issueCause c (memCauses c (reached s pos tc) [c.f 43 5]) = none) :
    let a := addrPlace pos (c.f 56 2 == 1) (memAddr c (tileOf (reached s pos tc) pos))
    ∃ t u, exec (.ld pos tc) s = .next t ∧ t = issued c [(if c.f 56 2 = 1 then 2 else 1, .read a.1 a.2.1 0 [] a.2.2)] u ∧
      tileOf u pos = tileAfter c 1 (tileOf (reached s pos tc) pos) ∧ TileFrame pos (reached s pos tc) u := by
  obtain ⟨hpos, -, -⟩ := h.spec
  refine ⟨_, stepOn c 1 (reached s pos tc), ?_, rfl, tileOf_stepOn_at hpos 1 _, tileFrame_stepOn_at hpos 1 _⟩
  change execLd pos tc s = _
  refine runInstr_issued h ?_
  rw [cause, hpos, ← bankLag_zero]
  rfl

theorem st_issued {s : State} {pos tc : Nat} {c : Ctx} (h : Issues s pos tc 0x34 (bits 18 0 ||| bits 53 53) c)
    (cause : issueCause c (memCauses c (reached s pos tc) [c.f 43 5, c.f 48 5]) = none) :
    let T := tileOf (reached s pos tc) pos
    let a := addrPlace pos (c.f 56 2 == 1) (memAddr c T)
    ∃ t u, exec (.st pos tc) s = .next t ∧ tileOf u pos = tileAfter c 1 T ∧ TileFrame pos (reached s pos tc) u ∧
      t = issued c [(if c.f 56 2 = 1 then 2 else 1, .store a.1 a.2.1 (.write a.2.2 (leBytes (2 ^ c.f 54 2) (gGet T (c.f 48 5)))))] u := by
  obtain ⟨hpos, -, -⟩ := h.spec
  refine ⟨_, stepOn c 1 (reached s pos tc), ?_, tileOf_stepOn_at hpos 1 _, tileFrame_stepOn_at hpos 1 _, rfl⟩
  change execSt pos tc s = _
  refine runInstr_issued h ?_
  rw [cause, hpos, ← bankLag_zero]
  rfl

/-! ## BR (R227, R229, R252, R261) -/

/-- The tile after a branch: at its target, with the loops as they were, or at the next instruction; 3 tc later either way. -/
def branched (c : Ctx) (taken : Bool) (target : Nat) (T : Tile) : Tile :=
  if taken then { tileAfter c 3 T with pc := target, loops := T.loops } else tileAfter c 3 T

theorem branch_spec {c : Ctx} {pos : Nat} (hpos : c.pos = pos) (taken : Bool) (target : Nat) (s : State) :
    TileFrame pos s (branch c taken target s) ∧ tileOf (branch c taken target s) pos = branched c taken target (tileOf s pos) := by
  subst hpos
  unfold branch branched
  cases taken
  · exact ⟨tileFrame_stepOn c 3 s, tileOf_stepOn c 3 s⟩
  · dsimp only
    rw [if_pos rfl, if_pos rfl, tileOf_adjTile_self, tileOf_stepOn]
    exact ⟨(tileFrame_stepOn c 3 s).trans (tileFrame_adjTile _ _ _), rfl⟩

/-- A branch that is always taken reads no register. -/
theorem br_reads {c : Ctx} {s : State} (clean : c.f 54 4 ≠ 0 → c.dry = 0 → readsPoison c s [c.f 49 5, c.f 44 5] = false) :
    c.dry ≠ 0 ∨ readsPoison c s (if c.f 54 4 = 0 then [] else [c.f 49 5, c.f 44 5]) = false := by
  by_cases always : c.f 54 4 = 0
  · exact .inr (by rw [if_pos always]; rfl)
  · rw [if_neg always]
    exact or_iff_not_imp_left.2 fun dry => clean always (by simpa using dry)

theorem br_inPlan {s : State} {pos tc : Nat} {c : Ctx} {taken : Bool} (h : Issues s pos tc 0x35 (bits 31 0) c) (plan : c.free = false) :
    let T := tileOf (reached s pos tc) pos
    brTaken (c.f 54 4) (gGet T (c.f 49 5)) (gGet T (c.f 44 5)) = some taken →
    (c.f 54 4 ≠ 0 → c.dry = 0 → readsPoison c (reached s pos tc) [c.f 49 5, c.f 44 5] = false) → c.f 32 12 ≠ 0 →
    T.pc + 1 + c.f 32 12 < 8192 → (∀ f, T.loops.head? = some f → f.first ≤ T.pc + 1 + c.f 32 12 ∧ T.pc + 1 + c.f 32 12 ≤ f.last) →
    ∃ t, exec (.br pos tc) s = .next t ∧ TileFrame pos (reached s pos tc) t ∧ tileOf t pos = branched c taken (T.pc + 1 + c.f 32 12) T := by
  obtain ⟨hpos, -, -⟩ := h.spec
  generalize hr : reached s pos tc = r
  dsimp only
  generalize hT : tileOf r pos = T
  intro cond clean disp inStore inLoop
  have target : (((T.pc : Int) + 1 + (c.f 32 12 : Int)) % 8192).toNat = T.pc + 1 + c.f 32 12 := by omega
  have ok : targetOk c T (T.pc + 1 + c.f 32 12) = true := by
    unfold targetOk
    cases loops : T.loops with
    | nil => simp [inStore]
    | cons f l =>
      obtain ⟨first, last⟩ := inLoop f (by simp [loops])
      simp [inStore, first, last]
  have near : (!false && ((c.f 32 12 : Int) == 0 || decide (8192 ≤ T.pc + 1 + c.f 32 12) || !true)) = false := by
    simp [disp, Nat.not_le.2 inStore]
  refine ⟨branch c taken (T.pc + 1 + c.f 32 12) r, ?_, hT ▸ branch_spec hpos taken _ r⟩
  change execBr pos tc s = _
  refine (runInstr_inPlan h plan _).trans ?_
  rw [hr, hpos, hT]
  simp only [plan, Bool.false_and, Bool.false_eq_true, if_false]
  rw [cond]
  dsimp only
  rw [target, ok, near, issueCause_absent, issueCause_poison (br_reads clean)]

theorem br_mgmt {s : State} {pos tc : Nat} {c : Ctx} {taken : Bool} (h : Issues s pos tc 0x35 (bits 31 0) c) (free : c.free = true)
    (direct : c.f 54 4 ≠ 8) :
    let T := tileOf (reached s pos tc) pos
    brTaken (c.f 54 4) (gGet T (c.f 49 5)) (gGet T (c.f 44 5)) = some taken →
    (c.f 54 4 ≠ 0 → readsPoison c (reached s pos tc) [c.f 49 5, c.f 44 5] = false) →
    ∃ t u, exec (.br pos tc) s = .next t ∧ t = issued c [] u ∧ TileFrame pos (reached s pos tc) u ∧
      tileOf u pos = branched c taken (((T.pc : Int) + 1 + signed 12 (c.f 32 12)) % 8192).toNat T := by
  obtain ⟨hpos, -, -⟩ := h.spec
  generalize hr : reached s pos tc = r
  dsimp only
  generalize hT : tileOf r pos = T
  intro cond clean
  have direct : (c.f 54 4 == 8) = false := by simp [direct]
  refine ⟨_, branch c taken _ r, ?_, rfl, hT ▸ branch_spec hpos taken _ r⟩
  change execBr pos tc s = _
  refine runInstr_issued h ?_
  rw [hr, hpos, hT]
  simp only [free, direct, Bool.and_false, Bool.not_true, Bool.false_and, Bool.false_eq_true, if_false, if_true]
  rw [cond]
  dsimp only
  rw [issueCause_absent, issueCause_poison (br_reads fun direct _ => clean direct)]
  rfl

theorem br_indirect {s : State} {pos tc : Nat} {c : Ctx} (h : Issues s pos tc 0x35 (bits 31 0) c) (free : c.free = true)
    (indirect : c.f 54 4 = 8) (clean : readsPoison c (reached s pos tc) [c.f 49 5] = false) :
    let T := tileOf (reached s pos tc) pos
    ∃ t u, exec (.br pos tc) s = .next t ∧ t = issued c [] u ∧ TileFrame pos (reached s pos tc) u ∧
      tileOf u pos = branched c true (gGet T (c.f 49 5) % 8192) T := by
  obtain ⟨hpos, -, -⟩ := h.spec
  generalize hr : reached s pos tc = r at *
  dsimp only
  generalize hT : tileOf r pos = T
  have indirect : (c.f 54 4 == 8) = true := by simp [indirect]
  refine ⟨_, branch c true (gGet T (c.f 49 5) % 8192) r, ?_, rfl, hT ▸ branch_spec hpos true _ r⟩
  change execBr pos tc s = _
  refine runInstr_issued h ?_
  rw [hr, hpos, hT]
  simp only [free, indirect, Bool.and_true, Bool.not_true, Bool.false_and, if_true]
  rw [issueCause_absent, issueCause_poison (.inr clean)]
  rfl

/-! ## A read and a store come due (R46, R105, R251) -/

/-- The value that an LD takes from the word that it reads. -/
def ldValue (c : Ctx) (word off : Nat) : Nat :=
  let size := 2 ^ c.f 54 2
  if bitOf c.word 53 then unsigned 64 (signed (8 * size) (fld word (8 * off) (8 * size))) else fld word (8 * off) (8 * size)

theorem readOn_ld {c : Ctx} (ld : c.f 58 6 = 0x33) {off : Nat} (inWord : off < 64) {d : Nat × Nat} (sound : bitOf d.2 (off / 8) = false)
    (b w : Nat) (s : State) :
    readOn c b w 0 off [] d (0, 0) s = schedIn c (if c.f 56 2 = 1 then 3 else 2) (.land (.g (c.f 48 5) (ldValue c d.1 off) false)) s := by
  have cmn : readsCmn c = (c.f 56 2 == 1) := by simp [readsCmn, ld]
  have place : fld off 0 6 = off := by
    rw [fld, Nat.shiftRight_zero]
    exact Nat.mod_eq_of_lt inWord
  have topk : isTopk c = false := by simp [isTopk, ld]
  have one : readCount c (keepWord c [] d) = 1 := by simp [readCount, ld]
  have last (t : State) (late : Nat) (got : List (Nat × Nat)) : lastWord c off late got t = t := by simp [lastWord, ld]
  have used (t : State) (late : Nat) : useWord c 0 off late [] d (0, 0) t =
      schedIn c (if c.f 56 2 = 1 then 3 else 2) (.land (.g (c.f 48 5) (ldValue c d.1 off) false)) t := by
    unfold useWord
    rw [ld]
    dsimp only
    rw [place, sound, cmn]
    simp [ldValue]
  unfold readOn
  simp only [topk, ld, one, used, last, Bool.false_eq_true, false_and, if_false, Nat.reduceEqDiff, Bool.not_true, Nat.zero_add,
    Nat.lt_irrefl]

theorem ld_read {s : State} {x : Item} {l : List Item} {b w off : Nat} (h : Alone s x l) (served : Served s x.c.glove b w)
    (ld : x.c.f 58 6 = 0x33) (act : x.act = .read b w 0 [] off) (inWord : off < 64)
    (sound : bitOf (wordAt s b w).2 (off / 8) = false) :
    advance x.tc s = dueIn x.c [(if x.c.f 56 2 = 1 then 3 else 2, .land (.g (x.c.f 48 5) (ldValue x.c (wordAt s b w).1 off) false))]
      (readState s x l b w) := by
  have frame := (afterRead_readState s x l b w).1
  have done : serve x (dueState s x l) = schedIn x.c (if x.c.f 56 2 = 1 then 3 else 2)
      (.land (.g (x.c.f 48 5) (ldValue x.c (wordAt s b w).1 off) false)) (readState s x l b w) := by
    have one : portAOne x.c b w .read (dueState s x l) = (none, wordAt s b w, portAActed b w .read (dueState s x l)) :=
      portAOne_served (s := dueState s x l) served .read
    unfold serve
    rw [act]
    dsimp only
    rw [one]
    dsimp only
    rw [if_neg (by simp [ld]), readDone_none, readOn_ld ld inWord sound]
    rfl
  have ⟨_, _, later, _, plan⟩ := h
  refine advance_served h (by rw [Item.bank, act]) (by simp [Item.kind, act]) done ?_ (later_schedIn plan ?_ ?_ ?_ _)
  · change (readState s x l b w).now = x.tc
    rw [frame]
    rfl
  · split <;> omega
  · rw [frame]
    rfl
  · rw [frame]
    exact later

theorem serve_store {x : Item} {b w off : Nat} {d : List Byte} {s : State} (act : x.act = .store b w (.write off d)) (dry : x.c.dry = 0)
    (served : Served s x.c.glove b w) : serve x s = portAActed b w (.write off d) s := by
  unfold serve
  rw [act]
  dsimp only
  rw [if_neg (not_not.2 dry), portAOne_served served]

theorem st_stored {s : State} {x : Item} {l : List Item} {b w off : Nat} {d : List Byte} (h : Alone s x l)
    (served : Served s x.c.glove b w) (act : x.act = .store b w (.write off d)) (dry : x.c.dry = 0) :
    advance x.tc s = portAActed b w (.write off d) (dueState s x l) :=
  have ⟨_, _, later, _, _⟩ := h
  advance_served h (by rw [Item.bank, act]) (fun _ => dry) (serve_store act dry served) rfl later

/-! ## The obligation -/

/-- Settles O12: each instruction by its issue, then a read and a store of port A that are alone in their tc. -/
theorem floatLoadStoreAndBranchComplete : Obligations.FloatLoadStoreAndBranchComplete := by
  unfold Obligations.FloatLoadStoreAndBranchComplete
  refine ⟨fun s pos tc c => ⟨fun o h clean ho => fpu_issued h clean ho, fun h cause => ld_issued h cause, fun h cause => st_issued h cause,
    fun taken h plan cond clean disp inStore inLoop => br_inPlan h plan cond clean disp inStore inLoop,
    fun taken h free direct cond clean => br_mgmt h free direct cond clean, fun h free indirect clean => br_indirect h free indirect clean⟩,
    fun s x l b w h served => ⟨fun off ld act inWord sound => ?_, fun off d act dry wf => ?_⟩⟩
  · exact ⟨_, afterRead_readState s x l b w, ld_read h served ld act inWord sound⟩
  · dsimp only
    rw [st_stored h served act dry]
    exact portAActed_write b w off d (s := dueState s x l) wf

end Sys2Proof.Machine
end

section
/-! PROOFS. What the rest of a tc leaves of memory, of the count of queued requests and of what comes later, where one read of port A and
what follows from it at once are all that is due (R57). -/

namespace Sys2Proof.Machine

/-! ## The relation -/

/-- The acts of a read's instruction that may be due in the tc of the read: a check, an exception, a register that lands. -/
def Act.prompt : Act → Bool
  | .check _ _ => true
  | .exc _ => true
  | .land _ => true
  | _ => false

/-- Whether a register may be COMMONS_QUEUED of a cluster (R57): no other register of a tile or of a commons has its offset. -/
def queuedPlace (a : Nat) : Bool := a % 0x100000 == 0xF0018

/-- From s to t an instruction has changed no memory and no count of queued requests, the tc is the same, what other tiles have under
way for later is still under way, and what is new comes later or is a prompt act of the instruction. -/
structure Calm (c : Ctx) (s t : State) : Prop where
  mem : t.mem = s.mem
  now : t.now = s.now
  queued : ∀ a, queuedPlace a = true → kget t.win a = kget s.win a
  kept : ∀ z ∈ s.agenda, s.now < z.tc → z.c.pos ≠ c.pos → z ∈ t.agenda
  fresh : ∀ z ∈ t.agenda, z ∈ s.agenda ∨ s.now < z.tc ∨ (z.c = c ∧ z.act.prompt = true)

variable {c : Ctx} {s₀ s t : State}

theorem Calm.refl (c : Ctx) (s : State) : Calm c s s := ⟨rfl, rfl, fun _ _ => rfl, fun _ h _ _ => h, fun _ h => .inl h⟩

theorem Calm.trans {u : State} (h1 : Calm c s t) (h2 : Calm c t u) : Calm c s u where
  mem := h2.mem.trans h1.mem
  now := h2.now.trans h1.now
  queued a ha := (h2.queued a ha).trans (h1.queued a ha)
  kept z hz later other := h2.kept z (h1.kept z hz later other) (h1.now.symm ▸ later) other
  fresh z hz := by
    rcases h2.fresh z hz with old | later | mine
    · exact h1.fresh z old
    · exact .inr (.inl (h1.now ▸ later))
    · exact .inr (.inr mine)

/-- An update of other fields. -/
theorem Calm.same (h : Calm c s₀ s) (e : (t.mem, t.now, t.win, t.agenda) = (s.mem, s.now, s.win, s.agenda)) : Calm c s₀ t := by
  simp only [Prod.mk.injEq] at e
  obtain ⟨mem, now, win, agenda⟩ := e
  exact h.trans ⟨mem, now, fun _ _ => by rw [win], fun _ hz _ _ => agenda ▸ hz, fun _ hz => .inl (agenda ▸ hz)⟩

theorem Calm.ite {p : Prop} [Decidable p] (h1 : Calm c s₀ s) (h2 : Calm c s₀ t) : Calm c s₀ (if p then s else t) := by
  split <;> assumption

theorem Calm.foldl {α : Type} {f : State → α → State} {l : List α} (step : ∀ t, ∀ x ∈ l, Calm c s₀ t → Calm c s₀ (f t x))
    (h : Calm c s₀ s) : Calm c s₀ (l.foldl f s) := by
  induction l generalizing s with
  | nil => exact h
  | cons x l ih => exact ih (fun t y hy => step t y (List.mem_cons_of_mem x hy)) (step s x List.mem_cons_self h)

theorem Calm.snd {α : Type} {p : α × State} {x : α} (e : p = (x, t)) (h : Calm c s₀ p.2) : Calm c s₀ t := by
  rw [e] at h
  exact h

/-! ## Registers, entries, records, interrupts -/

theorem regHome_place (a : Nat) : regHome a % 0x100000 = a % 0x100000 := by
  unfold regHome tileBase
  split
  · omega
  · split <;> omega

/-- A register at another offset is no count of queued requests. -/
theorem Calm.winSet {a v : Nat} (h : Calm c s₀ s) (place : queuedPlace a = false) : Calm c s₀ (winSet s a v) := by
  refine h.trans ⟨rfl, rfl, fun b hb => ?_, fun _ hz _ _ => hz, fun _ hz => .inl hz⟩
  refine kget_kput_other _ _ fun e => ?_
  rw [← e, queuedPlace, regHome_place] at hb
  exact Bool.false_ne_true (place.symm.trans hb)

theorem queuedPlace_tile (p : Nat) {off : Nat} (h : off < 0x100000) (h2 : off ≠ 0xF0018) : queuedPlace (tileBase p + off) = false := by
  simp only [queuedPlace, beq_eq_false_iff_ne, tileBase]
  omega

theorem queuedPlace_cmn (cl : Nat) {off : Nat} (h : off % 0x100000 ≠ 0xF0018) : queuedPlace (cmnBase cl + off) = false := by
  simp only [queuedPlace, beq_eq_false_iff_ne, cmnBase]
  omega

theorem Calm.winTile (p off : Nat) {v : Nat} (h : Calm c s₀ s) (ho : off < 0x100000 ∧ off ≠ 0xF0018) :
    Calm c s₀ (Machine.winSet s (tileBase p + off) v) :=
  h.winSet (queuedPlace_tile p ho.1 ho.2)

theorem Calm.odSet {i j v : Nat} (h : Calm c s₀ s) : Calm c s₀ (odSet s i j v) := .same h rfl
theorem Calm.odBump {i j w d : Nat} (h : Calm c s₀ s) : Calm c s₀ (odBump s i j w d) := .same h rfl
theorem Calm.drawFree (h : Calm c s₀ s) : Calm c s₀ (drawFree s).2 := .same h rfl
theorem Calm.raise {n : Nat} (h : Calm c s₀ s) : Calm c s₀ (raise n s) := .same h (by simp)

theorem Calm.vc3Take {pos : Nat} {e : Vc3Ent} (h : Calm c s₀ s) : Calm c s₀ (vc3Take pos e s) :=
  have held (m : KMap (List Vc3Ent)) : Calm c s₀ { s with vc3Held := m } := .same h rfl
  .ite (.odBump ((held _).winTile pos 0xFE010 (by decide))) ((held _).winTile pos 0xFE010 (by decide))

theorem Calm.report {pos code unit sub glove : Nat} {detail : List Byte} (h : Calm c s₀ s) :
    Calm c s₀ (report pos code unit sub glove detail s) :=
  .ite (.vc3Take h) (.same h rfl)

theorem Calm.reject {g a len source reason unit : Nat} (h : Calm c s₀ s) : Calm c s₀ (reject g a len source reason unit s) :=
  .raise (.report (.odSet (.odBump h)))

/-! ## Banks -/

theorem Calm.stateFault {g port : Nat} {write : Bool} {b addr : Nat} (h : Calm c s₀ s) : Calm c s₀ (stateFault g port write b addr s) := by
  have cmn {v : Nat} {t : State} (k : Calm c s₀ t) : Calm c s₀ (Machine.winSet t (cmnBase (bankCluster b) + 0xFF0008) v) :=
    k.winSet (queuedPlace_cmn _ (by decide))
  have tile {v : Nat} {t : State} (k : Calm c s₀ t) : Calm c s₀ (Machine.winSet t (tileBase (b / 4) + 0xF0008) v) :=
    k.winTile _ 0xF0008 (by decide)
  refine .raise (.ite (cmn (cmn (cmn (cmn (cmn h))))) ?_)
  exact (tile (tile (tile (tile (tile h))))).winTile (b / 4) 0xF000C (by decide)

theorem Calm.ownerReject {g port b addr : Nat} (h : Calm c s₀ s) : Calm c s₀ (ownerReject g port b addr s) :=
  .report (.ite (.odBump h) (.odBump h))

theorem Calm.bankCheck {g port : Nat} {write : Bool} {b addr : Nat} (h : Calm c s₀ s) : Calm c s₀ (bankCheck g port write b addr s).2 := by
  unfold Machine.bankCheck
  split
  · exact .ownerReject h
  · split
    · exact .stateFault h
    · exact h

theorem Calm.portARead {b w : Nat} (h : Calm c s₀ s) : Calm c s₀ (portAOne c b w .read s).2.2 := by
  have checked : Calm c s₀ (Machine.bankCheck c.glove 0 false b (wordAddr b w) s).2 := .bankCheck h
  have read : Calm c s₀ (bankAccess 0 c.glove b w .read s).2 := by
    unfold bankAccess
    dsimp only [BOp.stores]
    split
    · exact checked
    · exact .same checked rfl
  unfold portAOne
  split
  · exact h
  · dsimp only
    split <;> exact read

/-! ## Tiles -/

theorem Calm.adjTile {pos : Nat} {f : Tile → Tile} (h : Calm c s₀ s) : Calm c s₀ (adjTile pos f s) := .same h rfl
theorem Calm.setLatch {pos i : Nat} (h : Calm c s₀ s) : Calm c s₀ (setLatch pos i s) := .adjTile h
theorem Calm.queueFlits {pos : Nat} {l : List VcFlit} (h : Calm c s₀ s) : Calm c s₀ (queueFlits pos l s) := .adjTile h

theorem Calm.queueMessage {d : Ctx} {vc : Nat} {m : MsgHead} {hdrBad : Bool} {words : List (Nat × Nat)} (h : Calm c s₀ s) :
    Calm c s₀ (queueMessage d vc m hdrBad words s) := by
  unfold Machine.queueMessage
  extract_lets f put r
  split
  · exact .foldl (fun _ _ _ k => .foldl (fun _ _ _ k => .reject k) k) (.queueFlits h)
  · split
    · exact .queueFlits h
    · exact .queueFlits h
    · exact .reject (.ite h (.queueFlits h))

theorem Calm.sendmEnd {d : Ctx} {got : List (Nat × Nat)} {whole : Bool} (h : Calm c s₀ s) : Calm c s₀ (sendmEnd d got whole s) := by
  unfold Machine.sendmEnd
  split
  · exact h
  · exact .ite h (.queueMessage h)

/-! ## Acts under way -/

theorem mem_insItem_iff {x y : Item} {l : List Item} : y ∈ insItem x l ↔ y = x ∨ y ∈ l := by
  refine ⟨mem_insItem, fun h => ?_⟩
  induction l with
  | nil => exact h.elim (fun e => e ▸ List.mem_singleton_self x) (fun e => absurd e List.not_mem_nil)
  | cons z l ih =>
    unfold insItem
    split
    · exact List.mem_cons.2 h
    · rcases h with e | e
      · exact List.mem_cons_of_mem z (ih (.inl e))
      · rcases List.mem_cons.1 e with e | e
        · exact e ▸ List.mem_cons_self
        · exact List.mem_cons_of_mem z (ih (.inr e))

theorem Calm.putItem {x : Item} (h : Calm c s₀ s) (hx : s.now < x.tc ∨ (x.c = c ∧ x.act.prompt = true)) : Calm c s₀ (putItem x s) := by
  refine h.trans ⟨rfl, rfl, fun _ _ => rfl, fun z hz _ _ => mem_insItem_iff.2 (.inr hz), fun z hz => ?_⟩
  rcases mem_insItem hz with rfl | hz
  · exact .inr hx
  · exact .inl hz

/-- A prompt act, whenever it comes. -/
theorem Calm.soon {d : Nat} {a : Act} (h : Calm c s₀ s) (ha : a.prompt = true) : Calm c s₀ (sched c d a s) := h.putItem (.inr ⟨rfl, ha⟩)
theorem Calm.soonIn {d : Nat} {a : Act} (h : Calm c s₀ s) (ha : a.prompt = true) : Calm c s₀ (schedIn c d a s) := h.putItem (.inr ⟨rfl, ha⟩)

/-- The rest of an instruction does not happen. -/
theorem Calm.cancel (h : Calm c s₀ s) : Calm c s₀ (cancel c s) := by
  refine h.trans ⟨rfl, rfl, fun _ _ => rfl, fun z hz _ other => List.mem_filter.2 ⟨hz, ?_⟩, fun z hz => .inl (List.mem_filter.1 hz).1⟩
  simp [Item.of, other]

theorem Calm.sendmHead {room : Nat} {x : Nat × Nat} (h : Calm c s₀ s) : Calm c s₀ (sendmHead c room x s).2 := by
  unfold Machine.sendmHead
  extract_lets m relaxed
  split
  · exact .soonIn (a := .exc excOperand) h rfl
  · split
    · exact .report (h.winTile c.pos 0xF2018 (by decide))
    · exact h

section Later

variable (plan : c.free = false)
include plan

/-- An act that comes later. -/
theorem Calm.schedAt {tc : Nat} {a : Act} (h : Calm c s₀ s) (later : s.now < tc) : Calm c s₀ (schedAt c tc a s) :=
  h.putItem (.inl (by simpa [plan] using later))

theorem Calm.schedIn {d : Nat} {a : Act} (h : Calm c s₀ s) (hd : 0 < d) : Calm c s₀ (schedIn c d a s) := .schedAt plan h (by omega)

theorem Calm.fwdWord {d : Nat} {x : Nat × Nat} (h : Calm c s₀ s) (hd : 0 < d) : Calm c s₀ (fwdWord c d x s) :=
  .ite (.schedIn plan (.drawFree h) hd) h

theorem Calm.lacWord {j : Nat} {before : Option (Nat × Nat)} {x y : Nat × Nat} (h : Calm c s₀ s) :
    Calm c s₀ (lacWord c j before x y s) := by
  unfold Machine.lacWord
  extract_lets l lag s1
  have hl : 0 < lag := by
    dsimp only [lag]
    split <;> omega
  have h1 : Calm c s₀ s1 := .fwdWord plan h hl
  refine .ite (.schedIn plan (.fwdWord plan (.fwdWord plan h (by omega)) (by omega)) (by omega)) (.ite (.schedIn plan h1 hl) ?_)
  split
  · exact .ite (.schedIn plan h1 hl) h1
  · exact h1

theorem Calm.putOut {d b w tag x : Nat} (h : Calm c s₀ s) (hd : 0 < d) : Calm c s₀ (putOut c d b w tag x s) :=
  .ite (.schedIn plan h hd) (.schedIn plan h hd)

theorem Calm.statAt {tc tag : Nat} {lanes : List Nat} (h : Calm c s₀ s) (later : s.now < tc) : Calm c s₀ (statAt c tc tag lanes s) := by
  unfold Machine.statAt
  split
  · exact h
  · exact .ite h (.ite (.ite h (.schedAt plan h (by omega))) (.schedAt plan h later))

theorem Calm.topkOut {d0 d1 sat : Nat} {cands : List Nat} (h : Calm c s₀ s) : Calm c s₀ (topkOut c d0 d1 sat cands s) := by
  unfold Machine.topkOut
  extract_lets ws
  split
  rename_i b w _
  extract_lets s1
  have h1 : Calm c s s1 := .foldl (fun _ _ _ k => .putOut plan k (by omega)) (.refl c s)
  exact .statAt plan (h.trans h1) (by rw [h1.now]; omega)

theorem Calm.useWord {j arg late : Nat} {got : List (Nat × Nat)} {x y : Nat × Nat} (h : Calm c s₀ s) :
    Calm c s₀ (useWord c j arg late got x y s) := by
  have lag (p : Bool) (m n : Nat) (hm : 0 < m) (hn : 0 < n) : 0 < (if p then m else n) := by split <;> assumption
  unfold Machine.useWord
  dsimp only
  split
  · exact .schedIn plan h (lag _ _ _ (by omega) (by omega))
  · exact .foldl (fun _ _ _ k => .soonIn k rfl) h
  · exact .lacWord plan h
  · exact .schedIn plan h (lag _ _ _ (by omega) (by omega))
  · exact .soonIn h rfl
  · exact .ite (.soon h rfl) (.soonIn h rfl)
  · exact h

theorem Calm.lastWord {arg late : Nat} {got : List (Nat × Nat)} (h : Calm c s₀ s) : Calm c s₀ (lastWord c arg late got s) := by
  unfold Machine.lastWord
  split
  · exact .sendmEnd h
  · exact .topkOut plan h
  · exact .soon h rfl
  · exact .soon h rfl
  · exact h

theorem Calm.readOn {b w j arg : Nat} {got : List (Nat × Nat)} {x y : Nat × Nat} (h : Calm c s₀ s) :
    Calm c s₀ (readOn c b w j arg got x y s) := by
  unfold Machine.readOn
  extract_lets late
  refine .ite (.soonIn h rfl) ?_
  split
  rename_i ok s1 eq
  have h1 : Calm c s₀ s1 := by
    refine .snd eq ?_
    split
    · exact .sendmHead h
    · exact h
  exact .ite h1 (.ite (.schedIn plan (.useWord plan h1) (by omega)) (.lastWord plan (.useWord plan h1)))

theorem Calm.readDone {b w j arg : Nat} {got : List (Nat × Nat)} {cause : Option Nat} {x y : Nat × Nat} (h : Calm c s₀ s) :
    Calm c s₀ (readDone c b w j arg got cause x y s) := by
  unfold Machine.readDone
  split
  · exact .ite (.readOn plan h) (.soonIn (.ite (.sendmEnd h) h) rfl)
  · exact .readOn plan (.ite h (.raise (.setLatch h)))

end Later

/-- A read of port A, and what its word leads to. -/
theorem Calm.serveRead {x : Item} {b w j arg : Nat} {got : List (Nat × Nat)} (plan : x.c.free = false) (act : x.act = .read b w j got arg)
    (h : Calm x.c s₀ s) : Calm x.c s₀ (serve x s) := by
  have port {b w : Nat} {t : State} (k : Calm x.c s₀ t) : Calm x.c s₀ (portAOne x.c b w .read t).2.2 := .portARead k
  unfold serve
  rw [act]
  dsimp only
  exact .ite (.readDone plan (port (port h))) (.readDone plan (port h))

/-! ## Prompt acts -/

theorem Calm.vtFault {bit : Nat} (h : Calm c s₀ s) : Calm c s₀ (vtFault c bit s) := h.winTile c.pos 0xF1000 (by decide)

theorem Calm.countDraws {n : Nat} (h : Calm c s₀ s) : Calm c s₀ (countDraws c n s) :=
  (h.winTile c.pos 0xF1004 (by decide)).winTile c.pos 0xF1008 (by decide)

theorem Calm.romCheck {lg : Bool} {reads : List Nat} (h : Calm c s₀ s) : Calm c s₀ (romCheck c lg reads s) := by
  unfold Machine.romCheck
  split
  · exact h
  · exact .report (.drawFree (.setLatch (.vtFault h)))

theorem Calm.catsNow {got : List (Nat × Nat)} {delay : Nat} (h : Calm c s₀ s) : Calm c s₀ (catsNow c got delay s) := by
  have count {v : Nat} {t : State} (k : Calm c s₀ t) : Calm c s₀ (Machine.winSet t (tileBase c.pos + 0xF100C) v) :=
    k.winTile c.pos 0xF100C (by decide)
  unfold Machine.catsNow
  dsimp only
  have h0 : Calm c s₀ (if (got.drop 1).any fun w => w.2 != 0 then Machine.vtFault c 2 s else s) := .ite (.vtFault h) h
  refine .ite (.soonIn h0 rfl) ?_
  split
  · exact .soonIn (.vtFault h0) rfl
  · exact .romCheck (.soon (count (count (.countDraws h0))) rfl)

theorem Calm.qldNow {got : List (Nat × Nat)} {delay : Nat} (h : Calm c s₀ s) : Calm c s₀ (qldNow c got delay s) :=
  .ite (.soonIn h rfl) (.ite (.soonIn h rfl) (.soon h rfl))

theorem Calm.excRecord {cause : Nat} (h : Calm c s₀ s) : Calm c s₀ (excRecord c cause s) :=
  .report (.ite h (((h.winTile c.pos 0xF2000 (by decide)).winTile c.pos 0xF2004 (by decide)).winTile c.pos 0xF2008 (by decide)))

theorem Calm.takeExc {cause : Nat} (h : Calm c s₀ s) : Calm c s₀ (takeExc c cause s) := by
  have recorded : Calm c s₀ (Machine.cancel c (Machine.excRecord c cause s)) := .cancel (.excRecord h)
  have noted : Calm c s₀ (noteFault c cause (Machine.cancel c (Machine.excRecord c cause s))) := .ite recorded (.same recorded rfl)
  have dry : Calm c s₀ (setDry c.pos c.lslot 2 (noteFault c cause (Machine.cancel c (Machine.excRecord c cause s)))) := .same noted rfl
  exact .ite h (.ite recorded (.setLatch dry))

theorem Calm.landNow {r : Landing} (h : Calm c s₀ s) : Calm c s₀ (landNow c r s) := .same h rfl

/-! ## The rest of the tc -/

/-- All that is under way comes later than the present tc, but for prompt acts of an instruction of a tile. -/
def Ready (c : Ctx) (s : State) : Prop := ∀ z ∈ s.agenda, s.now < z.tc ∨ (z.c = c ∧ z.act.prompt = true)

theorem Calm.ready (h : Calm c s t) (r : Ready c s) : Ready c t := by
  intro z hz
  rw [h.now]
  rcases h.fresh z hz with old | new
  · exact r z old
  · exact new

theorem Calm.due {p : Item → Bool} (h : Calm c s₀ s) : Calm c s₀ (due s.now p s).2 := by
  refine h.trans ⟨rfl, rfl, fun _ _ => rfl, fun z hz later _ => List.mem_filter.2 ⟨hz, ?_⟩, fun z hz => .inl (List.mem_filter.1 hz).1⟩
  simp [Nat.not_le.2 later]

/-- What is due is prompt. -/
theorem Ready.due {p : Item → Bool} (r : Ready c s) {z : Item} (hz : z ∈ (due s.now p s).1) : z.c = c ∧ z.act.prompt = true ∧ p z = true := by
  obtain ⟨mem, test⟩ := List.mem_filter.1 hz
  obtain ⟨now, pz⟩ := Bool.and_eq_true_iff.1 test
  rcases r z mem with later | ⟨mine, prompt⟩
  · exact absurd (of_decide_eq_true now) (Nat.not_le.2 later)
  · exact ⟨mine, prompt, pz⟩

/-- A phase of the tc, in which only prompt acts are performed. -/
theorem Ready.performAll {p : Item → Bool} {f : Item → State → State} (r : Ready c s)
    (step : ∀ z u, z.c = c → z.act.prompt = true → p z = true → Calm c s u → Calm c s (f z u)) : Calm c s (performAll s.now p f s) := by
  refine .foldl (fun u z hz k => ?_) (Calm.refl c s).due
  obtain ⟨mine, prompt, pz⟩ := r.due hz
  exact step z u mine prompt pz k

theorem Calm.perform {z : Item} (h : Calm z.c s₀ s) (prompt : z.act.prompt = true) : Calm z.c s₀ (perform z s) := by
  unfold Machine.perform
  cases act : z.act with
  | land => exact .landNow h
  | check => exact h
  | exc => exact h
  | _ => rw [act] at prompt; exact absurd prompt (by simp [Act.prompt])

theorem Ready.takeDue (r : Ready c s) : Calm c s (takeDue s.now s) := by
  refine .foldl (fun u z hz k => ?_) (Calm.refl c s).due
  obtain ⟨mine, -⟩ := r.due ((sortBy_perm _ _).mem_iff.1 hz)
  exact mine ▸ .takeExc (mine ▸ k)

/-- What a tc does after its accesses. -/
def afterPorts (tc : Nat) (s : State) : State :=
  let s2 := performAll tc Item.isRows (fun x t => match x.act with
    | .rows r => rowsNow x.c r t
    | _ => t) s
  let s3 := performAll tc Item.isCheck (fun x t => match x.act with
    | .check got late => if x.c.f 58 6 = 0x26 then catsNow x.c got late t else qldNow x.c got late t
    | _ => t) s2
  (List.range 7).foldl (fun t k => performAll tc (fun x => !x.isPort && !x.isRows && !x.isCheck && x.order == k) perform t) (takeDue tc s3)

theorem runTc_eq (tc : Nat) (s : State) :
    runTc tc s = afterPorts tc (servePorts (due tc Item.isPort (performAll tc Item.isHeld perform { s with now := tc })).1
      (due tc Item.isPort (performAll tc Item.isHeld perform { s with now := tc })).2) := rfl

theorem Ready.afterPorts (r : Ready c s) : Calm c s (afterPorts s.now s) := by
  unfold Machine.afterPorts
  extract_lets s2 s3
  have h2 : Calm c s s2 := r.performAll fun z u _ prompt rows _ => by
    unfold Item.isRows at rows
    split at rows
    · rename_i act
      rw [act] at prompt
      exact absurd prompt (by simp [Act.prompt])
    · exact absurd rows (by simp)
  have h3 : Calm c s2 s3 := by
    dsimp only [s3]
    rw [← h2.now]
    refine (h2.ready r).performAll fun z u mine _ _ k => ?_
    subst mine
    split
    · exact .ite (.catsNow k) (.qldNow k)
    · exact k
  have h3 := h2.trans h3
  have h4 : Calm c s (Machine.takeDue s.now s3) := h3.trans (h3.now ▸ (h3.ready r).takeDue)
  refine .foldl (fun u k _ h => ?_) h4
  have change : Calm c u (Machine.performAll u.now (fun x => !x.isPort && !x.isRows && !x.isCheck && x.order == k) Machine.perform u) :=
    (h.ready r).performAll fun z v mine prompt _ hv => mine ▸ .perform (mine ▸ hv) prompt
  exact h.trans (h.now ▸ change)

/-- A tc in which only prompt acts are due. -/
theorem Ready.runTc (r : Ready c s) : Calm c s (runTc s.now s) := by
  have held : Calm c s (Machine.performAll s.now Item.isHeld Machine.perform s) :=
    r.performAll fun z v mine prompt _ k => mine ▸ .perform (mine ▸ k) prompt
  rw [runTc_eq, show ({ s with now := s.now } : State) = s from rfl]
  generalize Machine.performAll s.now Item.isHeld Machine.perform s = u at *
  have ready := held.ready r
  rw [← held.now]
  have none : (Machine.due u.now Item.isPort u).1 = [] := List.eq_nil_iff_forall_not_mem.2 fun z hz => by
    obtain ⟨-, prompt, port⟩ := ready.due hz
    cases act : z.act <;> simp [Act.prompt, Item.isPort, Item.bank, act] at prompt port
  rw [none, servePorts_nil]
  have taken : Calm c u (Machine.due u.now Item.isPort u).2 := (Calm.refl c u).due
  have rest := (taken.ready ready).afterPorts
  rw [taken.now] at rest
  exact held.trans (taken.trans rest)

theorem Ready.runTo (r : Ready c s) (n : Nat) : Calm c s (runTo s.now n s) := by
  induction n generalizing s with
  | zero => exact .refl c s
  | succ n ih =>
    unfold Machine.runTo
    split
    · exact .refl c s
    · rename_i x l _
      split
      · exact .refl c s
      · rename_i due
        rw [Nat.max_eq_left (Nat.not_lt.1 due)]
        have rest := ih (r.runTc.ready r)
        rw [r.runTc.now] at rest
        exact r.runTc.trans rest

end Sys2Proof.Machine
end

section
/-! PROOFS. Bytes and marks of a word, and an add to its lanes (R45, R48). -/

namespace Sys2Proof.Machine

/-! ## An add to the lanes of a word (R48) -/

theorem leNat_leBytes (n x : Nat) : leNat (leBytes n x) = x % 256 ^ n := by
  induction n generalizing x with
  | zero => simp [leBytes, leNat, Nat.mod_one]
  | succ n ih =>
    have split : x % 256 ^ (n + 1) = x % 256 + 256 * (x / 256 % 256 ^ n) := by rw [Nat.pow_succ', Nat.mod_mul]
    rw [leBytes, leNat, ih, BitVec.toNat_ofNat, split]

theorem memBytes_congr {m m' : Memory} {a n : Nat} (h : ∀ j, j < n → memRead m' (a + j) = memRead m (a + j)) :
    memBytes m' a n = memBytes m a n := by
  induction n generalizing a with
  | zero => rfl
  | succ n ih =>
    rw [memBytes, memBytes, show memRead m' a = memRead m a from h 0 (Nat.succ_pos n)]
    refine congrArg _ (ih fun j hj => ?_)
    have e := h (j + 1) (by omega)
    rwa [Nat.add_right_comm, Nat.add_assoc]

/-- The bits of a mask that is built bit by bit. -/
theorem testBit_mask (p : Nat → Bool) (n : Nat) :
    (List.range n).foldl (fun m i => if p i then m + 2 ^ i else m) 0 < 2 ^ n ∧
      ∀ j, ((List.range n).foldl (fun m i => if p i then m + 2 ^ i else m) 0).testBit j = (decide (j < n) && p j) := by
  induction n with
  | zero => simp
  | succ n ih =>
    obtain ⟨bound, bits⟩ := ih
    rw [List.range_succ, List.foldl_append, List.foldl_cons, List.foldl_nil]
    generalize (List.range n).foldl (fun m i => if p i then m + 2 ^ i else m) 0 = m at *
    have double : 2 ^ (n + 1) = 2 ^ n + 2 ^ n := by omega
    by_cases set : p n = true
    · rw [if_pos set]
      refine ⟨by omega, fun j => ?_⟩
      rw [Nat.add_comm, ← Nat.mul_one (2 ^ n), Nat.testBit_two_pow_mul_add 1 bound]
      rcases Nat.lt_trichotomy j n with lt | rfl | gt
      · simp [lt, bits j, Nat.lt_succ_of_lt lt]
      · simp [set]
      · have h1 : ¬ j < n := by omega
        have h2 : ¬ j < n + 1 := by omega
        have h3 : Nat.testBit 1 (j - n) = false := Nat.testBit_lt_two_pow (Nat.one_lt_two_pow (by omega))
        simp [h1, h2, h3]
    · rw [if_neg set]
      refine ⟨by omega, fun j => ?_⟩
      rw [bits j]
      rcases Nat.lt_trichotomy j n with lt | rfl | gt
      · simp [lt, Nat.lt_succ_of_lt lt]
      · simpa using set
      · have h1 : ¬ j < n := by omega
        have h2 : ¬ j < n + 1 := by omega
        simp [h1, h2]

theorem bitOf_eccMask {j : Nat} (h : j < 8) (s : State) (a : Nat) : bitOf (eccMask s a) j = (kget s.ecc (a / 8 + j) == some .double) := by
  have bits := (testBit_mask (fun i => kget s.ecc (a / 8 + i) == some .double) 8).2 j
  rw [bitOf, eccMask, bits]
  simp [h]

/-- What a table reads at a key does not depend on lower keys. -/
theorem kget_filter_above {α : Type} (m : KMap α) {f : Nat × α → Bool} {k : Nat} (h : ∀ p ∈ m, f p = false → p.1 < k) :
    kget (m.filter f) k = kget m k := by
  induction m with
  | nil => rfl
  | cons p m ih =>
    obtain ⟨a, x⟩ := p
    have ih := ih fun q hq => h q (List.mem_cons_of_mem _ hq)
    cases keep : f (a, x)
    · have low := h (a, x) List.mem_cons_self keep
      have h1 : a ≠ k := by simpa using low.ne
      have h2 : ¬ k < a := by simpa using low.le
      simp [keep, kget, h1, h2, ih]
    · simp [keep, kget, ih]

/-- A store of one lane leaves the marks of the lanes above it. -/
theorem kget_ecc_store {a i j : Nat} {d : List Byte} (aligned : a % 8 = 0) (len : d.length = 8) (h : i < j) (s : State) :
    kget (store (a + 8 * i) d s).ecc (a / 8 + j) = kget s.ecc (a / 8 + j) := by
  refine kget_filter_above _ fun p _ gone => ?_
  simp only [len, Bool.not_eq_false', Bool.or_eq_true, Bool.and_eq_true, decide_eq_true_eq] at gone
  omega

/-- The first n lanes of a word have been added to, except those that are uncorrectable. -/
structure Added (a mask data n : Nat) (s t : State) : Prop where
  wf : t.memOk
  frame : t = { s with mem := t.mem, ecc := t.ecc, leaves := t.leaves }
  kept : MemKept a (8 * n) s t
  marks : ∀ j, n ≤ j → kget t.ecc (a / 8 + j) = kget s.ecc (a / 8 + j)
  lanes : ∀ j, j < n → loadNat t (a + 8 * j) 8 =
    if bitOf mask j && !bitOf (eccMask s a) j then (loadNat s (a + 8 * j) 8 + lane data j) % 2 ^ 64 else loadNat s (a + 8 * j) 8

theorem loadNat_kept {a n b : Nat} {s t : State} (h : MemKept a n s t) (out : b + 8 ≤ a ∨ a + n ≤ b) : loadNat t b 8 = loadNat s b 8 :=
  congrArg leNat (memBytes_congr fun j hj => h (b + j) (by omega))

theorem added_succ {a mask data n : Nat} (aligned : a % 8 = 0) (hn : n < 8) {s t : State} (h : Added a mask data n s t) :
    Added a mask data (n + 1) s (if bitOf mask n && !bitOf (eccMask t a) n then
      store (a + 8 * n) (leBytes 8 (loadNat t (a + 8 * n) 8 + lane data n)) t else t) := by
  have mark : bitOf (eccMask t a) n = bitOf (eccMask s a) n := by
    rw [bitOf_eccMask hn, bitOf_eccMask hn, h.marks n (Nat.le_refl n)]
  have old : loadNat t (a + 8 * n) 8 = loadNat s (a + 8 * n) 8 := loadNat_kept h.kept (.inr (Nat.le_refl _))
  have widen : MemKept a (8 * (n + 1)) s t := fun i hi => h.kept i (by omega)
  rw [mark]
  cases on : bitOf mask n && !bitOf (eccMask s a) n
  · refine ⟨h.wf, h.frame, widen, fun j hj => h.marks j (Nat.le_of_succ_le hj), fun j hj => ?_⟩
    rcases Nat.lt_succ_iff_lt_or_eq.1 hj with lt | rfl
    · exact h.lanes j lt
    · rw [on, if_neg Bool.false_ne_true]
      exact old
  · rw [if_pos rfl]
    obtain ⟨wf, kept, bytes, frame⟩ := store_spec (a + 8 * n) (leBytes 8 (loadNat t (a + 8 * n) 8 + lane data n)) t h.wf
    rw [length_leBytes] at kept bytes
    generalize hu : store (a + 8 * n) (leBytes 8 (loadNat t (a + 8 * n) 8 + lane data n)) t = u at *
    refine ⟨wf, ?_, fun i hi => (kept i (by omega)).trans (h.kept i (by omega)), fun j hj => ?_, fun j hj => ?_⟩
    · rw [frame, h.frame]
    · rw [← hu, kget_ecc_store aligned (length_leBytes 8 _) hj, h.marks j (by omega)]
    · rcases Nat.lt_succ_iff_lt_or_eq.1 hj with lt | rfl
      · rw [loadNat_kept kept (.inl (by omega))]
        exact h.lanes j lt
      · have read := memBytes_eq (m := u.mem) (d := leBytes 8 (loadNat t (a + 8 * j) 8 + lane data j)) (by rwa [length_leBytes])
        rw [length_leBytes] at read
        rw [on, if_pos rfl, loadNat, load, read, leNat_leBytes, old]
        norm_num

theorem applyOp_add {a : Nat} (aligned : a % 8 = 0) (mask data : Nat) {s : State} (wf : s.memOk) :
    Added a mask data 8 s (applyOp a (.add mask data) s) := by
  have first (n : Nat) (hn : n ≤ 8) : Added a mask data n s ((List.range n).foldl (fun t i =>
      if bitOf mask i && !bitOf (eccMask t a) i then
        store (a + 8 * i) (leBytes 8 (loadNat t (a + 8 * i) 8 + lane data i)) t
      else t) s) := by
    induction n with
    | zero => exact ⟨wf, rfl, fun _ _ => rfl, fun _ _ => rfl, fun j hj => absurd hj (Nat.not_lt_zero j)⟩
    | succ n ih =>
      rw [List.range_succ, List.foldl_append, List.foldl_cons, List.foldl_nil]
      exact added_succ aligned hn (ih (Nat.le_of_succ_le hn))
  exact first 8 (Nat.le_refl 8)

end Sys2Proof.Machine
end

section
/-! PROOFS. Banks at rest, and requests that wait at a commons bank (O33). -/

namespace Sys2Proof.Machine

/-! ## Two reads of different words in one tc (R57) -/

variable {s : State} {x y : Item} {l : List Item} {b : Nat}

/-- Where all that is due fails a test, a phase of the tc performs nothing. -/
theorem performAll_none {tc : Nat} {p : Item → Bool} (h : ∀ z ∈ s.agenda, z.tc ≤ tc → p z = false) (f : Item → State → State) :
    performAll tc p f s = s := by
  have fails : ∀ z ∈ s.agenda, (decide (z.tc ≤ tc) && p z) = false := fun z hz => by
    by_cases due : z.tc ≤ tc
    · simp [h z hz due]
    · simp [due]
  unfold performAll due
  rw [List.filter_eq_nil_iff.2 fun z hz => by simp [fails z hz], List.filter_eq_self.2 fun z hz => by simp [fails z hz]]
  rfl

theorem servePorts_pair (hx : x.bank = some b) (hy : y.bank = some b) (cmn : bankIsCmn b = true) (kx : x.kind = 0) (ky : y.kind = 0)
    (s : State) : servePorts [x, y] s = serveCmn b [x, y] s := by
  have sent (z : Item) (k : z.kind = 0) : (z.kind == 1 && z.c.dry != 0) = false := by simp [k]
  unfold servePorts
  simp only [hx, hy, cmn, sent x kx, sent y ky, List.filter_cons, List.filter_nil, Bool.true_and, Bool.not_true, Bool.not_false,
    Bool.false_eq_true, if_false, if_true, List.filterMap_cons, List.filterMap_nil]
  rw [show [b, b].eraseDups = [b] by simp [List.eraseDups_cons]]
  simp [serveOwn]

/-- The read of the lower word is served; the other waits, and is counted. -/
theorem serveCmn_pair (b : Nat) (kx : x.kind = 0) (ky : y.kind = 0) (came : x.since = y.since)
    (row : x.row < y.row) (s : State) :
    serveCmn b [x, y] s = winBump (delay y (serve x s)) (cmnBase (bankCluster b) + 0xFF0018) 0 32 1 := by
  have first : firstItem s.plat.fuse [x, y] = some x := by
    have after : beforeItem s.plat.fuse y x = false := by
      simp [beforeItem, came, kx, ky, row.ne', row.le]
    simp [firstItem, after]
  have mine : sameAccess x x = true := by simp [sameAccess, kx]
  have other : sameAccess x y = false := by simp [sameAccess, kx, row.ne']
  have one : serveReads b x [x] s = serve x s := if_pos List.countP_le_length
  unfold serveCmn
  rw [first]
  simp only [List.filter_cons, List.filter_nil, mine, other, kx, ky, Bool.not_true, Bool.not_false, Bool.false_eq_true, if_false, if_true,
    one, List.foldl_cons, List.foldl_nil, List.isEmpty_cons, List.length_cons, List.length_nil, OfNat.zero_ne_ofNat]

/-- A request that waits takes its place in the next tc; what its instruction has under way for later stays later. -/
theorem delay_spec (y : Item) (s : State) :
    delay y s = { s with agenda := (delay y s).agenda } ∧ { y with tc := s.now + 1 } ∈ (delay y s).agenda ∧
      ∀ z ∈ (delay y s).agenda, z ∈ s.agenda ∨ s.now < z.tc := by
  refine ⟨rfl, mem_insItem_iff.2 (.inl rfl), fun z hz => ?_⟩
  have moved (mine rest : List Item) (hm : ∀ u ∈ mine, s.now < u.tc) (z : Item)
      (hz : z ∈ mine.foldl (fun l x => insItem { x with tc := x.tc + 1, since := x.since + 1 } l) rest) : z ∈ rest ∨ s.now < z.tc := by
    induction mine generalizing rest with
    | nil => exact .inl hz
    | cons u mine ih =>
      rcases ih _ (fun v hv => hm v (List.mem_cons_of_mem u hv)) hz with old | later
      · rcases mem_insItem old with rfl | old
        · exact .inr (Nat.lt_succ_of_lt (hm u List.mem_cons_self))
        · exact .inl old
      · exact .inr later
  rcases mem_insItem hz with rfl | hz
  · exact .inr (Nat.lt_succ_self _)
  · have comes (u : Item) (hu : u ∈ s.agenda.filter fun u => u.of y.c && decide (s.now < u.tc)) : s.now < u.tc :=
      of_decide_eq_true (Bool.and_eq_true_iff.1 (List.mem_filter.1 hu).2).2
    rcases moved _ _ comes z hz with rest | later
    · exact .inl (List.mem_filter.1 rest).1
    · exact .inr later

/-- The state after the accesses of a tc in which two reads of different words reach a commons bank. -/
def pairServed (s : State) (x y : Item) (l : List Item) (b : Nat) : State :=
  winBump (delay y (serve x (dueState s x l))) (cmnBase (bankCluster b) + 0xFF0018) 0 32 1

theorem runTc_pair (agenda : s.agenda = x :: y :: l) (same : y.tc = x.tc) (later : ∀ z ∈ l, x.tc < z.tc) (xTile : x.c.pos < 1536)
    (yTile : y.c.pos < 1536) (hx : x.bank = some b) (hy : y.bank = some b) (cmn : bankIsCmn b = true) (kx : x.kind = 0) (ky : y.kind = 0)
    (came : x.since = y.since) (row : x.row < y.row) : runTc x.tc s = afterPorts x.tc (pairServed s x y l b) := by
  have held : performAll x.tc Item.isHeld perform { s with now := x.tc } = { s with now := x.tc } := by
    refine performAll_none (fun z hz due => ?_) perform
    have mem : z ∈ x :: y :: l := agenda ▸ hz
    rcases List.mem_cons.1 mem with rfl | mem
    · simp [Item.isHeld, Nat.not_le.2 xTile]
    · rcases List.mem_cons.1 mem with rfl | mem
      · simp [Item.isHeld, Nat.not_le.2 yTile]
      · exact absurd due (Nat.not_le.2 (later z mem))
  have ports : due x.tc Item.isPort { s with now := x.tc } = ([x, y], dueState s x l) := by
    have none : ∀ z ∈ l, (decide (z.tc ≤ x.tc) && z.isPort) = false := fun z hz => by simp [Nat.not_le.2 (later z hz)]
    have gone : l.filter (fun z => decide (z.tc ≤ x.tc) && z.isPort) = [] := List.filter_eq_nil_iff.2 fun z hz => by simp [none z hz]
    have rest : l.filter (fun z => !(decide (z.tc ≤ x.tc) && z.isPort)) = l := List.filter_eq_self.2 fun z hz => by simp [none z hz]
    have portX : x.isPort = true := by rw [Item.isPort, hx]; rfl
    have portY : y.isPort = true := by rw [Item.isPort, hy]; rfl
    unfold due dueState
    rw [agenda]
    simp only [List.filter_cons, same, Nat.le_refl, decide_true, Bool.true_and, portX, portY, gone, rest, if_true, Bool.not_true,
      Bool.false_eq_true, if_false]
  rw [runTc_eq, held, ports, servePorts_pair hx hy cmn kx ky, serveCmn_pair b kx ky came row]
  rfl

theorem regHome_cmn (cl : Nat) (off : Nat) : regHome (cmnBase cl + off) = cmnBase cl + off := by
  unfold regHome cmnBase tileBase
  rw [if_neg (by omega), if_neg (by omega)]

/-- The number of queued requests of a cluster's commons (R57). -/
def queuedCount (cl : Nat) (s : State) : Nat := fld (winGet s (cmnBase cl + 0xFF0018)) 0 32

theorem queuedCount_of_win {cl : Nat} {t : State} (h : kget t.win (cmnBase cl + 0xFF0018) = kget s.win (cmnBase cl + 0xFF0018)) :
    queuedCount cl t = queuedCount cl s := by
  unfold queuedCount winGet
  rw [regHome_cmn, h]

theorem queuedCount_winBump (cl : Nat) (s : State) :
    queuedCount cl (winBump s (cmnBase cl + 0xFF0018) 0 32 1) = satAdd (2 ^ 32 - 1) (queuedCount cl s) 1 := by
  have top := satAdd_le (2 ^ 32 - 1) (queuedCount cl s) 1
  unfold queuedCount winBump at *
  rw [winGet_winSet_self, fld_mod_two_pow _ _ _ _ (by omega), fld_putFld_self]
  exact Nat.mod_eq_of_lt (by omega)

/-- Of two reads of different words that reach a commons bank in one tc, the lower is served, and the other waits for the next. -/
theorem commons_pair {cl : Nat} (now : s.now ≤ x.tc) (agenda : s.agenda = x :: y :: l) (same : y.tc = x.tc) (later : ∀ z ∈ l, x.tc < z.tc)
    (xTile : x.c.pos < 1536) (yTile : y.c.pos < 1536) (xPlan : x.c.free = false) (apart : x.c.pos ≠ y.c.pos) {w v i j a1 a2 : Nat}
    {g1 g2 : List (Nat × Nat)} (hx : x.act = .read b w i g1 a1) (hy : y.act = .read b v j g2 a2) (cmn : bankIsCmn b = true)
    (cluster : bankCluster b = cl) (came : x.since = y.since) (row : w < v) :
    { y with tc := x.tc + 1 } ∈ (advance x.tc s).agenda ∧
      queuedCount cl (advance x.tc s) = satAdd (2 ^ 32 - 1) (queuedCount cl s) 1 ∧ (advance x.tc s).mem = s.mem := by
  have place : queuedPlace (cmnBase cl + 0xFF0018) = true := by
    simp only [queuedPlace, beq_iff_eq, cmnBase]
    omega
  generalize hu : pairServed s x y l b = u
  have read : Calm x.c (dueState s x l) (serve x (dueState s x l)) := .serveRead xPlan hx (.refl _ _)
  obtain ⟨frame, waits, held⟩ := delay_spec y (serve x (dueState s x l))
  have mem : u.mem = s.mem := by
    rw [← hu]
    exact read.mem
  have tc : u.now = x.tc := by
    rw [← hu]
    exact read.now
  have count : queuedCount cl u = satAdd (2 ^ 32 - 1) (queuedCount cl s) 1 := by
    rw [← hu, pairServed, cluster, queuedCount_winBump, queuedCount_of_win (t := delay y _) (s := dueState s x l) (read.queued _ place)]
    rfl
  have wait : { y with tc := x.tc + 1 } ∈ u.agenda := by
    rw [← hu]
    rw [read.now] at waits
    exact waits
  have ready : Ready x.c u := by
    intro z hz
    rw [tc]
    rw [← hu] at hz
    rcases held z hz with old | after
    · rcases read.fresh z old with old | new
      · exact .inl (later z old)
      · exact new
    · rw [read.now] at after
      exact .inl after
  have run : runTc x.tc s = afterPorts u.now u := by
    rw [tc, ← hu]
    exact runTc_pair agenda same later xTile yTile (by rw [Item.bank, hx]) (by rw [Item.bank, hy]) cmn (by rw [Item.kind, hx])
      (by rw [Item.kind, hy]) came (by simpa [Item.row, hx, hy] using row)
  have rest : Calm x.c u (runTc x.tc s) := run ▸ ready.afterPorts
  have all : ∃ n, advance x.tc s = { runTo x.tc n (runTc x.tc s) with now := max x.tc s.now } := by
    refine ⟨x.tc - s.now + s.agenda.length, ?_⟩
    unfold advance
    rw [show x.tc + 1 - s.now + s.agenda.length = (x.tc - s.now + s.agenda.length) + 1 by omega, runTo, agenda]
    simp only [Nat.lt_irrefl, if_false]
    rw [Nat.max_eq_right now]
  obtain ⟨n, all⟩ := all
  have more := (rest.ready ready).runTo n
  rw [rest.now, tc] at more
  have whole := rest.trans more
  rw [all]
  refine ⟨whole.kept _ wait (by rw [tc]; exact Nat.lt_succ_self _) apart.symm, ?_, whole.mem.trans mem⟩
  rw [← count]
  exact queuedCount_of_win (whole.queued _ place)

/-! ## A request that waits is served (R57, R140, R141) -/

/-- The first request that waits at a bank is served in its tc. -/
theorem exec_queued {cl k : Nat} (hcl : cl < 24) (hk : k < 16) (h : Alone s x l) (bank : x.bank = some (cmnBank cl k))
    (waits : x.since < x.tc) : exec (.commonsQueuedService cl k) s = .next (advance x.tc s) := by
  have found : (s.agenda.find? fun y => y.bank == some (cmnBank cl k) && decide (y.since < y.tc)) = some x := by
    rw [h.1, List.find?_cons_of_pos (by simp [bank, waits])]
  change execCommonsQueuedService cl k s = _
  unfold execCommonsQueuedService
  rw [if_neg (by omega), found]

theorem queued_write {cl k w off : Nat} {d : List Byte} (hcl : cl < 24) (hk : k < 16) (h : Alone s x l) (waits : x.since < x.tc)
    (dry : x.c.dry = 0) (wf : s.memOk) (served : Served s x.c.glove (cmnBank cl k) w) (act : x.act = .store (cmnBank cl k) w (.write off d)) :
    ∃ t, exec (.commonsQueuedService cl k) s = .next t ∧ t.now = x.tc ∧ t.agenda = l ∧ t.tiles = s.tiles ∧
      MemKept (wordAddr (cmnBank cl k) w + off) d.length s t ∧
      ∀ j, j < d.length → byteAt t (wordAddr (cmnBank cl k) w + off + j) = d.getD j 0 := by
  refine ⟨_, exec_queued hcl hk h (by rw [Item.bank, act]) waits, ?_⟩
  rw [st_stored h served act dry]
  obtain ⟨kept, bytes, -⟩ := portAActed_write (cmnBank cl k) w off d (s := dueState s x l) wf
  exact ⟨rfl, rfl, rfl, kept, bytes⟩

theorem wordAddr_mod (b w : Nat) : wordAddr b w % 8 = 0 := by
  unfold wordAddr bankBase cmnBase tileBase
  split <;> omega

theorem queued_stat {cl k w v : Nat} (hcl : cl < 24) (hk : k < 16) (h : Alone s x l) (waits : x.since < x.tc)
    (wf : s.memOk) (served : Served s x.c.glove (cmnBank cl k) w) (act : x.act = .stat (cmnBank cl k) w v) :
    let a := wordAddr (cmnBank cl k) w
    ∃ t, exec (.commonsQueuedService cl k) s = .next t ∧ t.now = x.tc ∧ t.agenda = l ∧ t.tiles = s.tiles ∧ MemKept a 64 s t ∧
      ∀ j, j < 8 → loadNat t (a + 8 * j) 8 =
        if j < 6 ∧ bitOf (eccMask s a) j = false then (loadNat s (a + 8 * j) 8 + lane v j) % 2 ^ 64 else loadNat s (a + 8 * j) 8 := by
  intro a
  have done : serve x (dueState s x l) = portAActed (cmnBank cl k) w (.add 0x3F v) (dueState s x l) := by
    unfold serve
    rw [act]
    dsimp only
    rw [portAOne_served (s := dueState s x l) served]
  let noted : State := setBankAux (cmnBank cl k) { bankAux s (cmnBank cl k) with acc := accsNow (dueState s x l) (cmnBank cl k) ++
    [⟨s.frame.boundaries, x.tc, w, false, true, loadNat s a 64, eccMask s a⟩] } (dueState s x l)
  have added : Added a 0x3F v 8 noted (portAActed (cmnBank cl k) w (.add 0x3F v) (dueState s x l)) := applyOp_add (wordAddr_mod _ _) _ _ wf
  have ⟨_, _, later, _, _⟩ := h
  have run := advance_served h (by rw [Item.bank, act]) (by simp [Item.kind, act]) done (by rw [added.frame]; rfl)
    (by rw [Later, added.frame]; exact later)
  refine ⟨_, exec_queued hcl hk h (by rw [Item.bank, act]) waits, ?_⟩
  rw [run]
  refine ⟨by rw [added.frame]; rfl, by rw [added.frame]; rfl, by rw [added.frame]; rfl, added.kept, fun j hj => ?_⟩
  have mask : bitOf 0x3F j = decide (j < 6) := by
    interval_cases j <;> rfl
  rw [added.lanes j hj, mask]
  change (if (decide (j < 6) && !bitOf (eccMask s a) j) = true then _ else _) = _
  simp only [Bool.and_eq_true, decide_eq_true_eq, Bool.not_eq_true']
  rfl

/-! ## Wake and scrub (R45, R51, R54) -/

theorem bank_wakes {b : Nat} (there : bankExists b = true) (off : bankState s b < 2) (on : domainOn s (bankDomain b) = true)
    (declared : declaredOn s b = true) :
    ∃ t, exec (.bankWake b) s = .next t ∧ bankState t b = 2 ∧ WinKept [bankStateAddr b] s t ∧ t = { s with win := t.win } := by
  refine ⟨setBankState b 2 s, ?_, ?_, winKept_winSet s _ _, rfl⟩
  · change execBankWake b s = _
    unfold execBankWake
    rw [there, if_neg (by simp), if_pos ⟨off, on, declared⟩]
  · have no : bankNo b < 16 := by
      unfold bankNo
      split <;> omega
    have same : domainOn (setBankState b 2 s) (bankDomain b) = true := on
    rw [bankState, if_pos same, setBankState, winPut, winGet_winSet_self, fld_mod_two_pow _ _ _ _ (by omega), fld_putFld_self]
    rfl

theorem tilesOnly_latchOwner (b : Nat) (s : State) : TilesOnly s (latchOwner b s) := by
  refine foldl_keeps TilesOnly.refl TilesOnly.trans (fun t p => ?_) _ s
  split
  · split
    · exact tilesOnly_adjTile _ _ t
    · exact .refl t
  · exact .refl t

theorem word_scrubbed {b word : Nat} (there : bankExists b = true) (inBank : word < bankWords b) (on : bankState s b = 3) :
    let a := bankBase b + 64 * word
    ∃ t, exec (.bankScrubVisit b word) s = .next t ∧ t.mem = s.mem ∧ t.win = s.win ∧ t.od = s.od ∧
      (∀ p, p ∈ t.ecc ↔ p ∈ s.ecc ∧ ¬ (a / 8 ≤ p.1 ∧ p.1 < a / 8 + 8 ∧ p.2 = .single)) ∧
      (eccMask s a = 0 → t = { s with ecc := t.ecc }) ∧ (eccMask s a ≠ 0 → Arrived [141] s t) := by
  intro a
  let u : State := { s with ecc := s.ecc.filter fun p => !(decide (a / 8 ≤ p.1) && decide (p.1 < a / 8 + 8) && p.2 == .single) }
  have run : exec (.bankScrubVisit b word) s = .next (if eccMask s a = 0 then u else raise 141 (latchOwner b u)) := by
    change execBankScrubVisit b word s = _
    unfold execBankScrubVisit
    rw [there, if_neg (by simpa using inBank), if_neg (not_not.2 on)]
  have marks (p : Nat × Ecc) : p ∈ u.ecc ↔ p ∈ s.ecc ∧ ¬ (a / 8 ≤ p.1 ∧ p.1 < a / 8 + 8 ∧ p.2 = .single) := by
    simp only [u, List.mem_filter, Bool.not_eq_true', Bool.and_eq_false_iff, decide_eq_false_iff_not, beq_eq_false_iff_ne, not_and_or,
      or_assoc]
  refine ⟨_, run, ?_⟩
  by_cases clean : eccMask s a = 0
  · rw [if_pos clean]
    exact ⟨rfl, rfl, rfl, marks, fun _ => rfl, fun bad => absurd clean bad⟩
  · rw [if_neg clean]
    have latched := tilesOnly_latchOwner b u
    unfold TilesOnly at latched
    refine ⟨?_, ?_, ?_, ?_, fun zero => absurd zero clean, fun _ => (arrived_raise 141 _).of_host_eq ?_⟩
    · rw [raise_mem, latched]
    · rw [raise_win, latched]
    · rw [raise_od, latched]
    · rw [raise_ecc, latched]
      exact marks
    · rw [latched]

/-! ## The obligation -/

theorem bankIsCmn_cmnBank (cl k : Nat) : bankIsCmn (cmnBank cl k) = true :=
  decide_eq_true (by unfold cmnBank; omega)

theorem bankCluster_cmnBank {cl k : Nat} (hk : k < 16) : bankCluster (cmnBank cl k) = cl := by
  rw [bankCluster, if_pos (bankIsCmn_cmnBank cl k), cmnBank]
  omega

/-- Settles O33: a wake and a scrub by their meanings, two reads by what the rest of their tc leaves, a waiting request by its service. -/
theorem banksAtRest : Obligations.BanksAtRest := by
  unfold Obligations.BanksAtRest
  refine ⟨fun s b word => ⟨bank_wakes, word_scrubbed⟩, ?_, ?_⟩
  · intro s x y l cl k w v i j a1 a2 g1 g2 _ hk agenda now same came rest xTile yTile xPlan _ apart hx hy row _
    exact commons_pair now agenda same (fun z hz => (rest z hz).1) xTile yTile xPlan apart hx hy (bankIsCmn_cmnBank cl k)
      (bankCluster_cmnBank hk) came row
  · intro s x l cl k w hcl hk h waits dry wf served
    exact ⟨fun off d act => queued_write hcl hk h waits dry wf served act, fun v act => queued_stat hcl hk h waits wf served act⟩

end Sys2Proof.Machine
end

section
/-! PROOFS. Supplies, resets, and a start-up in which nothing fails (O27). -/

namespace Sys2Proof.Machine

/-! ## What a reset of the die keeps (R385, R496) -/

variable {s t : State} {env : StartEnv}

/-- An entry after a reset of the die: as before where it is kept, at its default elsewhere. -/
theorem odGet_dieReset (rise : keysRise s.od = true) (i j : Nat) :
    odGet (dieReset s) i j = if keptEntry (odKey i j) then odGet s i j else odDefault i j := by
  have read : kget (dieReset s).od (odKey i j) = if keptEntry (odKey i j) then kget s.od (odKey i j) else none :=
    kget_filter rise keptEntry _
  by_cases kept : keptEntry (odKey i j) = true
  · rw [if_pos kept] at read ⊢
    rw [odGet, read, odGet]
  · rw [if_neg kept] at read ⊢
    rw [odGet, read]

theorem kept_supply : ∀ j, 1 ≤ j → j ≤ 4 → keptEntry (odKey 0x2A00 j) = true := fun j h1 h4 => by
  interval_cases j <;> rfl

theorem kept_credential {c j : Nat} (lo : 0x1101 ≤ c) (hi : c ≤ 0x113F) (hj : j < 256) : keptEntry (odKey c j) = true := by
  have index : odKey c j / 256 = c := by
    unfold odKey
    omega
  unfold keptEntry
  simp [index, lo, hi]

/-- No domain is on, or on its way, after a reset of the die (R490, R496). -/
theorem domainState_dieReset (rise : keysRise s.od = true) {d : Nat} (h : d ≤ 52) : domainState (dieReset s) d = 0 := by
  have gone : ∀ k < 53, keptEntry (odKey 0x2901 (k + 1)) = false := by decide
  rw [domainState, if_neg (by omega), odGet_dieReset rise, gone d (by omega), if_neg Bool.false_ne_true]
  exact (if_neg (by omega)).symm.trans (domainState_reset h)

/-! ## The die goes down (R496, R499, R513) -/

/-- What every reset takes from the die and keeps: `u` is the state that it meets. -/
structure DieDown (f : Fuse) (u t : State) : Prop where
  domains : ∀ d, d ≤ 52 → domainState t d = 0
  empty : t.mem = [] ∧ t.launches = [] ∧ t.tiles = []
  ready : t.plat.ready = false
  fuse : t.plat.fuse = f
  outs : t.safety.outs = false
  count : odGet t 0x2A00 3 = odGet u 0x2A00 3
  credentials : ∀ c, 0x1101 ≤ c → c ≤ 0x113F → ∀ j, j < 256 → odGet t c j = odGet u c j
  audit : t.serv.audit = u.serv.audit ∧ t.serv.auditCount = u.serv.auditCount ∧ t.serv.chain = u.serv.chain

theorem dieDown_dieReset (rise : keysRise s.od = true) : DieDown s.plat.fuse s (dieReset s) where
  domains _ := domainState_dieReset rise
  empty := ⟨rfl, rfl, rfl⟩
  ready := rfl
  fuse := rfl
  outs := rfl
  count := by rw [odGet_dieReset rise, kept_supply 3 (by omega) (by omega), if_pos rfl]
  credentials c lo hi j hj := by rw [odGet_dieReset rise, kept_credential lo hi hj, if_pos rfl]
  audit := ⟨rfl, rfl, rfl⟩

theorem DieDown.of_eq {f : Fuse} {u v : State} (h : DieDown f u t) (od : u.od = v.od) (serv : u.serv = v.serv) : DieDown f v t where
  domains := h.domains
  empty := h.empty
  ready := h.ready
  fuse := h.fuse
  outs := h.outs
  count := h.count.trans (odGet_of_od_eq od _ _)
  credentials c lo hi j hj := (h.credentials c lo hi j hj).trans (odGet_of_od_eq od _ _)
  audit := serv ▸ h.audit

/-- The platform, the Helmet and its registers may be set anew: the die stays down. -/
theorem DieDown.withPlat {f : Fuse} {u : State} (h : DieDown f u t) {p : Plat} {x : SafetySt} (ready : p.ready = false) (fuse : p.fuse = f)
    (outs : x.outs = false) (w : KMap Nat) : DieDown f u { t with plat := p, safety := x, win := w } where
  domains := h.domains
  empty := h.empty
  ready := ready
  fuse := fuse
  outs := outs
  count := h.count
  credentials := h.credentials
  audit := h.audit

/-- The cause of the reset is recorded. -/
theorem DieDown.resetCause {f : Fuse} {u : State} (h : DieDown f u t) (v : Nat) : DieDown f u (odSet t 0x2A00 1 v) where
  domains d hd := by
    have e := h.domains d hd
    rw [domainState, if_neg (by omega)] at e ⊢
    rw [odGet_odSet, if_neg (by unfold odKey; omega), e]
  empty := h.empty
  ready := h.ready
  fuse := h.fuse
  outs := h.outs
  count := by rw [odGet_odSet, if_neg (by decide), h.count]
  credentials c lo hi j hj := by rw [odGet_odSet, if_neg (by unfold odKey; omega), h.credentials c lo hi j hj]
  audit := h.audit

theorem dieDown_enterSafe (bit : Nat) (rise : keysRise s.od = true) : DieDown s.plat.fuse s (dieReset (enterSafe bit s)) := by
  obtain ⟨-, frame, -, -⟩ := enterSafe_spec bit s
  have od : (enterSafe bit s).od = s.od := by rw [frame]
  have serv : (enterSafe bit s).serv = s.serv := by rw [frame]
  have plat : (enterSafe bit s).plat = s.plat := by rw [frame]
  have down := dieDown_dieReset (s := enterSafe bit s) (od ▸ rise)
  rw [plat] at down
  exact down.of_eq od serv

theorem causes_enterSafe (bit : Nat) (s : State) : bitOf (enterSafe bit s).safety.causes bit = true := by
  obtain ⟨safety, -⟩ := enterSafe_spec bit s
  rw [safety, bitOf, Nat.testBit_or, Nat.testBit_two_pow_self, Bool.or_true]

/-! ## RESET_n and the supplies' losses -/

theorem resetPin_down (rise : keysRise s.od = true) :
    DieDown s.plat.fuse (auditFlush s) (resetPin s) ∧ (resetPin s).plat.rst = true ∧ bitOf (resetPin s).safety.causes 0 = true ∧
      odGet (resetPin s) 0x2A00 1 = 1 := by
  have flushed : Keeps s (auditFlush s) := .auditFlush (.refl s)
  have down := dieDown_enterSafe 0 (flushed.od rise)
  rw [flushed.fuse] at down
  refine ⟨(down.withPlat ?_ ?_ ?_ _).resetCause 1, rfl, causes_enterSafe 0 (auditFlush s), odGet_odSet_self _ _ _ _⟩
  · rfl
  · exact down.fuse
  · rfl

theorem resetN_valid {ns : Nat} (aux : s.plat.aux = true) (rst : s.plat.rst = false) (long : 10000 ≤ ns) :
    exec (.resetN ns) s = .next (resetPin s) := by
  change execResetN ns s = _
  unfold execResetN
  rw [if_neg (by simp [aux, rst]; omega), if_pos long]

theorem resetN_between {ns : Nat} (aux : s.plat.aux = true) (rst : s.plat.rst = false) (lo : 1000 ≤ ns) (hi : ns < 10000) :
    ∃ t, exec (.resetN ns) s = .next t ∧
      (t = { s with freeCtr := s.freeCtr + 1 } ∨ exec (.resetN 10000) { s with freeCtr := s.freeCtr + 1 } = .next t) := by
  have run : exec (.resetN ns) s =
      .next (if (drawFree s).1.getLsbD 0 then resetPin { s with freeCtr := s.freeCtr + 1 } else { s with freeCtr := s.freeCtr + 1 }) := by
    change execResetN ns s = _
    unfold execResetN
    rw [if_neg (by simp [aux, rst]; omega), if_neg (by omega)]
    rfl
  refine ⟨_, run, ?_⟩
  by_cases valid : (drawFree s).1.getLsbD 0 = true
  · rw [if_pos valid]
    exact .inr (resetN_valid aux rst (Nat.le_refl _))
  · rw [if_neg valid]
    exact .inl rfl

theorem resetN_short {ns : Nat} (h : ns < 1000) : exec (.resetN ns) s = .next s := if_pos (.inr (.inr h))

theorem mainSupply_lost (rise : keysRise s.od = true) (aux : s.plat.aux = true) (v48 : s.plat.v48 = true) :
    ∃ t, exec .mainSupplyLoss s = .next t ∧ DieDown s.plat.fuse s t ∧ t.plat.v48 = false ∧ bitOf t.safety.causes 4 = true ∧
      odGet t 0x2A00 1 = 2 := by
  have down := dieDown_enterSafe 4 rise
  refine ⟨_, if_neg (by simp [aux, v48]), (down.withPlat ?_ ?_ ?_ _).resetCause 2, rfl, causes_enterSafe 4 s, odGet_odSet_self _ _ _ _⟩
  · rfl
  · exact down.fuse
  · rfl

theorem auxSupply_lost (rise : keysRise s.od = true) :
    ∃ t, exec .auxSupplyLoss s = .next t ∧ DieDown s.plat.fuse s t ∧ t.plat.aux = false ∧ t.plat.v48 = false ∧
      t.safety = State.reset.safety := by
  have down := dieDown_dieReset rise
  refine ⟨_, rfl, down.withPlat ?_ ?_ ?_ _, rfl, rfl, rfl⟩
  · rfl
  · rfl
  · rfl

/-! ## What the parts of a start-up step leave (R501) -/

/-- Across it the platform, the safety outputs, the cause of the reset and PowerOnCount stay. -/
structure StartKept (s t : State) : Prop where
  plat : t.plat = s.plat
  safety : t.safety = s.safety
  cause : odGet t 0x2A00 1 = odGet s 0x2A00 1
  count : odGet t 0x2A00 3 = odGet s 0x2A00 3

variable {s₀ : State}

theorem StartKept.refl (s : State) : StartKept s s := ⟨rfl, rfl, rfl, rfl⟩

theorem StartKept.trans (h : StartKept s₀ s) (k : StartKept s t) : StartKept s₀ t :=
  ⟨k.plat.trans h.plat, k.safety.trans h.safety, k.cause.trans h.cause, k.count.trans h.count⟩

theorem StartKept.same (h : StartKept s₀ s) (plat : t.plat = s.plat) (safety : t.safety = s.safety) (od : t.od = s.od) :
    StartKept s₀ t where
  plat := plat.trans h.plat
  safety := safety.trans h.safety
  cause := (odGet_of_od_eq od _ _).trans h.cause
  count := (odGet_of_od_eq od _ _).trans h.count

theorem StartKept.raise {n : Nat} (h : StartKept s₀ s) : StartKept s₀ (raise n s) :=
  h.same (raise_plat n s) (raise_safety n s) (raise_od n s)

theorem StartKept.odSet {i j v : Nat} (h : StartKept s₀ s) (cause : odKey i j ≠ odKey 0x2A00 1) (count : odKey i j ≠ odKey 0x2A00 3) :
    StartKept s₀ (odSet s i j v) where
  plat := h.plat
  safety := h.safety
  cause := by rw [odGet_odSet, if_neg cause, h.cause]
  count := by rw [odGet_odSet, if_neg count, h.count]

theorem StartKept.setDomain {d code : Nat} (h : StartKept s₀ s) (hd : d ≤ 52) : StartKept s₀ (setDomain s d code) :=
  h.odSet (by unfold odKey; omega) (by unfold odKey; omega)

theorem StartKept.foldl {α : Type} {f : State → α → State} {l : List α} {s : State} (h : StartKept s₀ s)
    (step : ∀ s, ∀ x ∈ l, StartKept s₀ s → StartKept s₀ (f s x)) : StartKept s₀ (l.foldl f s) := by
  induction l generalizing s with
  | nil => exact h
  | cons x l ih => exact ih (step s x List.mem_cons_self h) fun s y hy => step s y (List.mem_cons_of_mem x hy)

theorem StartKept.setDomains {l : List Nat} (h : StartKept s₀ s) (hl : ∀ d ∈ l, d ≤ 52) :
    StartKept s₀ (l.foldl (fun t d => Machine.setDomain t d 2) s) :=
  h.foldl fun _ d hd k => k.setDomain (hl d hd)

theorem StartKept.fenceTile {pos : Nat} (h : StartKept s₀ s) : StartKept s₀ (fenceTile pos s) := by
  unfold Machine.fenceTile
  split
  · exact h
  · next guard =>
    have logical : isLogical s.plat.fuse pos = true := by simpa using fun e => guard (.inl e)
    have inside : pos < 1536 := by
      unfold isLogical at logical
      simpa using (Bool.and_eq_true_iff.mp logical).1
    have cluster : clusterOf pos < 24 := by
      unfold clusterOf posRow posCol
      omega
    refine .raise (.odSet (.odSet h ?_ ?_) (by decide) (by decide))
    · unfold odKey
      omega
    · unfold odKey
      omega

theorem StartKept.setSysTime {v : Nat} (h : StartKept s₀ s) : StartKept s₀ (setSysTime v s) := by
  unfold Machine.setSysTime
  split
  · exact h
  · exact .raise (.odSet h (by decide) (by decide))

theorem StartKept.refreshSysTime (h : StartKept s₀ s) : StartKept s₀ (refreshSysTime s) := by
  unfold Machine.refreshSysTime
  split
  · exact h
  · split
    · exact .setSysTime h
    · exact .setSysTime h

theorem StartKept.startMesh (h : StartKept s₀ s) (env : StartEnv) : StartKept s₀ (startMesh env s) := by
  unfold Machine.startMesh
  refine .foldl (.foldl (.setDomains (.same h rfl rfl rfl) (by decide)) fun t p _ k => .fenceTile k) fun t r hr k => ?_
  have link : r < 32 := List.mem_range.mp hr
  split
  · exact .odSet k (by unfold odKey; omega) (by unfold odKey; omega)
  · exact k

theorem startKept_loadFirmware (slot : Nat) (x : FwSlot) (s : State) :
    StartKept { s with plat := { s.plat with fwDigest := sha384 x.image, fwVersion := (x.major, x.minor, x.build) } }
      (loadFirmware slot x s) := by
  unfold loadFirmware
  exact .foldl (.odSet (.refl _) (by decide) (by decide)) fun _ _ _ k => .same k rfl rfl rfl

/-- The same change of the platform on both sides. -/
theorem StartKept.mapPlat (h : StartKept s₀ s) (f : Plat → Plat) : StartKept { s₀ with plat := f s₀.plat } { s with plat := f s.plat } :=
  ⟨congrArg f h.plat, h.safety, h.cause, h.count⟩

/-! ## The steps of a start-up in which nothing fails (R501 to R504) -/

/-- What step `n` does to the platform and to PowerOnCount. -/
def stepPlat (env : StartEnv) (n : Nat) (s : State) : State := match n with
  | 2 => startRails s
  | 8 =>
    let x := if slotGood s.plat.fuse env.slotA then env.slotA else env.slotB
    { s with plat := { s.plat with fwDigest := sha384 x.image, fwVersion := (x.major, x.minor, x.build) } }
  | 9 => { s with plat := { s.plat with ready := true, failRec := 0 } }
  | 10 => { s with plat := { s.plat with linkUp := true } }
  | _ => s

theorem startKept_startFirmware (env : StartEnv) (s : State) : StartKept (stepPlat env 8 s) (startFirmware env s) := by
  unfold startFirmware stepPlat
  by_cases good : slotGood s.plat.fuse env.slotA = true
  · simp only [if_pos good]
    exact startKept_loadFirmware 0 env.slotA s
  · simp only [if_neg good]
    exact startKept_loadFirmware 1 env.slotB s

theorem startKept_startReady (env : StartEnv) (s : State) : StartKept (stepPlat env 9 s) (startReady s) := by
  unfold startReady
  refine .refreshSysTime (StartKept.mapPlat (s₀ := s) ?_ fun p => { p with ready := true, failRec := 0 })
  have domains : StartKept s ([43, 44, 45, 46, 47, 48, 49, 50, 52].foldl (fun t d => setDomain t d 2) s) :=
    .setDomains (.refl s) (by decide)
  split
  · exact domains
  · exact .odSet domains (by decide) (by decide)

theorem startKept_stepWork (n : Nat) (env : StartEnv) (s : State) : StartKept (stepPlat env n s) (stepWork n env s) := by
  unfold stepWork
  split
  · exact .refl _
  · exact .same (.refl s) rfl rfl rfl
  · exact .setDomains (.refl s) (by decide)
  · exact .startMesh (.refl s) env
  · exact .raise (.same (.setDomain (.refl s) (by omega)) rfl rfl rfl)
  · exact startKept_startFirmware env s
  · exact startKept_startReady env s
  · exact .refl _
  · unfold stepPlat
    split
    · contradiction
    · contradiction
    · contradiction
    · contradiction
    · exact .refl s

/-- Step `n` done, its number and its time taken down (R501). -/
def stepDone (env : StartEnv) (s : State) (n : Nat) : State := stepTime n (env.times.getD (n - 1) 0) (setStep n (stepWork n env s))

/-- The same, for the platform and PowerOnCount alone. -/
def platDone (env : StartEnv) (s : State) (n : Nat) : State := setStep n (stepPlat env n s)

/-- The main rails' step counts the power-on. -/
theorem odGet_startRails (s : State) : odGet (startRails s) 0x2A00 3 = satAdd (2 ^ 32 - 1) (odGet s 0x2A00 3) 1 := odGet_odSet_self _ _ _ _

theorem stepPlat_fuse (env : StartEnv) (n : Nat) (s : State) : (stepPlat env n s).plat.fuse = s.plat.fuse := by
  unfold stepPlat
  split
  · rfl
  · rfl
  · rfl
  · rfl
  · rfl

theorem StartKept.startRails (h : StartKept s₀ s) : StartKept (startRails s₀) (startRails s) where
  plat := congrArg (fun p : Plat => { p with v48 := true }) h.plat
  safety := h.safety
  cause := by
    have kept (t : State) : odGet (Machine.startRails t) 0x2A00 1 = odGet t 0x2A00 1 := (odGet_odSet _ _ _ _ _ _).trans (if_neg (by decide))
    rw [kept, kept, h.cause]
  count := by
    rw [odGet_startRails, odGet_startRails, h.count]

theorem StartKept.stepPlat (h : StartKept s₀ s) (env : StartEnv) (n : Nat) : StartKept (stepPlat env n s₀) (stepPlat env n s) := by
  unfold Machine.stepPlat
  split
  · exact h.startRails
  · exact h.mapPlat fun p =>
      let x := if slotGood p.fuse env.slotA then env.slotA else env.slotB
      { p with fwDigest := sha384 x.image, fwVersion := (x.major, x.minor, x.build) }
  · exact h.mapPlat fun p => { p with ready := true, failRec := 0 }
  · exact h.mapPlat fun p => { p with linkUp := true }
  · exact h

theorem StartKept.stepDone (h : StartKept s₀ s) (env : StartEnv) (n : Nat) : StartKept (platDone env s₀ n) (stepDone env s n) :=
  .odSet (((h.stepPlat env n).trans (startKept_stepWork n env s)).mapPlat fun p => { p with step := n }) (by decide) (by decide)

/-- The steps in turn. -/
theorem StartKept.steps (env : StartEnv) (l : List Nat) (h : StartKept s₀ s) :
    StartKept (l.foldl (platDone env) s₀) (l.foldl (Machine.stepDone env) s) := by
  induction l generalizing s₀ s with
  | nil => exact h
  | cons n l ih => exact ih (h.stepDone env n)

/-- A start-up in which nothing fails: no step, no tile that must not, no link of the Col; a reference, a slot that verifies, PERST#
released and a host. -/
structure Sound (f : Fuse) (env : StartEnv) : Prop where
  steps : env.fails = []
  tiles : ∀ p ∈ env.badTiles, mgmtTiles.contains p = false ∧ kindOf p ≠ .port
  col : ∀ p ∈ env.colRate, 1 ≤ p.2 ∧ p.2 < 4
  refs : env.refA = true ∨ env.refB = true
  perst : env.perstReleased = true
  link : env.linkTrains = true
  slot : slotGood f env.slotA = true ∨ slotGood f env.slotB = true

theorem Sound.supplied {f : Fuse} (h : Sound f env) : Sound f { env with v48 := true } :=
  ⟨h.steps, h.tiles, h.col, h.refs, h.perst, h.link, h.slot⟩

theorem Sound.stepHalts {n : Nat} (h : Sound s.plat.fuse env) (hn : n ≠ 0) : stepHalts n 0 env s = false := by
  have tiles : (env.badTiles.any fun p => mgmtTiles.contains p || kindOf p == .port) = false := by
    rw [List.any_eq_false]
    intro p hp
    obtain ⟨mgmt, port⟩ := h.tiles p hp
    rw [mgmt, Bool.false_or, beq_iff_eq]
    exact port
  have col : (env.colRate.any fun p => decide (4 ≤ p.2) || p.2 == 0) = false := by
    rw [List.any_eq_false]
    intro p hp
    obtain ⟨lo, hi⟩ := h.col p hp
    simp
    omega
  have slots : (!slotGood s.plat.fuse env.slotA && !slotGood s.plat.fuse env.slotB) = false := by
    obtain a | b := h.slot
    · rw [a]
      rfl
    · rw [b, Bool.not_true, Bool.and_false]
  rw [Machine.stepHalts, tiles, col, Bool.and_assoc (n == 8), slots]
  simp [hn]

theorem Sound.stepWaits {n : Nat} {f : Fuse} (h : Sound f env) (supply : n ≠ 2 ∨ env.v48 = true) : stepWaits n env = false := by
  have refs : (n == 3 && !env.refA && !env.refB) = false := by
    obtain a | b := h.refs
    · rw [a]
      simp
    · rw [b]
      simp
  have main : (n == 2 && !env.v48) = false := by
    obtain e | e := supply
    · simp [e]
    · simp [e]
  rw [Machine.stepWaits, main, refs, h.perst, h.link]
  simp

theorem Sound.runSteps {l : List Nat} (h : Sound s.plat.fuse env) (hl : ∀ n ∈ l, n ≠ 0) (supply : ∀ n ∈ l, n ≠ 2 ∨ env.v48 = true) :
    runSteps 0 env l s = (l.foldl (stepDone env) s, none) := by
  induction l generalizing s with
  | nil => rfl
  | cons n l ih =>
    have fuse : (stepDone env s n).plat.fuse = s.plat.fuse :=
      ((StartKept.refl s).stepDone env n).plat ▸ stepPlat_fuse env n s
    rw [Machine.runSteps, h.stepHalts (hl n List.mem_cons_self), if_neg Bool.false_ne_true, h.stepWaits (supply n List.mem_cons_self),
      if_neg Bool.false_ne_true]
    exact ih (fuse ▸ h) (fun m hm => hl m (List.mem_cons_of_mem n hm)) fun m hm => supply m (List.mem_cons_of_mem n hm)

/-- The state that start-up begins from, PERST# released. -/
def released (s : State) : State := { s with plat := { s.plat with perst := true } }

theorem startUp_eq_of_runSteps {first : Nat} (fails : env.fails = []) (perst : env.perstReleased = true)
    (run : runSteps 0 env (span first (11 - first)) (released s) = (t, none)) : startUp first env s = t := by
  unfold released at run
  simp only [startUp, fails, List.getD_nil, perst, run]

/-- A start-up in which nothing fails does its steps in turn. -/
theorem Sound.startUp_steps {first : Nat} (h : Sound s.plat.fuse env) (hf : first ≠ 0) (supply : first ≤ 2 → env.v48 = true) :
    StartKept ((span first (11 - first)).foldl (platDone env) (released s)) (startUp first env s) := by
  have from_first : ∀ n ∈ span first (11 - first), first ≤ n := by
    intro n hn
    obtain ⟨k, -, rfl⟩ := List.mem_map.mp hn
    omega
  have run := Sound.runSteps (s := released s) h (l := span first (11 - first))
    (fun n hn => by have := from_first n hn; omega) fun n hn => by
      have := from_first n hn
      by_cases e : n = 2
      · exact .inr (supply (by omega))
      · exact .inl e
  rw [startUp_eq_of_runSteps h.steps h.perst run]
  exact .steps env _ (.refl _)

/-! ## The module is READY -/

/-- What start-up has left so far: fuses, the supply of the Helmet and its outputs, RESET_n, the cause of the reset. -/
structure UnderWay (s t : State) : Prop where
  fuse : t.plat.fuse = s.plat.fuse
  aux : t.plat.aux = s.plat.aux
  rst : t.plat.rst = s.plat.rst
  safety : t.safety = s.safety
  cause : odGet t 0x2A00 1 = odGet s 0x2A00 1

theorem UnderWay.refl (s : State) : UnderWay s s := ⟨rfl, rfl, rfl, rfl, rfl⟩

theorem UnderWay.trans {s t u : State} (h : UnderWay s t) (k : UnderWay t u) : UnderWay s u :=
  ⟨k.fuse.trans h.fuse, k.aux.trans h.aux, k.rst.trans h.rst, k.safety.trans h.safety, k.cause.trans h.cause⟩

theorem underWay_platDone (env : StartEnv) (s : State) (n : Nat) : UnderWay s (platDone env s n) := by
  unfold platDone stepPlat
  split
  · exact ⟨rfl, rfl, rfl, rfl, (odGet_odSet _ _ _ _ _ _).trans (if_neg (by decide))⟩
  · exact ⟨rfl, rfl, rfl, rfl, rfl⟩
  · exact ⟨rfl, rfl, rfl, rfl, rfl⟩
  · exact ⟨rfl, rfl, rfl, rfl, rfl⟩
  · exact ⟨rfl, rfl, rfl, rfl, rfl⟩

/-- What a start-up in which nothing fails reaches from `s`. -/
structure Up (env : StartEnv) (s t : State) : Prop extends UnderWay s t where
  ready : t.plat.ready = true
  step : t.plat.step = 10
  link : t.plat.linkUp = true
  digest : t.plat.fwDigest = sha384 (if slotGood s.plat.fuse env.slotA then env.slotA.image else env.slotB.image)

/-- The last three steps: firmware, READY, the link. -/
theorem up_platDone (h : UnderWay s t) (env : StartEnv) : Up env s ([8, 9, 10].foldl (platDone env) t) where
  toUnderWay := h.trans (foldl_keeps UnderWay.refl UnderWay.trans (underWay_platDone env) _ _)
  ready := rfl
  step := rfl
  link := rfl
  digest := by
    change sha384 (if slotGood t.plat.fuse env.slotA then env.slotA else env.slotB).image = _
    rw [apply_ite FwSlot.image, h.fuse]

theorem Up.kept {u : State} (h : Up env s t) (k : StartKept t u) : Up env s u where
  fuse := k.plat ▸ h.fuse
  aux := k.plat ▸ h.aux
  rst := k.plat ▸ h.rst
  safety := k.safety.trans h.safety
  cause := k.cause.trans h.cause
  ready := k.plat ▸ h.ready
  step := k.plat ▸ h.step
  link := k.plat ▸ h.link
  digest := k.plat ▸ h.digest

theorem underWay_steps (env : StartEnv) (l : List Nat) (s : State) : UnderWay s (l.foldl (platDone env) (released s)) :=
  (show UnderWay s (released s) from ⟨rfl, rfl, rfl, rfl, rfl⟩).trans
    (foldl_keeps UnderWay.refl UnderWay.trans (underWay_platDone env) l (released s))

theorem Sound.startUp {first : Nat} (h : Sound s.plat.fuse env) (lo : first ≠ 0) (hi : first ≤ 8) (supply : first ≤ 2 → env.v48 = true) :
    Up env s (startUp first env s) := by
  have steps : span first (11 - first) = span first (8 - first) ++ [8, 9, 10] := by
    interval_cases first <;> rfl
  have kept := h.startUp_steps lo supply
  rw [steps, List.foldl_append] at kept
  exact (up_platDone (underWay_steps env _ s) env).kept kept

/-- No step but the second touches PowerOnCount or finds a supply. -/
theorem platDone_rails (env : StartEnv) (s : State) {n : Nat} (hn : n ≠ 2) :
    odGet (platDone env s n) 0x2A00 3 = odGet s 0x2A00 3 ∧ (platDone env s n).plat.v48 = s.plat.v48 := by
  unfold platDone stepPlat
  split
  · contradiction
  · exact ⟨rfl, rfl⟩
  · exact ⟨rfl, rfl⟩
  · exact ⟨rfl, rfl⟩
  · exact ⟨rfl, rfl⟩

theorem steps_rails (env : StartEnv) (s : State) {l : List Nat} (hl : ∀ n ∈ l, n ≠ 2) :
    odGet (l.foldl (platDone env) s) 0x2A00 3 = odGet s 0x2A00 3 ∧ (l.foldl (platDone env) s).plat.v48 = s.plat.v48 := by
  induction l generalizing s with
  | nil => exact ⟨rfl, rfl⟩
  | cons n l ih =>
    obtain ⟨count, v48⟩ := platDone_rails env s (hl n List.mem_cons_self)
    obtain ⟨counts, supply⟩ := ih (platDone env s n) fun m hm => hl m (List.mem_cons_of_mem n hm)
    exact ⟨counts.trans count, supply.trans v48⟩

/-- A start-up from step 1 or 2 takes the main supply and counts the power-on (R501). -/
theorem Sound.startUp_rails {first : Nat} (h : Sound s.plat.fuse env) (lo : first ≠ 0) (hi : first ≤ 2) (v48 : env.v48 = true) :
    odGet (Machine.startUp first env s) 0x2A00 3 = satAdd (2 ^ 32 - 1) (odGet s 0x2A00 3) 1 ∧
      (Machine.startUp first env s).plat.v48 = true := by
  have steps : span first (11 - first) = span first (2 - first) ++ 2 :: [3, 4, 5, 6, 7, 8, 9, 10] := by
    interval_cases first <;> rfl
  obtain ⟨plat, -, -, count⟩ := h.startUp_steps lo fun _ => v48
  rw [steps, List.foldl_append] at plat count
  obtain ⟨before, -⟩ := steps_rails env (released s) (l := span first (2 - first)) (by interval_cases first <;> decide)
  obtain ⟨after, supply⟩ := steps_rails env (platDone env ((span first (2 - first)).foldl (platDone env) (released s)) 2)
    (l := [3, 4, 5, 6, 7, 8, 9, 10]) (by decide)
  constructor
  · rw [count, List.foldl_cons, after]
    have counted := odGet_startRails ((span first (2 - first)).foldl (platDone env) (released s))
    rw [before] at counted
    exact counted
  · rw [plat, List.foldl_cons, supply]
    rfl

/-- A start-up from step 3 counts none. -/
theorem Sound.startUp_count (h : Sound s.plat.fuse env) : odGet (Machine.startUp 3 env s) 0x2A00 3 = odGet s 0x2A00 3 :=
  (h.startUp_steps (by omega) (by omega)).count.trans (steps_rails env (released s) (by decide)).1

/-! ## The supplies come up, RESET_n is released (R497, R499, R500, R513) -/

/-- The end of the fences and the reset before it leave PowerOnCount. -/
theorem odGet_dropFences_dieReset (rise : keysRise s.od = true) : odGet (dropFences (dieReset s)) 0x2A00 3 = odGet s 0x2A00 3 := by
  have kept : odGet (dropFences (dieReset s)) 0x2A00 3 = odGet (dieReset s) 0x2A00 3 := by
    have read : kget (dropFences (dieReset s)).od (odKey 0x2A00 3) = kget (dieReset s).od (odKey 0x2A00 3) :=
      kget_filter ((Keeps.dieReset (.refl s)).od rise) (fun k => !fenceEntry k) (odKey 0x2A00 3)
    rw [odGet, read, odGet]
  rw [kept, (dieDown_dieReset rise).count]

/-- The Helmet as the auxiliary supply finds it, its two entries set (R500, R513). -/
def poweredHelmet (env : StartEnv) (s : State) : State :=
  let s1 := dropFences (dieReset s)
  let s2 := { s1 with
    plat := { Plat.initial with fuse := s.plat.fuse, aux := true, commission := env.commission, failRec := s.plat.failRec }
    win := []
    safety := State.reset.safety
    serv := { s1.serv with openCred := env.commission } }
  odSet (odSet s2 0x2A00 1 0) 0x2800 7 (env.oscDly % 8)

theorem poweredHelmet_entries (env : StartEnv) (rise : keysRise s.od = true) :
    odGet (poweredHelmet env s) 0x2A00 1 = 0 ∧ odGet (poweredHelmet env s) 0x2A00 3 = odGet s 0x2A00 3 := by
  constructor
  · rw [poweredHelmet, odGet_odSet, if_neg (by decide), odGet_odSet_self]
  · rw [poweredHelmet, odGet_odSet, if_neg (by decide), odGet_odSet, if_neg (by decide)]
    exact odGet_dropFences_dieReset rise

theorem powerOn_up (rise : keysRise s.od = true) (sound : Sound s.plat.fuse env) (aux : s.plat.aux = false) (v48 : env.v48 = true) :
    ∃ t, exec (.powerOn env) s = .next t ∧ Up env (poweredHelmet env s) t ∧ odGet t 0x2A00 1 = 0 ∧
      odGet t 0x2A00 3 = satAdd (2 ^ 32 - 1) (odGet s 0x2A00 3) 1 := by
  obtain ⟨cause, count⟩ := poweredHelmet_entries env rise
  have sound' : Sound (poweredHelmet env s).plat.fuse env := sound
  have up := sound'.startUp (first := 1) (by omega) (by omega) fun _ => v48
  refine ⟨startUp 1 env (poweredHelmet env s), ?_, up, up.cause.trans cause, ?_⟩
  · change execPowerOn env s = _
    rw [execPowerOn, if_neg (by simp [aux])]
    rfl
  · rw [(sound'.startUp_rails (first := 1) (by omega) (by omega) v48).1, count]

/-- The module as the return of the main supply finds it (R499). -/
def supplyBack (s : State) : State :=
  let s1 := dropFences (dieReset (enterSafe 0 s))
  { s1 with plat := { s1.plat with halts := 0, faultPins := 0 } }

theorem supplyBack_kept (rise : keysRise s.od = true) :
    (supplyBack s).plat.fuse = s.plat.fuse ∧ odGet (supplyBack s) 0x2A00 3 = odGet s 0x2A00 3 := by
  obtain ⟨-, frame, -, -⟩ := enterSafe_spec 0 s
  have od : (enterSafe 0 s).od = s.od := by rw [frame]
  have plat : (enterSafe 0 s).plat = s.plat := by rw [frame]
  constructor
  · change (enterSafe 0 s).plat.fuse = _
    rw [plat]
  · exact (odGet_dropFences_dieReset (s := enterSafe 0 s) (od ▸ rise)).trans (odGet_of_od_eq od _ _)

theorem mainSupply_back (rise : keysRise s.od = true) (sound : Sound s.plat.fuse env) (aux : s.plat.aux = true) (v48 : s.plat.v48 = false)
    (rst : s.plat.rst = false) :
    ∃ t, exec (.mainSupplyReturn env) s = .next t ∧ Up { env with v48 := true } (supplyBack s) t ∧ t.plat.v48 = true ∧
      odGet t 0x2A00 3 = satAdd (2 ^ 32 - 1) (odGet s 0x2A00 3) 1 := by
  obtain ⟨fuse, count⟩ := supplyBack_kept rise
  have sound' : Sound (supplyBack s).plat.fuse { env with v48 := true } := by
    rw [fuse]
    exact sound.supplied
  have up := sound'.startUp (first := 2) (by omega) (by omega) fun _ => rfl
  obtain ⟨counted, supplied⟩ := sound'.startUp_rails (first := 2) (by omega) (by omega) rfl
  refine ⟨_, ?_, up, supplied, ?_⟩
  · change execMainSupplyReturn env s = _
    rw [execMainSupplyReturn, if_neg (by simp [aux, v48, rst])]
    rfl
  · rw [counted, count]

theorem resetN_released (sound : Sound s.plat.fuse env) (rst : s.plat.rst = true) (v48 : s.plat.v48 = true) :
    ∃ t, exec (.resetNRelease env) s = .next t ∧ Up { env with v48 := true } { s with plat := { s.plat with rst := false } } t ∧
      odGet t 0x2A00 3 = odGet s 0x2A00 3 := by
  have sound' : Sound { s with plat := { s.plat with rst := false } }.plat.fuse { env with v48 := true } := sound.supplied
  refine ⟨_, ?_, sound'.startUp (first := 3) (by omega) (by omega) (by omega), sound'.startUp_count⟩
  change execResetNRelease env s = _
  rw [execResetNRelease, if_neg (by simp [rst])]
  simp only [v48, if_true]

/-! ## The obligation -/

theorem DieDown.conj {f : Fuse} {u : State} (h : DieDown f u t) :
    (∀ d, d ≤ 52 → domainState t d = 0) ∧ t.mem = [] ∧ t.launches = [] ∧ t.tiles = [] ∧ t.plat.ready = false ∧ t.plat.fuse = f ∧
      t.safety.outs = false ∧ odGet t 0x2A00 3 = odGet u 0x2A00 3 ∧
      (∀ c, 0x1101 ≤ c → c ≤ 0x113F → ∀ j, j < 256 → odGet t c j = odGet u c j) ∧
      t.serv.audit = u.serv.audit ∧ t.serv.auditCount = u.serv.auditCount ∧ t.serv.chain = u.serv.chain := by
  obtain ⟨mem, launches, tiles⟩ := h.empty
  exact ⟨h.domains, mem, launches, tiles, h.ready, h.fuse, h.outs, h.count, h.credentials, h.audit⟩

theorem Up.conj (h : Up env s t) {f : Fuse} (fuse : s.plat.fuse = f) :
    t.plat.ready = true ∧ t.plat.step = 10 ∧ t.plat.linkUp = true ∧ t.plat.fuse = f ∧
      t.plat.fwDigest = sha384 (if slotGood f env.slotA then env.slotA.image else env.slotB.image) :=
  fuse ▸ ⟨h.ready, h.step, h.link, h.fuse, h.digest⟩

/-- Settles O27: what each reset takes is `DieDown`; a start-up in which nothing fails is its steps in turn, and each part of a step
keeps the platform and PowerOnCount but for what `stepPlat` says. -/
theorem suppliesAndResets : Obligations.SuppliesAndResets := by
  intro s ns env rise
  dsimp only
  refine ⟨fun aux rst long => ?_, resetN_between, resetN_short, fun aux v48 => ?_, ?_,
    fun steps tiles col refs perst link slot => ?_, ?_, ?_, ?_⟩
  · obtain ⟨down, pin, causes, cause⟩ := resetPin_down rise
    exact ⟨resetPin s, resetN_valid aux rst long, down.conj, pin, causes, cause⟩
  · obtain ⟨t, run, down, rest⟩ := mainSupply_lost rise aux v48
    exact ⟨t, run, down.conj, rest⟩
  · obtain ⟨t, run, down, rest⟩ := auxSupply_lost rise
    exact ⟨t, run, down.conj, rest⟩
  · have sound : Sound s.plat.fuse env := ⟨steps, tiles, col, refs, perst, link, slot⟩
    refine ⟨fun aux v48 => ?_, fun aux v48 rst => ?_, fun rst v48 => ?_⟩
    · obtain ⟨t, run, up, cause, count⟩ := powerOn_up rise sound aux v48
      exact ⟨t, run, up.conj rfl, up.aux, cause, count, by rw [up.safety]; rfl⟩
    · obtain ⟨t, run, up, supplied, count⟩ := mainSupply_back rise sound aux v48 rst
      exact ⟨t, run, up.conj (supplyBack_kept rise).1, supplied, count⟩
    · obtain ⟨t, run, up, count⟩ := resetN_released sound rst v48
      exact ⟨t, run, up.conj rfl, up.rst, count⟩
  · exact fun aux => if_pos aux
  · exact fun v48 => if_pos (.inr (.inl v48))
  · exact fun rst => if_pos (by rw [rst]; rfl)

end Sys2Proof.Machine
end

section
/-! PROOFS. BAR, FLAG and SEND hand their flits to the router, and a hand-off comes due (O8). -/

namespace Sys2Proof.Machine

/-! ## Issue (R84, R85, R235, R236) -/

/-- An instruction that issues has the opcode of its command, and the management complex runs it only where R261 lets it. -/
theorem fetch_opcode {s : State} {pos tc opc r : Nat} {c : Ctx} (h : fetch s pos tc opc r = .go c) :
    c.f 58 6 = opc ∧ (c.free = true → mgmtLegal opc = true) := by
  unfold fetch at h
  split at h
  · exact absurd h (by simp)
  · rename_i d _
    dsimp only at h
    by_cases illegal : (!(if d.free then mgmtLegal (d.f 58 6) else opcLegal (kindOf pos) (d.f 58 6))) = true
    · rw [if_pos illegal] at h
      exact absurd h (by simp)
    · rw [if_neg illegal] at h
      by_cases opcode : d.f 58 6 = opc
      · rw [if_neg (not_not.2 opcode)] at h
        split at h
        · exact absurd h (by simp)
        · injection h with same
          subst same
          exact ⟨opcode, fun free => by simpa [free, opcode] using illegal⟩
      · rw [if_pos opcode] at h
        exact absurd h (by simp)

/-- Words handed one a tc are acts under way, one a tc. -/
theorem handWords_range (c : Ctx) (d n : Nat) (g : Nat → Flit) (s : State) :
    handWords c d ((List.range n).map g) s = underWay c ((List.range n).map fun j => (d + j, .hand (g j))) s := by
  unfold handWords underWay
  rw [List.length_map, List.length_range, List.foldl_map]
  refine List.foldl_ext _ _ _ fun t j hj => ?_
  have there : ((List.range n).map g)[j]? = some (g j) := by simp [List.mem_range.1 hj]
  rw [there]

/-- A number of two digits, summed over more places. -/
theorem sum_two_digits {b x : Nat} (one : 1 < b) (h : x < b) (n : Nat) :
    (List.range (n + 2)).foldl (fun a i => a + ((if i = 0 then 1 else if i = 1 then x else 0) % b) * b ^ i) 0 = 1 + b * x := by
  induction n with
  | zero =>
    have two : List.range (0 + 2) = [0, 1] := rfl
    simp [two, Nat.mod_eq_of_lt one, Nat.mod_eq_of_lt h, Nat.mul_comm]
  | succ n ih =>
    rw [List.range_succ, List.foldl_append, ih, List.foldl_cons, List.foldl_nil, if_neg (by omega), if_neg (by omega), Nat.zero_mod,
      Nat.zero_mul, Nat.add_zero]

/-- Lane 0 of a BAR's word is 1, lane 1 its stamp (R84). -/
theorem ofLanes_bar {stamp : Nat} (h : stamp < 2 ^ 64) :
    ofLanes (fun i => if i = 0 then 1 else if i = 1 then stamp else 0) = 1 + 2 ^ 64 * stamp := by
  unfold ofLanes
  simp only [pow_mul]
  exact sum_two_digits (by norm_num) h 6

theorem bar_issued {s : State} {pos tc : Nat} {c : Ctx} (h : Issues s pos tc 0x08 (bits 57 32 ||| bits 19 16) c) :
    ∃ t u, exec (.bar pos tc) s = .next t ∧ tileOf u pos = tileAfter c 1 (tileOf (reached s pos tc) pos) ∧
      TileFrame pos (reached s pos tc) u ∧
      t = issued c [(1, .hand (mkFlit c (c.f 20 12) true false
        (1 + 2 ^ 64 * ((sysAt (reached s pos tc) tc % 2 ^ 48) * 2 ^ 16 + c.f 0 16))))] u := by
  obtain ⟨hpos, -, plan⟩ := h.spec
  obtain ⟨-, legal⟩ := fetch_opcode h.2.2.1
  have inPlan : c.free = false := Bool.eq_false_iff.2 fun free => absurd (legal free) (by decide)
  refine ⟨_, stepOn c 1 (reached s pos tc), ?_, tileOf_stepOn_at hpos 1 _, tileFrame_stepOn_at hpos 1 _, rfl⟩
  change execBar pos tc s = _
  refine runInstr_issued h ?_
  have low : c.f 0 16 < 2 ^ 16 := Nat.mod_lt _ (by norm_num)
  have count : sysAt (reached s pos tc) tc % 2 ^ 48 < 2 ^ 48 := Nat.mod_lt _ (by norm_num)
  dsimp only
  rw [plan inPlan, ofLanes_bar (by omega)]
  rfl

theorem flag_issued {s : State} {pos tc : Nat} {c : Ctx} (h : Issues s pos tc 0x0A (bits 57 32 ||| bits 19 0) c) :
    ∃ t u, exec (.flag pos tc) s = .next t ∧
      t = issued c [(1, .hand (mkFlit c (c.f 20 12) false false (tileOf (reached s pos tc) pos).fl))] u ∧
      tileOf u pos = tileAfter c 1 (tileOf (reached s pos tc) pos) ∧ TileFrame pos (reached s pos tc) u := by
  obtain ⟨hpos, -, -⟩ := h.spec
  refine ⟨_, stepOn c 1 (reached s pos tc), ?_, rfl, tileOf_stepOn_at hpos 1 _, tileFrame_stepOn_at hpos 1 _⟩
  change execFlag pos tc s = _
  refine runInstr_issued h ?_
  rw [hpos]
  rfl

theorem sendFl_issued {s : State} {pos tc : Nat} {c : Ctx} (h : Issues s pos tc 0x05 (bits 19 0) c) (fl : c.f 56 2 = 2) (one : c.f 32 8 = 0) :
    ∃ t u, exec (.send pos tc) s = .next t ∧
      t = issued c [(1, .hand (mkFlit c (c.f 20 12) false false (tileOf (reached s pos tc) pos).fl))] u ∧
      tileOf u pos = tileAfter c 1 (tileOf (reached s pos tc) pos) ∧ TileFrame pos (reached s pos tc) u := by
  obtain ⟨hpos, -, -⟩ := h.spec
  refine ⟨_, stepOn c 1 (reached s pos tc), ?_, rfl, tileOf_stepOn_at hpos 1 _, tileFrame_stepOn_at hpos 1 _⟩
  change execSend pos tc s = _
  refine runInstr_issued h ?_
  rw [fl, one, hpos]
  rfl

/-- The words of a register block that a tile has, one by one. -/
theorem blockWords_eq {c : Ctx} {n : Nat} (has : blockHas (kindOf c.pos) n = true) (t : Tile) :
    blockWords c n t = (List.range n).map fun j =>
      if kindOf c.pos = .v then (vxRead t (c.f 40 4) j, vxPoison t (c.f 40 4)) else (gBlock t, (span 24 8).any (gPoison t)) := by
  unfold blockWords
  cases kind : kindOf c.pos with
  | v => simp
  | s =>
    rw [kind] at has
    have one : n = 1 := by simpa [blockHas] using has
    subst one
    simp
  | m => rw [kind] at has; exact absurd has (by simp [blockHas])
  | port => rw [kind] at has; exact absurd has (by simp [blockHas])

theorem sendBlock_issued {s : State} {pos tc : Nat} {c : Ctx} (h : Issues s pos tc 0x05 (bits 19 0) c) (block : c.f 56 2 = 3)
    (has : blockHas (kindOf pos) (c.f 32 8 + 1) = true) :
    let T := tileOf (reached s pos tc) pos
    ∃ t u, exec (.send pos tc) s = .next t ∧ tileOf u pos = tileAfter c 1 T ∧ TileFrame pos (reached s pos tc) u ∧
      t = issued c ((List.range (c.f 32 8 + 1)).map fun j =>
        let w := if kindOf pos = .v then (vxRead T (c.f 40 4) j, vxPoison T (c.f 40 4)) else (gBlock T, (span 24 8).any (gPoison T))
        (1 + j, .hand (mkFlit c (c.f 20 12) false w.2 w.1))) u := by
  obtain ⟨hpos, -, -⟩ := h.spec
  refine ⟨_, stepOn c 1 (reached s pos tc), ?_, tileOf_stepOn_at hpos 1 _, tileFrame_stepOn_at hpos 1 _, rfl⟩
  change execSend pos tc s = _
  refine runInstr_issued h ?_
  rw [block]
  dsimp only
  rw [blockWords_eq (by rwa [hpos]), List.map_map, handWords_range, hpos, has]
  rfl

theorem sendBank_issued {s : State} {pos tc : Nat} {c : Ctx} (h : Issues s pos tc 0x05 (bits 19 0) c) (bank : c.f 56 2 < 2) :
    let a := addrBank pos (c.f 56 2 == 1) (c.f 40 16)
    ∃ t u, exec (.send pos tc) s = .next t ∧ tileOf u pos = tileAfter c 1 (tileOf (reached s pos tc) pos) ∧
      TileFrame pos (reached s pos tc) u ∧ t = issued c [(if c.f 56 2 = 1 then 2 else 1, .read a.1 a.2 0 [] 0)] u := by
  obtain ⟨hpos, -, -⟩ := h.spec
  refine ⟨_, stepOn c 1 (reached s pos tc), ?_, tileOf_stepOn_at hpos 1 _, tileFrame_stepOn_at hpos 1 _, rfl⟩
  change execSend pos tc s = _
  refine runInstr_issued h ?_
  subst hpos
  rcases Nat.lt_succ_iff_lt_or_eq.1 bank with own | cmn
  · rw [Nat.lt_one_iff.1 own]
    rfl
  · rw [cmn]
    rfl

/-! ## A word of a SEND is read (R105, R235) -/

theorem dueIn_now (c : Ctx) (l : List (Nat × Act)) (s : State) : (dueIn c l s).now = s.now := by
  induction l generalizing s with
  | nil => rfl
  | cons x l ih => exact ih _

/-- Acts that follow some tc later leave a tc in which nothing more is due. -/
theorem later_dueIn {c : Ctx} {l : List (Nat × Act)} {tc : Nat} {s : State} (plan : c.free = false) (hl : ∀ x ∈ l, 0 < x.1) (now : s.now = tc)
    (h : Later tc s) : Later tc (dueIn c l s) := by
  induction l generalizing s with
  | nil => exact h
  | cons x l ih =>
    exact ih (fun y hy => hl y (List.mem_cons_of_mem _ hy)) (by exact now)
      (later_schedIn plan (hl x List.mem_cons_self) now h x.2)

/-- What a word of a SEND leads to: its flit, and the read of the next word. -/
def sendActs (c : Ctx) (b w j arg : Nat) (got : List (Nat × Nat)) (d : Nat × Nat) : List (Nat × Act) :=
  (if c.f 56 2 = 1 then 3 else 1, .hand (mkFlit c (c.f 20 12) false (d.2 != 0) d.1)) ::
    if j < c.f 32 8 then [(1, .read b (w + 1) (j + 1) (got ++ [(0, d.2)]) arg)] else []

theorem readOn_send {c : Ctx} (send : c.f 58 6 = 0x05) (b w j arg : Nat) (got : List (Nat × Nat)) (d : Nat × Nat) (s : State) :
    readOn c b w j arg got d (0, 0) s = dueIn c (sendActs c b w j arg got d) s := by
  have cmn : readsCmn c = (c.f 56 2 == 1) := by simp [readsCmn, send]
  have topk : isTopk c = false := by simp [isTopk, send]
  have kept : keepWord c got d = got ++ [(0, d.2)] := by simp [keepWord, send]
  have count (got : List (Nat × Nat)) : readCount c got = c.f 32 8 + 1 := by simp [readCount, send]
  have last (t : State) (late : Nat) (got : List (Nat × Nat)) : lastWord c arg late got t = t := by simp [lastWord, send]
  have used (t : State) (late : Nat) : useWord c j arg late got d (0, 0) t =
      schedIn c (if c.f 56 2 = 1 then 3 else 1) (.hand (mkFlit c (c.f 20 12) false (d.2 != 0) d.1)) t := by
    unfold useWord
    rw [send]
    dsimp only
    rw [cmn]
    simp only [beq_iff_eq]
  unfold readOn sendActs
  simp only [topk, send, kept, count, used, last, Bool.false_eq_true, false_and, if_false, Nat.reduceEqDiff, Bool.not_true, Nat.add_lt_add_iff_right]
  split <;> rfl

theorem send_read {s : State} {x : Item} {l : List Item} {b w j arg : Nat} {got : List (Nat × Nat)} (h : Alone s x l)
    (served : Served s x.c.glove b w) (send : x.c.f 58 6 = 0x05) (act : x.act = .read b w j got arg) :
    advance x.tc s = dueIn x.c (sendActs x.c b w j arg got (wordAt s b w)) (readState s x l b w) := by
  have frame := (afterRead_readState s x l b w).1
  have done : serve x (dueState s x l) = dueIn x.c (sendActs x.c b w j arg got (wordAt s b w)) (readState s x l b w) := by
    have one : portAOne x.c b w .read (dueState s x l) = (none, wordAt s b w, portAActed b w .read (dueState s x l)) :=
      portAOne_served (s := dueState s x l) served .read
    unfold serve
    rw [act]
    dsimp only
    rw [one]
    dsimp only
    rw [if_neg (by simp [send]), readDone_none, readOn_send send]
    rfl
  have ⟨_, _, later, _, plan⟩ := h
  have now : (readState s x l b w).now = x.tc := by
    rw [frame]
    rfl
  have positive : ∀ y ∈ sendActs x.c b w j arg got (wordAt s b w), 0 < y.1 := by
    unfold sendActs
    intro y hy
    rcases List.mem_cons.1 hy with rfl | hy
    · dsimp only
      split <;> omega
    · split at hy
      · rw [List.mem_singleton.1 hy]
        exact Nat.one_pos
      · exact absurd hy List.not_mem_nil
  refine advance_served h (by rw [Item.bank, act]) (by simp [Item.kind, act]) done ((dueIn_now _ _ _).trans now)
    (later_dueIn plan positive now ?_)
  rw [frame]
  exact later

/-! ## A hand-off comes due (R236, R263) -/

theorem advance_hand {s : State} {x : Item} {l : List Item} {f : Flit} (h : Alone s x l) (act : x.act = .hand f) :
    advance x.tc s = handNow x.c.pos f (dueState s x l) := by
  have performed : perform x (dueState s x l) = handNow x.c.pos f (dueState s x l) := by simp only [perform, act]
  have frame : (handNow x.c.pos f (dueState s x l)).now = x.tc ∧ (handNow x.c.pos f (dueState s x l)).agenda = l := by
    unfold handNow
    extract_lets t a
    split
    · exact ⟨rfl, rfl⟩
    · have noted := noted_report x.c.pos 0x0604 x.c.pos 0 f.glove (leBytes 4 (dueState s x l).now) (winBump (dueState s x l) a 20 4 1)
      unfold Noted at noted
      rw [noted]
      exact ⟨rfl, rfl⟩
  rw [← performed] at frame ⊢
  exact advance_change h (by simp [Item.isPort, Item.bank, act]) (by simp [Item.isRows, act]) (by simp [Item.isCheck, act])
    (by simp [Item.isExc, act]) frame.1 (fun y hy => h.2.2.1 y (frame.2 ▸ hy))

/-- A count of a record changes one register of the router (R95). -/
theorem winGet_report (pos code unit sub glove : Nat) (d : List Byte) (s : State) {a : Nat} (h : regHome a ≠ tileBase pos + 0xFE010) :
    winGet (report pos code unit sub glove d s) a = winGet s a := by
  have home : regHome (tileBase pos + 0xFE010) = tileBase pos + 0xFE010 := regHome_tile pos 0xFE010 (by omega) (by omega)
  have other (t : State) (v : Nat) : winGet (winSet t (tileBase pos + 0xFE010) v) a = winGet t a := by
    rw [winGet_winSet, home, if_neg (Ne.symm h)]
  unfold report vc3Raise vc3Arrive vc3Take
  dsimp only
  repeat' split
  · exact other _ _
  · exact other _ _
  · rfl

/-- A field that is counted up stops at all ones; no other field of a register changes. -/
theorem fld_winBump (s : State) (a lo w d : Nat) (h : lo + w ≤ 32) :
    fld (winGet (winBump s a lo w d) a) lo w = satAdd (2 ^ w - 1) (fld (winGet s a) lo w) d := by
  have bound : satAdd (2 ^ w - 1) (fld (winGet s a) lo w) d < 2 ^ w := by
    have : 0 < 2 ^ w := by positivity
    unfold satAdd
    split <;> omega
  rw [winBump, winGet_winSet_self, fld_mod_two_pow _ _ _ _ h, fld_putFld_self, Nat.mod_eq_of_lt bound]

theorem handNow_room {pos : Nat} {f : Flit} {s : State} (h : (tileOf s pos).inj.length < 8) :
    TileFrame pos s (handNow pos f s) ∧
      tileOf (handNow pos f s) pos = { tileOf s pos with inj := (tileOf s pos).inj ++ [(s.now + 2, f)] } := by
  have home := regHome_tile pos 0xF2018 (by omega) (by omega)
  unfold handNow
  extract_lets t a
  rw [if_pos h]
  refine ⟨?_, tileOf_setTile_self _ _ _⟩
  exact (tileFrame_adjTile pos (fun _ => { t with inj := t.inj ++ [(s.now + 2, f)] }) s).trans
    (tileFrame_winSet pos _ _ _ home (by omega) (by omega))

theorem handNow_full {pos : Nat} {f : Flit} {s : State} (h : 8 ≤ (tileOf s pos).inj.length) :
    Noted s (handNow pos f s) ∧
      fld (winGet (handNow pos f s) (tileBase pos + 0xF2018)) 20 4 = satAdd 15 (fld (winGet s (tileBase pos + 0xF2018)) 20 4) 1 := by
  have home := regHome_tile pos 0xF2018 (by omega) (by omega)
  unfold handNow
  extract_lets t a
  rw [if_neg (Nat.not_lt.2 h)]
  refine ⟨(noted_winBump _ _ _ _ _).trans (noted_report _ _ _ _ _ _ _), ?_⟩
  rw [winGet_report _ _ _ _ _ _ _ (by omega)]
  exact fld_winBump s a 20 4 1 (by omega)

/-! ## The obligation -/

/-- Settles O8: each instruction by its issue, then a read of a SEND and a hand-off that are alone in their tc. -/
theorem handOffInstructionsComplete : Obligations.HandOffInstructionsComplete := by
  unfold Obligations.HandOffInstructionsComplete
  refine ⟨fun s pos tc c => ⟨bar_issued, flag_issued, sendFl_issued, sendBlock_issued, sendBank_issued⟩, ?_, ?_⟩
  · intro s x l b w j arg got alone send act served
    exact ⟨_, afterRead_readState s x l b w, send_read alone served send act⟩
  · intro s x l f alone act
    dsimp only
    rw [advance_hand alone act]
    refine ⟨fun room => handNow_room (s := dueState s x l) room, fun full => ?_⟩
    obtain ⟨noted, dropped⟩ := handNow_full (f := f) (s := dueState s x l) full
    unfold Noted at noted
    exact ⟨by rw [noted]; rfl, by rw [noted]; rfl, by rw [noted]; rfl, dropped⟩

end Sys2Proof.Machine
end

section
/-! PROOFS. Routers: what a slot's inputs bring, what leaves on a link, and the combined words (O36). -/

namespace Sys2Proof.Machine

/-! ## One router -/

@[simp] theorem routerOf_setRouter_self (pos : Nat) (r : Router) (s : State) : routerOf (setRouter pos r s) pos = r := by
  simp [routerOf, setRouter]

@[simp] theorem routerOf_adjRouter_self (pos : Nat) (f : Router → Router) (s : State) : routerOf (adjRouter pos f s) pos = f (routerOf s pos) := by
  simp [adjRouter]

theorem routerOf_of_kget {s t : State} {q : Nat} (h : kget t.routers q = kget s.routers q) : routerOf t q = routerOf s q := by
  rw [routerOf, kgetD, h]
  rfl

theorem kget_adjRouter_other {pos q : Nat} (f : Router → Router) (s : State) (h : q ≠ pos) :
    kget (adjRouter pos f s).routers q = kget s.routers q :=
  kget_kput_other _ _ (Ne.symm h)

/-- No position is its own neighbour. -/
theorem neighbour_ne {pos d p : Nat} (h : neighbour pos d = some p) : p ≠ pos := by
  unfold neighbour posRow posCol at h
  split at h <;> split at h <;> simp only [Option.some.injEq, reduceCtorEq] at h <;> omega

/-- From s to t one router has changed, and its slot plan has not. -/
structure RouterOnly (pos : Nat) (s t : State) : Prop where
  rest : t = { s with routers := t.routers }
  others : ∀ q, q ≠ pos → kget t.routers q = kget s.routers q
  plan : (routerOf t pos).segs = (routerOf s pos).segs ∧ (routerOf t pos).slots = (routerOf s pos).slots

theorem RouterOnly.refl (pos : Nat) (s : State) : RouterOnly pos s s := ⟨rfl, fun _ _ => rfl, rfl, rfl⟩

theorem RouterOnly.trans {pos : Nat} {s t u : State} (h1 : RouterOnly pos s t) (h2 : RouterOnly pos t u) : RouterOnly pos s u where
  rest := by rw [h2.rest, h1.rest]
  others q hq := (h2.others q hq).trans (h1.others q hq)
  plan := ⟨h2.plan.1.trans h1.plan.1, h2.plan.2.trans h1.plan.2⟩

theorem routerOnly_setRouter {pos : Nat} {r : Router} (s : State) (segs : r.segs = (routerOf s pos).segs)
    (slots : r.slots = (routerOf s pos).slots) : RouterOnly pos s (setRouter pos r s) :=
  ⟨rfl, fun _ hq => kget_kput_other _ _ (Ne.symm hq), by rw [routerOf_setRouter_self]; exact ⟨segs, slots⟩⟩

/-- Slot plans are as they were. -/
theorem RouterOnly.slotEntry {pos : Nat} {s t : State} (h : RouterOnly pos s t) (q out tc : Nat) : slotEntry t q out tc = slotEntry s q out tc := by
  have same : (routerOf t q).segs = (routerOf s q).segs ∧ (routerOf t q).slots = (routerOf s q).slots := by
    by_cases e : q = pos
    · exact e ▸ h.plan
    · rw [routerOf_of_kget (h.others q e)]
      exact ⟨rfl, rfl⟩
  have live (k : Nat) : launchLive t k = launchLive s k := by
    rw [launchLive, h.rest]
    rfl
  unfold Machine.slotEntry
  simp only [same, live]

theorem RouterOnly.slotUses {pos : Nat} {s t : State} (h : RouterOnly pos s t) (q input tc : Nat) : slotUses t q input tc = slotUses s q input tc := by
  unfold Machine.slotUses
  simp only [h.slotEntry]

/-! ## Inputs of a slot (R62, R72, R75) -/

/-- The flit that waits at a link input for a slot of a tc, some tc after its own slot. -/
def latchFor (s : State) (pos input tc lag : Nat) : Option Latch :=
  (routerOf s pos).latch.find? fun x => x.input == input && x.tc + lag == tc

/-- Without an entry for an input, the errors of a slot leave everything as it is. -/
theorem latchErrors_none {input : Nat} {errs : List LinkErr} (h : errs.find? (fun e => e.input == input) = none) (pos tc lag : Nat) (s : State) :
    latchErrors pos input tc lag errs s = s := by
  unfold latchErrors
  rw [h]

/-- Taking one element out does not change which other is found first. -/
theorem find?_erase_of_not {α : Type} [BEq α] [LawfulBEq α] {p : α → Bool} {x : α} (h : p x = false) (l : List α) :
    (l.erase x).find? p = l.find? p := by
  induction l with
  | nil => rfl
  | cons y l ih =>
    rw [List.erase_cons]
    split
    · rename_i e
      rw [eq_of_beq e, List.find?_cons, h]
    · rw [List.find?_cons, List.find?_cons, ih]

/-- Replacing an element that does not pass a test by another that does not leaves what is found first. -/
theorem find?_map_of_not {α : Type} {p : α → Bool} {f : α → α} {x : α} (h : ∀ y, y ≠ x → f y = y) (hx : p x = false) (hf : p (f x) = false)
    (l : List α) : (l.map f).find? p = l.find? p := by
  induction l with
  | nil => rfl
  | cons y l ih =>
    rw [List.map_cons, List.find?_cons, List.find?_cons, ih]
    by_cases e : y = x
    · rw [e, hx, hf]
    · rw [h y e]

/-- A flit taken at one input is the one that waits there; what waits at other inputs stays. -/
theorem latchTake_some {pos input tc lag : Nat} {s : State} {x : Latch} (h : latchFor s pos input tc lag = some x) :
    ∃ t, latchTake pos input tc lag s = (some x.flit, t) ∧ RouterOnly pos s t ∧ (routerOf t pos).topk = (routerOf s pos).topk ∧
      ∀ n, n ≠ input → latchFor t pos n tc lag = latchFor s pos n tc lag := by
  have here : x.input = input := by
    have := List.find?_some h
    simp only [Bool.and_eq_true, beq_iff_eq] at this
    exact this.1
  unfold latchFor at h
  unfold latchTake
  dsimp only
  rw [h]
  refine ⟨_, rfl, routerOnly_setRouter s rfl rfl, by rw [routerOf_setRouter_self], fun n hn => ?_⟩
  have other : (fun y : Latch => y.input == n && y.tc + lag == tc) x = false := by
    have apart : x.input ≠ n := here ▸ hn.symm
    simp [apart]
  unfold latchFor
  rw [routerOf_setRouter_self]
  dsimp only
  split
  · exact find?_erase_of_not (p := fun y : Latch => y.input == n && y.tc + lag == tc) other _
  · exact find?_map_of_not (x := x) (fun y hy => if_neg hy) other (by rw [if_pos rfl]; exact other) _

/-- What R75 asks of a link input of a slot: a flit of the entry's tag and glove, and no error. -/
structure Brings (s : State) (pos tc lag : Nat) (errs : List LinkErr) (e : SlotEnt) (flit : Nat → Flit) (n : Nat) : Prop where
  link : n < 4
  sound : errs.find? (fun x => x.input == n) = none
  tag : (flit n).tag = e.tag
  glove : (flit n).glove = e.glove
  there : ∃ x, latchFor s pos n tc lag = some x ∧ x.flit = flit n

/-- The inputs of a slot that all bring their flit are taken one by one, and nothing but the router's inputs changes. -/
theorem gather_brings {pos out tc launch lag : Nat} {errs : List LinkErr} {e : SlotEnt} {flit : Nat → Flit} {l : List Nat} (nodup : l.Nodup)
    {s : State} (h : ∀ n ∈ l, Brings s pos tc lag errs e flit n) :
    ∃ t, gather pos out tc launch lag errs e l s = (l.map fun n => (n, some (flit n), (flit n).poison), t) ∧ RouterOnly pos s t ∧
      (routerOf t pos).topk = (routerOf s pos).topk := by
  induction l generalizing s with
  | nil => exact ⟨s, rfl, .refl pos s, rfl⟩
  | cons n l ih =>
    obtain ⟨fresh, nodup⟩ := List.nodup_cons.1 nodup
    obtain ⟨link, sound, tag, glove, x, found, flitX⟩ := h n List.mem_cons_self
    obtain ⟨t, taken, only, topk, stays⟩ := latchTake_some found
    obtain ⟨u, rest, only', topk'⟩ := ih nodup (s := t) fun m hm => by
      have mine := h m (List.mem_cons_of_mem _ hm)
      exact { mine with there := by rw [stays m fun e => fresh (e ▸ hm)]; exact mine.there }
    refine ⟨u, ?_, only.trans only', topk'.trans topk⟩
    have input : inputTake pos out tc launch n lag e s = (some (flit n), t) := by rw [inputTake, if_pos link, taken, flitX]
    have checked : inputCheck pos tc n e (some (flit n)) t = (some (flit n), (flit n).poison, t) := by
      simp [inputCheck, tag, glove]
    unfold gather
    simp only [latchErrors_none sound, input, checked, rest, List.map_cons]

/-- The words of a combine whose inputs all bring one. -/
theorem combineWords_some (flit : Nat → Flit) (l : List Nat) (s : State) :
    combineWords (l.map fun n => (n, some (flit n), (flit n).poison)) s = (l.map fun n => (n, (flit n).data), s) := by
  induction l with
  | nil => rfl
  | cons n l ih => simp only [List.map_cons, combineWords, ih]

/-! ## A flit leaves on a link (R61, R62) -/

/-- The tc at which what leaves on a link is at the next router. -/
def linkTc (pos out tc : Nat) : Nat := tc + if crossesCol pos out then 4 else 0

/-- A flit that the next router's plan uses waits at its input, as often as the plan uses it. -/
theorem slotSend_link {pos out tc launch p : Nat} {f : Flit} {r s : State} (only : RouterOnly pos r s) (link : out < 4)
    (next : neighbour pos out = some p) (used : slotUses r p (opposite out) (linkTc pos out tc) ≠ 0) :
    let t := slotSend pos out tc launch f s
    routerOf t p = { routerOf r p with
      latch := (routerOf r p).latch ++ [⟨opposite out, linkTc pos out tc, slotUses r p (opposite out) (linkTc pos out tc), f⟩] } ∧
    (∀ q, q ≠ pos → q ≠ p → kget t.routers q = kget r.routers q) ∧ t = { r with routers := t.routers } ∧ routerOf t pos = routerOf s pos := by
  have apart := neighbour_ne next
  have sent : slotSend pos out tc launch f s = adjRouter p (fun r' => { r' with
      latch := r'.latch ++ [⟨opposite out, linkTc pos out tc, slotUses r p (opposite out) (linkTc pos out tc), f⟩] }) s := by
    unfold slotSend
    rw [if_pos link]
    unfold linkSend
    rw [next]
    dsimp only
    change (if slotUses s p (opposite out) (linkTc pos out tc) = 0 then _ else adjRouter p (fun r' => { r' with
      latch := r'.latch ++ [⟨opposite out, linkTc pos out tc, slotUses s p (opposite out) (linkTc pos out tc), f⟩] }) s) = _
    rw [only.slotUses, if_neg used]
  dsimp only
  rw [sent]
  refine ⟨?_, fun q hq hp => (kget_adjRouter_other _ _ hp).trans (only.others q hq), ?_, routerOf_of_kget (kget_adjRouter_other _ _ apart.symm)⟩
  · rw [routerOf_adjRouter_self, routerOf_of_kget (only.others p apart)]
  · conv_lhs => rw [only.rest]
    rfl

/-! ## Combined words (R82 to R85) -/

theorem sum_lanes_lt (f : Nat → Nat) (n : Nat) :
    (List.range n).foldl (fun a i => a + (f i % 2 ^ 64) * 2 ^ (64 * i)) 0 < 2 ^ (64 * n) := by
  induction n with
  | zero => simp
  | succ n ih =>
    rw [List.range_succ, List.foldl_append, List.foldl_cons, List.foldl_nil]
    have top : f n % 2 ^ 64 + 1 ≤ 2 ^ 64 := Nat.mod_lt _ (by positivity)
    calc _ < 2 ^ (64 * n) + f n % 2 ^ 64 * 2 ^ (64 * n) := Nat.add_lt_add_right ih _
      _ = (f n % 2 ^ 64 + 1) * 2 ^ (64 * n) := by rw [Nat.succ_mul (f n % 2 ^ 64), Nat.add_comm (2 ^ (64 * n))]
      _ ≤ 2 ^ 64 * 2 ^ (64 * n) := Nat.mul_le_mul_right _ top
      _ = 2 ^ (64 * (n + 1)) := by rw [← pow_add, Nat.mul_succ, Nat.add_comm]

/-- A lane of a word that is made of lanes reads back, 64 bits wide. -/
theorem lane_ofLanes (f : Nat → Nat) {j : Nat} (h : j < 8) : lane (ofLanes f) j = f j % 2 ^ 64 := by
  have read (n : Nat) (hn : j < n) : fld ((List.range n).foldl (fun a i => a + (f i % 2 ^ 64) * 2 ^ (64 * i)) 0) (64 * j) 64 = f j % 2 ^ 64 := by
    induction n with
    | zero => omega
    | succ n ih =>
      rw [List.range_succ, List.foldl_append, List.foldl_cons, List.foldl_nil]
      have low := sum_lanes_lt f n
      generalize (List.range n).foldl (fun a i => a + (f i % 2 ^ 64) * 2 ^ (64 * i)) 0 = x at *
      rw [fld, Nat.shiftRight_eq_div_pow]
      rcases Nat.lt_succ_iff_lt_or_eq.1 hn with lt | rfl
      · have above : 64 * n = 64 * j + (64 + 64 * (n - j - 1)) := by omega
        have apart : f n % 2 ^ 64 * 2 ^ (64 * n) = 2 ^ (64 * j) * (2 ^ 64 * (f n % 2 ^ 64 * 2 ^ (64 * (n - j - 1)))) := by
          rw [above, pow_add, pow_add]
          ring
        rw [apart, Nat.add_mul_div_left _ _ (by positivity), Nat.add_mul_mod_self_left, ← ih lt, fld, Nat.shiftRight_eq_div_pow]
      · rw [Nat.add_mul_div_right _ _ (by positivity), Nat.div_eq_of_lt low, Nat.zero_add, Nat.mod_mod]
  exact read 8 h

theorem foldl_add_lanes (ws : List Nat) (j a : Nat) : ws.foldl (fun a w => a + lane w j) a = a + (ws.map (lane · j)).sum := by
  induction ws generalizing a with
  | nil => rfl
  | cons w ws ih => rw [List.foldl_cons, ih, List.map_cons, List.sum_cons, Nat.add_assoc]

theorem foldl_max_lt {b : Nat} {l : List Nat} {a : Nat} (ha : a < b) (hl : ∀ x ∈ l, x < b) : l.foldl max a < b := by
  induction l generalizing a with
  | nil => exact ha
  | cons x l ih => exact ih (max_lt ha (hl x List.mem_cons_self)) fun y hy => hl y (List.mem_cons_of_mem _ hy)

theorem testBit_foldl_or (ws : List Nat) (j a : Nat) : (ws.foldl (fun a w => a ||| w) a).testBit j = (a.testBit j || ws.any (·.testBit j)) := by
  induction ws generalizing a with
  | nil => simp
  | cons w ws ih => rw [List.foldl_cons, ih, Nat.testBit_or, List.any_cons, Bool.or_assoc]

/-- ADD is a sum in each lane, modulo 2^64 (R82). -/
theorem lane_combineAdd (ws : List Nat) {j : Nat} (h : j < 8) : lane (combineAdd ws) j = (ws.map (lane · j)).sum % 2 ^ 64 := by
  rw [combineAdd, lane_ofLanes _ h, foldl_add_lanes, Nat.zero_add]

/-- BAR keeps the greatest lane 1 (R84). -/
theorem lane_combineBar_one (ws : List Nat) : lane (combineBar ws) 1 = (ws.map (lane · 1)).foldl max 0 := by
  have bound : (ws.map (lane · 1)).foldl max 0 < 2 ^ 64 := foldl_max_lt (by positivity) fun x hx => by
    obtain ⟨w, -, rfl⟩ := List.mem_map.1 hx
    exact Nat.mod_lt _ (by positivity)
  rw [combineBar, lane_ofLanes _ (by omega), if_pos rfl, ← Nat.mod_eq_of_lt bound, List.foldl_map]

/-- BAR adds every other lane (R84). -/
theorem lane_combineBar_other (ws : List Nat) {j : Nat} (h : j < 8) (other : j ≠ 1) :
    lane (combineBar ws) j = (ws.map (lane · j)).sum % 2 ^ 64 := by
  rw [combineBar, lane_ofLanes _ h, if_neg other, foldl_add_lanes, Nat.zero_add]

/-- FLAG sets the bits of any input (R85). -/
theorem testBit_combineFlag (ws : List Nat) (j : Nat) : (combineFlag ws).testBit j = ws.any (·.testBit j) := by
  rw [combineFlag, testBit_foldl_or, Nat.zero_testBit, Bool.false_or]

/-! ## A slot that combines -/

theorem nodup_slotInputs (e : SlotEnt) : (slotInputs e).Nodup := List.nodup_range.filter _

/-- A slot command in its plan tc is the use of its slot. -/
theorem slotRun_now {op pos out tc : Nat} {errs : List LinkErr} {s : State} (hp : pos < 1536) (ho : out < 4) (now : s.now ≤ tc)
    (runs : muxStopped s 0 = false) : slotRun op pos out tc errs s = .next (slotUse op pos out tc errs (advance tc s)) := by
  rw [slotRun, if_neg (by omega), atTc, if_neg (by simp [runs, Nat.not_lt.2 now])]

/-- A slot that combines the flits of its inputs sends the combined flit. -/
theorem slotUse_combines {pos out tc k : Nat} {e : SlotEnt} {errs : List LinkErr} {flit : Nat → Flit} {r : State}
    (entry : slotEntry r pos out tc = some (k, e)) (combines : e.op ≠ 1) (brings : ∀ n ∈ slotInputs e, Brings r pos tc 3 errs e flit n) :
    ∃ u, RouterOnly pos r u ∧ (routerOf u pos).topk = (routerOf r pos).topk ∧
      slotUse e.op pos out tc errs r =
        let out_ := combineOut pos out e ((slotInputs e).map fun n => (n, (flit n).data)) ((slotInputs e).any fun n => (flit n).poison)
          ((slotInputs e).all fun n => (flit n).stat) u
        slotSend pos out tc k out_.1 out_.2 := by
  obtain ⟨u, gathered, only, topk⟩ := gather_brings (out := out) (launch := k) (nodup_slotInputs e) brings
  refine ⟨u, only, topk, ?_⟩
  unfold slotUse
  rw [entry]
  simp only [ne_eq, not_true_eq_false, if_false, combines, gathered, combineWords_some, List.any_map, List.all_map]
  rfl

/-- A slot of a TOPK sends the next entries of the merge, and keeps what has been read and what has not (R83). -/
theorem combineOut_topk {pos out : Nat} {e : SlotEnt} (topk : e.op = 3) (ws : List (Nat × Nat)) (bad stat : Bool) (u : State) :
    let m := topkWord (kgetD (routerOf u pos).topk (topkKey out e) TopkSt.blank) ws bad
    ∃ v, combineOut pos out e ws bad stat u = (⟨e.glove, e.tag, m.2.1, false, m.1, false⟩, v) ∧ RouterOnly pos u v ∧
      kget (routerOf v pos).topk (topkKey out e) = some m.2.2 := by
  dsimp only
  unfold combineOut
  rw [topk]
  refine ⟨_, rfl, routerOnly_setRouter u rfl rfl, ?_⟩
  rw [routerOf_setRouter_self]
  exact kget_kput_self _ _ _

/-- Settles O36: each input brings its flit, the combined flit leaves on the link, and the lanes of its word are those of R82 to R85. -/
theorem combinesComputeTheirWord : Obligations.CombinesComputeTheirWord := by
  refine ⟨fun s pos out tc k p e uses flit errs hp ho now runs => ?_,
    fun ws j => ⟨lane_combineAdd ws, lane_combineBar_one ws, lane_combineBar_other ws, testBit_combineFlag ws j⟩⟩
  intro r entry next at_ used inputs ws bad sent
  have brings : ∀ n ∈ slotInputs e, Brings r pos tc 3 errs e flit n := fun n hn => by
    obtain ⟨link, sound, tag, glove, -, found⟩ := inputs n hn
    exact ⟨link, sound, tag, glove, _, found, rfl⟩
  have words : ((slotInputs e).map fun n => (n, (flit n).data)).map (·.2) = ws := by
    rw [List.map_map]
    rfl
  have leaves {u : State} (only : RouterOnly pos r u) (f : Flit) :
      sent (slotSend pos out tc k f u) f ∧ routerOf (slotSend pos out tc k f u) pos = routerOf u pos := by
    obtain ⟨latch, others, rest, here⟩ := slotSend_link (f := f) (launch := k) only ho next used
    exact ⟨⟨by rw [latch]; rfl, others, rest⟩, here⟩
  have run (op : Nat) : slotRun op pos out tc errs s = .next (slotUse op pos out tc errs r) := slotRun_now hp ho now runs
  have simple (op : Nat) (hop : e.op = op) (ne : op ≠ 1) (f : Flit)
      (out_ : ∀ u, combineOut pos out e ((slotInputs e).map fun n => (n, (flit n).data)) bad ((slotInputs e).all fun n => (flit n).stat) u = (f, u)) :
      ∃ t, slotRun op pos out tc errs s = .next t ∧ sent t f := by
    subst hop
    obtain ⟨u, only, -, used⟩ := slotUse_combines entry ne brings
    exact ⟨_, (run e.op).trans (by rw [used, out_ u]), (leaves only f).1⟩
  refine ⟨fun op => ?_, fun op => ?_, fun op => ?_, fun op => ?_⟩
  · exact simple 2 op (by decide) _ fun u => by rw [combineOut, op, words]; rfl
  · obtain ⟨u, only, topk, used⟩ := slotUse_combines entry (by omega) brings
    obtain ⟨v, out_, merges, kept⟩ := combineOut_topk (pos := pos) (out := out) op ((slotInputs e).map fun n => (n, (flit n).data)) bad
      ((slotInputs e).all fun n => (flit n).stat) u
    rw [topk] at out_ kept
    obtain ⟨leaves, here⟩ := leaves (only.trans merges) _
    exact ⟨_, (run 3).trans (by rw [← op, used, out_]), leaves, by rw [here]; exact kept⟩
  · exact simple 4 op (by decide) _ fun u => by rw [combineOut, op, words]; rfl
  · exact simple 5 op (by decide) _ fun u => by rw [combineOut, op, words]; rfl

end Sys2Proof.Machine
end

section
/-! PROOFS. Port tiles: refusals and counts on the way, flits that join a tile's queue, and memory requests at their home (O48). -/

namespace Sys2Proof.Machine

/-! ## What is counted, recorded, reported or raised -/

/-- Counts, records and interrupts that leave the stretch of the frame, and what is pending, as they were. -/
structure Told (s t : State) : Prop where
  noted : Noted s t
  stretch : odGet t 0x2300 3 = odGet s 0x2300 3
  pending : PendingKept s t

variable {s t u : State}

theorem Noted.ports (h : Noted s t) : t.ports = s.ports := by unfold Noted at h; rw [h]
theorem Noted.tiles (h : Noted s t) : t.tiles = s.tiles := by unfold Noted at h; rw [h]
theorem Noted.mem (h : Noted s t) : t.mem = s.mem := by unfold Noted at h; rw [h]
theorem Noted.ecc (h : Noted s t) : t.ecc = s.ecc := by unfold Noted at h; rw [h]

theorem Told.refl (s : State) : Told s s := ⟨.refl s, rfl, .refl s⟩

theorem Told.trans (h1 : Told s t) (h2 : Told t u) : Told s u :=
  ⟨h1.noted.trans h2.noted, h2.stretch.trans h1.stretch, h1.pending.trans h2.pending⟩

theorem told_winBump (s : State) (a lo w d : Nat) : Told s (winBump s a lo w d) := ⟨rfl, rfl, .refl s⟩

theorem told_odSet {i j : Nat} (h : odKey i j ≠ odKey 0x2300 3) (s : State) (v : Nat) : Told s (odSet s i j v) :=
  ⟨rfl, by rw [odGet_odSet, if_neg h], .refl s⟩

theorem told_odBump {i j : Nat} (h : odKey i j ≠ odKey 0x2300 3) (s : State) (w d : Nat) : Told s (odBump s i j w d) := told_odSet h s _

theorem told_raise (n : Nat) (s : State) : Told s (raise n s) := ⟨noted_raise n s, odGet_raise _ _ _ _, pendingKept_raise n s⟩

theorem told_report (pos code unit sub glove : Nat) (d : List Byte) (s : State) : Told s (report pos code unit sub glove d s) := by
  obtain ⟨od, host, -⟩ := report_keeps pos code unit sub glove d s
  exact ⟨noted_report _ _ _ _ _ _ _, od.odGet_eq (by decide), .of_host_eq (by rw [host])⟩

theorem told_reject (g a len source reason unit : Nat) (s : State) : Told s (reject g a len source reason unit s) := by
  unfold reject
  exact ((told_odBump (by decide) _ _ _).trans (told_odSet (by decide) _ _)).trans ((told_report _ _ _ _ _ _ _).trans (told_raise _ _))

theorem told_foldl {α : Type} {f : State → α → State} (h : ∀ s x, Told s (f s x)) (l : List α) (s : State) : Told s (l.foldl f s) :=
  foldl_keeps Told.refl Told.trans h l s

theorem told_tierReadChecks (g a n : Nat) (s : State) : Told s (tierReadChecks g a n s) := by
  refine told_foldl (fun t l => ?_) _ _
  dsimp only
  have count (t : State) (p lo j : Nat) (h : odKey 0x7500 j ≠ odKey 0x2300 3) :
      Told t (odBump (winBump t (tileBase p + 0xF1000) lo 16 1) 0x7500 j 64 1) := (told_winBump _ _ _ _ _).trans (told_odBump h _ _ _)
  split
  · exact .refl t
  · exact count _ _ _ _ (by decide)
  · split
    · exact count _ _ _ _ (by decide)
    · exact (count _ _ _ _ (by decide)).trans ((told_report _ _ _ _ _ _ _).trans (told_raise _ _))

theorem told_readDead (pos : Nat) (r : MemReq) (s : State) : Told s (readDead pos r s) :=
  told_foldl (fun _ _ => told_foldl (fun _ _ => told_reject _ _ _ _ _ _ _) _ _) _ _

theorem Told.absNow (h : Told s t) : absNow t = absNow s := by
  have noted := h.noted
  unfold Noted at noted
  unfold Machine.absNow realTc
  rw [h.stretch, noted]

theorem Told.tileOf (h : Told s t) (pos : Nat) : tileOf t pos = tileOf s pos := by
  rw [Machine.tileOf, h.noted.tiles, Machine.tileOf]

/-! ## Ports and queues -/

@[simp] theorem portOf_setPort_self (pos : Nat) (p : PortSt) (s : State) : portOf (setPort pos p s) pos = p := by simp [portOf, setPort]

@[simp] theorem portOf_adjPort_self (pos : Nat) (f : PortSt → PortSt) (s : State) : portOf (adjPort pos f s) pos = f (portOf s pos) := by
  simp [adjPort]

theorem portOf_of_ports_eq (h : t.ports = s.ports) (pos : Nat) : portOf t pos = portOf s pos := by rw [portOf, h, portOf]

theorem kget_adjPort_other {pos q : Nat} (f : PortSt → PortSt) (s : State) (h : q ≠ pos) : kget (adjPort pos f s).ports q = kget s.ports q :=
  kget_kput_other _ _ (Ne.symm h)

/-- Flits that have joined a tile's queue may leave 2 tc later (R62). -/
theorem tileOf_queueFlits (pos : Nat) (l : List VcFlit) (s : State) : tileOf (queueFlits pos l s) pos =
    { tileOf s pos with msgq := (tileOf s pos).msgq ++ l.map fun f => { f with since := absNow s + 2 } } := tileOf_adjTile_self _ _ _

theorem tilesKept_queueFlits (pos : Nat) (l : List VcFlit) (s : State) : TilesKept pos s (queueFlits pos l s) :=
  fun _ hq => kget_kput_other _ _ (Ne.symm hq)

theorem queueFlits_eq (pos : Nat) (l : List VcFlit) (s : State) : queueFlits pos l s = { s with tiles := (queueFlits pos l s).tiles } := rfl

theorem Noted.withTiles (h : Noted s t) (x : KMap Tile) : { t with tiles := x } = { s with
    od := t.od, win := t.win, vc3Held := t.vc3Held, vc3Wait := t.vc3Wait, host := t.host, out := t.out, tiles := x } := by
  unfold Noted at h
  conv_lhs => rw [h]

/-- Counts and records, and then flits that join a tile's queue. -/
structure ToldQueued (pos : Nat) (l : List VcFlit) (s t : State) : Prop where
  rest : t = { s with
    od := t.od, win := t.win, vc3Held := t.vc3Held, vc3Wait := t.vc3Wait, host := t.host, out := t.out, tiles := t.tiles }
  tile : tileOf t pos = { tileOf s pos with msgq := (tileOf s pos).msgq ++ l.map fun f => { f with since := absNow s + 2 } }
  others : TilesKept pos s t
  pending : PendingKept s t

theorem ToldQueued.ports {pos : Nat} {l : List VcFlit} (h : ToldQueued pos l s t) : t.ports = s.ports := by rw [h.rest]
theorem ToldQueued.mem {pos : Nat} {l : List VcFlit} (h : ToldQueued pos l s t) : t.mem = s.mem := by rw [h.rest]
theorem ToldQueued.ecc {pos : Nat} {l : List VcFlit} (h : ToldQueued pos l s t) : t.ecc = s.ecc := by rw [h.rest]

theorem Told.queueFlits (h : Told s t) (pos : Nat) (l : List VcFlit) : ToldQueued pos l s (queueFlits pos l t) where
  rest := h.noted.withTiles _
  tile := by rw [tileOf_queueFlits, h.tileOf, h.absNow]
  others q hq := by rw [tilesKept_queueFlits pos l t q hq, h.noted.tiles]
  pending := h.pending

/-! ## Memory requests (R293, R294) -/

/-- What stands at a place of a list that a search of its places finds. -/
theorem nextGranted_kind {write : Bool} {p : PortSt} {r : MemReq} (h : nextGranted write p = some r) : r.write = write := by
  unfold nextGranted at h
  obtain ⟨i, -, found⟩ := List.exists_of_findSome?_eq_some h
  split at found
  · split at found
    · rename_i holds
      injection found with same
      exact same ▸ holds.1
    · exact absurd found (by simp)
  · exact absurd found (by simp)

/-- The flits of a READ depend on the fuses, memory and its marks alone. -/
theorem readFlits_told (h : Told s t) (pos : Nat) (r : MemReq) (allowed : Bool) : readFlits t pos r allowed = readFlits s pos r allowed := by
  have noted := h.noted
  unfold Noted at noted
  rw [noted]
  rfl

/-- A READ is answered: its words join the tile's queue, zeros where it is refused. -/
theorem memRead_run {pos : Nat} {r : MemReq} (hp : pos < 1536) (next : nextGranted false (portOf s pos) = some r) :
    ∃ t, exec (.memRead pos) s = .next t ∧
      ToldQueued pos (readFlits s pos r (requestFault s r).isNone) (takeGranted pos r s) t ∧
      ((requestFault s r).isNone = false → irqPending t 258 = true) := by
  have read := nextGranted_kind next
  have answered : exec (.memRead pos) s = execMemRead pos s := rfl
  rw [answered, execMemRead, if_neg (by omega), next]
  dsimp only
  have same : Told (takeGranted pos r s) (takeGranted pos r s) := .refl _
  cases fault : requestFault s r with
  | none =>
    refine ⟨_, rfl, ?_, fun absent => absurd absent (by simp)⟩
    exact ((told_tierReadChecks _ _ _ _).trans (told_readDead pos r _)).queueFlits pos _
  | some x =>
    have refused := (told_reject r.glove r.addr r.len 2 x.1 x.2 (takeGranted pos r s))
    have told := refused.trans (told_readDead pos r _)
    have flits : refuseRequest pos r (reject r.glove r.addr r.len 2 x.1 x.2 (takeGranted pos r s)) =
        queueFlits pos (readFlits s pos r false) (readDead pos r (reject r.glove r.addr r.len 2 x.1 x.2 (takeGranted pos r s))) := by
      unfold refuseRequest
      rw [read]
      simp only [Bool.not_false, if_true]
      rw [readFlits_told refused]
      rfl
    refine ⟨_, rfl, ?_, fun _ => ?_⟩
    · rw [flits]
      exact told.queueFlits pos _
    · rw [flits]
      exact (told_readDead pos r _).pending _ (reject_spec _ _ _ _ _ _ _).2

/-- Byte i of the little-endian bytes of a number. -/
theorem getD_leBytes {n i : Nat} (h : i < n) (x : Nat) : (leBytes n x).getD i 0 = BitVec.ofNat 8 (fld x (8 * i) 8) := by
  induction n generalizing i x with
  | zero => omega
  | succ n ih =>
    cases i with
    | zero =>
      simp only [leBytes, List.getD_cons_zero, fld, Nat.mul_zero, Nat.shiftRight_zero]
      exact BitVec.eq_of_toNat_eq (by simp)
    | succ i =>
      rw [leBytes, List.getD_cons_succ, ih (by omega)]
      congr 1
      rw [fld, fld, Nat.shiftRight_eq_div_pow, Nat.shiftRight_eq_div_pow, Nat.div_div_eq_div_mul, Nat.mul_succ, Nat.add_comm (8 * i), pow_add]
      norm_num

/-- The words of a WRITE are stored one after another, but for the poisoned ones, and nothing else is. -/
theorem writeData_spec (a : Nat) (l : Words2) (wf : s.memOk) :
    let t := writeData a l s
    t.memOk ∧ MemKept a (64 * l.length) s t ∧ t = { s with mem := t.mem, ecc := t.ecc, leaves := t.leaves } ∧
      ∀ j i, j < l.length → i < 64 → byteAt t (a + 64 * j + i) =
        if (l.getD j (0, false)).2 then byteAt s (a + 64 * j + i) else BitVec.ofNat 8 (fld (l.getD j (0, false)).1 (8 * i) 8) := by
  induction l generalizing a s with
  | nil => exact ⟨wf, fun _ _ => rfl, rfl, fun j _ hj => absurd hj (Nat.not_lt_zero j)⟩
  | cons x l ih =>
    have first : let t := if x.2 then s else store a (leBytes 64 x.1) s
        t.memOk ∧ MemKept a 64 s t ∧ t = { s with mem := t.mem, ecc := t.ecc, leaves := t.leaves } ∧
          ∀ i, i < 64 → byteAt t (a + i) = if x.2 then byteAt s (a + i) else BitVec.ofNat 8 (fld x.1 (8 * i) 8) := by
      obtain ⟨wf', kept, bytes, frame⟩ := store_spec a (leBytes 64 x.1) s wf
      rw [length_leBytes] at kept bytes
      cases x.2
      · exact ⟨wf', kept, frame, fun i hi => (bytes i hi).trans (getD_leBytes hi x.1)⟩
      · exact ⟨wf, fun _ _ => rfl, rfl, fun _ _ => rfl⟩
    obtain ⟨wf', kept, frame, bytes⟩ := first
    obtain ⟨wf'', kept', frame', bytes'⟩ := ih (a + 64) wf'
    rw [writeData]
    dsimp only at *
    generalize (if x.2 then s else store a (leBytes 64 x.1) s) = m at *
    generalize writeData (a + 64) l m = t at *
    refine ⟨wf'', fun i hi => ?_, by rw [frame', frame], fun j i hj hi => ?_⟩
    · rw [List.length_cons] at hi
      rw [kept' i (by omega), kept i (by omega)]
    · cases j with
      | zero =>
        rw [Nat.mul_zero, Nat.add_zero, kept' _ (by omega)]
        exact bytes i hi
      | succ j =>
        have place : a + 64 * (j + 1) + i = a + 64 + 64 * j + i := by omega
        rw [place, bytes' j i (by simpa using hj) hi, List.getD_cons_succ, kept _ (by omega)]

theorem Told.toldQueued (h : Told s t) (pos : Nat) : ToldQueued pos [] s t where
  rest := h.noted.withTiles t.tiles ▸ rfl
  tile := by rw [h.tileOf, List.map_nil, List.append_nil]
  others q _ := by rw [h.noted.tiles]
  pending := h.pending

/-- The completion of a WRITE joins the queue of its home, is refused, or is not asked for. -/
theorem writeDone_queued (pos : Nat) (r : MemReq) (s : State) : ∃ l, ToldQueued pos l s (writeDone pos r s) := by
  unfold writeDone
  split
  · split
    · exact ⟨_, (Told.refl s).queueFlits pos _⟩
    · exact ⟨_, (told_reject _ _ _ _ _ _ s).toldQueued pos⟩
  · exact ⟨_, (Told.refl s).toldQueued pos⟩

/-- A WRITE that passes its check stores its words and nothing else, and its completion joins the queue. -/
theorem memWrite_run {pos : Nat} {r : MemReq} (hp : pos < 1536) (next : nextGranted true (portOf s pos) = some r)
    (passes : requestFault s r = none) :
    exec (.memWrite pos) s = .next (writeDone pos r (writeData r.addr r.data (takeGranted pos r s))) := by
  have written : exec (.memWrite pos) s = execMemWrite pos s := rfl
  rw [written, execMemWrite, if_neg (by omega), next]
  dsimp only
  rw [passes]

theorem memWrite_refused {pos : Nat} {r : MemReq} (hp : pos < 1536) (next : nextGranted true (portOf s pos) = some r)
    (fault : requestFault s r ≠ none) :
    ∃ t, exec (.memWrite pos) s = .next t ∧ Noted (takeGranted pos r s) t ∧ irqPending t 258 = true := by
  have written : exec (.memWrite pos) s = execMemWrite pos s := rfl
  obtain ⟨x, fault⟩ := Option.ne_none_iff_exists'.1 fault
  refine ⟨reject r.glove r.addr r.len 2 x.1 x.2 (takeGranted pos r s), ?_, reject_spec _ _ _ _ _ _ _⟩
  rw [written, execMemWrite, if_neg (by omega), next]
  dsimp only
  rw [fault]

/-! ## Streams and marks (R297, R300) -/

theorem streamReadAhead_run {pos tag w : Nat} {x : Stream} (hp : pos < 1536)
    (next : nextUnread (portOf s pos) (streamsOf (portOf s pos) (tag / 4096) (tag % 4096) false) 2049
      (kgetD (portOf s pos).place (streamKey (tag / 4096) (tag % 4096) false) (0, 0)) = some (x, w))
    (room : (portOf s pos).buffer.length + groupWords x.op ≤ 2048) :
    exec (.streamReadAhead pos tag) s = .next (adjPort pos (fun q => { q with buffer := q.buffer ++
      ((span (w / groupWords x.op * groupWords x.op) (groupWords x.op)).filter fun v =>
        !(portOf s pos).buffer.any fun b => b.stream == x && b.place == v).map (readAheadWord s x) })
      (tierReadChecks x.glove (groupAddr x w) (64 * groupWords x.op) s)) := by
  have read : exec (.streamReadAhead pos tag) s = execStreamReadAhead pos tag s := rfl
  rw [read, execStreamReadAhead, if_neg (by omega)]
  dsimp only
  rw [next]
  dsimp only
  rw [if_neg (by omega)]

theorem mem_correctWord (a : Nat) (s : State) (p : Nat × Ecc) :
    p ∈ (correctWord a s).ecc ↔ p ∈ s.ecc ∧ ¬ (p.1 / 8 = a / 64 ∧ p.2 = .single) := by
  simp [correctWord, List.mem_filter, imp_iff_not_or]

/-! ## The obligation -/

/-- Settles O48: a READ's words and a WRITE's completion join the queue of the home tile, and what is refused is counted alone. -/
theorem tierRequestsMoveData : Obligations.TierRequestsMoveData := by
  intro s pos tag addr wf hp
  dsimp only
  refine ⟨fun r next => ?_, fun r next passes => ?_, fun r next fault => ?_, fun x w next room => ?_, fun tier => ?_⟩
  · obtain ⟨t, run, queued, refused⟩ := memRead_run hp next
    refine ⟨t, run, ?_, ?_, queued.others, queued.mem, queued.ecc, refused⟩
    · rw [portOf_of_ports_eq queued.ports, takeGranted, portOf_adjPort_self]
    · rw [queued.tile]
      simp only [readFlits, List.map_flatMap, List.map_filterMap, Option.map_map]
      rfl
  · obtain ⟨wf', kept, frame, bytes⟩ := writeData_spec r.addr r.data (s := takeGranted pos r s) wf
    refine ⟨_, memWrite_run hp next passes, ?_⟩
    generalize writeData r.addr r.data (takeGranted pos r s) = m at *
    obtain ⟨l, queued⟩ := writeDone_queued pos r m
    have tiles : m.tiles = s.tiles := by rw [frame]; rfl
    have mem := queued.mem
    refine ⟨?_, fun q hq => (queued.others q hq).trans (by rw [tiles]), ?_, fun i hi => ?_, fun j i hj hi => ?_, fun d w adds dest way => ?_,
      fun adds => ?_⟩
    · have ports : m.ports = (takeGranted pos r s).ports := by rw [frame]
      rw [portOf_of_ports_eq (queued.ports.trans ports), takeGranted, portOf_adjPort_self]
    · rw [State.memOk, mem]
      exact wf'
    · rw [byteAt, mem]
      exact kept i hi
    · rw [byteAt, mem]
      exact bytes j i hj hi
    · have done : writeDone pos r m = queueFlits pos [vcFlit 2 r.glove [(w, d.1, d.2.1)] (.add 1) false false] m := by
        have fuse : m.plat = s.plat := by rw [frame]; rfl
        obtain ⟨ds, dests⟩ : ∃ ds, r.dests = d :: ds := List.head?_eq_some_iff.1 dest
        unfold writeDone
        rw [adds, dests]
        dsimp only
        rw [fuse, way]
      have now : absNow m = absNow s := by rw [frame]; rfl
      rw [done, tileOf_queueFlits, now]
      refine ⟨by rw [Machine.tileOf, tiles]; rfl, ?_⟩
      rw [queueFlits_eq, frame]
      rfl
    · have done : writeDone pos r m = m := by
        unfold writeDone
        rw [adds]
      rw [done, frame]
      rfl
  · obtain ⟨t, run, noted, pends⟩ := memWrite_refused hp next fault
    refine ⟨t, run, ?_, pends, noted.mem, noted.tiles⟩
    rw [portOf_of_ports_eq noted.ports, takeGranted, portOf_adjPort_self]
  · have noted := noted_tierReadChecks x.glove (groupAddr x w) (64 * groupWords x.op) s
    refine ⟨_, streamReadAhead_run hp next room, ?_, fun q hq => ?_, noted.mem, noted.ecc, noted.tiles⟩
    · rw [portOf_adjPort_self, portOf_of_ports_eq noted.ports]
    · rw [kget_adjPort_other _ _ hq, noted.ports]
  · exact ⟨correctWord addr s, if_pos tier, mem_correctWord addr s, rfl⟩

end Sys2Proof.Machine
end

section
/-! PROOFS. Share ledgers: requests that join, visits that grant, and the rates of Col links (O38). -/

namespace Sys2Proof.Machine

variable {s t u : State} {pos g : Nat}

/-! ## Requests join the ledger (R78, R294) -/

theorem ledgerRequest_memory (hp : pos < 1536) (port : kindOf pos = .port) (mem : ∀ j, portFn pos ≠ .pcie j) (op : Nat) {r : MemReq}
    {l : List MemReq} (first : (portOf s pos).arrived = r :: l) : exec (.ledgerRequest pos op) s =
      if r.bad then .next (refuseRequest pos r (reject r.glove r.addr r.len 2 2 pos (adjPort pos (fun p => { p with arrived := l }) s)))
      else .next (adjPort pos (fun p => { p with pend := p.pend ++ [⟨r.glove, r.len, some r, 0, false⟩] })
        (adjPort pos (fun p => { p with arrived := l }) s)) := by
  change execLedgerRequest pos op s = _
  rw [execLedgerRequest, if_neg (by omega), port]
  cases fn : portFn pos with
  | pcie j => exact absurd fn (mem j)
  | _ => simp only [first]

theorem ledgerRequest_burst {j op : Nat} {o : Op} (hp : pos < 1536) (port : kindOf pos = .port) (pcie : portFn pos = .pcie j)
    (there : kget s.fe.ops op = some o) (started : o.phase = .started) (moves : dKind o.bytes = 1 ∨ dKind o.bytes = 2)
    (left : o.granted < dLen o.bytes) (none_ : (s.ports.any fun p => p.2.pend.any fun x => x.req.isNone && x.op == op) = false) :
    exec (.ledgerRequest pos op) s = .next (adjPort pos (fun p => { p with pend := p.pend ++ [⟨o.glove, burstSize o, none, op, false⟩] }) s) := by
  change execLedgerRequest pos op s = _
  rw [execLedgerRequest, if_neg (by omega), port, pcie]
  dsimp only
  rw [there]
  dsimp only
  rw [if_neg]
  rintro (h | h | h | h)
  · exact h started
  · exact moves.elim h.1 h.2
  · omega
  · exact absurd (none_.symm.trans h) (by simp)

/-- A request that is refused on arrival is counted, and what it is answered joins the queue. -/
theorem refuseRequest_queued (told : Told s t) (pos : Nat) (r : MemReq) : ∃ l, ToldQueued pos l s (refuseRequest pos r t) := by
  unfold refuseRequest
  split
  · exact ⟨_, (told.trans (told_readDead pos r t)).queueFlits pos _⟩
  · split
    · exact ⟨_, told.queueFlits pos _⟩
    · exact ⟨_, told.toldQueued pos⟩

theorem ledgerRequest_refused (r : MemReq) (l : List MemReq) (s : State) :
    let m := adjPort pos (fun p => { p with arrived := l }) s
    let t := refuseRequest pos r (reject r.glove r.addr r.len 2 2 pos m)
    portOf t pos = { portOf s pos with arrived := l } ∧ irqPending t 258 = true ∧ (∀ q, q ≠ pos → kget t.ports q = kget s.ports q) ∧
      t.mem = s.mem := by
  intro m
  dsimp only
  obtain ⟨_, queued⟩ := refuseRequest_queued (told_reject r.glove r.addr r.len 2 2 pos m) pos r
  obtain ⟨_, sent⟩ := refuseRequest_queued (.refl (reject r.glove r.addr r.len 2 2 pos m)) pos r
  refine ⟨?_, sent.pending _ (reject_spec _ _ _ _ _ _ _).2, fun q hq => ?_, queued.mem⟩
  · rw [portOf_of_ports_eq queued.ports, portOf_adjPort_self]
  · rw [queued.ports, kget_adjPort_other _ _ hq]

/-! ## A visit of the ledger (R78, R353, R354) -/

theorem kget_kadj_self {α : Type} (m : KMap α) (k : Nat) (f : α → α) : kget (kadj m k f) k = (kget m k).map f := by
  induction m with
  | nil => rfl
  | cons p m ih =>
    obtain ⟨a, x⟩ := p
    rw [kadj, List.map_cons]
    by_cases here : a = k
    · simp [kget, here]
    · simp only [here, if_false, kget]
      rw [← kadj, ih]
      split <;> rfl

theorem kget_kdel_self {α : Type} (m : KMap α) (k : Nat) : kget (kdel m k) k = none := by
  induction m with
  | nil => rfl
  | cons p m ih =>
    obtain ⟨a, x⟩ := p
    rw [kdel, List.filter_cons]
    by_cases here : a = k
    · simp only [here, bne_self_eq_false, Bool.false_eq_true, if_false]
      exact ih
    · simp only [bne_iff_ne, ne_eq, here, not_false_eq_true, if_true, kget, if_false]
      rw [← kdel, ih]
      split <;> rfl

/-- A quantity without a limit stays so while the rows in force do. -/
theorem budgetOpen_unlimited {sub : Nat} (force : t.force = s.force) (free : allowance s g sub = none) : budgetOpen t g sub = true := by
  have same : odForce t (0x3100 + g) sub = odForce s (0x3100 + g) sub := by rw [odForce, odForce, force]
  have free' : allowance t g sub = none := by
    rw [allowance, same]
    rw [allowance] at free
    exact if_pos (Decidable.by_contra fun limited => Option.some_ne_none _ ((if_neg limited).symm.trans free))
  rw [budgetOpen, free']

/-- The grants of WRITEs that go back to their sources on VC2. -/
def grantFlits (s : State) (pos : Nat) (l : List LedgerReq) : List VcFlit :=
  l.filterMap fun x => x.req.bind fun q => if q.write then (route s.plat.fuse pos q.src).map fun w =>
    ({ vcFlit 2 q.glove [(w, q.src, 0)] (.grant q.words true) false true with since := absNow s + 2 } : VcFlit) else none

/-- Requests of a glove have been granted: they have left the ledger, their bytes are counted, and grants go back. -/
structure Grants (pos g : Nat) (l : List LedgerReq) (s t : State) : Prop where
  granted : (portOf t pos).granted = (portOf s pos).granted ++ l.filterMap (·.req)
  pend : (portOf t pos).pend = (portOf s pos).pend.diff l
  visit : (portOf t pos).visit = (portOf s pos).visit
  deficit : kgetD (portOf t pos).deficit g 0 = kgetD (portOf s pos).deficit g 0 - (l.map (·.size)).sum
  spent : spentOf t g 5 = spentOf s g 5 + ((l.filter (·.req.isSome)).map (·.size)).sum
  ports : ∀ q, q ≠ pos → kget t.ports q = kget s.ports q
  tile : tileOf t pos = { tileOf s pos with msgq := (tileOf s pos).msgq ++ grantFlits s pos l }
  tiles : TilesKept pos s t
  rest : t = { s with ports := t.ports, spent := t.spent, tiles := t.tiles, fe := { s.fe with ops := t.fe.ops } }

theorem Grants.refl (pos g : Nat) (s : State) : Grants pos g [] s s where
  granted := (List.append_nil _).symm
  pend := rfl
  visit := rfl
  deficit := rfl
  spent := rfl
  ports _ _ := rfl
  tile := by simp [grantFlits]
  tiles _ _ := rfl
  rest := rfl

theorem Grants.trans {l m : List LedgerReq} (h1 : Grants pos g l s t) (h2 : Grants pos g m t u) : Grants pos g (l ++ m) s u where
  granted := by rw [h2.granted, h1.granted, List.filterMap_append, List.append_assoc]
  pend := by rw [h2.pend, h1.pend, List.diff_append]
  visit := h2.visit.trans h1.visit
  deficit := by rw [h2.deficit, h1.deficit, List.map_append, List.sum_append, Nat.sub_sub]
  spent := by rw [h2.spent, h1.spent, List.filter_append, List.map_append, List.sum_append, Nat.add_assoc]
  ports q hq := (h2.ports q hq).trans (h1.ports q hq)
  tile := by
    have flits : grantFlits t pos m = grantFlits s pos m := by
      rw [h1.rest]
      rfl
    rw [h2.tile, h1.tile, flits]
    simp only [grantFlits, List.filterMap_append, List.append_assoc]
  tiles q hq := (h2.tiles q hq).trans (h1.tiles q hq)
  rest := by rw [h2.rest, h1.rest]

/-- The grant of a WRITE joins the queue, and nothing else changes. -/
theorem sendGrant_spec (pos : Nat) (r : MemReq) (s : State) :
    tileOf (sendGrant pos r s) pos =
      { tileOf s pos with msgq := (tileOf s pos).msgq ++ grantFlits s pos [⟨r.glove, r.len, some r, 0, false⟩] } ∧
      TilesKept pos s (sendGrant pos r s) ∧
      sendGrant pos r s = { s with tiles := (sendGrant pos r s).tiles } := by
  have flits : grantFlits s pos [⟨r.glove, r.len, some r, 0, false⟩] =
      (if r.write then (route s.plat.fuse pos r.src).map fun w =>
        ({ vcFlit 2 r.glove [(w, r.src, 0)] (.grant r.words true) false true with since := absNow s + 2 } : VcFlit) else none).toList := by
    unfold grantFlits
    rw [List.filterMap_cons]
    dsimp only [Option.bind_some]
    split <;> rename_i e <;> rw [e] <;> rfl
  rw [flits]
  unfold sendGrant
  cases route s.plat.fuse pos r.src with
  | none => refine ⟨?_, fun _ _ => rfl, rfl⟩; cases r.write <;> simp
  | some w =>
    cases r.write with
    | false => exact ⟨by simp, fun _ _ => rfl, rfl⟩
    | true => exact ⟨tileOf_queueFlits _ _ _, tilesKept_queueFlits _ _ _, rfl⟩

/-- What the ledger of a port keeps of a request that it grants. -/
def grantPort (x : LedgerReq) (p : PortSt) : PortSt := { p with
  pend := p.pend.erase x
  deficit := kadj p.deficit x.glove fun d => d - x.size
  granted := match x.req with
    | some r => p.granted ++ [r]
    | none => p.granted }

/-- One request is granted. -/
theorem grants_grantReq {x : LedgerReq} (glove : x.glove = g) (s : State) : Grants pos g [x] s (grantReq pos x s) := by
  have deficit (m : KMap Nat) : kgetD (kadj m x.glove fun d => d - x.size) g 0 = kgetD m g 0 - x.size := by
    rw [kgetD, glove, kget_kadj_self, kgetD]
    cases kget m g <;> simp
  unfold grantReq
  extract_lets s1
  have port := portOf_adjPort_self pos (grantPort x) s
  change portOf s1 pos = grantPort x (portOf s pos) at port
  have others (q : Nat) (hq : q ≠ pos) : kget s1.ports q = kget s.ports q := kget_adjPort_other _ _ hq
  cases req : x.req with
  | none =>
    dsimp only
    have port := (portOf_of_ports_eq (t := { s1 with fe := { s1.fe with ops := kadj s1.fe.ops x.op fun o =>
      { o with granted := o.granted + x.size } } }) rfl pos).trans port
    refine ⟨?_, ?_, ?_, ?_, ?_, others, ?_, fun _ _ => rfl, rfl⟩
    · exact (congrArg PortSt.granted port).trans (by simp [grantPort, req])
    · exact (congrArg PortSt.pend port).trans (by simp [grantPort, List.diff_cons])
    · exact (congrArg PortSt.visit port).trans rfl
    · refine (congrArg (fun p => kgetD p.deficit g 0) port).trans ((deficit _).trans ?_)
      rw [List.map_singleton, List.sum_singleton]
    · simp only [List.filter_cons, req, Option.isSome_none]
      rfl
    · simp only [grantFlits, List.filterMap_cons, req, Option.bind_none, List.filterMap_nil, List.append_nil]
      rfl
  | some r =>
    dsimp only
    obtain ⟨tile, tiles, rest⟩ := sendGrant_spec pos r s1
    have ports : (budgetAdd x.glove 5 x.size (sendGrant pos r s1)).ports = s1.ports := by
      rw [rest]
      rfl
    have port := (portOf_of_ports_eq ports pos).trans port
    refine ⟨?_, ?_, ?_, ?_, ?_, fun q hq => ?_, ?_, tiles, ?_⟩
    · exact (congrArg PortSt.granted port).trans (by simp [grantPort, req])
    · exact (congrArg PortSt.pend port).trans (by simp [grantPort, List.diff_cons])
    · exact (congrArg PortSt.visit port).trans rfl
    · refine (congrArg (fun p => kgetD p.deficit g 0) port).trans ((deficit _).trans ?_)
      rw [List.map_singleton, List.sum_singleton]
    · have before : spentOf (sendGrant pos r s1) g 5 = spentOf s g 5 := by
        rw [rest]
        rfl
      simp only [List.filter_cons, req, Option.isSome_some, if_true, List.filter_nil, List.map_cons, List.map_nil, List.sum_cons, List.sum_nil,
        Nat.add_zero]
      rw [glove, ← before, budgetAdd, spentOf]
      exact kgetD_kput_self _ _ _ _
    · rw [ports]
      exact others q hq
    · refine tile.trans ?_
      simp only [grantFlits, List.filterMap_cons, req]
      rfl
    · rw [budgetAdd, rest]
      rfl

/-- Where the glove's budget has no limit every request is granted. -/
theorem grants_grantAll {l : List LedgerReq} (glove : ∀ x ∈ l, x.glove = g) {s : State} (free : allowance s g 5 = none) :
    Grants pos g l s (grantAll pos l s) := by
  have go (l : List LedgerReq) (glove : ∀ x ∈ l, x.glove = g) (t : State) (force : t.force = s.force) : Grants pos g l t (grantAll pos l t) := by
    induction l generalizing t with
    | nil => exact .refl pos g t
    | cons x l ih =>
      have mine := glove x List.mem_cons_self
      have first := grants_grantReq (pos := pos) mine t
      unfold grantAll
      rw [if_neg (by rw [mine, budgetOpen_unlimited force free]; simp)]
      refine first.trans (ih (fun y hy => glove y (List.mem_cons_of_mem _ hy)) _ ?_)
      rw [first.rest]
      exact force
  exact go l glove s rfl

theorem covered_sublist (d : Nat) (l : List LedgerReq) : (covered d l).Sublist l := by
  induction l generalizing d with
  | nil => exact .slnil
  | cons x l ih =>
    unfold covered
    split
    · exact (ih _).cons_cons x
    · exact List.nil_sublist _

/-- Requests that leave the ledger, and those that stay, are those that stood there. -/
theorem length_diff_of_sublist {l m : List LedgerReq} (h : l.Sublist m) : (m.diff l).length + l.length = m.length := by
  have split := List.subperm_append_diff_self_of_count_le fun x (_ : x ∈ l) => h.count_le x
  rw [Nat.add_comm, ← List.length_append, split.length_eq]

/-- A visit grants what the deficit of the glove covers; the rest of the deficit stays while the glove has requests. -/
theorem ledgerVisit_granted (next : nextGlove ((pendingGloves (portOf s pos)).filter fun g => shareOf s g != 0) (portOf s pos).visit = some g)
    (free : allowance s g 5 = none) :
    let p := portOf s pos
    let d := kgetD (p.deficit.filter fun x => (pendingGloves p).contains x.1) g 0 + 512 * shareOf s g
    let l := covered d (p.pend.filter fun x => x.glove == g)
    let m := setPort pos { p with deficit := kput (p.deficit.filter fun x => (pendingGloves p).contains x.1) g d, visit := g + 1 } s
    ∃ v, Grants pos g l m v ∧ ledgerVisit pos s = if (portOf v pos).pend.any (fun x => x.glove == g) then v
      else adjPort pos (fun p => { p with deficit := kdel p.deficit g }) v := by
  intro p d l m
  have glove : ∀ x ∈ l, x.glove = g := fun x hx => by
    have := (List.mem_filter.1 ((covered_sublist d _).subset hx)).2
    simpa using this
  refine ⟨grantAll pos l m, grants_grantAll glove (s := m) free, ?_⟩
  unfold ledgerVisit
  dsimp only
  rw [next]
  cases some_ : (pendingGloves (portOf s pos)).filter fun g => shareOf s g != 0 with
  | nil => rw [some_] at next; exact absurd next (by simp [nextGlove])
  | cons _ _ => rfl

/-! ## Rates of Col links (R90) -/

theorem colRetrain_spec {row rate : Nat} (hr : row < 32) (ne0 : colRate s row ≠ 0) (ne4 : colRate s row ≠ 4) (lo : 1 ≤ rate) (hi : rate ≤ 4)
    (ne : rate ≠ colRate s row) :
    ∃ t, exec (.colRetrain row rate) s = .next t ∧ colRate t row = rate ∧ irqPending t 320 = true ∧
      OdKept [(0x2301, row + 1), (0x2300, 6)] s t ∧
      t = { s with od := t.od, win := t.win, vc3Held := t.vc3Held, vc3Wait := t.vc3Wait, host := t.host, out := t.out } := by
  have run : exec (.colRetrain row rate) s = .next (raise 320 (report (posAt 23 row) 0x0306 (posAt 23 row) row 0
      (leBytes 1 (colRate s row) ++ leBytes 1 rate) (odSet s 0x2301 (row + 1) rate))) := by
    change execColRetrain row rate s = _
    rw [execColRetrain, if_neg (by omega)]
    dsimp only
    rw [if_neg (by omega)]
  obtain ⟨od, -, -⟩ := report_keeps (posAt 23 row) 0x0306 (posAt 23 row) row 0 (leBytes 1 (colRate s row) ++ leBytes 1 rate)
    (odSet s 0x2301 (row + 1) rate)
  refine ⟨_, run, ?_, irqPending_raise_self _ _, ?_, ?_⟩
  · rw [colRate, odGet_raise, od.odGet_eq (by simp [odKey]; omega), odGet_odSet_self]
  · exact ((OdKept.refl _ s).odSet (by simp) _).trans ((od.mono (by simp)).trans (.of_od_eq (raise_od _ _)))
  · exact ((noted_odSet _ _ _ _).trans (noted_report _ _ _ _ _ _ _)).trans (noted_raise _ _)

/-! ## The obligation -/

/-- Settles O38: a request joins, a visit grants one by one what the deficit covers, and a retrained link has its rate. -/
theorem ledgersShareByDeficit : Obligations.LedgersShareByDeficit := by
  refine ⟨fun s pos op hp port => ⟨fun mem r l first => ⟨fun good => ?_, fun bad => ?_⟩,
    fun j o pcie there started moves left none_ => ?_⟩, fun s pos g hp => ?_, fun s row rate => colRetrain_spec⟩
  · refine ⟨_, (ledgerRequest_memory hp port mem op first).trans (if_neg (by simp [good])), ?_, fun q hq => ?_, rfl⟩
    · rw [portOf_adjPort_self, portOf_adjPort_self]
    · rw [kget_adjPort_other _ _ hq, kget_adjPort_other _ _ hq]
  · exact ⟨_, (ledgerRequest_memory hp port mem op first).trans (if_pos bad), ledgerRequest_refused r l s⟩
  · exact ⟨_, ledgerRequest_burst hp port pcie there started moves left none_, portOf_adjPort_self _ _ _,
      fun q hq => kget_adjPort_other _ _ hq, rfl⟩
  · intro p next free d reqs back
    obtain ⟨v, grants, visit⟩ := ledgerVisit_granted next free
    have pend : (portOf v pos).pend = p.pend.diff reqs := grants.pend.trans (by rw [portOf_setPort_self])
    have length : (portOf v pos).pend.length + reqs.length = p.pend.length := by
      rw [pend]
      exact length_diff_of_sublist ((covered_sublist d _).trans List.filter_sublist)
    have deficit : kgetD (portOf v pos).deficit g 0 = d - (reqs.map (·.size)).sum :=
      grants.deficit.trans (by rw [portOf_setPort_self, kgetD_kput_self])
    have granted : (portOf v pos).granted = p.granted ++ reqs.filterMap (·.req) := grants.granted.trans (by rw [portOf_setPort_self])
    have visited : (portOf v pos).visit = g + 1 := grants.visit.trans (by rw [portOf_setPort_self])
    have ports (q : Nat) (hq : q ≠ pos) : kget v.ports q = kget s.ports q := (grants.ports q hq).trans (kget_kput_other _ _ (Ne.symm hq))
    have run : exec (.ledgerGrant pos) s = .next (ledgerVisit pos s) := if_neg (by omega)
    refine ⟨_, run, ?_⟩
    rw [visit]
    by_cases more : (portOf v pos).pend.any (fun x => x.glove == g) = true
    · rw [if_pos more]
      exact ⟨granted, length, visited, by rw [if_pos more]; exact deficit, grants.spent, ports, grants.tile, grants.tiles, grants.rest⟩
    · rw [if_neg more]
      have port : portOf (adjPort pos (fun p => { p with deficit := kdel p.deficit g }) v) pos =
          { portOf v pos with deficit := kdel (portOf v pos).deficit g } := portOf_adjPort_self _ _ _
      rw [port]
      refine ⟨granted, length, visited, ?_, grants.spent, fun q hq => (kget_adjPort_other _ _ hq).trans (ports q hq), grants.tile,
        grants.tiles, ?_⟩
      · rw [if_neg more, kgetD, kget_kdel_self]
        rfl
      · conv_lhs => rw [grants.rest]
        rfl

end Sys2Proof.Machine
end

section
/-! PROOFS. Virtual channels: an output in an open tc, flits that hop to the next router, and fault records on their way (O37). -/

namespace Sys2Proof.Machine

variable {s t u : State} {pos out k p : Nat} {err : Option LinkErr}

/-! ## The VC whose turn it is (R67) -/

/-- A command that names a tc of the frame acts once the frame has reached it. -/
theorem atReal_reached (reach : s.now ≤ (planAt s k).1) (runs : muxStopped s 0 = false) (f : State → State) :
    atReal k s f = .next (f (if (planAt s k).2 then advance (planAt s k).1 s else advanceTo (planAt s k).1 s)) := by
  unfold atReal
  generalize planAt s k = x at *
  exact if_neg (by simp [runs, reach])

/-- The VC that an open tc serves first. -/
def turnVc (n : Nat) : Nat := if n % 8 = 3 then 2 else if n % 8 = 7 then 3 else 1

theorem vcOrder_turn (n : Nat) : ∃ l, vcOrder n = turnVc n :: l := by
  unfold vcOrder turnVc
  split
  · exact ⟨_, rfl⟩
  · split <;> exact ⟨_, rfl⟩

theorem dropEmpty_of_dests (h : ∀ f ∈ (tileOf s pos).msgq, f.dests ≠ []) : dropEmpty pos s = s := by
  unfold dropEmpty
  exact if_neg (by simpa using h)

theorem mem_firstOfGloves {vc i : Nat} {f : VcFlit} {l : List VcFlit} (h : (i, f) ∈ firstOfGloves vc l) : f ∈ l ∧ f.vc = vc := by
  obtain ⟨j, -, found⟩ := List.mem_filterMap.1 h
  obtain ⟨g, at_, kept⟩ := Option.bind_eq_some_iff.1 found
  split at kept
  · rename_i mine
    simp only [Option.some.injEq, Prod.mk.injEq] at kept
    exact kept.2 ▸ ⟨List.mem_of_getElem? at_, mine.1⟩
  · exact absurd kept (by simp)

theorem foldl_of_fixed {α β : Type} {f : β → α → β} {b : β} {l : List α} (h : ∀ x ∈ l, f b x = b) : l.foldl f b = b := by
  induction l with
  | nil => rfl
  | cons x l ih => rw [List.foldl_cons, h x List.mem_cons_self, ih fun y hy => h y (List.mem_cons_of_mem _ hy)]

theorem stallOwn_of_mayInject (h : ∀ f ∈ (tileOf s pos).msgq, mayInject s f = true) (vc out now : Nat) : stallOwn pos vc out now s = s :=
  foldl_of_fixed fun x hx => if_neg (by simp [h x.2 (mem_firstOfGloves hx).1])

/-- An open tc of a free link, where no flit of the tile's queue is out of budget: what the VC whose turn it is sends leaves. -/
theorem useOpenTc_serves (queue : ∀ f ∈ (tileOf s pos).msgq, f.dests ≠ [] ∧ mayInject s f = true) (opened : openTc s pos out k = true)
    (free : kgetD (routerOf s pos).linkFree out 0 ≤ s.frame.base + k) {vc : Nat} (turn : turnVc (openNo s pos out k) = vc)
    (serves : (if vc = 3 then serveVc3 pos out k err s else serveVc pos vc out k err s) = some t) {only3 : Bool}
    (only : only3 = true → vc = 3) :
    useOpenTc pos out k err only3 s = adjRouter pos (fun r => { r with linkFree := kput r.linkFree out (s.frame.base + k + 1) }) t := by
  have budget := fun f hf => (queue f hf).2
  unfold useOpenTc
  dsimp only
  rw [dropEmpty_of_dests fun f hf => (queue f hf).1, stallOwn_of_mayInject budget, stallOwn_of_mayInject budget]
  rw [if_neg (by simp [opened, free])]
  obtain ⟨l, order⟩ := vcOrder_turn (openNo s pos out k)
  rw [order, turn, List.findSome?_cons, serves]
  exact if_neg (by cases only3 <;> simp_all)

/-- The place after the one last served goes first. -/
theorem serveVc_next {vc src : Nat} (next : (kgetD (routerOf s pos).rr (3 * out + vc) 8 + 1) % 9 = src)
    (serves : serveSource pos vc out k src err s = some t) :
    serveVc pos vc out k err s = some (adjRouter pos (fun r => { r with rr := kput r.rr (3 * out + vc) src }) t) := by
  unfold serveVc
  dsimp only
  rw [List.range_succ_eq_map, List.findSome?_cons, Nat.add_zero, next, serves]
  rfl

/-! ## A hop over a link (R61, R62, R68, R95) -/

/-- Whether an error of the link leaves a lane uncorrectable. -/
def spoilt (err : Option LinkErr) : Bool := err.any fun e => e.lanes % 512 != 0

theorem told_linkErrors (pos vc glove : Nat) (e : LinkErr) (s : State) : Told s (linkErrors pos vc glove e s) := by
  unfold linkErrors
  extract_lets a s1
  have fixed : Told s s1 := by
    unfold s1
    split
    · exact .refl s
    · exact told_winBump _ _ _ _ _
  split
  · exact fixed
  · exact fixed.trans ((told_winBump _ _ _ _ _).trans ((told_report _ _ _ _ _ _ _).trans (told_raise _ _)))

theorem irqPending_linkErrors {e : LinkErr} (h : e.lanes % 512 ≠ 0) (pos vc glove : Nat) (s : State) :
    irqPending (linkErrors pos vc glove e s) 322 = true := by
  unfold linkErrors
  dsimp only
  rw [if_neg h]
  exact irqPending_raise_self _ _

/-- What a flit that crosses a link leaves counted, before it joins the next router's buffer. -/
def crossed (pos p input cls out : Nat) (err : Option LinkErr) (f : VcFlit) (s : State) : State :=
  let s1 := countClass pos cls (leaveClass input cls out) s
  match err with
  | none => s1
  | some e => linkErrors p f.vc f.glove { e with input := opposite out } s1

theorem countClass_cases (pos cls to_ : Nat) (s : State) :
    countClass pos cls to_ s = s ∨ countClass pos cls to_ s = winBump s (tileBase pos + 0xFE018) 0 32 1 := by
  unfold countClass
  split
  · exact .inr rfl
  · exact .inl rfl

theorem told_crossed (pos p input cls out : Nat) (err : Option LinkErr) (f : VcFlit) (s : State) :
    Told s (crossed pos p input cls out err f s) := by
  have counted : Told s (countClass pos cls (leaveClass input cls out) s) := by
    rcases countClass_cases pos cls (leaveClass input cls out) s with h | h <;> rw [h]
    · exact .refl s
    · exact told_winBump _ _ _ _ _
  cases err with
  | none => exact counted
  | some e => exact counted.trans (told_linkErrors _ _ _ _ _)

theorem irqPending_crossed (h : spoilt err = true) (pos p input cls out : Nat) (f : VcFlit) (s : State) :
    irqPending (crossed pos p input cls out err f s) 322 = true := by
  cases err with
  | none => exact absurd h (by simp [spoilt])
  | some e => exact irqPending_linkErrors (e := { e with input := opposite out }) (by simpa [spoilt] using h) _ _ _ _

/-- Over a link the copy joins the next router's buffer. -/
theorem flitLeave_link (ho : out < 4) (next : neighbour pos out = some p) (input cls : Nat) (f : VcFlit) (s : State) :
    flitLeave pos input cls out k err f s = adjRouter p (fun r => { r with
      q := kmod r.q (qKey (opposite out) f.vc (leaveClass input cls out)) []
        (· ++ [{ flitCopy pos out (s.frame.base + k) f with poison := f.poison || spoilt err }]) })
      (crossed pos p input cls out err f s) := by
  unfold flitLeave
  rw [if_neg (by omega), next]
  cases err with
  | none => simp [crossed, spoilt, flitCopy]
  | some e =>
    have lanes : decide (e.lanes % 512 ≠ 0) = spoilt (some e) := by by_cases h : e.lanes % 512 = 0 <;> simp [spoilt, h]
    dsimp only
    rw [lanes]
    rfl

/-- Nothing has changed but routers and registers. -/
def RoutersWin (s t : State) : Prop := t = { s with routers := t.routers, win := t.win }

theorem RoutersWin.trans (h1 : RoutersWin s t) (h2 : RoutersWin t u) : RoutersWin s u := by
  unfold RoutersWin at *
  rw [h2, h1]

theorem routersWin_adjRouter (pos : Nat) (f : Router → Router) (s : State) : RoutersWin s (adjRouter pos f s) := rfl

theorem routersWin_noteWait (pos vc now : Nat) (f : VcFlit) (s : State) : RoutersWin s (noteWait pos vc now f s) := rfl

/-- The copy of a flit has hopped from one router to the next: the round robin is at the place served and the link is taken until the next
tc. Without an error only those two routers and two counters have changed. -/
structure Hopped (pos p out vc src now key : Nat) (c : VcFlit) (err : Option LinkErr) (s t : State) : Prop where
  joined : kgetD (routerOf t p).q key [] = kgetD (routerOf s p).q key [] ++ [c]
  left : routerOf t pos = { routerOf s pos with
    rr := kput (routerOf s pos).rr (3 * out + vc) src, linkFree := kput (routerOf s pos).linkFree out (now + 1) }
  others : ∀ q, q ≠ pos → q ≠ p → kget t.routers q = kget s.routers q
  tiles : t.tiles = s.tiles
  spent : t.spent = s.spent
  told : spoilt err = true → irqPending t 322 = true
  clean : err = none → WinKept [tileBase pos + 0xFE00C, tileBase pos + 0xFE018] s t ∧ RoutersWin s t

theorem crossed_clean (pos p input cls out : Nat) (f : VcFlit) (s : State) :
    WinKept [tileBase pos + 0xFE018] s (crossed pos p input cls out none f s) ∧ RoutersWin s (crossed pos p input cls out none f s) := by
  change WinKept _ s (countClass pos cls (leaveClass input cls out) s) ∧ RoutersWin s (countClass pos cls (leaveClass input cls out) s)
  rcases countClass_cases pos cls (leaveClass input cls out) s with h | h <;> rw [h]
  · exact ⟨fun _ _ => rfl, rfl⟩
  · exact ⟨winKept_winSet _ _ _, rfl⟩

theorem noteWait_routers (pos vc now : Nat) (f : VcFlit) (s : State) : (noteWait pos vc now f s).routers = s.routers := rfl

theorem routerOf_noteWait (pos vc now : Nat) (f : VcFlit) (s : State) (q : Nat) : routerOf (noteWait pos vc now f s) q = routerOf s q := rfl

theorem winKept_noteWait (pos vc now : Nat) (f : VcFlit) (s : State) : WinKept [tileBase pos + 0xFE00C] s (noteWait pos vc now f s) :=
  winKept_winSet _ _ _

theorem winGet_adjRouter (pos : Nat) (f : Router → Router) (s : State) (a : Nat) : winGet (adjRouter pos f s) a = winGet s a := rfl

theorem hopped (next : neighbour pos out = some p) (input cls vc src now key : Nat) (c f : VcFlit) (s : State) :
    Hopped pos p out vc src now key c err s
      (adjRouter pos (fun r => { r with linkFree := kput r.linkFree out (now + 1) })
        (adjRouter pos (fun r => { r with rr := kput r.rr (3 * out + vc) src })
          (noteWait pos vc now f (adjRouter p (fun r => { r with q := kmod r.q key [] (· ++ [c]) }) (crossed pos p input cls out err f s))))) := by
  have ne := neighbour_ne next
  have told := told_crossed pos p input cls out err f s
  have routers : (crossed pos p input cls out err f s).routers = s.routers := by
    have noted := told.noted
    unfold Noted at noted
    rw [noted]
  have router (q : Nat) : routerOf (crossed pos p input cls out err f s) q = routerOf s q := routerOf_of_kget (by rw [routers])
  have there : routerOf (noteWait pos vc now f (adjRouter p (fun r => { r with q := kmod r.q key [] (· ++ [c]) })
      (crossed pos p input cls out err f s))) p = { routerOf s p with q := kmod (routerOf s p).q key [] (· ++ [c]) } :=
    by rw [routerOf_noteWait, routerOf_adjRouter_self, router]
  have here : routerOf (noteWait pos vc now f (adjRouter p (fun r => { r with q := kmod r.q key [] (· ++ [c]) })
      (crossed pos p input cls out err f s))) pos = routerOf s pos :=
    by rw [routerOf_noteWait, routerOf_of_kget (kget_adjRouter_other _ _ ne.symm), router]
  refine ⟨?_, ?_, fun q hq hp => ?_, ?_, ?_, fun bad => ?_, fun none_ => ?_⟩
  · rw [routerOf_of_kget (kget_adjRouter_other _ _ ne), routerOf_of_kget (kget_adjRouter_other _ _ ne), there, kmod, kgetD_kput_self]
  · rw [routerOf_adjRouter_self, routerOf_adjRouter_self, here]
  · rw [kget_adjRouter_other _ _ hq, kget_adjRouter_other _ _ hq, noteWait_routers, kget_adjRouter_other _ _ hp, routers]
  · exact told.noted.tiles
  · have noted := told.noted
    unfold Noted at noted
    exact (show _ = (crossed pos p input cls out err f s).spent from rfl).trans (by rw [noted])
  · exact irqPending_crossed bad _ _ _ _ _ _ _
  · subst none_
    obtain ⟨kept, rest⟩ := crossed_clean pos p input cls out f s
    refine ⟨fun a ha => ?_, ?_⟩
    · simp only [List.map_cons, List.map_nil, List.mem_cons, List.not_mem_nil, or_false, not_or] at ha
      rw [winGet_adjRouter, winGet_adjRouter, winKept_noteWait pos vc now f _ a (by simpa using ha.1), winGet_adjRouter,
        kept a (by simpa using ha.2)]
    · exact ((rest.trans (routersWin_adjRouter _ _ _)).trans (routersWin_noteWait _ _ _ _ _)).trans
        ((routersWin_adjRouter _ _ _).trans (routersWin_adjRouter _ _ _))

/-! ## Buffers and the tile's own queue (R63, R68, R69, R78) -/

theorem serveSource_buffer {vc src : Nat} {f : VcFlit} {l : List VcFlit} (hs : src < 8)
    (head : kgetD (routerOf s pos).q (qKey (src / 2) vc (src % 2)) [] = f :: l) (goes : f.dests.any (fun w => wayOut w == out) = true)
    (due : f.since ≤ s.frame.base + k) (room : hasCredit s pos (src / 2) vc (src % 2) out = true) :
    serveSource pos vc out k src err s =
      some (noteWait pos vc (s.frame.base + k) f (bufLeave pos (src / 2) vc (src % 2) out k err f s)) := by
  unfold serveSource
  dsimp only
  rw [if_neg (by omega), head]
  exact if_pos ⟨goes, due, room⟩

theorem serveSource_own {vc i : Nat} {f : VcFlit} (budget : ∀ f ∈ (tileOf s pos).msgq, mayInject s f = true)
    (first : (firstOfGloves vc (tileOf s pos).msgq).find? (fun x => x.2.dests.any (fun w => wayOut w == out) &&
      mayLeave s pos (s.frame.base + k) x.2) = some (i, f)) (room : hasCredit s pos 4 vc 0 out = true) :
    serveSource pos vc out k 8 err s = some (noteWait pos vc (s.frame.base + k) f (ownLeave pos out k i err f s)) := by
  have same : (firstOfGloves vc (tileOf s pos).msgq).find? (fun x => x.2.dests.any (fun w => wayOut w == out) &&
      mayLeave s pos (s.frame.base + k) x.2 && mayInject s x.2) = some (i, f) :=
    (List.find?_congr fun x hx => by rw [budget x.2 (mem_firstOfGloves hx).1, Bool.and_true]).trans first
  unfold serveSource
  dsimp only
  rw [if_pos rfl, same]
  exact if_pos room

/-- A flit that the VC of the turn sends from the place of the turn hops over the link. -/
theorem useOpenTc_hops (queue : ∀ f ∈ (tileOf s pos).msgq, f.dests ≠ [] ∧ mayInject s f = true) (opened : openTc s pos out k = true)
    (free : kgetD (routerOf s pos).linkFree out 0 ≤ s.frame.base + k) {vc src input cls : Nat} (turn : turnVc (openNo s pos out k) = vc)
    (ne3 : vc ≠ 3) (place : (kgetD (routerOf s pos).rr (3 * out + vc) 8 + 1) % 9 = src) (ho : out < 4) (next : neighbour pos out = some p)
    {f : VcFlit} {m : State} (serves : serveSource pos vc out k src err s =
      some (noteWait pos vc (s.frame.base + k) f (flitLeave pos input cls out k err f m)))
    (base : m.frame = s.frame) (mine : f.vc = vc) :
    Hopped pos p out vc src (s.frame.base + k) (qKey (opposite out) vc (leaveClass input cls out))
      { flitCopy pos out (s.frame.base + k) f with poison := f.poison || spoilt err } err m (useOpenTc pos out k err false s) := by
  rw [useOpenTc_serves queue opened free turn ((if_neg ne3).trans (serveVc_next place serves)) (by simp), flitLeave_link ho next, base, mine]
  exact hopped next _ _ _ _ _ _ _ _ _

/-- A flit of a router's buffer has left, or stays for its other outputs. -/
def bufLeft (pos key out : Nat) (f : VcFlit) (s : State) : State :=
  adjRouter pos (fun r => { r with q := kmod r.q key [] fun l =>
    if (flitRest out f).dests.isEmpty then l.drop 1 else flitRest out f :: l.drop 1 }) s

/-- A tile whose flit has left its queue, or stays for its other outputs; a word of a WRITE has used its grant. -/
def tileLeft (out i : Nat) (f : VcFlit) (t : Tile) : Tile := { t with
  msgq := (if (flitRest out f).dests.isEmpty then t.msgq.eraseIdx i else t.msgq.set i (flitRest out f))
  grants := (match f.pay with
    | .store _ _ => if f.paid then t.grants else kadj t.grants f.glove fun n => n - 1
    | _ => t.grants) }

/-- A flit of the tile's own queue has left; its first copy is paid for. -/
def ownLeft (pos out i : Nat) (f : VcFlit) (s : State) : State :=
  if f.paid then adjTile pos (tileLeft out i f) s else budgetAdd f.glove (f.vc + 2) 1 (adjTile pos (tileLeft out i f) s)

theorem bufLeave_eq (pos input vc cls out k : Nat) (err : Option LinkErr) (f : VcFlit) (s : State) :
    bufLeave pos input vc cls out k err f s = flitLeave pos input cls out k err f (bufLeft pos (qKey input vc cls) out f s) := rfl

theorem ownLeave_eq (pos out k i : Nat) (err : Option LinkErr) (f : VcFlit) (s : State) :
    ownLeave pos out k i err f s = flitLeave pos 4 0 out k err f (ownLeft pos out i f s) := by
  have tile : (fun t : Tile =>
      let u : Tile := { t with msgq := if (flitRest out f).dests.isEmpty then t.msgq.eraseIdx i else t.msgq.set i (flitRest out f) }
      match f.pay with
      | .store _ _ => if f.paid then u else { u with grants := kadj u.grants f.glove fun n => n - 1 }
      | _ => u) = tileLeft out i f := by
    funext t
    unfold tileLeft
    cases f.pay with
    | store _ _ => cases f.paid <;> rfl
    | _ => rfl
  rw [ownLeft, ← tile]
  rfl

theorem ownLeft_eq (pos out i : Nat) (f : VcFlit) (s : State) :
    ownLeft pos out i f s = { s with tiles := (ownLeft pos out i f s).tiles, spent := (ownLeft pos out i f s).spent } := by
  unfold ownLeft
  cases f.paid <;> rfl

theorem tilesKept_ownLeft (pos out i : Nat) (f : VcFlit) (s : State) : TilesKept pos s (ownLeft pos out i f s) := by
  unfold ownLeft
  cases f.paid <;> exact fun q hq => kget_kput_other _ _ (Ne.symm hq)

theorem tileOf_ownLeft (pos out i : Nat) (f : VcFlit) (s : State) : tileOf (ownLeft pos out i f s) pos = tileLeft out i f (tileOf s pos) := by
  unfold ownLeft
  cases f.paid <;> exact tileOf_adjTile_self _ _ _

theorem spentOf_ownLeft (pos out i : Nat) (f : VcFlit) (s : State) :
    spentOf (ownLeft pos out i f s) f.glove (f.vc + 2) = spentOf s f.glove (f.vc + 2) + if f.paid then 0 else 1 := by
  unfold ownLeft
  cases f.paid with
  | true => rfl
  | false => exact kgetD_kput_self _ _ _ _

/-! ## VC3 (R68, R80, R87) -/

theorem vc3Refill_of_empty (h : ∀ j, j < 9 → kgetD s.vc3Wait (16 * pos + j) [] = []) : vc3Refill pos s = s :=
  foldl_of_fixed fun j hj => by
    dsimp only
    rw [h j (List.mem_range.1 hj)]
    rfl

/-- A record has left a router's coalescing buffer. -/
def heldLeft (pos : Nat) (e : Vc3Ent) (s : State) : State :=
  let l := (kgetD s.vc3Held pos []).erase e
  { s with vc3Held := if l.isEmpty then kdel s.vc3Held pos else kput s.vc3Held pos l }

theorem heldLeft_self (e : Vc3Ent) (s : State) : kgetD (heldLeft pos e s).vc3Held pos [] = (kgetD s.vc3Held pos []).erase e := by
  unfold heldLeft
  dsimp only
  split
  · rename_i empty
    rw [kgetD, kget_kdel_self, List.isEmpty_iff.1 empty]
    rfl
  · exact kgetD_kput_self _ _ _ _

theorem heldLeft_other (rise : keysRise s.vc3Held = true) (e : Vc3Ent) {q : Nat} (h : q ≠ pos) :
    kget (heldLeft pos e s).vc3Held q = kget s.vc3Held q := by
  unfold heldLeft
  dsimp only
  split
  · rw [kget_kdel rise, if_neg (Ne.symm h)]
  · exact kget_kput_other _ _ (Ne.symm h)

/-- A record has left through an output, whose link is taken until the next tc. -/
def vc3Sent (pos out k : Nat) (e : Vc3Ent) (s : State) : State :=
  adjRouter pos (fun r => { r with linkFree := kput r.linkFree out (s.frame.base + k + 1) }) (vc3Leave pos out k none e (heldLeft pos e s))

/-- Where it is VC3's turn the first record that may leave does, and no record waits to follow it. -/
theorem useOpenTc_record (queue : ∀ f ∈ (tileOf s pos).msgq, f.dests ≠ [] ∧ mayInject s f = true) (opened : openTc s pos out k = true)
    (free : kgetD (routerOf s pos).linkFree out 0 ≤ s.frame.base + k) (turn : turnVc (openNo s pos out k) = 3) {e : Vc3Ent}
    (first : (kgetD s.vc3Held pos []).find? (vc3Ready s pos out (s.frame.base + k)) = some e)
    (empty : ∀ j, j < 9 → kgetD s.vc3Wait (16 * pos + j) [] = [])
    (wait : (vc3Leave pos out k none e (heldLeft pos e s)).vc3Wait = s.vc3Wait) (only3 : Bool) :
    useOpenTc pos out k none only3 s = vc3Sent pos out k e s := by
  have serves : serveVc3 pos out k none s = some (vc3Leave pos out k none e (heldLeft pos e s)) := by
    unfold serveVc3
    dsimp only
    rw [first]
    exact congrArg some (vc3Refill_of_empty fun j hj => (congrArg (kgetD · (16 * pos + j) []) wait).trans (empty j hj))
  exact useOpenTc_serves queue opened free turn ((if_pos rfl).trans serves) fun _ => rfl

/-- A record that finds a free place, and none like it, joins the coalescing buffer. -/
theorem vc3Arrive_free {e : Vc3Ent} (wait : kgetD s.vc3Wait (vc3Key p e) [] = []) (room : (kgetD s.vc3Held p []).length < 8)
    (apart : ((kgetD s.vc3Held p []).any fun h => vc3Same e.rec_ h.rec_) = false) :
    vc3Arrive p e s = winMax { s with vc3Held := kput s.vc3Held p (kgetD s.vc3Held p [] ++ [e]) } (tileBase p + 0xFE010) 16 4
      ((kgetD s.vc3Held p []).length + 1) := by
  unfold vc3Arrive
  dsimp only
  rw [if_pos ⟨wait, by simp [vc3Fits, room]⟩, vc3Take]
  dsimp only
  exact if_neg (by simp [apart])

theorem countClass_eq (pos cls to_ : Nat) (s : State) : countClass pos cls to_ s = { s with win := (countClass pos cls to_ s).win } := by
  rcases countClass_cases pos cls to_ s with h | h <;> rw [h]
  rfl

/-- The record as it stands in the next router. -/
def vc3Hop (pos out now : Nat) (w : List Nat) (e : Vc3Ent) : Vc3Ent :=
  ⟨e.rec_, some (w.drop 1), opposite out, leaveClass e.input e.cls out, hopTc pos out now⟩

theorem vc3Leave_link (ho : out < 4) (next : neighbour pos out = some p) {e : Vc3Ent} {w : List Nat} (way : vc3Way s pos e = some w) :
    vc3Leave pos out k none e s =
      vc3Arrive p (vc3Hop pos out (s.frame.base + k) w e) (countClass pos e.cls (leaveClass e.input e.cls out) s) := by
  have base : (countClass pos e.cls (leaveClass e.input e.cls out) s).frame = s.frame := by rw [countClass_eq]
  unfold vc3Leave
  rw [if_neg (by omega), next]
  dsimp only
  rw [way]
  rfl

/-- A record that goes over a link to a router with a free place, and none like it, joins what that router holds. -/
theorem vc3Leave_free (ho : out < 4) (next : neighbour pos out = some p) {e : Vc3Ent} {w : List Nat} (way : vc3Way s pos e = some w)
    (wait : kgetD s.vc3Wait (16 * p + 2 * opposite out + leaveClass e.input e.cls out) [] = []) (room : (kgetD s.vc3Held p []).length < 8)
    (apart : ((kgetD s.vc3Held p []).any fun h => vc3Same e.rec_ h.rec_) = false) :
    ∃ x, vc3Leave pos out k none e s =
      { s with vc3Held := kput s.vc3Held p (kgetD s.vc3Held p [] ++ [vc3Hop pos out (s.frame.base + k) w e]), win := x } := by
  obtain ⟨x, counted⟩ : ∃ x, countClass pos e.cls (leaveClass e.input e.cls out) s = { s with win := x } := ⟨_, countClass_eq _ _ _ _⟩
  rw [vc3Leave_link ho next way, counted]
  exact ⟨_, vc3Arrive_free (s := { s with win := x }) wait room apart⟩

/-- What leaves a router's coalescing buffer by an output whose link it takes. -/
structure Released (pos out now : Nat) (e : Vc3Ent) (s t : State) : Prop where
  held : kgetD t.vc3Held pos [] = (kgetD s.vc3Held pos []).erase e
  router : routerOf t pos = { routerOf s pos with linkFree := kput (routerOf s pos).linkFree out (now + 1) }
  others : ∀ q, q ≠ pos → kget t.routers q = kget s.routers q

/-- At the Helmet's link tile a record reaches the Helmet and the management complex. -/
theorem vc3Sent_helmet (rise : keysRise s.vc3Held = true) (k : Nat) (e : Vc3Ent) :
    Released pos 4 (s.frame.base + k) e s (vc3Sent pos 4 k e s) ∧
      (∀ q, q ≠ pos → kget (vc3Sent pos 4 k e s).vc3Held q = kget s.vc3Held q) ∧
      (vc3Sent pos 4 k e s).safety = { s.safety with inbox := s.safety.inbox ++ [e.rec_] } ∧
      (vc3Sent pos 4 k e s).out = .record e.rec_ :: s.out ∧
      vc3Sent pos 4 k e s = { s with
        routers := (vc3Sent pos 4 k e s).routers, safety := (vc3Sent pos 4 k e s).safety, vc3Held := (vc3Sent pos 4 k e s).vc3Held,
        out := (vc3Sent pos 4 k e s).out } :=
  ⟨⟨heldLeft_self e s, routerOf_adjRouter_self _ _ _, fun _ hq => kget_adjRouter_other _ _ hq⟩, fun _ hq => heldLeft_other rise e hq,
    rfl, rfl, rfl⟩

/-- Over a link a record joins what the next router holds, where it fits. -/
theorem vc3Sent_link (rise : keysRise s.vc3Held = true) (ho : out < 4) (next : neighbour pos out = some p) {e : Vc3Ent} {w : List Nat}
    (way : vc3Way s pos e = some w) (wait : kgetD s.vc3Wait (16 * p + 2 * opposite out + leaveClass e.input e.cls out) [] = [])
    (room : (kgetD s.vc3Held p []).length < 8) (apart : ((kgetD s.vc3Held p []).any fun h => vc3Same e.rec_ h.rec_) = false) :
    (vc3Leave pos out k none e (heldLeft pos e s)).vc3Wait = s.vc3Wait ∧
      Released pos out (s.frame.base + k) e s (vc3Sent pos out k e s) ∧
      kgetD (vc3Sent pos out k e s).vc3Held p [] = kgetD s.vc3Held p [] ++ [vc3Hop pos out (s.frame.base + k) w e] ∧
      (∀ q, q ≠ pos → q ≠ p → kget (vc3Sent pos out k e s).vc3Held q = kget s.vc3Held q) ∧
      vc3Sent pos out k e s = { s with
        routers := (vc3Sent pos out k e s).routers, vc3Held := (vc3Sent pos out k e s).vc3Held, win := (vc3Sent pos out k e s).win } := by
  have ne := neighbour_ne next
  have there : kgetD (heldLeft pos e s).vc3Held p [] = kgetD s.vc3Held p [] := by rw [kgetD, heldLeft_other rise e ne, kgetD]
  obtain ⟨x, leave⟩ := vc3Leave_free (s := heldLeft pos e s) (k := k) ho next way wait (by rw [there]; exact room) (by rw [there]; exact apart)
  rw [there] at leave
  unfold vc3Sent
  rw [leave]
  refine ⟨rfl, ⟨?_, routerOf_adjRouter_self _ _ _, fun _ hq => kget_adjRouter_other _ _ hq⟩, kgetD_kput_self _ _ _ _, fun q hq hp => ?_, rfl⟩
  · exact (kgetD_kput_other _ _ _ ne).trans (heldLeft_self e s)
  · exact (kget_kput_other _ _ (Ne.symm hp)).trans (heldLeft_other rise e hq)

/-! ## The obligation -/

/-- Settles O37: what the turn and the round robin name leaves, a flit by a hop to the next router, a record toward the Helmet. -/
theorem virtualChannelsForward : Obligations.VirtualChannelsForward := by
  intro s pos out k err hp ho reach runs r now T n opened free queue vc src bad
  have budget := fun f hf => (queue f hf).2
  have forward (err : Option LinkErr) : exec (.vcFlitForward pos out k err) s = .next (useOpenTc pos out k err false r) :=
    (if_neg (by omega)).trans (atReal_reached reach runs _)
  refine ⟨fun p hl next ne3 => ⟨fun f l hs head mine goes due room => ?_, fun f j hs first room => ?_⟩,
    fun e w three _ rise empty first way => ?_⟩
  · have hop := useOpenTc_hops queue opened free rfl ne3 rfl hl next ((serveSource_buffer hs head goes due room).trans
      (congrArg (fun u => some (noteWait pos vc now f u)) (bufLeave_eq pos (src / 2) vc (src % 2) out k err f r))) rfl mine
    have there : routerOf (bufLeft pos (qKey (src / 2) vc (src % 2)) out f r) p = routerOf r p :=
      routerOf_of_kget (kget_adjRouter_other _ _ (neighbour_ne next))
    refine ⟨_, forward err, ⟨?_, ?_, ?_, fun q hq hn => ?_, hop.told⟩, ?_, fun clean => ?_⟩
    · refine hop.joined.trans ?_
      rw [there]
      rfl
    · rw [hop.left]
      exact kgetD_kput_self _ _ _ _
    · rw [hop.left]
      exact kgetD_kput_self _ _ _ _
    · exact (hop.others q hq hn).trans (kget_adjRouter_other _ _ hq)
    · rw [hop.left, bufLeft, routerOf_adjRouter_self, kmod]
      exact (kgetD_kput_self _ _ _ _).trans (by rw [head]; rfl)
    · obtain ⟨kept, rest⟩ := hop.clean clean
      exact ⟨kept, (routersWin_adjRouter _ _ _).trans rest⟩
  · have mine := (mem_firstOfGloves (List.mem_of_find?_eq_some first)).2
    have hop := useOpenTc_hops queue opened free rfl ne3 hs hl next ((serveSource_own budget first room).trans
      (congrArg (fun u => some (noteWait pos vc now f u)) (ownLeave_eq pos out k j err f r))) (by rw [ownLeft_eq]) mine
    have routers : (ownLeft pos out j f r).routers = r.routers := by rw [ownLeft_eq]
    have router (q : Nat) : routerOf (ownLeft pos out j f r) q = routerOf r q := routerOf_of_kget (by rw [routers])
    refine ⟨_, forward err, ⟨?_, ?_, ?_, fun q hq hn => ?_, hop.told⟩, fun q hq => ?_, ?_, ?_, fun clean => ?_⟩
    · refine hop.joined.trans ?_
      rw [router]
      rfl
    · rw [hop.left]
      exact (kgetD_kput_self _ _ _ _).trans hs.symm
    · rw [hop.left]
      exact kgetD_kput_self _ _ _ _
    · exact (hop.others q hq hn).trans (by rw [routers])
    · rw [hop.tiles]
      exact tilesKept_ownLeft pos out j f r q hq
    · rw [tileOf, hop.tiles]
      exact tileOf_ownLeft pos out j f r
    · rw [spentOf, hop.spent, ← mine]
      exact spentOf_ownLeft pos out j f r
    · obtain ⟨kept, rest⟩ := hop.clean clean
      refine ⟨fun a ha => (kept a ha).trans (by rw [ownLeft_eq]; rfl), ?_⟩
      rw [hop.tiles, hop.spent]
      unfold RoutersWin at rest
      refine rest.trans ?_
      conv_lhs => rw [ownLeft_eq]
  · intro left sends
    have both (c : Instr) (run : (vc3Leave pos out k none e (heldLeft pos e r)).vc3Wait = r.vc3Wait → exec c s = .next (vc3Sent pos out k e r)) :
        sends c := by
      refine ⟨fun helmet => ?_, fun p hl next wait room apart => ?_⟩
      · subst helmet
        obtain ⟨⟨held, router, others⟩, rest⟩ := vc3Sent_helmet (pos := pos) rise k e
        exact ⟨_, run rfl, ⟨held, router, others⟩, rest⟩
      · obtain ⟨stays, ⟨held, router, others⟩, rest⟩ := vc3Sent_link (k := k) rise hl next way wait room apart
        exact ⟨_, run stays, ⟨held, router, others⟩, rest⟩
    refine ⟨both _ fun wait => ?_, fun oldest toward => both _ fun wait => ?_⟩
    · rw [forward, useOpenTc_record queue opened free three first empty wait]
    · have release : exec (.vc3RecordRelease pos k none) s = .next (releaseRecord pos k none r) :=
        (if_neg (by omega)).trans (atReal_reached reach runs _)
      rw [release, releaseRecord, oldest]
      dsimp only
      rw [way]
      dsimp only
      rw [toward, useOpenTc_record queue opened free three first empty wait]

end Sys2Proof.Machine
end

section
/-! PROOFS. SLOT_FWD at the own-tile side (O35). -/

namespace Sys2Proof.Machine

/-- A launch of glove 1 that has started. -/
def startedLaunch : Launch :=
  { newLaunch State.reset 7 ⟨1, [], false, .started, false, 0, false, 0, none, 0, false, 0, none⟩ [] ⟨1000, 0, false, none, none, true⟩ [] with
    started := true }

/-- A router with one slot entry of that launch, a FWD of tag 9 from a source mask, and flits at its inputs. -/
def planRouter (place src : Nat) (l : List Latch) : Router :=
  { Router.blank with segs := [(7, ⟨0, 1, 100, 0⟩)], slots := [(place, (7, ⟨src, 1, 9, 1⟩))], latch := l }

/-- The PLLs are open, and the slot of router 49 for output 1 at tc 10 takes the word that its tile has handed on to router 50. The latch of
router 49 holds a flit at input 4, which is no link: no command makes such a latch, but O35 is stated for every state. -/
def ownLatch : State :=
  { winSet State.reset clkGate 0xF0 with
    launches := [(7, startedLaunch)]
    tiles := [(49, { Tile.blank with inj := [(8, ⟨1, 9, false, false, 5, false⟩)] })]
    routers := [(49, planRouter 51 16 [⟨4, 8, 1, ⟨1, 9, false, false, 0, false⟩⟩]), (50, planRouter 61 8 [])] }

theorem ownLatch_uncounted : winGet (advance 10 ownLatch) (tileBase 49 + 0xFE008) = 0 := by decide +kernel

/-- One corrected error named for input 4 is counted, though the slot takes its word from the tile. -/
theorem ownLatch_counts : (match exec (.slotFwd 49 1 10 [⟨4, 1, 0⟩]) ownLatch with
    | .next t => winGet t (tileBase 49 + 0xFE008)
    | _ => 0) = 1 := by decide +kernel

/-- Refutes O35: its clause for the own-tile side does not ask for an input free of errors, but the slot counts a corrected error named for
input 4 in NOC_LINK_ECC where the latch of `ownLatch` holds a flit there, while the clause leaves every register as it was. -/
theorem not_slotsForwardAndDeliver : ¬ Obligations.SlotsForwardAndDeliver := by
  intro holds
  obtain ⟨-, own, -⟩ := holds ownLatch 49 1 10 7 4 ⟨16, 1, 9, 1⟩ [⟨4, 1, 0⟩] (by decide) (by decide +kernel) (by decide +kernel)
    (by decide +kernel) rfl (by decide)
  obtain ⟨t, run, -, -, -, -, rest⟩ := own 8 ⟨1, 9, false, false, 5, false⟩ [] 50 rfl (by decide +kernel) (by decide +kernel)
    (by decide +kernel) (by decide) rfl rfl (by decide) (by decide +kernel) (by decide +kernel)
  have counted := ownLatch_counts
  rw [run] at counted
  have kept : winGet t (tileBase 49 + 0xFE008) = winGet (advance 10 ownLatch) (tileBase 49 + 0xFE008) := by rw [rest, winGet, winGet]
  exact absurd ((kept.trans ownLatch_uncounted).symm.trans counted) (by decide)

end Sys2Proof.Machine
end

section
/-! PROOFS. The units that an instruction holds, and a word that port A reads alone in its tc, with the acts that it leads to (R104, R105, R233,
R239, R241, R518). -/

namespace Sys2Proof.Machine

/-! ## Issue (R104, R226, R261, R518) -/

/-- An instruction that the management complex does not run issues in plan time (R261). -/
theorem Issues.inPlan {s : State} {pos tc opc r : Nat} {c : Ctx} (h : Issues s pos tc opc r c) (out : mgmtLegal opc = false) :
    c.free = false :=
  Bool.eq_false_iff.2 fun free => Bool.false_ne_true (out.symm.trans ((fetch_opcode h.2.2.1).2 free))

/-- Units are held by acts under way, at which they are free again. -/
theorem holdUnits_eq (c : Ctx) (fmt : Nat) (s : State) :
    holdUnits c fmt s = underWay c ((unitsHeld (kindOf c.pos) c.word fmt).map fun u => (u.2, .free u.1)) s := by
  rw [underWay, List.foldl_map]
  rfl

theorem adjTile_underWay (pos : Nat) (f : Tile → Tile) (c : Ctx) (l : List (Nat × Act)) (s : State) :
    adjTile pos f (underWay c l s) = underWay c l (adjTile pos f s) := by
  induction l generalizing s with
  | nil => rfl
  | cons x l ih => exact ih _

/-- A context holds the word at which its tile stands. -/
theorem ctxOf_word {s : State} {pos tc : Nat} {c : Ctx} (h : ctxOf s pos tc = some c) :
    c.word = kgetD (tileOf s pos).store (tileOf s pos).pc 0 := by
  unfold ctxOf at h
  dsimp only at h
  split at h
  · obtain ⟨-, same⟩ := Option.ite_none_right_eq_some.1 h
    injection same with same
    rw [← same]
  · split at h
    · obtain ⟨-, same⟩ := Option.ite_none_right_eq_some.1 h
      injection same with same
      rw [← same]
    · exact absurd h (by simp)

theorem Issues.nextWord {s : State} {pos tc opc r : Nat} {c : Ctx} (h : Issues s pos tc opc r c) : nextWord s pos tc = c.word :=
  (ctxOf_word (fetch_ctx h.2.2.1)).symm

/-! ## Acts from now on -/

theorem dueIn_append (c : Ctx) (l m : List (Nat × Act)) (s : State) : dueIn c (l ++ m) s = dueIn c m (dueIn c l s) := List.foldl_append

/-- Acts of two lists come later where those of each do. -/
theorem positive_append {l m : List (Nat × Act)} (hl : ∀ y ∈ l, 0 < y.1) (hm : ∀ y ∈ m, 0 < y.1) : ∀ y ∈ l ++ m, 0 < y.1 :=
  fun y hy => (List.mem_append.1 hy).elim (hl y) (hm y)

/-! ## The state after a read -/

theorem readState_now (s : State) (x : Item) (l : List Item) (b w : Nat) : (readState s x l b w).now = x.tc := by
  rw [(afterRead_readState s x l b w).1]
  rfl

theorem later_readState {s : State} {x : Item} {l : List Item} (h : Alone s x l) (b w : Nat) : Later x.tc (readState s x l b w) := by
  rw [(afterRead_readState s x l b w).1]
  exact h.2.2.1

/-! ## What a word leads to -/

/-- The read of the next word, where one is left. -/
def nextRead (c : Ctx) (b w j arg : Nat) (got : List (Nat × Nat)) : List (Nat × Act) :=
  if j + 1 < readCount c got then [(1, .read b (w + 1) (j + 1) got arg)] else []

/-- The word is used, and the next one is read; a TOPK's words and the header of a SENDM are checked first. -/
theorem readOn_dueIn {c : Ctx} {b w j arg : Nat} {got : List (Nat × Nat)} {d e : Nat × Nat} {s u : State} {acts : List (Nat × Act)}
    (topk : c.f 58 6 ≠ 0x13) (head : ¬(c.f 58 6 = 7 ∧ j = 0)) (used : ∀ late, useWord c j arg late got d e s = dueIn c acts u)
    (last : ∀ late, lastWord c arg late (keepWord c got d) (dueIn c acts u) = dueIn c acts u) :
    readOn c b w j arg got d e s = dueIn c (acts ++ nextRead c b w j arg (keepWord c got d)) u := by
  have plain : isTopk c = false := by simp [isTopk, topk]
  unfold readOn nextRead
  simp only [plain, if_neg head, used, last, Bool.false_eq_true, false_and, if_false, Bool.not_true, dueIn_append]
  split <;> rfl

section Read

variable {s u : State} {x : Item} {l : List Item} {b w j arg : Nat} {got : List (Nat × Nat)}

/-- A lone read of one bank is served, and what its word leads to is all that happens. -/
theorem advance_read (h : Alone s x l) (act : x.act = .read b w j got arg) (served : Served s x.c.glove b w)
    (one : ¬(x.c.f 58 6 = 0x10 ∧ x.c.f 56 2 = 1)) (e : readOn x.c b w j arg got (wordAt s b w) (0, 0) (readState s x l b w) = u)
    (now : u.now = x.tc) (later : Later x.tc u) : advance x.tc s = u := by
  have access : portAOne x.c b w .read (dueState s x l) = (none, wordAt s b w, portAActed b w .read (dueState s x l)) :=
    portAOne_served (s := dueState s x l) served .read
  refine advance_served h (by rw [Item.bank, act]) (by simp [Item.kind, act]) ?_ now later
  rw [← e]
  unfold serve
  rw [act]
  dsimp only
  rw [access]
  dsimp only
  rw [if_neg one, readDone_none]
  rfl

/-- A lone read whose word leads to acts of later tc, and to the read of the next word. -/
theorem advance_read_dueIn {acts : List (Nat × Act)} (h : Alone s x l) (act : x.act = .read b w j got arg)
    (served : Served s x.c.glove b w) (one : ¬(x.c.f 58 6 = 0x10 ∧ x.c.f 56 2 = 1))
    (e : readOn x.c b w j arg got (wordAt s b w) (0, 0) (readState s x l b w) = dueIn x.c acts u)
    (positive : ∀ y ∈ acts, 0 < y.1) (now : u.now = x.tc) (later : Later x.tc u) : advance x.tc s = dueIn x.c acts u :=
  have ⟨_, _, _, _, plan⟩ := h
  advance_read h act served one e ((dueIn_now _ _ _).trans now) (later_dueIn plan positive now later)

end Read

theorem nextRead_positive (c : Ctx) (b w j arg : Nat) (got : List (Nat × Nat)) : ∀ y ∈ nextRead c b w j arg got, 0 < y.1 := by
  unfold nextRead
  split <;> simp

end Sys2Proof.Machine
end

section
/-! PROOFS. The row sums of a vector that enters with SET, in an array and codebook that no load changes (O14). -/

namespace Sys2Proof.Machine

/-! ## The columns that a vector passes (R98, R99, R103, R105) -/

theorem Lac.length_elements (q : Lac) (w0 w1 : Nat) : (q.elements w0 w1).length = q.cols := by
  unfold Lac.elements Lac.cols Lac.wide
  cases q.cw <;> cases q.aw <;> simp

/-- Where no load is remembered, the array and the codebook stood as they stand. -/
theorem codeAt_of_hist_nil {m : MState} (still : m.hist = []) (key tc : Nat) : codeAt m key tc = codeNow m key := by
  rw [codeAt, still]
  rfl

/-- A column of the array as it stands, with an element in front of it. -/
def Lac.columnNow (q : Lac) (m : MState) (el j : Nat) : Column := ⟨el, (q.codeKeys j).map (codeNow m), q.bookKeys.map (codeNow m)⟩

theorem Lac.columns_of_hist_nil (q : Lac) {m : MState} (still : m.hist = []) (entered : Nat) (els : List Nat) :
    q.columns m entered els = (List.range els.length).map fun j => q.columnNow m (els.getD j 0) j := by
  simp only [Lac.columns, Lac.columnNow, codeAt_of_hist_nil still]

/-- The codebook entry that cell (i, j) selects, its code being 4 bits of one code word, or 8 bits of two. -/
def Lac.cellEntry (q : Lac) (m : MState) (i j : Nat) : Int :=
  if q.cw then
    let k := fld (kgetD m.codes (2 * j + i / 64) 0) (8 * (i % 64)) 8
    signed 8 (fld (kgetD m.book (k / 64) 0) (8 * (k % 64)) 8)
  else signed 8 (fld (kgetD m.book (q.cbsel / 4) 0) (8 * (16 * (q.cbsel % 4) + fld (kgetD m.codes j 0) (4 * i) 4)) 8)

theorem codeNow_code {m : MState} {key : Nat} (h : key < 64) :
    (codeNow m key).val = kgetD m.codes key 0 ∧ (codeNow m key).poison = m.codePoison.contains key := by
  rw [codeNow, if_pos h]
  exact ⟨rfl, rfl⟩

theorem codeNow_book {m : MState} {key : Nat} (h : 64 ≤ key) :
    (codeNow m key).val = kgetD m.book (key - 64) 0 ∧ (codeNow m key).poison = m.bookPoison.contains (key - 64) := by
  rw [codeNow, if_neg (Nat.not_lt.2 h)]
  exact ⟨rfl, rfl⟩

theorem Lac.codeKeys_lt {q : Lac} {j : Nat} (h : j < q.cols) : ∀ k ∈ q.codeKeys j, k < 64 := by
  unfold Lac.cols at h
  unfold Lac.codeKeys
  cases wide : q.cw <;> simp [wide] at h ⊢ <;> omega

theorem Lac.bookKeys_ge (q : Lac) : ∀ k ∈ q.bookKeys, 64 ≤ k := by
  unfold Lac.bookKeys
  cases q.cw <;> simp

theorem fld_lt (x lo w : Nat) : fld x lo w < 2 ^ w := Nat.mod_lt _ (by positivity)

theorem Lac.code_columnNow {q : Lac} {j : Nat} (hj : j < q.cols) {i : Nat} (hi : i < 128) (m : MState) (el : Nat) :
    q.code (q.columnNow m el j) i =
      if q.cw then fld (kgetD m.codes (2 * j + i / 64) 0) (8 * (i % 64)) 8 else fld (kgetD m.codes j 0) (4 * i) 4 := by
  have word {k : Nat} (h : k ∈ q.codeKeys j) : (codeNow m k).val = kgetD m.codes k 0 := (codeNow_code (Lac.codeKeys_lt hj k h)).1
  unfold Lac.codeKeys at word
  unfold Lac.code Lac.columnNow Lac.codeKeys
  cases wide : q.cw
  · simp only [wide, Bool.false_eq_true, if_false, List.mem_singleton, forall_eq] at word ⊢
    simp [word]
  · simp only [wide, if_true, List.mem_cons, List.not_mem_nil, or_false, forall_eq_or_imp, forall_eq] at word ⊢
    obtain ⟨low, high⟩ := word
    rcases (by omega : i / 64 = 0 ∨ i / 64 = 1) with half | half <;> simp [half, low, high]

theorem Lac.entry_columnNow {q : Lac} {j : Nat} (hj : j < q.cols) {i : Nat} (hi : i < 128) (m : MState) (el : Nat) :
    (q.entry (q.columnNow m el j) i).1 = q.cellEntry m i j := by
  have quarter {k : Nat} (h : 64 ≤ k) : (codeNow m k).val = kgetD m.book (k - 64) 0 := (codeNow_book h).1
  unfold Lac.entry Lac.cellEntry
  dsimp only
  rw [Lac.code_columnNow hj hi]
  unfold Lac.columnNow Lac.bookKeys
  cases wide : q.cw
  · simp [quarter]
  · simp only [if_true]
    generalize hk : fld (kgetD m.codes (2 * j + i / 64) 0) (8 * (i % 64)) 8 = k
    have small : k < 256 := hk ▸ fld_lt _ _ 8
    rcases (by omega : k / 64 = 0 ∨ k / 64 = 1 ∨ k / 64 = 2 ∨ k / 64 = 3) with e | e | e | e <;> simp [e, quarter]

/-! ## The row sums (R101, R102) -/

/-- A row sum is the sum over the columns of element minus ZA times the cell's entry. -/
theorem Lac.row_fst (q : Lac) (cols : List Column) (i : Nat) :
    (q.row cols i).1 = (cols.map fun x => ((x.el : Int) - (q.za : Int)) * (q.entry x i).1).sum := by
  have folded (a : Int × Nat) : (cols.foldl (fun a x =>
      (a.1 + ((x.el : Int) - (q.za : Int)) * (q.entry x i).1, (a.2 + res7 ((x.el : Int) - (q.za : Int)) * (q.entry x i).2) % 7)) a).1 =
        a.1 + (cols.map fun x => ((x.el : Int) - (q.za : Int)) * (q.entry x i).1).sum := by
    induction cols generalizing a with
    | nil => simp
    | cons x cols ih => rw [List.foldl_cons, ih, List.map_cons, List.sum_cons, add_assoc]
  exact (folded (0, 0)).trans (zero_add _)

/-! ## Slots (R102, R119, R122) -/

@[simp] theorem accRows_markSlot (slot k : Nat) (on : Bool) (m : MState) : accRows (markSlot slot on m) k = accRows m k := rfl

theorem contains_markSlot (slot : Nat) (on : Bool) (m : MState) : (markSlot slot on m).slotPoison.contains slot = on := by
  cases on <;> simp [markSlot]

/-- Rows that are set from the first on. -/
theorem accRows_changeRows_set (slot : Nat) (vals : List Int) (rs : List Nat) (m : MState) :
    accRows (changeRows slot 0 true vals rs m) slot = vals.map (unsigned 64) ++ (accRows m slot).drop vals.length := by
  simp [changeRows, accRows]

/-- With SET a slot takes its row sums, and its poison mark says whether they are poisoned. -/
theorem Lac.apply_set {q : Lac} (set : q.set = true) (b : Nat) (cols : List Column) (poison : Bool) (m : MState) :
    q.apply b cols poison m =
      markSlot ((q.slot + b) % 128) (poison || cols.any fun x => x.codes.any (·.poison) || x.book.any (·.poison))
        (changeRows ((q.slot + b) % 128) 0 true (((List.range 128).map (q.row cols)).map (·.1))
          (((List.range 128).map (q.row cols)).map (·.2)) m) := by
  unfold Lac.apply
  simp only [set, if_true]
  split <;> rename_i dirty
  · rw [dirty]
  · rw [Bool.not_eq_true] at dirty
    rw [dirty]

/-- Where a column's words are poisoned. -/
theorem Lac.columnNow_poison {q : Lac} {j : Nat} (hj : j < q.cols) (m : MState) (el : Nat) :
    ((q.columnNow m el j).codes.any (·.poison) || (q.columnNow m el j).book.any (·.poison)) = true ↔
      (∃ k ∈ q.codeKeys j, m.codePoison.contains k = true) ∨ ∃ k ∈ q.bookKeys, m.bookPoison.contains (k - 64) = true := by
  unfold Lac.columnNow
  simp only [Bool.or_eq_true, List.any_map, List.any_eq_true, Function.comp_apply]
  refine or_congr (exists_congr fun k => and_congr_right fun hk => ?_) (exists_congr fun k => and_congr_right fun hk => ?_)
  · rw [(codeNow_code (Lac.codeKeys_lt hj k hk)).2]
  · rw [(codeNow_book (q.bookKeys_ge k hk)).2]

/-! ## The obligation -/

/-- Settles O14: with SET the slot's rows are the row sums over the columns as they stand. -/
theorem accumulatorsHoldTheRowSums : Obligations.AccumulatorsHoldTheRowSums := by
  unfold Obligations.AccumulatorsHoldTheRowSums
  intro q b w0 w1 entered poison m set still
  have cols : (q.elements w0 w1).length = q.cols := q.length_elements w0 w1
  dsimp only
  generalize q.elements w0 w1 = els at cols
  rw [Lac.apply_set set, q.columns_of_hist_nil still]
  refine ⟨fun i hi => ?_, fun k other => kget_kput_other _ _ (Ne.symm other), rfl, rfl, ?_⟩
  · rw [accRows_markSlot, accRows_changeRows_set, List.getD_append _ _ _ _ (by simpa using hi)]
    have row : ((((List.range 128).map (q.row ((List.range els.length).map fun j => q.columnNow m (els.getD j 0) j))).map
        (·.1)).map (unsigned 64)).getD i 0 =
          unsigned 64 (q.row ((List.range els.length).map fun j => q.columnNow m (els.getD j 0) j) i).1 := by
      simp [List.getD_eq_getElem?_getD, hi]
    rw [row, Lac.row_fst, List.map_map]
    congr 2
    refine List.map_congr_left fun j hj => ?_
    have inArray : j < q.cols := cols ▸ List.mem_range.1 hj
    rw [Function.comp_apply, Lac.entry_columnNow inArray hi]
    rfl
  · rw [contains_markSlot, Bool.or_eq_true, List.any_map, List.any_eq_true]
    refine or_congr_right (exists_congr fun j => ?_)
    rw [List.mem_range]
    exact and_congr_right fun hj => Lac.columnNow_poison (cols ▸ hj) m _

end Sys2Proof.Machine
end

section
/-! PROOFS. LAC and the three forms of LDC: their issue, their reads, the entry of a vector and its row sums, and words that load (O13). -/

namespace Sys2Proof.Machine

/-! ## LAC issues (R100, R104, R518) -/

theorem holdUnits_lac {c : Ctx} (lac : c.f 58 6 = 0x10) (s : State) :
    holdUnits c 0 s = underWay c [((lacOf c.word).last + 1, .free unitArray)] s := by
  have held : unitsHeld (kindOf c.pos) c.word 0 = [(unitArray, (lacOf c.word).last + 1)] := by
    rw [unitsHeld, show fld c.word 58 6 = 0x10 from lac]
    rfl
  rw [holdUnits_eq, held]
  rfl

theorem lacMesh_issued {s : State} {pos tc : Nat} {c : Ctx} (h : Issues s pos tc 0x10 (bits 0 0) c) (form : (lacOf c.word).formOk = true)
    (mesh : (lacOf c.word).src = 3) :
    let T := tileOf (reached s pos tc) pos
    ∃ t u, exec (.lac pos tc) s = .next t ∧ t = issued c [((lacOf c.word).last + 1, .free unitArray)] u ∧
      TileFrame pos (reached s pos tc) u ∧ tileOf u pos = { tileAfter c 1 T with m := { T.m with meshRd := some ⟨c, none⟩ } } := by
  obtain ⟨rfl, -, -⟩ := h.spec
  obtain ⟨lac, -⟩ := fetch_opcode h.2.2.1
  refine ⟨_, adjTile c.pos (fun u => { u with m := { u.m with meshRd := some ⟨c, none⟩ } }) (stepOn c 1 (reached s c.pos tc)), ?_, rfl,
    (tileFrame_stepOn c 1 _).trans (tileFrame_adjTile _ _ _), ?_⟩
  · change execLac c.pos tc s = _
    refine runInstr_issued h ?_
    dsimp only
    rw [if_neg (by simp [form, mesh]), if_pos mesh, holdUnits_lac lac, adjTile_underWay]
  · rw [tileOf_adjTile_self, tileOf_stepOn]
    rfl

theorem lacBank_issued {s : State} {pos tc : Nat} {c : Ctx} (h : Issues s pos tc 0x10 (bits 0 0) c) (form : (lacOf c.word).formOk = true)
    (bank : (lacOf c.word).src ≠ 3) :
    let q := lacOf c.word
    let a := addrBank pos (q.src == 2) q.addr
    a.2 + q.words ≤ bankWords a.1 →
    ∃ t u, exec (.lac pos tc) s = .next t ∧ tileOf u pos = tileAfter c 1 (tileOf (reached s pos tc) pos) ∧
      TileFrame pos (reached s pos tc) u ∧
      t = issued c [(q.last + 1, .free unitArray), (if q.src = 2 then 2 else 1, .read a.1 a.2 0 [] 0)] u := by
  obtain ⟨rfl, -, -⟩ := h.spec
  obtain ⟨lac, -⟩ := fetch_opcode h.2.2.1
  intro q a room
  refine ⟨_, stepOn c 1 (reached s c.pos tc), ?_, tileOf_stepOn c 1 _, tileFrame_stepOn c 1 _, rfl⟩
  change execLac c.pos tc s = _
  refine runInstr_issued h ?_
  have lag : bankLag (q.src == 2) 0 = if q.src = 2 then 2 else 1 := by simp [bankLag]
  have fits : ¬((!q.formOk) = true ∨ q.src ≠ 3 ∧ bankWords a.1 < a.2 + q.words) := by
    rintro (bad | ⟨-, past⟩)
    · exact absurd (form : q.formOk = true) (by simpa using bad)
    · omega
  dsimp only
  rw [← lag]
  refine (if_neg fits).trans ?_
  rw [if_neg bank, holdUnits_lac lac]
  rfl

/-! ## LDC issues (R105, R241, R518) -/

theorem ldcWords_eq (kind : Nat) : ldcWords kind = if kind = 0 then 64 else if kind = 1 then 1 else 16 := by
  match kind with
  | 0 => rfl
  | 1 => rfl
  | _ + 2 => rfl

theorem holdUnits_ldc {c : Ctx} (ldc : c.f 58 6 = 0x11) (s : State) :
    holdUnits c 0 s = underWay c [(ldcWords (c.f 38 2) + if c.f 56 2 = 2 then 0 else 1, .free unitLoad)] s := by
  have held : unitsHeld (kindOf c.pos) c.word 0 = [(unitLoad, ldcWords (c.f 38 2) + if c.f 56 2 = 2 then 0 else 1)] := by
    rw [unitsHeld, show fld c.word 58 6 = 0x11 from ldc]
    rfl
  rw [holdUnits_eq, held]
  rfl

theorem ldc_issued {s : State} {pos tc kind : Nat} {c : Ctx} (h : Issues s pos tc 0x11 (bits 27 0) c) (form : c.f 38 2 = kind)
    (known : kind < 3) (src : c.f 56 2 = 0 ∨ c.f 56 2 = 2) :
    let n := ldcWords kind
    let a := addrBank pos (c.f 56 2 == 2) (c.f 40 16)
    a.2 + n ≤ bankWords a.1 →
    ∃ t u, ldc pos tc kind s = .next t ∧ tileOf u pos = tileAfter c 1 (tileOf (reached s pos tc) pos) ∧
      TileFrame pos (reached s pos tc) u ∧
      t = issued c [(if c.f 56 2 = 2 then 2 else 1, .read a.1 a.2 0 [] 0), (if c.f 56 2 = 2 then n else n + 1, .free unitLoad)] u := by
  obtain ⟨rfl, -, -⟩ := h.spec
  obtain ⟨op, -⟩ := fetch_opcode h.2.2.1
  intro n a room
  have mine : fld (nextWord s c.pos tc) 38 2 = kind := h.nextWord ▸ form
  have lag : bankLag (c.f 56 2 == 2) 0 = if c.f 56 2 = 2 then 2 else 1 := by simp [bankLag]
  have held : (ldcWords (c.f 38 2) + if c.f 56 2 = 2 then 0 else 1) = if c.f 56 2 = 2 then n else n + 1 := by
    rw [form]
    split <;> rfl
  have fits : ¬((c.f 56 2 ≠ 0 ∧ c.f 56 2 ≠ 2) ∨ bankWords a.1 < a.2 + ldcWords kind) := by omega
  refine ⟨_, stepOn c 1 (reached s c.pos tc), ?_, tileOf_stepOn c 1 _, tileFrame_stepOn c 1 _, rfl⟩
  unfold ldc
  dsimp only
  rw [mine, if_neg (by omega)]
  refine runInstr_issued h ?_
  rw [if_neg (by omega), ← lag, ← held]
  refine (if_neg fits).trans ?_
  rw [holdUnits_ldc op]
  rfl

/-! ## Words that a LAC reads (R103, R104) -/

/-- The TAG of a word that did not come as a flit is a free value. -/
def freeTag (s : State) : Nat := (drawFree s).1.toNat % 4096

theorem freeTag_lt (s : State) : freeTag s < 4096 := Nat.mod_lt _ (by decide)

/-- Free values have been drawn. -/
def drawn (n : Nat) (s : State) : State := { s with freeCtr := s.freeCtr + n }

/-- With FWD a word is handed on, under a free TAG. -/
def fwdActs (c : Ctx) (d tag : Nat) (x : Nat × Nat) : List (Nat × Act) :=
  if (lacOf c.word).fwd then [(d, .hand (mkFlit c tag false (x.2 != 0) x.1))] else []

theorem fwdWord_eq (c : Ctx) (d : Nat) (x : Nat × Nat) (s : State) :
    fwdWord c d x s = dueIn c (fwdActs c d (freeTag s) x) (drawn (ofBool (lacOf c.word).fwd) s) := by
  unfold fwdWord fwdActs
  cases (lacOf c.word).fwd <;> rfl

/-- What enters the array from a word that a LAC reads, alone or as the second of its vector (R103). -/
def vectorActs (q : Lac) (lag j : Nat) (before : Option (Nat × Nat)) (d : Nat × Nat) : List (Nat × Act) :=
  if !q.wide then [(lag, .vector j d.1 0 (d.2 != 0))]
  else match before with
    | some p => if j % 2 = 1 then [(lag, .vector (j / 2) p.1 d.1 (p.2 != 0 || d.2 != 0))] else []
    | none => []

theorem lacWord_one {c : Ctx} (one : (lacOf c.word).src ≠ 1) (j : Nat) (before : Option (Nat × Nat)) (d e : Nat × Nat) (s : State) :
    let lag := if (lacOf c.word).src = 2 then 4 else 2
    lacWord c j before d e s =
      dueIn c (fwdActs c lag (freeTag s) d ++ vectorActs (lacOf c.word) lag j before d) (drawn (ofBool (lacOf c.word).fwd) s) := by
  intro lag
  unfold lacWord vectorActs
  dsimp only
  rw [if_neg one, fwdWord_eq, dueIn_append]
  split
  · rfl
  · cases before with
    | none => rfl
    | some p =>
      dsimp only
      split <;> rfl

theorem lacWord_pair {c : Ctx} (pair : (lacOf c.word).src = 1) (j : Nat) (before : Option (Nat × Nat)) (d e : Nat × Nat) (s : State) :
    ∃ tag tag2, tag < 4096 ∧ tag2 < 4096 ∧ lacWord c j before d e s =
      dueIn c (fwdActs c 1 tag d ++ fwdActs c 2 tag2 e ++ [(2, .vector j d.1 e.1 (d.2 != 0 || e.2 != 0))])
        (drawn (2 * ofBool (lacOf c.word).fwd) s) := by
  refine ⟨freeTag s, freeTag (drawn (ofBool (lacOf c.word).fwd) s), freeTag_lt _, freeTag_lt _, ?_⟩
  unfold lacWord
  dsimp only
  rw [if_pos pair]
  unfold fwdWord fwdActs
  cases (lacOf c.word).fwd <;> rfl

theorem later_drawn {tc n : Nat} {s : State} (h : Later tc s) : Later tc (drawn n s) := h

/-- Beside the free values that are drawn, the state is that after a read. -/
theorem AfterRead.drawn {s : State} {x : Item} {l : List Item} {bad n : Nat} {u : State} (h : AfterRead s x l bad u) :
    AfterRead s x l bad { drawn n u with freeCtr := s.freeCtr } ∧ (drawn n u).freeCtr = s.freeCtr + n := by
  have ctr : u.freeCtr = s.freeCtr := by rw [h.1]; rfl
  have same : { Machine.drawn n u with freeCtr := s.freeCtr } = u := by rw [← ctr]; rfl
  exact ⟨same.symm ▸ h, by rw [← ctr]; rfl⟩

theorem fwdActs_positive (c : Ctx) {d : Nat} (hd : 0 < d) (tag : Nat) (x : Nat × Nat) : ∀ y ∈ fwdActs c d tag x, 0 < y.1 := by
  unfold fwdActs
  split <;> simp [hd]

theorem vectorActs_positive (q : Lac) {lag : Nat} (hl : 0 < lag) (j : Nat) (before : Option (Nat × Nat)) (d : Nat × Nat) :
    ∀ y ∈ vectorActs q lag j before d, 0 < y.1 := by
  unfold vectorActs
  split
  · simp [hl]
  · split
    · split <;> simp [hl]
    · simp

theorem useWord_lac {c : Ctx} (lac : c.f 58 6 = 0x10) (j arg late : Nat) (got : List (Nat × Nat)) (d e : Nat × Nat) (s : State) :
    useWord c j arg late got d e s = lacWord c j got.getLast? d e s := by
  unfold useWord
  rw [lac]
  rfl

theorem lastWord_lac {c : Ctx} (lac : c.f 58 6 = 0x10) (arg late : Nat) (got : List (Nat × Nat)) (s : State) :
    lastWord c arg late got s = s := by
  unfold lastWord
  rw [lac]
  rfl

theorem keepWord_lac {c : Ctx} (lac : c.f 58 6 = 0x10) (got : List (Nat × Nat)) (d : Nat × Nat) : keepWord c got d = [d] := by
  unfold keepWord
  rw [lac]
  rfl

theorem readCount_lac {c : Ctx} (lac : c.f 58 6 = 0x10) (got : List (Nat × Nat)) :
    readCount c got = if (lacOf c.word).src = 1 then (lacOf c.word).n else (lacOf c.word).slots := by
  unfold readCount
  rw [lac]
  rfl

theorem readOn_lac {c : Ctx} (lac : c.f 58 6 = 0x10) {b w j arg : Nat} {got : List (Nat × Nat)} {d e : Nat × Nat} {s u : State}
    {acts : List (Nat × Act)} (word : lacWord c j got.getLast? d e s = dueIn c acts u) :
    readOn c b w j arg got d e s = dueIn c (acts ++ nextRead c b w j arg [d]) u := by
  rw [← keepWord_lac lac got d]
  exact readOn_dueIn (by simp [lac]) (by simp [lac]) (fun late => (useWord_lac lac ..).trans word) (fun late => lastWord_lac lac ..)

theorem lac_read_one {s : State} {x : Item} {l : List Item} {b w j arg : Nat} {got : List (Nat × Nat)} (h : Alone s x l)
    (act : x.act = .read b w j got arg) (served : Served s x.c.glove b w) (lac : x.c.f 58 6 = 0x10) :
    let q := lacOf x.c.word
    let lag := if q.src = 2 then 4 else 2
    q.src ≠ 1 → ∃ tag, tag < 4096 ∧ advance x.tc s = dueIn x.c (fwdActs x.c lag tag (wordAt s b w) ++
      vectorActs q lag j got.getLast? (wordAt s b w) ++ nextRead x.c b w j arg [wordAt s b w])
        (drawn (ofBool q.fwd) (readState s x l b w)) := by
  intro q lag one
  have hl : 0 < lag := by dsimp only [lag]; split <;> decide
  refine ⟨_, freeTag_lt (readState s x l b w), advance_read_dueIn h act served (fun pair => one pair.2)
    (readOn_lac lac (lacWord_one one ..)) ?_ (readState_now s x l b w) (later_drawn (later_readState h b w))⟩
  exact positive_append (positive_append (fwdActs_positive _ hl _ _) (vectorActs_positive _ hl _ _ _)) (nextRead_positive _ _ _ _ _ _)

/-! ## Two words of a pair of banks (R100, R103) -/

/-- Where a read has changed the banks' accesses alone, its uncorrectable lanes leave what `AfterRead` says. -/
theorem afterRead_noticed {s : State} {x : Item} {l : List Item} (bad : Nat) {u : State} (banks : u = { dueState s x l with bank := u.bank }) :
    AfterRead s x l bad (noticed x.c bad u) := by
  have tile (k : Nat) : tileOf u k = tileOf s k := by rw [banks]; rfl
  refine ⟨?_, fun zero => ?_, fun ill => ?_, fun k => ?_⟩
  · rw [noticed_eq, banks]
  · rw [noticed, if_pos zero, banks]
    exact ⟨rfl, rfl, rfl⟩
  · rw [noticed, if_neg ill]
    exact irqPending_raise_self _ _
  · rw [tileOf_noticed, tile]

/-- The state after a read of one row of two banks that is alone in its tc. -/
def pairState (s : State) (x : Item) (l : List Item) (b b2 w : Nat) : State :=
  noticed x.c ((wordAt s b w).2 ||| (wordAt s b2 w).2) (portAActed b2 w .read (portAActed b w .read (dueState s x l)))

theorem afterRead_pairState (s : State) (x : Item) (l : List Item) (b b2 w : Nat) :
    AfterRead s x l ((wordAt s b w).2 ||| (wordAt s b2 w).2) (pairState s x l b b2 w) := afterRead_noticed _ rfl

theorem readDone_pair (c : Ctx) (b w j arg : Nat) (got : List (Nat × Nat)) (d e : Nat × Nat) (s : State) :
    readDone c b w j arg got none d e s = readOn c b w j arg got d e (noticed c (d.2 ||| e.2) s) := by
  simp [readDone, noticed, Nat.or_eq_zero_iff]

theorem lac_read_pair {s : State} {x : Item} {l : List Item} {b w j arg : Nat} {got : List (Nat × Nat)} (h : Alone s x l)
    (act : x.act = .read b w j got arg) (served : Served s x.c.glove b w) (lac : x.c.f 58 6 = 0x10) (pair : (lacOf x.c.word).src = 1) :
    let b2 := 4 * x.c.pos + Nat.xor (b % 4) 1
    let d := wordAt s b w
    let e := wordAt s b2 w
    Served s x.c.glove b2 w → ∃ tag tag2, tag < 4096 ∧ tag2 < 4096 ∧ advance x.tc s =
      dueIn x.c (fwdActs x.c 1 tag d ++ fwdActs x.c 2 tag2 e ++ [(2, .vector j d.1 e.1 (d.2 != 0 || e.2 != 0))] ++
        nextRead x.c b w j arg [d]) (drawn (2 * ofBool (lacOf x.c.word).fwd) (pairState s x l b b2 w)) := by
  intro b2 d e served2
  obtain ⟨tag, tag2, small, small2, word⟩ := lacWord_pair pair j got.getLast? d e (pairState s x l b b2 w)
  have first : portAOne x.c b w .read (dueState s x l) = (none, d, portAActed b w .read (dueState s x l)) :=
    portAOne_served (s := dueState s x l) served .read
  have second : portAOne x.c b2 w .read (portAActed b w .read (dueState s x l)) =
      (none, e, portAActed b2 w .read (portAActed b w .read (dueState s x l))) :=
    portAOne_served (s := portAActed b w .read (dueState s x l)) served2 .read
  have ⟨_, _, later, _, plan⟩ := h
  have frame := (afterRead_pairState s x l b b2 w).1
  have now : (pairState s x l b b2 w).now = x.tc := by rw [frame]; rfl
  have rest : Later x.tc (pairState s x l b b2 w) := by rw [frame]; exact later
  refine ⟨tag, tag2, small, small2, advance_served h (by rw [Item.bank, act]) (by simp [Item.kind, act]) ?_ ((dueIn_now _ _ _).trans now)
    (later_dueIn plan ?_ now rest)⟩
  · unfold serve
    rw [act]
    dsimp only
    rw [first]
    dsimp only
    rw [if_pos ⟨lac, pair⟩, second]
    exact (readDone_pair ..).trans (readOn_lac lac word)
  · exact positive_append (positive_append (positive_append (fwdActs_positive _ (by decide) _ _) (fwdActs_positive _ (by decide) _ _))
      (by simp)) (nextRead_positive _ _ _ _ _ _)

/-! ## A word that an LDC reads (R105) -/

theorem ldc_read {s : State} {x : Item} {l : List Item} {b w j arg : Nat} {got : List (Nat × Nat)} (h : Alone s x l)
    (act : x.act = .read b w j got arg) (served : Served s x.c.glove b w) (ldc : x.c.f 58 6 = 0x11) :
    let d := wordAt s b w
    let n := ldcWords (x.c.f 38 2)
    advance x.tc s = dueIn x.c ([(if x.c.f 56 2 = 2 then 5 else 2, .load j d.1 d.2 (j + 1 == n && !(d.2 != 0) && got.all fun k => k.2 == 0))] ++
      nextRead x.c b w j arg (got ++ [(0, d.2)])) (readState s x l b w) := by
  intro d n
  have cmn : readsCmn x.c = (x.c.f 56 2 == 2) := by simp [readsCmn, ldc]
  have kept : keepWord x.c got d = got ++ [(0, d.2)] := by simp [keepWord, ldc]
  rw [← kept]
  refine advance_read_dueIn h act served (by simp [ldc]) (readOn_dueIn (by simp [ldc]) (by simp [ldc]) (fun late => ?_) fun late => ?_)
    (positive_append ?_ (nextRead_positive _ _ _ _ _ _)) (readState_now s x l b w) (later_readState h b w)
  · unfold useWord
    rw [ldc, cmn]
    simp only [beq_iff_eq]
    rfl
  · unfold lastWord
    rw [ldc]
    rfl
  · simp only [List.mem_singleton, forall_eq]
    split <;> decide

theorem readCount_ldc {c : Ctx} (ldc : c.f 58 6 = 0x11) (got : List (Nat × Nat)) : readCount c got = ldcWords (c.f 38 2) := by
  unfold readCount
  rw [ldc]
  rfl

/-! ## A vector enters (R104, R124) -/

/-- A 64-bit count that stops at all ones stands in its two registers (R60, R464). -/
theorem winCount64_pair (s : State) {a : Nat} (lo : regHome a = a) (hi : regHome (a + 4) = a + 4) (d : Nat) :
    winGet (winCount64 s a d) a + 2 ^ 32 * winGet (winCount64 s a d) (a + 4) =
      satAdd (2 ^ 64 - 1) (winGet s a + 2 ^ 32 * winGet s (a + 4)) d := by
  unfold winCount64
  dsimp only
  generalize hv : satAdd (2 ^ 64 - 1) (winGet s a + 2 ^ 32 * winGet s (a + 4)) d = v
  have bound : v < 2 ^ 64 := by
    rw [← hv]
    unfold satAdd
    split <;> omega
  rw [winGet_winSet_self, winGet_winSet, lo, hi, if_neg (by omega), winGet_winSet_self]
  omega

/-- No M-tile stands where the two port tiles with clock and Helmet registers do. -/
theorem ne_of_kind_m {pos : Nat} (m : kindOf pos = .m) : pos ≠ 1140 ∧ pos ≠ 364 := by
  constructor <;> rintro rfl <;> exact absurd m (by decide)

section Change

variable {s : State} {x : Item} {l : List Item}

theorem vector_enters (h : Alone s x l) (m : kindOf x.c.pos = .m) {b w0 w1 : Nat} {bad : Bool} (act : x.act = .vector b w0 w1 bad) :
    let a := tileBase x.c.pos + 0xF1010
    let u := winCount64 (dueState s x l) a 1
    TileFrame x.c.pos (dueState s x l) u ∧ tileOf u x.c.pos = tileOf s x.c.pos ∧
      advance x.tc s = dueIn x.c [((lacOf x.c.word).cols + 3, .sums b w0 w1 bad x.tc)] u ∧
      winGet u a + 2 ^ 32 * winGet u (a + 4) = satAdd (2 ^ 64 - 1) (winGet s a + 2 ^ 32 * winGet s (a + 4)) 1 := by
  intro a u
  have there := ne_of_kind_m m
  have ⟨_, _, later, _, plan⟩ := h
  have performed : perform x (dueState s x l) = dueIn x.c [((lacOf x.c.word).cols + 3, .sums b w0 w1 bad x.tc)] u := by
    unfold perform
    rw [act]
    rfl
  refine ⟨tileFrame_winCount64 _ 0xF1010 1 _ (by decide) (.inr (.inr there)), rfl, ?_, ?_⟩
  · rw [← performed]
    refine advance_change h (by simp [Item.isPort, Item.bank, act]) (by simp [Item.isRows, act]) (by simp [Item.isCheck, act])
      (by simp [Item.isExc, act]) (performed ▸ rfl) (performed ▸ later_dueIn plan (by simp) rfl later)
  · refine winCount64_pair (dueState s x l) (regHome_tile _ 0xF1010 (by decide) (.inr (.inr there))) ?_ 1
    exact regHome_tile _ 0xF1014 (by decide) (.inr (.inr there))

/-- A change of one tile that is alone in its tc. -/
theorem advance_tile (h : Alone s x l) {T : Tile} (port : x.bank = none) (kind : x.isRows = false ∧ x.isCheck = false ∧ x.isExc = false)
    (performed : perform x (dueState s x l) = setTile x.c.pos T (dueState s x l)) :
    advance x.tc s = setTile x.c.pos T (dueState s x l) := by
  obtain ⟨rows, check, exc⟩ := kind
  rw [← performed]
  exact advance_change h (by rw [Item.isPort, port]; rfl) rows check exc (performed ▸ rfl) (performed ▸ h.2.2.1)

/-- Code words of which none fails its parity leave no trace (R121). -/
theorem parityCheck_sound {c : Ctx} {cols : List Column} (sound : ∀ k ∈ cols, ∀ y ∈ k.codes, codeParity y.val = y.check) (s : State) :
    parityCheck c cols s = s := by
  have failing : (cols.flatMap (·.codes)).filter (fun y => parityFails y != 0) = [] := by
    refine List.filter_eq_nil_iff.2 fun y hy => ?_
    obtain ⟨k, hk, hy⟩ := List.mem_flatMap.1 hy
    have zero : parityFails y = 0 := by
      rw [parityFails, sound k hk y hy]
      exact Nat.xor_self _
    simp [zero]
  unfold parityCheck
  rw [failing]

theorem sums_applied (h : Alone s x l) {b w0 w1 e : Nat} {bad : Bool} (act : x.act = .sums b w0 w1 bad e) :
    let T := tileOf s x.c.pos
    let q := lacOf x.c.word
    let cols := q.columns T.m e (q.elements w0 w1)
    (∀ k ∈ cols, ∀ y ∈ k.codes, codeParity y.val = y.check) →
    advance x.tc s = setTile x.c.pos { T with m := q.apply b cols bad T.m } (dueState s x l) := by
  intro T q cols sound
  refine advance_tile h (by rw [Item.bank, act]) (by simp [Item.isRows, Item.isCheck, Item.isExc, act]) ?_
  unfold perform
  rw [act]
  dsimp only
  unfold sumsNow
  dsimp only
  exact congrArg (adjTile x.c.pos _) (parityCheck_sound sound (dueState s x l))

/-- What a word of an LDC changes in the tc in which it lands (R97, R99, R105, R109). -/
def loaded (c : Ctx) (tc j w bad : Nat) (all : Bool) (m : MState) : MState :=
  if c.f 38 2 = 0 then loadCode j w (bad != 0) (remember tc j m)
  else if c.f 38 2 = 1 then loadBook (c.f 36 2) w (bad != 0) (remember tc (64 + c.f 36 2) m)
  else loadRows (c.f 29 7) j w (bitOf c.word 28) (bad != 0) all m

theorem load_lands (h : Alone s x l) {j w bad : Nat} {all : Bool} (act : x.act = .load j w bad all) :
    let T := tileOf s x.c.pos
    advance x.tc s = setTile x.c.pos { T with m := loaded x.c x.tc j w bad all T.m } (dueState s x l) := by
  intro T
  refine advance_tile h (by rw [Item.bank, act]) (by simp [Item.isRows, Item.isCheck, Item.isExc, act]) ?_
  unfold perform
  rw [act]
  dsimp only
  unfold loadNow loaded
  generalize x.c.f 38 2 = form
  match form with
  | 0 => rfl
  | 1 => rfl
  | _ + 2 => rfl

end Change

/-! ## The obligation -/

/-- Settles O13: LAC and LDC by their issue, then a word read from one bank or a pair, and a vector, row sums or a word that come due. -/
theorem lookupAccumulateCompletes : Obligations.LookupAccumulateCompletes := by
  unfold Obligations.LookupAccumulateCompletes
  refine ⟨fun s pos tc c => ⟨fun h form => ⟨fun mesh => lacMesh_issued h form mesh, fun bank room => lacBank_issued h form bank room⟩,
    fun kind h form known src => ?_⟩, fun s x l b w j arg got h act served => ⟨fun lac src => ?_, fun lac pair served2 => ?_,
    fun ldc _ => ?_⟩, fun s x l h m => ⟨fun b w0 w1 bad act => ?_, fun b w0 w1 bad e act sound => sums_applied h act sound,
    fun j w bad all act _ => load_lands h act⟩⟩
  · have run : exec (if kind = 0 then .ldcA pos tc else if kind = 1 then .ldcB pos tc else .ldcS pos tc) s = ldc pos tc kind s := by
      interval_cases kind <;> rfl
    dsimp only
    rw [run, ← ldcWords_eq]
    exact ldc_issued h form known src
  · have one : (lacOf x.c.word).src ≠ 1 := by omega
    obtain ⟨tag, small, run⟩ := lac_read_one h act served lac one
    rw [nextRead, readCount_lac lac, if_neg one] at run
    obtain ⟨after, ctr⟩ := (afterRead_readState s x l b w).drawn (n := ofBool (lacOf x.c.word).fwd)
    exact ⟨_, tag, after, ctr, small, run⟩
  · obtain ⟨tag, tag2, small, small2, run⟩ := lac_read_pair h act served lac pair served2
    rw [nextRead, readCount_lac lac, if_pos pair] at run
    obtain ⟨after, ctr⟩ := (afterRead_pairState s x l b (4 * x.c.pos + Nat.xor (b % 4) 1) w).drawn (n := 2 * ofBool (lacOf x.c.word).fwd)
    refine ⟨_, tag, tag2, after, ctr, small, small2, run.trans ?_⟩
    unfold fwdActs
    cases (lacOf x.c.word).fwd <;> rfl
  · have run := ldc_read h act served ldc
    dsimp only at run ⊢
    rw [nextRead, readCount_ldc ldc, ldcWords_eq] at run
    exact ⟨_, afterRead_readState s x l b w, run⟩
  · obtain ⟨frame, tile, run, count⟩ := vector_enters h m act
    exact ⟨_, frame, tile, run, count⟩

end Sys2Proof.Machine
end

section
/-! PROOFS. RSC and TOPK: their issue, and a group of rows that comes due (O15). -/

namespace Sys2Proof.Machine

/-! ## Issue (R110, R112, R115, R241) -/

/-- Where no cause holds, none is taken. -/
theorem issueCause_none {c : Ctx} {l : List (Bool × Nat)} (h : ∀ p ∈ l, p.1 = false) : issueCause c l = none := by
  have nothing : (l.filter fun p => p.1 && !(c.dry != 0 && (p.2 == 5 || p.2 == 6))) = [] :=
    List.filter_eq_nil_iff.2 fun p hp => by simp [h p hp]
  rw [issueCause, nothing]
  rfl

/-- An instruction of which no cause is found goes on. -/
theorem goes_on (fault : Nat → State) (t : State) : ∀ cause : Option Nat, cause = none →
    (match cause with
      | some k => fault k
      | none => t) = t := by
  rintro _ rfl
  rfl

theorem tagOk_of {s : State} {c : Ctx} {tag : Nat} (h : tag = 0xFFFF ∨ tag < (statBankOf s c).2) : tagOk s c tag = true := by
  simpa [tagOk] using h

/-- A block that fits its bank where it is needed is no cause. -/
theorem block_fits {needed : Bool} {bank last : Nat} (h : needed = true → last ≤ bank) : (needed && decide (bank < last)) = false := by
  cases needed
  · rfl
  · simpa using h rfl

theorem holdUnits_rsc {c : Ctx} (rsc : c.f 58 6 = 0x12) (fmt : Nat) (s : State) :
    holdUnits c fmt s = underWay c [(2 + (if fmt = 4 then 16 else 8) * (c.f 44 7 + 1), .free unitRescale)] s := by
  have rows : 128 / rowsPerTc fmt = if fmt = 4 then 16 else 8 := by
    unfold rowsPerTc
    split <;> rfl
  have held : unitsHeld (kindOf c.pos) c.word fmt = [(unitRescale, 2 + 128 / rowsPerTc fmt * (c.f 44 7 + 1))] := by
    rw [unitsHeld, show fld c.word 58 6 = 0x12 from rsc]
    rfl
  rw [holdUnits_eq, held, rows]
  rfl

theorem holdUnits_topk {c : Ctx} (topk : c.f 58 6 = 0x13) (s : State) :
    holdUnits c 0 s =
      underWay c [(2 + 8 * (c.f 44 7 + 1) + (if bitOf c.word 34 then (c.f 35 8 + 8) / 8 else 0), .free unitRescale)] s := by
  have held : unitsHeld (kindOf c.pos) c.word 0 =
      [(unitRescale, 2 + 8 * (c.f 44 7 + 1) + if bitOf c.word 34 then (c.f 35 8 + 8) / 8 else 0)] := by
    rw [unitsHeld, show fld c.word 58 6 = 0x13 from topk]
    rfl
  rw [holdUnits_eq, held]
  rfl

theorem rsc_issued {s : State} {pos tc : Nat} {c : Ctx} (h : Issues s pos tc 0x12 (bits 10 0) c) :
    let r := reached s pos tc
    let T := tileOf r pos
    let n := c.f 44 7 + 1
    let d := pmGet T (c.f 23 4)
    let q := rescaleOf d
    let a := addrBank pos false (c.f 27 16)
    q.bad = false → (bitOf c.word 43 = false → a.2 + (if q.fmt = 1 ∨ q.fmt = 2 then 2 * n else fmtBits q.fmt / 4 * n) ≤ bankWords a.1) →
    pmBad T (c.f 23 4) = false → q.tag = 0xFFFF ∨ q.tag < (statBankOf r c).2 →
    ∃ t u, exec (.rsc pos tc) s = .next t ∧ tileOf u pos = tileAfter c 1 T ∧ TileFrame pos r u ∧
      t = issued c [(2, .rows ⟨d, 0, 0, [], 0, false⟩), (2 + (if q.fmt = 4 then 16 else 8) * n, .free unitRescale)] u := by
  obtain ⟨rfl, -, -⟩ := h.spec
  obtain ⟨rsc, -⟩ := fetch_opcode h.2.2.1
  intro r T n d q a good fits clean tag
  have cause : issueCause c [(q.bad, excOperand), (!bitOf c.word 43 && decide (bankWords a.1 < a.2 + if q.fmt = 1 ∨ q.fmt = 2 then 2 * n
      else fmtBits q.fmt / 4 * n), excOperand), (pmBad T (c.f 23 4), excPoison), (!tagOk r c q.tag, excTag)] = none := by
    have out := block_fits (needed := !bitOf c.word 43) (by simpa using fits)
    refine issueCause_none ?_
    simp only [List.mem_cons, List.not_mem_nil, or_false, forall_eq_or_imp, forall_eq]
    exact ⟨good, out, clean, by simp [tagOk_of tag]⟩
  refine ⟨_, stepOn c 1 r, ?_, tileOf_stepOn c 1 _, tileFrame_stepOn c 1 _, rfl⟩
  change execRsc c.pos tc s = _
  refine runInstr_issued h ?_
  refine (goes_on (early c · r) (holdUnits c q.fmt (sched c 2 (.rows ⟨d, 0, 0, [], 0, false⟩) (stepOn c 1 r))) _ cause).trans ?_
  rw [holdUnits_rsc rsc]
  rfl

theorem topk_issued {s : State} {pos tc : Nat} {c : Ctx} (h : Issues s pos tc 0x13 (bits 17 0) c) :
    let r := reached s pos tc
    let T := tileOf r pos
    let pmd := c.f 30 4
    let q := rescaleOf (pmGet T pmd)
    let p1 := pmGet T (pmd + 1)
    let lb := addrBank pos false (fld p1 32 16)
    let db := addrBank pos false (fld p1 48 16)
    let words := (c.f 35 8 + 8) / 8
    pmd % 2 = 0 → q.bad = false → (bitOf c.word 34 = true → lb.2 + words ≤ bankWords lb.1) →
    (bitOf c.word 43 = false → db.2 + words ≤ bankWords db.1) →
    pmBad T pmd = false → pmBad T (pmd + 1) = false → q.tag = 0xFFFF ∨ q.tag < (statBankOf r c).2 →
    ∃ t u, exec (.topk pos tc) s = .next t ∧ tileOf u pos = tileAfter c 1 T ∧ TileFrame pos r u ∧
      t = issued c [(2, .rows ⟨pmGet T pmd, p1, 0, [], 0, false⟩),
        (2 + 8 * (c.f 44 7 + 1) + (if bitOf c.word 34 then words else 0), .free unitRescale)] u := by
  obtain ⟨rfl, -, -⟩ := h.spec
  obtain ⟨topk, -⟩ := fetch_opcode h.2.2.1
  intro r T pmd q p1 lb db words even good merge fits clean clean1 tag
  have cause : issueCause c [(pmd % 2 == 1, excOperand), (q.bad, excOperand),
      (bitOf c.word 34 && decide (bankWords lb.1 < lb.2 + words), excOperand),
      (!bitOf c.word 43 && decide (bankWords db.1 < db.2 + words), excOperand), (pmBad T pmd || pmBad T (pmd + 1), excPoison),
      (!tagOk r c q.tag, excTag)] = none := by
    have out := block_fits (needed := !bitOf c.word 43) (by simpa using fits)
    refine issueCause_none ?_
    simp only [List.mem_cons, List.not_mem_nil, or_false, forall_eq_or_imp, forall_eq]
    exact ⟨by simp [even], good, block_fits merge, out, by simp [clean, clean1], by simp [tagOk_of tag]⟩
  refine ⟨_, stepOn c 1 r, ?_, tileOf_stepOn c 1 _, tileFrame_stepOn c 1 _, rfl⟩
  change execTopk c.pos tc s = _
  refine runInstr_issued h ?_
  refine (goes_on (early c · r) (holdUnits c 0 (sched c 2 (.rows ⟨pmGet T pmd, p1, 0, [], 0, false⟩) (stepOn c 1 r))) _ cause).trans ?_
  rw [holdUnits_topk topk]
  rfl

/-! ## A group of rows (R110 to R114, R120) -/

/-- The slot of a group of rows, and the first of them. -/
def groupSlot (c : Ctx) (g : RowsSt) : Nat := slotNo c (g.k * rowsPerTc (outFmt c g.d0) / 128)
def groupFirst (c : Ctx) (g : RowsSt) : Nat := g.k * rowsPerTc (outFmt c g.d0) % 128

/-- The outputs of a group of rows, each with whether it was clipped. -/
def groupRows (c : Ctx) (g : RowsSt) (m : MState) : List (Int × Bool) :=
  (span (groupFirst c g) (rowsPerTc (outFmt c g.d0))).map fun i =>
    rescaleRow (rescaleOf g.d0) (outFmt c g.d0) (rowOf m (groupSlot c g) i).1

/-- The rows that the present word holds with those of a group, and the number of rows that the group clips. -/
def groupOuts (c : Ctx) (g : RowsSt) (m : MState) : List Int := g.outs ++ (groupRows c g m).map (·.1)
def groupSat (c : Ctx) (g : RowsSt) (m : MState) : Nat := (groupRows c g m).countP (·.2)

/-- Clipped rows are counted (R111, R124). -/
def clipped (pos n : Nat) (s : State) : State := if n = 0 then s else countSat pos n s

/-- Rows of which each has the residue that its slot keeps leave no trace (R120). -/
theorem residueCheck_sound {c : Ctx} {topk said : Bool} {slot : Nat} {rows : List Nat} {s : State}
    (sound : ∀ i ∈ rows, res7 (rowOf (tileOf s c.pos).m slot i).1 = (rowOf (tileOf s c.pos).m slot i).2) :
    residueCheck c topk said slot rows s = (said, s) := by
  have fine : (rows.filter fun i => res7 (rowOf (tileOf s c.pos).m slot i).1 != (rowOf (tileOf s c.pos).m slot i).2) = [] :=
    List.filter_eq_nil_iff.2 fun i hi => by simp [sound i hi]
  unfold residueCheck
  dsimp only
  rw [fine]

/-- A tag that collects nothing adds no record (R139). -/
theorem statAt_untagged (c : Ctx) (tc : Nat) {tag : Nat} (h : tag = 0xFFFF) (lanes : List Nat) (s : State) :
    statAt c tc tag lanes s = s := by
  unfold statAt
  split
  · rfl
  · exact if_pos h

/-- An output word goes to the router with SEND, and else to its bank. -/
def putAct (c : Ctx) (d b w tag v : Nat) : Nat × Act :=
  if bitOf c.word 43 then (d, .hand (mkFlit c tag false false v)) else (d, .store b w (.write 0 (leBytes 64 v)))

theorem putOut_eq (c : Ctx) (d b w tag v : Nat) (s : State) : putOut c d b w tag v s = dueIn c [putAct c d b w tag v] s := by
  unfold putOut putAct
  split <;> rfl

theorem putAct_fst (c : Ctx) (d b w tag v : Nat) : (putAct c d b w tag v).1 = d := by
  unfold putAct
  split <;> rfl

/-- The group after this one, with the rows that the present word then holds. -/
def groupNext (c : Ctx) (g : RowsSt) (m : MState) (outs : List Int) : RowsSt :=
  { g with k := g.k + 1, outs := outs, sat := g.sat + groupSat c g m }

/-- The list of a TOPK goes out one word a tc, 12 tc after its last read (R116, R117). -/
def listActs (c : Ctx) (d1 : Nat) (cands : List Nat) : List (Nat × Act) :=
  let ws := entryWords (topkList (c.f 35 8 + 1) cands)
  let a := addrBank c.pos false (fld d1 48 16)
  (List.range ws.length).map fun j => putAct c (12 + j) a.1 (a.2 + j) (c.f 18 12) (ws.getD j 0)

theorem topkOut_untagged {c : Ctx} {d0 : Nat} (untagged : (rescaleOf d0).tag = 0xFFFF) (d1 sat : Nat) (cands : List Nat) (s : State) :
    topkOut c d0 d1 sat cands s = dueIn c (listActs c d1 cands) s := by
  unfold topkOut listActs
  dsimp only
  rw [statAt_untagged _ _ untagged, dueIn, List.foldl_map]
  exact List.foldl_ext _ _ _ fun t j _ => putOut_eq ..

/-- Whether a group of an RSC fills the word that its rows stand in (R113). -/
def groupDone (c : Ctx) (g : RowsSt) (m : MState) : Bool :=
  !isTopk c && decide (512 / fmtBits (outFmt c g.d0) ≤ (groupOuts c g m).length)

/-- What a group of rows leads to: the word that it fills, and the next group or, after the last, the list of a TOPK (R113, R114, R117). -/
def groupActs (c : Ctx) (g : RowsSt) (m : MState) : List (Nat × Act) :=
  let fmt := outFmt c g.d0
  let per := rowsPerTc fmt
  let outs := groupOuts c g m
  let a := rscPlace c fmt (g.k * per / 128) ((groupFirst c g + per - 1) / (512 / fmtBits fmt))
  (if groupDone c g m then [putAct c 4 a.1 a.2 (c.f 11 12) (packRows fmt outs)] else []) ++
    if (g.k + 1) * per < 128 * slotCount c then
      [(1, .rows { g with k := g.k + 1, outs := if groupDone c g m then [] else outs, sat := g.sat + groupSat c g m })]
    else if isTopk c then listActs c g.d1 (keyEntries g.d1 outs) else []

theorem rowsNow_clean {c : Ctx} {g : RowsSt} {s : State} (clean : (tileOf s c.pos).m.slotPoison.contains (groupSlot c g) = false)
    (sound : ∀ i ∈ span (groupFirst c g) (rowsPerTc (outFmt c g.d0)),
      res7 (rowOf (tileOf s c.pos).m (groupSlot c g) i).1 = (rowOf (tileOf s c.pos).m (groupSlot c g) i).2)
    (untagged : (rescaleOf g.d0).tag = 0xFFFF) (alone : isTopk c = true → bitOf c.word 34 = false) :
    rowsNow c g s = dueIn c (groupActs c g (tileOf s c.pos).m) (clipped c.pos (groupSat c g (tileOf s c.pos).m) s) := by
  have checked := residueCheck_sound (topk := isTopk c) (said := g.said) sound
  unfold rowsNow
  extract_lets m fmt per u i0 slot poisoned s0 rows res sat outs word done
  have sound_slot : poisoned = false := (congrArg (i0 == 0 && ·) clean).trans (Bool.and_false _)
  have s0_eq : s0 = s := if_neg (by simp [sound_slot])
  rw [if_neg (by simp [sound_slot]), s0_eq, show residueCheck c (isTopk c) g.said slot rows s = (g.said, s) from checked]
  unfold groupActs
  cases place : rscPlace c fmt u ((i0 + per - 1) / word) with | mk b w =>
  dsimp only
  rw [statAt_untagged _ _ untagged, topkOut_untagged untagged, dueIn_append,
    show rscPlace c (outFmt c g.d0) (g.k * rowsPerTc (outFmt c g.d0) / 128)
      ((groupFirst c g + rowsPerTc (outFmt c g.d0) - 1) / (512 / fmtBits (outFmt c g.d0))) = (b, w) from place]
  have stored : (if done = true then putOut c 4 b w (c.f 11 12) (packRows fmt outs) (if sat = 0 then s else countSat c.pos sat s)
        else if sat = 0 then s else countSat c.pos sat s) =
      dueIn c (if groupDone c g m then [putAct c 4 b w (c.f 11 12) (packRows fmt outs)] else []) (clipped c.pos (groupSat c g m) s) := by
    change (if groupDone c g m = true then _ else _) = _
    split
    · exact putOut_eq ..
    · rfl
  rw [stored]
  split
  · rfl
  · cases topk : isTopk c
    · rfl
    · rw [if_neg (by decide), if_neg (by simp [alone topk])]
      rfl

theorem groupActs_positive (c : Ctx) (g : RowsSt) (m : MState) : ∀ y ∈ groupActs c g m, 0 < y.1 := by
  unfold groupActs
  refine positive_append ?_ ?_
  · split
    · simp [putAct_fst]
    · simp
  · split
    · simp
    · split
      · intro y hy
        obtain ⟨j, -, rfl⟩ := List.mem_map.1 hy
        rw [putAct_fst]
        omega
      · simp

/-- Clipped rows change their tile's count alone. -/
theorem clipped_spec {pos : Nat} (m : kindOf pos = .m) (n : Nat) (s : State) :
    TileFrame pos s (clipped pos n s) ∧ tileOf (clipped pos n s) pos = tileOf s pos ∧
      (0 < n → fld (winGet (clipped pos n s) (tileBase pos + 0xF100C)) 0 32 =
        satAdd (2 ^ 32 - 1) (fld (winGet s (tileBase pos + 0xF100C)) 0 32) n) := by
  have home := regHome_tile pos 0xF100C (by decide) (.inr (.inr (ne_of_kind_m m)))
  unfold clipped
  split
  · exact ⟨.refl pos s, rfl, fun pos => by omega⟩
  · exact ⟨tileFrame_winSet pos _ _ s home (by omega) (by omega), rfl, fun _ => fld_winBump s _ 0 32 n (by decide)⟩

/-- A group of rows that is alone in its tc, with its slot clean and its residues good, of an instruction whose tag collects nothing. -/
theorem group_read {s : State} {x : Item} {l : List Item} {g : RowsSt} (h : Alone s x l) (act : x.act = .rows g)
    (clean : (tileOf s x.c.pos).m.slotPoison.contains (groupSlot x.c g) = false)
    (sound : ∀ i ∈ span (groupFirst x.c g) (rowsPerTc (outFmt x.c g.d0)),
      res7 (rowOf (tileOf s x.c.pos).m (groupSlot x.c g) i).1 = (rowOf (tileOf s x.c.pos).m (groupSlot x.c g) i).2)
    (untagged : (rescaleOf g.d0).tag = 0xFFFF) (alone : isTopk x.c = true → bitOf x.c.word 34 = false) :
    let m := (tileOf s x.c.pos).m
    advance x.tc s = dueIn x.c (groupActs x.c g m) (clipped x.c.pos (groupSat x.c g m) (dueState s x l)) := by
  intro m
  have read : rowsNow x.c g (dueState s x l) = dueIn x.c (groupActs x.c g m) (clipped x.c.pos (groupSat x.c g m) (dueState s x l)) :=
    rowsNow_clean (s := dueState s x l) clean sound untagged alone
  have ⟨_, _, later, _, plan⟩ := h
  have counted (n : Nat) : (clipped x.c.pos n (dueState s x l)).now = x.tc ∧ (clipped x.c.pos n (dueState s x l)).agenda = l := by
    unfold clipped
    split <;> exact ⟨rfl, rfl⟩
  obtain ⟨now, agenda⟩ := counted (groupSat x.c g m)
  rw [← read]
  refine advance_rows h act ?_ ?_ <;> rw [read]
  · exact (dueIn_now _ _ _).trans now
  · exact later_dueIn plan (groupActs_positive _ _ _) now fun y hy => later y (agenda ▸ hy)

/-! ## The obligation -/

/-- Settles O15: RSC and TOPK by their issue, then a group of rows that is alone in its tc. -/
theorem rescaleAndTopKComplete : Obligations.RescaleAndTopKComplete := by
  unfold Obligations.RescaleAndTopKComplete
  refine ⟨fun s pos tc c => ⟨rsc_issued, topk_issued⟩, fun s x l g h kind act => ?_⟩
  have fmt : (if x.c.f 58 6 = 0x13 then 3 else (rescaleOf g.d0).fmt) = outFmt x.c g.d0 := by simp [outFmt, isTopk]
  dsimp only
  rw [fmt]
  intro clean untagged sound
  obtain ⟨frame, tile, count⟩ := clipped_spec kind (groupSat x.c g (tileOf s x.c.pos).m) (dueState s x l)
  refine ⟨_, frame, tile, count, fun rsc => ?_, fun topk alone => ?_⟩
  · have one : isTopk x.c = false := by simp [isTopk, rsc]
    refine (group_read h act clean sound untagged fun topk => absurd topk (by simp [one])).trans ?_
    unfold groupActs groupDone
    rw [one]
    rfl
  · have list : isTopk x.c = true := by simp [isTopk, topk]
    refine (group_read h act clean sound untagged fun _ => alone).trans ?_
    unfold groupActs groupDone
    rw [list]
    rfl

end Sys2Proof.Machine
end

section
/-! PROOFS. RECV, BARW and its time-out, LDP and SENDM: their issue, their reads, and parameter registers that land (O9). -/

namespace Sys2Proof.Machine

/-! ## Issue (R233, R235, R239) -/

theorem recv_issued {s : State} {pos tc : Nat} {c : Ctx} (h : Issues s pos tc 0x06 (bits 31 0) c)
    (form : c.f 56 2 = 0 ∨ (c.f 56 2 = 1 ∧ c.f 32 8 = 0) ∨ (c.f 56 2 = 2 ∧ blockHas (kindOf pos) (c.f 32 8 + 1) = true)) :
    ∃ t, exec (.recv pos tc) s = .next t ∧ TileFrame pos (reached s pos tc) t ∧
      tileOf t pos = { tileAfter c 1 (tileOf (reached s pos tc) pos) with recv := some ⟨c, 0, c.f 32 8 + 1, false⟩ } := by
  obtain ⟨rfl, -, -⟩ := h.spec
  have legal : ¬(c.f 56 2 = 3 ∨ (c.f 56 2 = 1 ∧ c.f 32 8 + 1 ≠ 1) ∨ (c.f 56 2 = 2 ∧ !blockHas (kindOf c.pos) (c.f 32 8 + 1))) := by
    rcases form with bank | ⟨fl, one⟩ | ⟨block, has⟩
    · simp [bank]
    · simp [fl, one]
    · simp [block, has]
  refine ⟨adjTile c.pos (fun u => { u with recv := some ⟨c, 0, c.f 32 8 + 1, false⟩ }) (stepOn c 1 (reached s c.pos tc)), ?_,
    (tileFrame_stepOn c 1 _).trans (tileFrame_adjTile _ _ _), by rw [tileOf_adjTile_self, tileOf_stepOn]⟩
  change execRecv c.pos tc s = _
  refine (runInstr_inPlan h (h.inPlan rfl) _).trans ?_
  exact congrArg _ (if_neg legal)

theorem barw_issued {s : State} {pos tc : Nat} {c : Ctx} (h : Issues s pos tc 0x09 (bits 57 56 ||| bits 19 0) c) :
    ∃ t, exec (.barw pos tc) s = .next t ∧ TileFrame pos (reached s pos tc) t ∧
      tileOf t pos = { tileOf (reached s pos tc) pos with barw := some (c.f 20 12), tc := c.tc, clearing := false } := by
  obtain ⟨rfl, -, -⟩ := h.spec
  refine ⟨adjTile c.pos (fun u => { u with barw := some (c.f 20 12), tc := c.tc, clearing := false }) (countIssue c (reached s c.pos tc)),
    ?_, (tileFrame_countIssue c _).trans (tileFrame_adjTile _ _ _), by rw [tileOf_adjTile_self, tileOf_countIssue]⟩
  change execBarw c.pos tc s = _
  exact runInstr_inPlan h (h.inPlan rfl) _

/-- The unit that an LDP holds: port A of a V-tile, the load unit of an M-tile (R518, R244). -/
theorem holdUnits_ldp {c : Ctx} (ldp : c.f 58 6 = 0x0B) (s : State) :
    let n := c.f 34 2 + 1
    holdUnits c 0 s =
      underWay c [if kindOf c.pos = .v then (n, .free unitPortA) else (if c.f 56 2 = 1 then n else n + 1, .free unitLoad)] s := by
  intro n
  have held : unitsHeld (kindOf c.pos) c.word 0 =
      if kindOf c.pos = .v then [(unitPortA, n)] else [(unitLoad, c.f 34 2 + if c.f 56 2 = 1 then 1 else 2)] := by
    rw [unitsHeld, show fld c.word 58 6 = 0x0B from ldp]
    rfl
  rw [holdUnits_eq, held]
  split
  · rfl
  · split <;> rfl

theorem ldp_issued {s : State} {pos tc : Nat} {c : Ctx} (h : Issues s pos tc 0x0B (bits 33 0) c) (src : c.f 56 2 < 2)
    (there : c.f 36 4 + 4 * (c.f 34 2 + 1) ≤ 16) :
    let a := addrBank pos (c.f 56 2 == 1) (c.f 40 16)
    let n := c.f 34 2 + 1
    ∃ t u, exec (.ldp pos tc) s = .next t ∧ tileOf u pos = tileAfter c 1 (tileOf (reached s pos tc) pos) ∧
      TileFrame pos (reached s pos tc) u ∧ t = issued c [(if c.f 56 2 = 1 then 2 else 1, .read a.1 a.2 0 [] 0),
        if kindOf pos = .v then (n, .free unitPortA) else (if c.f 56 2 = 1 then n else n + 1, .free unitLoad)] u := by
  obtain ⟨rfl, -, -⟩ := h.spec
  obtain ⟨ldp, -⟩ := fetch_opcode h.2.2.1
  intro a n
  refine ⟨_, stepOn c 1 (reached s c.pos tc), ?_, tileOf_stepOn c 1 _, tileFrame_stepOn c 1 _, rfl⟩
  change execLdp c.pos tc s = _
  refine runInstr_issued h ?_
  dsimp only
  rw [if_neg (by omega), if_neg (by omega), holdUnits_ldp ldp, ← bankLag_zero]
  rfl

theorem sendm_issued {s : State} {pos tc : Nat} {c : Ctx} (h : Issues s pos tc 0x07 (bits 39 0) c) :
    let T := tileOf (reached s pos tc) pos
    let a := addrBank pos (bitOf c.word 56) (c.f 40 16)
    ∃ t u, exec (.sendm pos tc) s = .next t ∧ tileOf u pos = tileAfter c 1 T ∧ TileFrame pos (reached s pos tc) u ∧
      t = issued c [(if bitOf c.word 56 then 2 else 1, .read a.1 a.2 0 [] T.msgq.length)] u := by
  obtain ⟨rfl, -, -⟩ := h.spec
  refine ⟨_, stepOn c 1 (reached s c.pos tc), ?_, tileOf_stepOn c 1 _, tileFrame_stepOn c 1 _, rfl⟩
  change execSendm c.pos tc s = _
  exact runInstr_issued h rfl

/-! ## A BARW that waits MAXW tc (R233, R256, R257) -/

/-- EXC_INFO of an exception (R263). -/
def excInfo (c : Ctx) (cause : Nat) : Nat := cause + 2 ^ 8 * c.glove + 2 ^ 16 * c.win + 2 ^ 22 * c.lslot + 2 ^ 31

/-- EXC_INFO takes the exception where it holds none. -/
theorem winGet_excRecord {c : Ctx} {s : State} (empty : bitOf (winGet s (tileBase c.pos + 0xF2000)) 31 = false) (cause : Nat) :
    winGet (excRecord c cause s) (tileBase c.pos + 0xF2000) = excInfo c cause % 2 ^ 32 := by
  have home (off : Nat) (lo : 0xF1020 ≤ off) (hi : off < 0x100000) : regHome (tileBase c.pos + off) = tileBase c.pos + off :=
    regHome_tile _ off hi (.inr (.inl lo))
  have other (a b v : Nat) (t : State) (ha : regHome a = a) (hb : regHome b = b) (ne : a ≠ b) : winGet (winSet t a v) b = winGet t b := by
    rw [winGet_winSet, ha, hb, if_neg ne]
  unfold excRecord
  dsimp only
  rw [winGet_report _ _ _ _ _ _ _ (by rw [home _ (by decide) (by decide)]; omega), empty, if_neg (by decide),
    other (tileBase c.pos + 0xF2008) _ _ _ (home _ (by decide) (by decide)) (home _ (by decide) (by decide)) (by omega),
    other (tileBase c.pos + 0xF2004) _ _ _ (home _ (by decide) (by decide)) (home _ (by decide) (by decide)) (by omega),
    winGet_winSet_self, excInfo]

theorem excInfo_fields {c : Ctx} {cause : Nat} (small : cause < 256) (glove : c.glove < 256) (win : c.win < 64) (lslot : c.lslot < 16) :
    fld (excInfo c cause % 2 ^ 32) 0 8 = cause ∧ bitOf (excInfo c cause % 2 ^ 32) 31 = true := by
  unfold excInfo fld bitOf
  rw [Nat.shiftRight_zero, Nat.testBit_eq_decide_div_mod_eq]
  refine ⟨by omega, decide_eq_true ?_⟩
  omega

theorem noted_excRecord (c : Ctx) (cause : Nat) (s : State) : Noted s (excRecord c cause s) := by
  unfold excRecord
  dsimp only
  split
  · exact noted_report _ _ _ _ _ _ _
  · exact (((noted_winSet _ _ _).trans (noted_winSet _ _ _)).trans (noted_winSet _ _ _)).trans (noted_report _ _ _ _ _ _ _)

/-- An exception of plan time outside a dry run is recorded; it changes no byte of memory, and of its tile only the launch slots. -/
theorem takeExc_spec {c : Ctx} {s : State} (plan : c.free = false) (wet : dryNow s c = 0) (cause : Nat) :
    let t := takeExc c cause s
    t.win = (excRecord c cause s).win ∧ t.mem = s.mem ∧ tileOf t c.pos = { tileOf s c.pos with slots := (tileOf t c.pos).slots } := by
  intro t
  have noted := noted_excRecord c cause s
  have mem := noted.mem
  have tile : tileOf (excRecord c cause s) c.pos = tileOf s c.pos := by rw [tileOf, noted.tiles, tileOf]
  have taken : t = setLatch c.pos c.lslot (setDry c.pos c.lslot 2 (noteFault c cause (cancel c (excRecord c cause s)))) := by
    change takeExc c cause s = _
    unfold takeExc
    rw [if_neg (not_not.2 wet), plan]
    rfl
  generalize excRecord c cause s = e at mem tile taken
  have faulted (u : State) : ∃ m, noteFault c cause u = { u with launches := m } := by
    unfold noteFault
    split
    · exact ⟨_, rfl⟩
    · exact ⟨_, rfl⟩
  obtain ⟨m, noted⟩ := faulted (cancel c e)
  rw [noted] at taken
  refine ⟨by rw [taken]; rfl, by rw [taken]; exact mem, ?_⟩
  rw [← tile, taken, tileOf_setLatch]
  unfold setDry dryFrom
  rw [tileOf_adjTile_self]
  rfl

/-- What arrives at a tile's local output meets a context of that tile, in plan time. -/
theorem arrivalCtx_spec {s : State} {pos tc : Nat} {c : Ctx} (h : arrivalCtx s pos tc = some c) : c.pos = pos ∧ c.free = false := by
  unfold arrivalCtx at h
  dsimp only at h
  split at h
  · injection h with same
    subst same
    exact ⟨rfl, rfl⟩
  · exact absurd h (by simp)

theorem barwTimeout_ends {s : State} {pos tc : Nat} {c : Ctx} (there : pos < 1536) (reach : s.now ≤ tc) (runs : muxStopped s 0 = false) :
    let r := advance tc s
    let T := tileOf r pos
    T.barw.isSome = true → arrivalCtx r pos tc = some c → dryNow r c = 0 → tc = T.tc + fld (kgetD T.store T.pc 0) 32 24 →
    bitOf (winGet r (tileBase pos + 0xF2000)) 31 = false → c.glove < 256 → c.win < 64 → c.lslot < 16 →
    ∃ t, exec (.barwTimeout pos tc) s = .next t ∧ (tileOf t pos).barw = none ∧ (tileOf t pos).tc = tc + 1 ∧
      (tileOf t pos).pc = (nextPc T.pc T.loops).1 ∧ (tileOf t pos).loops = (nextPc T.pc T.loops).2 ∧
      fld (winGet t (tileBase pos + 0xF2000)) 0 8 = 11 ∧ bitOf (winGet t (tileBase pos + 0xF2000)) 31 = true ∧ t.mem = r.mem := by
  intro r T waits arrives wet due empty glove win lslot
  obtain ⟨rfl, plan⟩ := arrivalCtx_spec arrives
  obtain ⟨record, mem, tile⟩ := takeExc_spec plan wet excBarTimeout
  obtain ⟨tag, waits⟩ := Option.isSome_iff_exists.1 waits
  have run : exec (.barwTimeout c.pos tc) s = .next (endBarw c.pos tc (takeExc c excBarTimeout r)) := by
    change execBarwTimeout c.pos tc s = _
    unfold execBarwTimeout atTc
    rw [if_neg (by omega), if_neg (by simp [runs]; omega)]
    dsimp only
    change Host.Outcome.next (match T.barw, arrivalCtx r c.pos tc with
      | some _, some c => _
      | _, _ => _) = _
    rw [waits, arrives]
    exact congrArg _ (if_pos due)
  have info : winGet (endBarw c.pos tc (takeExc c excBarTimeout r)) (tileBase c.pos + 0xF2000) = excInfo c 11 % 2 ^ 32 := by
    rw [← winGet_excRecord empty]
    change winGet (takeExc c excBarTimeout r) _ = _
    unfold winGet
    rw [record]
    rfl
  obtain ⟨code, valid⟩ := excInfo_fields (by decide : 11 < 256) glove win lslot
  have ended : tileOf (endBarw c.pos tc (takeExc c excBarTimeout r)) c.pos =
      { tileOf (takeExc c excBarTimeout r) c.pos with
        barw := none, pc := (nextPc T.pc T.loops).1, loops := (nextPc T.pc T.loops).2, tc := tc + 1 } := by
    unfold endBarw
    rw [tileOf_adjTile_self, tile]
  exact ⟨_, run, by rw [ended], by rw [ended], by rw [ended], by rw [ended], info ▸ code, info ▸ valid, mem⟩

/-! ## A word of an LDP is read (R105, R233) -/

theorem ldp_read {s : State} {x : Item} {l : List Item} {b w j arg : Nat} {got : List (Nat × Nat)} (h : Alone s x l)
    (act : x.act = .read b w j got arg) (served : Served s x.c.glove b w) (ldp : x.c.f 58 6 = 0x0B) :
    let c := x.c
    let d := wordAt s b w
    advance x.tc s = dueIn c (((List.range 4).map fun k =>
        (if c.f 56 2 = 1 then 5 else 2, .land (.pm (c.f 36 4 + 4 * j + k) (fld d.1 (128 * k) 128) (d.2 != 0)))) ++
      if j < c.f 34 2 then [(1, .read b (w + 1) (j + 1) (got ++ [(0, d.2)]) arg)] else []) (readState s x l b w) := by
  intro c d
  have cmn : readsCmn c = (c.f 56 2 == 1) := by simp [readsCmn, c, ldp]
  have kept : keepWord c got d = got ++ [(0, d.2)] := by simp [keepWord, c, ldp]
  have more : (if j < c.f 34 2 then [(1, Act.read b (w + 1) (j + 1) (got ++ [(0, d.2)]) arg)] else []) =
      nextRead c b w j arg (keepWord c got d) := by
    rw [kept]
    unfold nextRead
    have count : readCount c (got ++ [(0, d.2)]) = c.f 34 2 + 1 := by simp [readCount, c, ldp]
    rw [count]
    simp only [Nat.add_lt_add_iff_right]
  rw [more]
  refine advance_read_dueIn h act served (by simp [ldp]) (readOn_dueIn (by simp [ldp]) (by simp [ldp]) (fun late => ?_) fun late => ?_)
    (positive_append ?_ (nextRead_positive _ _ _ _ _ _)) (readState_now s x l b w) (later_readState h b w)
  · unfold useWord
    rw [ldp, show readsCmn x.c = (c.f 56 2 == 1) from cmn]
    simp only [beq_iff_eq]
    rw [dueIn, List.foldl_map]
  · unfold lastWord
    rw [ldp]
    rfl
  · intro y hy
    obtain ⟨k, -, rfl⟩ := List.mem_map.1 hy
    dsimp only
    split <;> decide

/-! ## The words of a SENDM are read (R239) -/

theorem useWord_sendm {c : Ctx} (sendm : c.f 58 6 = 0x07) (j arg late : Nat) (got : List (Nat × Nat)) (d e : Nat × Nat) (s : State) :
    useWord c j arg late got d e s = s := by
  unfold useWord
  rw [sendm]
  rfl

theorem keepWord_sendm {c : Ctx} (sendm : c.f 58 6 = 0x07) (got : List (Nat × Nat)) (d : Nat × Nat) : keepWord c got d = got ++ [d] := by
  unfold keepWord
  rw [sendm]
  rfl

theorem readCount_sendm {c : Ctx} (sendm : c.f 58 6 = 0x07) (hd : Nat × Nat) (words : List (Nat × Nat)) :
    readCount c (hd :: words) = (msgHead hd.1).ndata + 1 := by
  unfold readCount
  rw [sendm]
  rfl

/-- The header of a SENDM is checked; then its words are read up to the last, with which the message is whole. -/
theorem readOn_sendm {c : Ctx} (sendm : c.f 58 6 = 0x07) (b w j arg : Nat) (got : List (Nat × Nat)) (d e : Nat × Nat) (s : State) :
    readOn c b w j arg got d e s =
      let p := if j = 0 then sendmHead c arg d s else (true, s)
      if !p.1 then p.2
      else if j + 1 < readCount c (got ++ [d]) then schedIn c 1 (.read b (w + 1) (j + 1) (got ++ [d]) arg) p.2
      else sendmEnd c (got ++ [d]) true p.2 := by
  have topk : isTopk c = false := by simp [isTopk, sendm]
  have last (t : State) (late : Nat) (l : List (Nat × Nat)) : lastWord c arg late l t = sendmEnd c l true t := by
    unfold lastWord
    rw [sendm]
    rfl
  unfold readOn
  simp only [topk, sendm, useWord_sendm sendm, keepWord_sendm sendm, last, Bool.false_eq_true, false_and, if_false, true_and]

/-- A header of data for windows is in order. -/
theorem sendmHead_data {c : Ctx} {room : Nat} {d : Nat × Nat} (s : State) (good : (msgHead d.1).bad = false) (words : 1 ≤ (msgHead d.1).ndata)
    (most : (msgHead d.1).ndata ≤ 256) (data : (msgHead d.1).kind = 0) (wet : c.dry = 0) :
    sendmHead c room d s = if 512 < room + (msgHead d.1).ndata + 1 then
      (false, report c.pos 0x0603 c.pos (c.f 57 1 + 1) c.glove (leBytes 2 (msgHead d.1).dest0 ++ leBytes 2 (msgHead d.1).ndata)
        (winBump s (tileBase c.pos + 0xF2018) 8 8 1)) else (true, s) := by
  unfold sendmHead
  dsimp only
  rw [if_neg]
  · simp only [wet, true_and]
  · simp only [good, data]
    simp
    omega

theorem sendm_header_read {s : State} {x : Item} {l : List Item} {b w arg : Nat} (h : Alone s x l) (act : x.act = .read b w 0 [] arg)
    (served : Served s x.c.glove b w) (sendm : x.c.f 58 6 = 0x07) :
    let d := wordAt s b w
    let m := msgHead d.1
    m.bad = false → 1 ≤ m.ndata → m.ndata ≤ 256 → m.kind = 0 → x.c.dry = 0 → arg + m.ndata + 1 ≤ 512 →
    advance x.tc s = dueIn x.c [(1, .read b (w + 1) 1 [d] arg)] (readState s x l b w) := by
  intro d m good words most data wet room
  refine advance_read_dueIn h act served (by simp [sendm]) ?_ (by simp) (readState_now s x l b w) (later_readState h b w)
  have fits : sendmHead x.c arg d (readState s x l b w) = (true, readState s x l b w) :=
    (sendmHead_data _ good words most data wet).trans (if_neg (Nat.not_lt.2 room))
  have more : 0 + 1 < readCount x.c ([] ++ [d]) := by
    rw [List.nil_append, readCount_sendm sendm]
    exact Nat.succ_lt_succ words
  rw [readOn_sendm sendm, if_pos rfl, fits]
  exact if_pos more

theorem sendm_dropped {s : State} {x : Item} {l : List Item} {b w arg : Nat} (h : Alone s x l) (act : x.act = .read b w 0 [] arg)
    (served : Served s x.c.glove b w) (sendm : x.c.f 58 6 = 0x07) :
    let t := advance x.tc s
    let m := msgHead (wordAt s b w).1
    m.bad = false → 1 ≤ m.ndata → m.ndata ≤ 256 → m.kind = 0 → x.c.dry = 0 → 512 < arg + m.ndata + 1 →
    t.agenda = l ∧ tileOf t x.c.pos = { tileOf s x.c.pos with slots := (tileOf t x.c.pos).slots } ∧
      fld (winGet t (tileBase x.c.pos + 0xF2018)) 8 8 = satAdd 255 (fld (winGet s (tileBase x.c.pos + 0xF2018)) 8 8) 1 := by
  intro t m good words most data wet room
  have home := regHome_tile x.c.pos 0xF2018 (by omega) (by omega)
  obtain ⟨frame, -, -, tile⟩ := afterRead_readState s x l b w
  generalize hu : readState s x l b w = u at frame tile
  let v := report x.c.pos 0x0603 x.c.pos (x.c.f 57 1 + 1) x.c.glove (leBytes 2 m.dest0 ++ leBytes 2 m.ndata)
    (winBump u (tileBase x.c.pos + 0xF2018) 8 8 1)
  have dropped : readOn x.c b w 0 arg [] (wordAt s b w) (0, 0) (readState s x l b w) = v := by
    rw [readOn_sendm sendm, if_pos rfl, sendmHead_data _ good words most data wet, if_pos room, hu]
    rfl
  have noted : Noted u v := (noted_winBump _ _ _ _ _).trans (noted_report _ _ _ _ _ _ _)
  have agenda : v.agenda = l := by
    unfold Noted at noted
    rw [noted, frame]
    rfl
  have now : v.now = x.tc := by
    unfold Noted at noted
    rw [noted, frame]
    rfl
  have done : t = v := advance_read h act served (by simp [sendm]) dropped now fun y hy => h.2.2.1 y (agenda ▸ hy)
  have same : tileOf v x.c.pos = tileOf u x.c.pos := by rw [tileOf, noted.tiles, tileOf]
  rw [done]
  refine ⟨agenda, by rw [same]; exact tile x.c.pos, ?_⟩
  rw [winGet_report _ _ _ _ _ _ _ (by omega), fld_winBump _ _ _ _ _ (by decide), winGet, winGet, frame]
  rfl

section Data

variable {s : State} {x : Item} {l : List Item} {b w j arg : Nat} {hd : Nat × Nat} {words : List (Nat × Nat)}

theorem sendm_data_read (h : Alone s x l) (act : x.act = .read b w j (hd :: words) arg) (served : Served s x.c.glove b w)
    (sendm : x.c.f 58 6 = 0x07) (data : 0 < j) (more : j < (msgHead hd.1).ndata) :
    advance x.tc s = dueIn x.c [(1, .read b (w + 1) (j + 1) (hd :: words ++ [wordAt s b w]) arg)] (readState s x l b w) := by
  have count : j + 1 < readCount x.c (hd :: (words ++ [wordAt s b w])) := by
    rw [readCount_sendm sendm]
    exact Nat.succ_lt_succ more
  refine advance_read_dueIn h act served (by simp [sendm]) ?_ (by simp) (readState_now s x l b w) (later_readState h b w)
  rw [readOn_sendm sendm, if_neg (Nat.pos_iff_ne_zero.1 data)]
  exact if_pos count

theorem sendm_last_read (h : Alone s x l) (act : x.act = .read b w j (hd :: words) arg) (served : Served s x.c.glove b w)
    (sendm : x.c.f 58 6 = 0x07) (data : 0 < j) :
    let m := msgHead hd.1
    let u := readState s x l b w
    m.ndata = j → m.kind = 0 → x.c.dry = 0 → m.dead s.plat.fuse x.c.pos = [] →
    advance x.tc s = queueFlits x.c.pos (messageFlits u x.c (x.c.f 57 1 + 1) m (hd.2 != 0) (words ++ [wordAt s b w])) u := by
  intro m u whole kind wet alive
  have fuse : u.plat.fuse = s.plat.fuse := by
    dsimp only [u]
    rw [(afterRead_readState s x l b w).1]
    rfl
  have queued : sendmEnd x.c (hd :: (words ++ [wordAt s b w])) true u =
      queueFlits x.c.pos (messageFlits u x.c (x.c.f 57 1 + 1) m (hd.2 != 0) (words ++ [wordAt s b w])) u := by
    unfold sendmEnd queueMessage
    dsimp only
    rw [if_neg (by simp [wet]), if_pos kind, fuse]
    change (m.dead s.plat.fuse x.c.pos).foldl _ _ = _
    rw [alive]
    rfl
  refine advance_read h act served (by simp [sendm]) ?_ (readState_now s x l b w) (later_readState h b w)
  have last : ¬ j + 1 < readCount x.c (hd :: words ++ [wordAt s b w]) := by
    rw [List.cons_append, readCount_sendm sendm, show (msgHead hd.1).ndata = j from whole]
    exact Nat.lt_irrefl _
  rw [readOn_sendm sendm, if_neg (Nat.pos_iff_ne_zero.1 data)]
  exact (if_neg last).trans queued

end Data

/-! ## A parameter register lands (R233) -/

/-- An entry that is put twice holds what was put last. -/
theorem kput_kput {α : Type} (m : KMap α) (k : Nat) (v w : α) : kput (kput m k v) k w = kput m k w := by
  induction m with
  | nil => simp [kput]
  | cons p m ih =>
    obtain ⟨a, y⟩ := p
    by_cases same : a = k
    · simp [kput, same]
    · by_cases before : k < a
      · simp [kput, same, before]
      · simp [kput, same, before, ih]

theorem setTile_setTile (pos : Nat) (T U : Tile) (s : State) : setTile pos U (setTile pos T s) = setTile pos U s := by
  unfold setTile
  rw [kput_kput]

theorem pm_lands {s : State} {x : Item} {l : List Item} {i v : Nat} {p : Bool} (h : Alone s x l) (act : x.act = .land (.pm i v p)) :
    advance x.tc s = setTile x.c.pos { pmSet i v p (tileOf s x.c.pos) with
      ready := kput (tileOf s x.c.pos).ready (16 + i) x.tc } (dueState s x l) := by
  rw [advance_land h act]
  unfold landNow readyNow
  rw [adjTile, tileOf_adjTile_self, adjTile, setTile_setTile]
  rfl

/-! ## The obligation -/

/-- Settles O9: each instruction by its issue, the time-out, and each read or landing that is alone in its tc. -/
theorem waitingInstructionsComplete : Obligations.WaitingInstructionsComplete := by
  unfold Obligations.WaitingInstructionsComplete
  refine ⟨fun s pos tc c => ⟨recv_issued, barw_issued, ldp_issued, sendm_issued⟩, fun s pos tc c => barwTimeout_ends,
    fun s x l b w j arg got h act served => ⟨fun ldp => ?_, fun sendm first empty good words most kind wet => ?_,
      fun hd words sendm data kept => ?_⟩, fun s x l i v p h act => pm_lands h act⟩
  · exact ⟨_, afterRead_readState s x l b w, ldp_read h act served ldp⟩
  · subst first empty
    exact ⟨fun room => ⟨_, afterRead_readState s x l b w, sendm_header_read h act served sendm good words most kind wet room⟩,
      fun full => sendm_dropped h act served sendm good words most kind wet full⟩
  · subst kept
    exact ⟨fun more => ⟨_, afterRead_readState s x l b w, sendm_data_read h act served sendm data more⟩,
      fun whole kind wet alive => ⟨_, afterRead_readState s x l b w, sendm_last_read h act served sendm data whole kind wet alive⟩⟩

end Sys2Proof.Machine
end

section
/-! PROOFS. Drift watches: a read of port B, a check of one watch, and writes that restart a watch (O41). -/

namespace Sys2Proof.Machine

/-! ## A read of port B (R44, R52, R351) -/

/-- A check that refuses counts the refusal and the records that merge, in entries above those of the drift watches. -/
theorem odKept_bankCheck (g port : Nat) (write : Bool) (b addr : Nat) (s : State) :
    OdKept [(0x7302, 2), (0x7301, g), (0x2300, 6)] s (bankCheck g port write b addr s).2 := by
  have counted (i j : Nat) (listed : (i, j) ∈ [(0x7302, 2), (0x7301, g), (0x2300, 6)]) (pos code unit sub : Nat) (d : List Byte) :
      OdKept [(0x7302, 2), (0x7301, g), (0x2300, 6)] s (report pos code unit sub g d (odBump s i j 32 1)) :=
    ((OdKept.refl _ s).odSet listed _).trans ((report_keeps _ _ _ _ _ _ _).1.mono (by simp))
  unfold bankCheck
  split
  · unfold ownerReject
    split
    · exact counted _ _ (by simp) _ _ _ _ _
    · exact counted _ _ (by simp) _ _ _ _ _
  · split
    · unfold stateFault
      refine OdKept.of_od_eq ((raise_od _ _).trans ?_)
      split <;> rfl
    · exact .refl _ s

/-- A read of port B leaves what its check leaves. -/
theorem bankAccess_read_state (g b w : Nat) (s : State) :
    (bankAccess 1 g b w .read s).2 = (bankCheck g 1 false b (wordAddr b w) s).2 := by
  unfold bankAccess
  dsimp only [BOp.stores]
  split <;> rfl

/-- What a read of port B returns does not depend on how far a check of the watches has come. -/
theorem bankAccess_read_driftRun (g b w : Nat) (s : State) (r : DriftRun) :
    (bankAccess 1 g b w .read { s with driftRun := r }).1 = (bankAccess 1 g b w .read s).1 := by
  have owner : bankOwner { s with driftRun := r } b = bankOwner s b := rfl
  have power : bankState { s with driftRun := r } b = bankState s b := rfl
  unfold bankAccess bankCheck
  rw [owner, power]
  by_cases owned : bankOwner s b = g
  · by_cases on : bankState s b = 3
    · simp only [owned, on, ne_eq, not_true_eq_false, if_false]
      rfl
    · simp [owned, on, stBankStateFault, stOk]
  · simp [owned, stAccessFault, stOk]

/-! ## One watch is read (R144 to R146) -/

/-- The entries of a watch read as before. -/
def WatchKept (w : Nat) (s t : State) : Prop := ∀ j, j < 16 → odGet t (watchIdx w) j = odGet s (watchIdx w) j

theorem OdKept.watchKept {l : List (Nat × Nat)} {s t : State} (h : OdKept l s t) {w : Nat} (lt : w < 64)
    (above : ∀ p ∈ l, p.1 < 0x2410 ∧ p.2 < 256 ∨ 0x2450 ≤ p.1) : WatchKept w s t := by
  intro j hj
  refine h.odGet_eq fun listed => ?_
  obtain ⟨p, mem, same⟩ := List.mem_map.1 listed
  have := above p mem
  unfold odKey watchIdx at same
  omega

theorem odGet_sub_ne (s : State) (i v : Nat) {j k : Nat} (h : k ≠ j) : odGet (odSet s i j v) i k = odGet s i k := by
  rw [odGet_odSet, if_neg (by unfold odKey; omega)]

theorem odGet_odSetOpt_ne (s : State) (i : Nat) (v : Option Nat) {j k : Nat} (h : k ≠ j) : odGet (odSetOpt s i j v) i k = odGet s i k := by
  cases v with
  | none => rfl
  | some v => exact odGet_sub_ne s i v h

theorem entriesOnly_odSetOpt (s : State) (i j : Nat) (v : Option Nat) : EntriesOnly s (odSetOpt s i j v) := by
  cases v <;> rfl

/-- A comparison counts the check, and where it finds an event it counts and records that and source 384 + w is pending (R145, R146). -/
theorem driftOutcome_spec (w : Nat) (c : DriftCmp) (s : State) :
    let i := watchIdx w
    let t := driftOutcome w c s
    EntriesOnly s t ∧ odGet t i 8 = satAdd (2 ^ 32 - 1) (odGet s i 8) 1 ∧
      (c.mse = true ∨ c.sat = true → irqPending t (384 + w) = true ∧ odGet t i 10 = ofBool c.mse + 2 * ofBool c.sat ∧
        odGet t i 9 = satAdd (2 ^ 32 - 1) (odGet s i 9) 1) ∧
      (c.mse = false → c.sat = false → odGet t i 9 = odGet s i 9 ∧ odGet t i 10 = odGet s i 10) := by
  intro i t
  let u := odSetOpt (odSetOpt s i 6 c.lastMse) i 7 c.lastSat
  have before (k : Nat) (h6 : k ≠ 6) (h7 : k ≠ 7) : odGet u i k = odGet s i k :=
    (odGet_odSetOpt_ne _ _ _ h7).trans (odGet_odSetOpt_ne _ _ _ h6)
  let v := odBump u i 8 32 1
  have entries : EntriesOnly s v := ((entriesOnly_odSetOpt _ _ _ _).trans (entriesOnly_odSetOpt _ _ _ _)).trans rfl
  have checks : odGet v i 8 = satAdd (2 ^ 32 - 1) (odGet s i 8) 1 := by
    rw [← before 8 (by decide) (by decide)]
    exact odGet_odSet_self _ _ _ _
  have rest (k : Nat) (h6 : k ≠ 6) (h7 : k ≠ 7) (h8 : k ≠ 8) : odGet v i k = odGet s i k := (odGet_sub_ne _ _ _ h8).trans (before k h6 h7)
  have outcome : t = if c.mse ∨ c.sat then raise (384 + w) (odBump (odSet v i 10 (ofBool c.mse + 2 * ofBool c.sat)) i 9 32 1) else v := rfl
  by_cases found : c.mse = true ∨ c.sat = true
  · rw [outcome, if_pos found]
    refine ⟨entries.trans (EntriesOnly.trans (t := odBump (odSet v i 10 _) i 9 32 1) rfl (entriesOnly_raise _ _)), ?_, fun _ => ⟨?_, ?_, ?_⟩,
      fun mse sat => by simp [mse, sat] at found⟩
    · rw [odGet_raise, odBump, odGet_sub_ne _ _ _ (by decide), odGet_sub_ne _ _ _ (by decide), checks]
    · exact irqPending_raise_self _ _
    · rw [odGet_raise, odBump, odGet_sub_ne _ _ _ (by decide), odGet_odSet_self]
    · rw [odGet_raise, odBump, odGet_odSet_self, odGet_sub_ne _ _ _ (by decide), rest 9 (by decide) (by decide) (by decide)]
  · rw [outcome, if_neg found]
    exact ⟨entries, checks, fun h => absurd h found, fun _ _ =>
      ⟨rest 9 (by decide) (by decide) (by decide), rest 10 (by decide) (by decide) (by decide)⟩⟩

/-! ## A check of the one watch at work (R144, R355) -/

section Check

variable {s : State} {w b : Nat} {d : Drift} {l : Launch}

/-- The row that a check of a watch reads, with the budget's count of the access. -/
def watchRead (s : State) (w b : Nat) (l : Launch) : BRes × State := bankAccess 1 l.glove b (watchTag s w) .read (budgetAdd 0 4 1 s)

/-- The lanes of a word that was read. -/
def lanesRead (x : BRes) : List Nat := (List.range 8).map (lane x.data)

theorem noted_watchRead (s : State) (w b : Nat) (l : Launch) : Noted (budgetAdd 0 4 1 s) (watchRead s w b l).2 := by
  unfold watchRead
  rw [bankAccess_read_state]
  exact (bankCheck_spec _ _ _ _ _ _).1

theorem watchKept_watchRead (s : State) (b : Nat) (l : Launch) (lt : w < 64) : WatchKept w s (watchRead s w b l).2 := by
  unfold watchRead
  rw [bankAccess_read_state]
  exact (odKept_bankCheck l.glove 1 false b _ (budgetAdd 0 4 1 s)).watchKept lt (by simp)

/-- The watch at work has been read: the row is kept, the access counts against the budget of glove 0, and memory is as it was. -/
structure WatchRead (s : State) (w : Nat) (d : Drift) (row : List Nat) (t : State) : Prop where
  kept : t.drift = [(w, { d with row := some row })]
  spent : spentOf t 0 4 = spentOf s 0 4 + 1
  mem : t.mem = s.mem
  run : t.driftRun = s.driftRun
  baseline : d.row = none → odGet t (watchIdx w) 11 = 3 ∧ odGet t (watchIdx w) 8 = odGet s (watchIdx w) 8
  compared : ∀ p, d.row = some p →
    let i := watchIdx w
    let c := driftCompare (odGet s i 3) (odGet s i 4) (odGet s i 5) p row
    odGet t i 8 = satAdd (2 ^ 32 - 1) (odGet s i 8) 1 ∧
      (c.mse = true ∨ c.sat = true → irqPending t (384 + w) = true ∧ odGet t i 10 = ofBool c.mse + 2 * ofBool c.sat ∧
        odGet t i 9 = satAdd (2 ^ 32 - 1) (odGet s i 9) 1) ∧
      (c.mse = false → c.sat = false → odGet t i 9 = odGet s i 9 ∧ odGet t i 10 = odGet s i 10)

theorem driftRead_spec (lt : w < 64) (one : s.drift = [(w, d)]) (launch : kget s.launches d.launch = some l)
    (bank : pStatBankNo l.params = some b) : WatchRead s w d (lanesRead (watchRead s w b l).1) (driftRead w s) := by
  have watch : kget s.drift w = some d := by simp [one, kget]
  let x := watchRead s w b l
  let u : State := { x.2 with drift := kput x.2.drift w { d with row := some (lanesRead x.1) } }
  have noted : Noted (budgetAdd 0 4 1 s) x.2 := noted_watchRead s w b l
  have entries : WatchKept w s u := watchKept_watchRead s b l lt
  have kept : u.drift = [(w, { d with row := some (lanesRead x.1) })] := by
    have same : x.2.drift = s.drift := by rw [noted]; rfl
    simp only [u, same, one, kput, if_true]
  have spent : spentOf u 0 4 = spentOf s 0 4 + 1 := by
    have same : u.spent = (budgetAdd 0 4 1 s).spent := by simp only [u]; rw [noted]
    rw [spentOf, same]
    exact kgetD_kput_self _ _ _ _
  have mem : u.mem = s.mem := by simp only [u]; rw [noted]; rfl
  have run : u.driftRun = s.driftRun := by simp only [u]; rw [noted]; rfl
  cases row : d.row with
  | none =>
    have first : driftRead w s = odSet u (watchIdx w) 11 3 := by
      unfold driftRead
      simp only [watch, launch, bank, row, Option.bind_some, Option.map_some]
      rfl
    rw [first]
    exact ⟨kept, spent, mem, run, fun _ => ⟨odGet_odSet_self _ _ _ _, (odGet_sub_ne _ _ _ (by decide)).trans (entries 8 (by decide))⟩,
      fun p h => by simp [row] at h⟩
  | some p =>
    have later : driftRead w s = driftOutcome w (driftCompare (odGet s (watchIdx w) 3) (odGet s (watchIdx w) 4) (odGet s (watchIdx w) 5) p
        (lanesRead x.1)) u := by
      unfold driftRead
      simp only [watch, launch, bank, row, Option.bind_some, Option.map_some]
      rfl
    rw [later]
    obtain ⟨only, outcome⟩ := driftOutcome_spec w (driftCompare (odGet s (watchIdx w) 3) (odGet s (watchIdx w) 4) (odGet s (watchIdx w) 5) p
        (lanesRead x.1)) u
    rw [entries 8 (by decide), entries 9 (by decide), entries 10 (by decide)] at outcome
    unfold EntriesOnly at only
    refine ⟨?_, ?_, ?_, ?_, fun h => by simp [row] at h, fun q h => ?_⟩
    · rw [only]; exact kept
    · rw [spentOf, only]; exact spent
    · rw [only]; exact mem
    · rw [only]; exact run
    · obtain rfl : p = q := Option.some.inj (row ▸ h)
      exact outcome

/-- Where glove 0's budget is open, the one watch is read and no check waits any more. -/
theorem driftReads_open (budget : budgetOpen s 0 4 = true) :
    driftReads [w] s = { driftRead w s with driftRun := { (driftRead w s).driftRun with left := [], stalled := none } } :=
  if_neg (by simp [budget])

/-- Where it is spent, the check waits for the next frame. -/
theorem driftReads_spent (one : s.drift = [(w, d)]) (budget : budgetOpen s 0 4 = false) :
    driftReads [w] s = budgetStall 0 { s with driftRun := { s.driftRun with left := [w], stalled := some s.frame.boundaries } } :=
  if_pos ⟨by simp [one, kget], by simp [budget]⟩

/-- A stall of glove 0 counts itself and may raise source 65. -/
theorem budgetStall_frame (g : Nat) (t : State) : budgetStall g t = { t with
    od := (budgetStall g t).od, stall := (budgetStall g t).stall, host := (budgetStall g t).host, out := (budgetStall g t).out } := by
  unfold budgetStall
  dsimp only
  split
  · split <;> rfl
  · rw [raise_eq]
    split <;> rfl

/-- A check of the one watch in a frame in which it is due: the frame that it counts from is this one. -/
theorem driftCheck_due (awake : mgmtAsleep s = false) (one : s.drift = [(w, d)]) (idle : s.driftRun.left = [])
    (due : s.driftRun.began + odGet s 0x2400 1 ≤ s.frame.boundaries) :
    exec .driftCheck s = .next (driftReads [w] { s with driftRun := { s.driftRun with began := s.frame.boundaries } }) := by
  refine (if_neg (by simp [awake])).trans ((if_neg (not_not.2 idle)).trans ((if_neg (Nat.not_lt.2 due)).trans ?_))
  rw [one]
  rfl

/-- A check that waited goes on in the next frame. -/
theorem driftCheck_goesOn (awake : mgmtAsleep s = false) (waits : s.driftRun.left = [w])
    (next : s.driftRun.stalled ≠ some s.frame.boundaries) : exec .driftCheck s = .next (driftReads [w] s) := by
  refine (if_neg (by simp [awake])).trans ((if_pos (by simp [waits])).trans ?_)
  rw [if_neg next, waits]

/-- In a frame in which none is due, nothing happens. -/
theorem driftCheck_notDue (awake : mgmtAsleep s = false) (idle : s.driftRun.left = [])
    (early : s.frame.boundaries < s.driftRun.began + odGet s 0x2400 1) : exec .driftCheck s = .next s :=
  (if_neg (by simp [awake])).trans ((if_neg (not_not.2 idle)).trans (if_pos early))

/-- A check of the one watch that begins or goes on reads it, from the state in which only the record of checks is brought up to date. -/
theorem driftCheck_runs (awake : mgmtAsleep s = false) (one : s.drift = [(w, d)]) {waits : Bool}
    (goes : waits = decide (s.driftRun.left = [w] ∧ s.driftRun.stalled ≠ some s.frame.boundaries))
    (h : (s.driftRun.left = [] ∧ decide (s.driftRun.began + odGet s 0x2400 1 ≤ s.frame.boundaries) = true) ∨ waits = true) :
    ∃ r : DriftRun, (waits = false → r.began = s.frame.boundaries) ∧
      exec .driftCheck s = .next (driftReads [w] { s with driftRun := r }) := by
  rcases h with ⟨idle, due⟩ | more
  · exact ⟨_, fun _ => rfl, driftCheck_due awake one idle (of_decide_eq_true due)⟩
  · obtain ⟨waiting, next⟩ := of_decide_eq_true (goes ▸ more)
    exact ⟨s.driftRun, fun begins => absurd (more.symm.trans begins) (by decide), driftCheck_goesOn awake waiting next⟩

end Check

/-! ## A write of a watch's entries (R143) -/

/-- The launch that a watch takes follows from the launches and the watch's glove and tag. -/
theorem watchLaunch_congr {s t : State} {w : Nat} (launches : t.launches = s.launches) (kept : OdKept [(watchIdx w, 11)] s t) :
    watchGlove t w = watchGlove s w ∧ watchLaunch t w = watchLaunch s w := by
  have entry {j : Nat} (h : j ≠ 11) : odGet t (watchIdx w) j = odGet s (watchIdx w) j :=
    kept.odGet_eq (by simpa [odKey] using h)
  have glove : watchGlove t w = watchGlove s w := entry (by decide)
  have tag : watchTag t w = watchTag s w := entry (by decide)
  refine ⟨glove, ?_⟩
  unfold watchLaunch watchFits
  rw [launches, glove, tag]

/-- A watch takes a launch, without a baseline. -/
def watchTakes (w k : Nat) (s : State) : State := odSet { s with drift := kput s.drift w ⟨k, none⟩ } (watchIdx w) 11 2

/-- A watch without a launch is restarted, and takes the earliest launch that it applies to where it names a glove. -/
theorem watchRefresh_none {w : Nat} {s : State} (h : kget s.drift w = none) :
    let v := watchRestart w s
    (watchGlove s w = 0 → watchRefresh w s = v) ∧
      (watchGlove s w ≠ 0 → (watchLaunch v w = none → watchRefresh w s = v) ∧
        ∀ k, watchLaunch v w = some k → watchRefresh w s = watchTakes w k v) := by
  unfold watchRefresh
  simp only [h, Bool.not_true, Bool.false_eq_true, false_or, if_true]
  exact ⟨fun unused => if_pos unused, fun used => ⟨fun waits => (if_neg used).trans (by rw [waits]),
    fun k fits => (if_neg used).trans (by rw [fits]; rfl)⟩⟩

/-- A watch that has just been restarted is unused where it names no glove, has the earliest launch that it applies to, or waits. -/
theorem watchRefresh_restarted (w : Nat) (s : State) :
    let t := watchRefresh w (watchRestart w s)
    (kget t.drift w).all (·.row == none) = true ∧ OdKept [(watchIdx w, 11)] s t ∧
      odGet t (watchIdx w) 11 = if watchGlove t w = 0 then 0 else if (watchLaunch t w).isSome then 2 else 1 := by
  intro t
  let u := watchRestart w s
  let v := watchRestart w u
  have entries : OdKept [(watchIdx w, 11)] s v := (odKept_odSet _ _ _ _).trans (odKept_odSet _ _ _ _)
  have gone (x : State) : kget (watchRestart w x).drift w = none := kget_kdel_self x.drift w
  have glove : watchGlove v w = watchGlove u w := (watchLaunch_congr (s := u) (t := v) rfl (odKept_odSet _ _ _ _)).1
  have state : odGet v (watchIdx w) 11 = if watchGlove u w = 0 then 0 else 1 := odGet_odSet_self _ _ _ _
  obtain ⟨ofUnused, ofUsed⟩ := watchRefresh_none (gone s)
  by_cases unused : watchGlove u w = 0
  · have stays : t = v := ofUnused unused
    rw [stays]
    exact ⟨by rw [gone]; rfl, entries, by simp [state, glove, unused]⟩
  · obtain ⟨ofNone, ofSome⟩ := ofUsed unused
    cases launch : watchLaunch v w with
    | none =>
      have stays : t = v := ofNone launch
      rw [stays]
      exact ⟨by rw [gone]; rfl, entries, by simp [state, glove, unused, launch]⟩
    | some k =>
      have takes : t = watchTakes w k v := ofSome k launch
      have kept : OdKept [(watchIdx w, 11)] v (watchTakes w k v) := odKept_odSet _ _ _ _
      obtain ⟨sameGlove, sameLaunch⟩ := watchLaunch_congr (s := v) (t := watchTakes w k v) rfl kept
      rw [takes]
      refine ⟨by simp [watchTakes], entries.trans kept, ?_⟩
      rw [sameGlove, sameLaunch, glove, if_neg unused, launch]
      exact odGet_odSet_self _ _ _ _

/-- A granted write of DriftGlove, DriftTensor or DriftEnable stores the value and restarts the watch. -/
theorem driftEntry_granted {s : State} {req : OdReq} {sub : Nat} (own : sub ≠ 11) (h : Granted (driftEntry sub) req s) :
    let w := req.index - 0x2410
    let u := recorded req s
    let t := odWriteOwn (driftEntry sub) req s
    Answered req 0 [] t ∧ odGet t req.index sub = reqVal req ∧ (kget t.drift w).all (·.row == none) = true ∧
      odGet t req.index 11 = (if watchGlove t w = 0 then 0 else if (watchLaunch t w).isSome then 2 else 1) ∧
      OdKept [(req.index, sub), (req.index, 11)] u t ∧ t.mem = u.mem ∧ t.launches = u.launches := by
  intro w u t
  obtain ⟨place, rfl⟩ : (0x2410 ≤ req.index ∧ req.index < 0x2450) ∧ req.sub = sub := by simpa [driftEntry] using h.1
  have index : watchIdx w = req.index := by simp only [watchIdx, w]; omega
  let stored := odSet u req.index req.sub (reqVal req)
  let v := watchRefresh w (watchRestart w stored)
  obtain ⟨answered, answer⟩ := odWriteOwn_answered h
  change AnswerOf v t at answer
  have only : DriftOnly stored v := DriftOnly.trans (t := watchRestart w stored) rfl (driftOnly_watchRefresh _ _)
  obtain ⟨baseline, kept, state⟩ := watchRefresh_restarted w stored
  change (kget v.drift w).all _ = true at baseline
  change OdKept _ stored v at kept
  change odGet v _ 11 = _ at state
  rw [index] at kept state
  have od : t.od = v.od := by rw [answer]
  have drift : t.drift = v.drift := by rw [answer]
  have launches : t.launches = v.launches := by rw [answer]
  obtain ⟨glove, launch⟩ := watchLaunch_congr (w := w) launches (.of_od_eq od)
  refine ⟨answered, ?_, by rwa [drift], ?_, ?_, ?_, ?_⟩
  · rw [odGet_of_od_eq od, kept.odGet_eq (by simpa [odKey] using own)]
    exact odGet_odSet_self _ _ _ _
  · rw [odGet_of_od_eq od, glove, launch]
    exact state
  · exact (((odKept_odSet u _ _ _).mono (by simp)).trans (kept.mono (by simp))).trans (.of_od_eq od)
  · rw [answer, only]
    rfl
  · rw [answer, only]
    rfl

/-! ## The obligation -/

/-- Settles O41: a check in turn reads its one watch, or waits where the budget is spent; a granted write restarts its watch. -/
theorem driftWatchesCompareReads : Obligations.DriftWatchesCompareReads := by
  unfold Obligations.DriftWatchesCompareReads
  refine ⟨fun s w d l b lt awake one launch bank => ?_, fun s req sub h => ?_⟩
  · intro due waits
    refine ⟨fun goes => ?_, fun idle early => driftCheck_notDue awake idle (Nat.not_le.1 (of_decide_eq_false early))⟩
    obtain ⟨r, began, run⟩ := driftCheck_runs awake one rfl goes
    refine ⟨fun budget => ?_, fun budget => ?_⟩
    · have read := driftRead_spec (s := { s with driftRun := r }) lt one launch bank
      have row : (watchRead { s with driftRun := r } w b l).1 = (watchRead s w b l).1 :=
        bankAccess_read_driftRun l.glove b (watchTag s w) (budgetAdd 0 4 1 s) r
      rw [row] at read
      refine ⟨_, run.trans (congrArg _ (driftReads_open budget)), read.kept, read.spent, ?_, rfl, rfl, fun first => ?_, read.baseline,
        read.compared⟩
      · have noted := noted_watchRead s w b l
        exact read.mem.trans (Noted.mem noted).symm
      · exact (congrArg DriftRun.began read.run).trans (began first)
    · refine ⟨_, run.trans (congrArg _ (driftReads_spent one budget)), ?_⟩
      rw [budgetStall_frame]
      exact ⟨rfl, rfl, rfl, rfl, rfl⟩
  · intro w u restarted
    refine ⟨fun glove => ?_, fun tensor => ?_, fun enable => ?_⟩
    · exact ⟨_, by subst glove; rfl, driftEntry_granted (by omega) h⟩
    · exact ⟨_, by subst tensor; rfl, driftEntry_granted (by omega) h⟩
    · exact ⟨_, by subst enable; rfl, driftEntry_granted (by omega) h⟩

end Sys2Proof.Machine
end

section
/-! PROOFS. Learning: counters set to zero, masters that move, and the problem that a learning checkpoint makes of its masters (O40). -/

namespace Sys2Proof.Machine

/-! ## Folds over a range, and stores -/

/-- What a fold over a range has done after each number holds after all of them. -/
theorem foldl_range_rec {β : Type} {P : Nat → β → Prop} {f : β → Nat → β} {s : β} (n : Nat) (zero : P 0 s)
    (step : ∀ i t, i < n → P i t → P (i + 1) (f t i)) : P n ((List.range n).foldl f s) := by
  induction n with
  | zero => exact zero
  | succ n ih =>
    rw [List.range_succ, List.foldl_append]
    exact step n _ (Nat.lt_succ_self n) (ih fun i t hi => step i t (Nat.lt_succ_of_lt hi))

/-- Only what stores change: bytes, marks and leaves. -/
def BytesOnly (s t : State) : Prop := t = { s with mem := t.mem, ecc := t.ecc, leaves := t.leaves }

theorem BytesOnly.refl (s : State) : BytesOnly s s := rfl

theorem BytesOnly.trans {s t u : State} (h1 : BytesOnly s t) (h2 : BytesOnly t u) : BytesOnly s u := by
  unfold BytesOnly at *
  rw [h2, h1]

theorem bytesOnly_store (a : Nat) (d : List Byte) (s : State) : BytesOnly s (store a d s) := rfl

theorem MemKept.trans {a n : Nat} {s t u : State} (h1 : MemKept a n s t) (h2 : MemKept a n t u) : MemKept a n s u :=
  fun i hi => (h2 i hi).trans (h1 i hi)

theorem MemKept.mono {a n b m : Nat} {s t : State} (h : MemKept a n s t) (low : b ≤ a) (high : a + n ≤ b + m) : MemKept b m s t :=
  fun i hi => h i (by omega)

/-! ## Counters at zero (R211, R214) -/

/-- A bank that serves a glove, in a tc in which port A has not met it. -/
def Quiet (s : State) (g : Nat) (x : Nat × Nat) : Prop := Served s g x.1 x.2 ∧ accsNow s x.1 = []

theorem Quiet.of_bytesOnly {s t : State} {g : Nat} {x : Nat × Nat} (h : Quiet s g x) (only : BytesOnly s t) : Quiet t g x := by
  unfold BytesOnly at only
  rw [only]
  exact h

/-- A write of port B that nothing meets is stored. -/
theorem bankAccess_write_quiet {s : State} {g : Nat} {x : Nat × Nat} (h : Quiet s g x) (off : Nat) (d : List Byte) :
    (bankAccess 1 g x.1 x.2 (.write off d) s).2 = store (wordAddr x.1 x.2 + off) d s := by
  obtain ⟨⟨-, on, owned⟩, idle⟩ := h
  unfold bankAccess
  rw [(bankCheck_spec g 1 _ x.1 _ s).2.2 owned on]
  dsimp only
  rw [if_neg (by simp), if_neg (by decide), portBAct, idle]
  rfl

theorem ofLanes_zero : (ofLanes fun _ => 0) = 0 := by simp [ofLanes]

theorem getD_leBytes_zero (n j : Nat) : (leBytes n 0).getD j 0 = 0 := by
  induction n generalizing j with
  | zero => rfl
  | succ n ih =>
    cases j with
    | zero => rfl
    | succ j => exact ih j

/-- Every byte of a word is zero. -/
def ZeroWord (s : State) (x : Nat × Nat) : Prop := ∀ j, j < 64 → byteAt s (wordAddr x.1 x.2 + j) = 0

/-- A word of zeros that is stored leaves zero every word that was, and its own. -/
theorem zeroWord_store {s : State} (wf : s.memOk) (x y : Nat × Nat) (h : x = y ∨ ZeroWord s y) :
    ZeroWord (store (wordAddr x.1 x.2) (leBytes 64 0) s) y := by
  obtain ⟨-, kept, bytes, -⟩ := store_spec (wordAddr x.1 x.2) (leBytes 64 0) s wf
  rw [length_leBytes] at kept bytes
  intro j hj
  by_cases inside : wordAddr x.1 x.2 ≤ wordAddr y.1 y.2 + j ∧ wordAddr y.1 y.2 + j < wordAddr x.1 x.2 + 64
  · obtain ⟨i, hi⟩ := Nat.exists_eq_add_of_le inside.1
    rw [hi, bytes i (by omega), getD_leBytes_zero]
  · rcases h with rfl | zero
    · omega
    · exact (kept _ (by omega)).trans (zero j hj)

/-- Counters that are set to no values are zero, where nothing meets the writes. -/
theorem setCounters_zero {s : State} {g : Nat} {home : List (Nat × Nat)} (wf : s.memOk) (quiet : ∀ x ∈ home, Quiet s g x) :
    BytesOnly s (setCounters g home [] s) ∧ ∀ x ∈ home, ZeroWord (setCounters g home [] s) x := by
  obtain ⟨only, -, zero⟩ : BytesOnly s (setCounters g home [] s) ∧ (setCounters g home [] s).memOk ∧
      ∀ m x, m < home.length → home[m]? = some x → ZeroWord (setCounters g home [] s) x := by
    refine foldl_range_rec (P := fun n t => BytesOnly s t ∧ t.memOk ∧ ∀ m x, m < n → home[m]? = some x → ZeroWord t x) _
      ⟨.refl s, wf, fun m x h => absurd h (Nat.not_lt_zero m)⟩ fun n t hn ⟨only, wf, zero⟩ => ?_
    have here : home[n]? = some home[n] := List.getElem?_eq_getElem hn
    rw [here]
    dsimp only
    have lanes : (ofLanes fun i => ([] : List Nat).getD (8 * n + i) 0) = 0 := ofLanes_zero
    rw [lanes, bankAccess_write_quiet ((quiet _ (List.getElem_mem hn)).of_bytesOnly only), Nat.add_zero]
    refine ⟨only.trans (bytesOnly_store _ _ _), (store_spec _ _ _ wf).1, fun m x hm hx => zeroWord_store wf _ _ ?_⟩
    rcases Nat.lt_succ_iff_lt_or_eq.1 hm with lt | rfl
    · exact .inr (zero m x lt hx)
    · exact .inl (Option.some.inj (here.symm.trans hx))
  refine ⟨only, fun x hx => ?_⟩
  obtain ⟨m, hm, rfl⟩ := List.mem_iff_getElem.1 hx
  exact zero m _ hm (List.getElem?_eq_getElem hm)

theorem loadNat_zeroWord {s : State} {x : Nat × Nat} (h : ZeroWord s x) : loadNat s (wordAddr x.1 x.2) 64 = 0 := by
  have read : memBytes s.mem (wordAddr x.1 x.2) 64 = leBytes 64 0 :=
    memBytes_eq (d := leBytes 64 0) fun j hj => (h j hj).trans (getD_leBytes_zero 64 j).symm
  rw [loadNat, load, read, leNat_leBytes, Nat.zero_mod]

theorem counterVals_zero {s : State} {home : List (Nat × Nat)} (h : ∀ x ∈ home, ZeroWord s x) : ∀ v ∈ counterVals home s, v = 0 := by
  intro v hv
  obtain ⟨x, hx, hv⟩ := List.mem_flatMap.1 hv
  obtain ⟨i, -, rfl⟩ := List.mem_map.1 hv
  rw [loadNat_zeroWord (h x hx)]
  simp [lane, fld]

/-! ## Tables of i32 (R6, R131) -/

/-- Entries of a table whose bytes are as before read as before. -/
theorem i32At_congr {a i : Nat} {s t : State} (h : ∀ j, j < 4 → byteAt t (a + 4 * i + j) = byteAt s (a + 4 * i + j)) :
    i32At t a i = i32At s a i :=
  congrArg (fun l => signed 32 (leNat l)) (memBytes_congr h)

theorem i32At_kept {a i lo n : Nat} {s t : State} (h : MemKept lo n s t) (out : a + 4 * i + 4 ≤ lo ∨ lo + n ≤ a + 4 * i) :
    i32At t a i = i32At s a i := i32At_congr fun _ _ => h _ (by omega)

/-- A value of 32 bits reads back from its register form. -/
theorem signed_unsigned_sat32 (v : Int) : signed 32 (unsigned 32 (sat32 v)) = sat32 v := by
  have range : -2147483648 ≤ sat32 v ∧ sat32 v ≤ 2147483647 := by
    unfold sat32 clampInt
    split
    · omega
    · split <;> omega
  unfold signed unsigned
  dsimp only
  split <;> omega

theorem signed_mod (x : Nat) : signed 32 (x % 256 ^ 4) = signed 32 x := by
  unfold signed
  rw [show 256 ^ 4 = 2 ^ 32 from rfl, Nat.mod_mod]

/-- Entries of a table are put from a place on. -/
def putRow (a off : Nat) (f : Nat → Int) (n : Nat) (s : State) : State := (List.range n).foldl (fun t i => putI32 a (off + i) (f i) t) s

/-- Entries of 32 bits have been put from a place on, and nothing else has changed. -/
structure RowPut (a off : Nat) (f : Nat → Int) (n : Nat) (s t : State) : Prop where
  wf : t.memOk
  only : BytesOnly s t
  kept : MemKept (a + 4 * off) (4 * n) s t
  reads : ∀ i, i < n → i32At t a (off + i) = sat32 (f i)

theorem rowPut_succ {a off n : Nat} {f : Nat → Int} {s t : State} (h : RowPut a off f n s t) :
    RowPut a off f (n + 1) s (putI32 a (off + n) (sat32 (f n)) t) := by
  obtain ⟨wf, kept, bytes, -⟩ := store_spec (a + 4 * (off + n)) (leBytes 4 (unsigned 32 (sat32 (f n)))) t h.wf
  rw [length_leBytes] at kept
  refine ⟨wf, h.only.trans (bytesOnly_store _ _ _), fun i hi => (kept i (by omega)).trans (h.kept i (by omega)), fun i hi => ?_⟩
  rcases Nat.lt_succ_iff_lt_or_eq.1 hi with lt | rfl
  · exact (i32At_kept kept (by omega)).trans (h.reads i lt)
  · have read := memBytes_eq bytes
    rw [length_leBytes] at read
    rw [putI32, i32At, loadNat, load, read, leNat_leBytes, signed_mod, signed_unsigned_sat32]

theorem putRow_spec (a off : Nat) (f : Nat → Int) (n : Nat) {s : State} (wf : s.memOk) :
    RowPut a off f n s (putRow a off (fun i => sat32 (f i)) n s) :=
  foldl_range_rec (P := fun n t => RowPut a off f n s t) n ⟨wf, .refl s, fun _ _ => rfl, fun i hi => absurd hi (Nat.not_lt_zero i)⟩
    fun _ _ _ h => rowPut_succ h

theorem rowPut_one {s : State} (wf : s.memOk) (a i : Nat) (v : Int) : RowPut a i (fun _ => v) 1 s (putI32 a i (sat32 v) s) :=
  rowPut_succ (n := 0) (f := fun _ => v) ⟨wf, .refl s, fun _ _ => rfl, fun j hj => absurd hj (Nat.not_lt_zero j)⟩

/-! ## Masters move (R214) -/

section Masters

variable (c : ProbCtx) (b : SampBlk) (p : ProbSt) (s : State)

/-- A pair's datum less the estimate of its count. -/
def pairGain (i : Nat) : Int :=
  let cnt := counterVals p.counters s
  i32At s (c.addr 6) (c.img.nvar + i) - estimate (cnt.getD (1 + c.img.nvar + i) 0) (cnt.headD 0)

/-- Where a pair's master and a variable's go, before they are clamped: by the rate times the datum less the estimate of the count. -/
def pairGoal (i : Nat) : Int := i32At s (c.addr 7) i + tz ((b.lr.1 : Int) * pairGain c p s i) b.sh.1

def biasGoal (i : Nat) : Int :=
  let cnt := counterVals p.counters s
  i32At s (c.addr 7) (b.npair + i) + tz ((b.lr.2.1 : Int) * (i32At s (c.addr 6) i - estimate (cnt.getD (1 + i) 0) (cnt.headD 0))) b.sh.2.1

/-- Where the master of the model's scale goes, by what each pair's code adds (R214). -/
def scaleGoal : Int :=
  let code (i : Nat) : Nat := let y := pairAt s (imageRegions c.l.params) b i; codeOf c.data y.1 y.2
  let sum := (List.range b.npair).foldl (fun (a : Int) i => a + tz (c.data.codebook.getD (code i) 0 * pairGain c p s i) 24) 0
  i32At s (c.addr 7) (b.npair + c.img.nvar) + tz ((b.lr.2.2 : Int) * signed 64 (unsigned 64 sum)) b.sh.2.2

/-- Entries that are put beside a count. -/
theorem putRow_fst (a off : Nat) (f : Nat → Int) (n : Nat) (k : Nat → Nat) (x : State × Nat) :
    ((List.range n).foldl (fun (x : State × Nat) i => (putI32 a (off + i) (f i) x.1, x.2 + k i)) x).1 = putRow a off f n x.1 :=
  (List.foldl_hom Prod.fst fun _ _ => rfl).symm

/-- The update puts the masters of the pairs, then those of the variables, then that of the model's scale. -/
theorem updateMasters_state : (updateMasters c b p s).1 = putI32 (c.addr 7) (b.npair + c.img.nvar) (sat32 (scaleGoal c b p s))
    (putRow (c.addr 7) b.npair (fun i => sat32 (biasGoal c b p s i)) c.img.nvar
      (putRow (c.addr 7) 0 (fun i => sat32 (pairGoal c b p s i)) b.npair s)) := by
  rw [← putRow_fst (c.addr 7) 0 (fun i => sat32 (pairGoal c b p s i)) b.npair
    (fun i => if sat32 (pairGoal c b p s i) = pairGoal c b p s i then 0 else 1) (s, 0)]
  rw [← putRow_fst (c.addr 7) b.npair (fun i => sat32 (biasGoal c b p s i)) c.img.nvar
    (fun i => if sat32 (biasGoal c b p s i) = biasGoal c b p s i then 0 else 1)]
  simp only [Nat.zero_add]
  rfl

/-- Every master of a pair and of a variable moves to its goal, clamped, and only the masters change. -/
theorem updateMasters_spec (wf : s.memOk) :
    (updateMasters c b p s).1.memOk ∧ BytesOnly s (updateMasters c b p s).1 ∧
      MemKept (c.addr 7) (4 * (b.npair + c.img.nvar + 1)) s (updateMasters c b p s).1 ∧
      (∀ i, i < b.npair → i32At (updateMasters c b p s).1 (c.addr 7) i = sat32 (pairGoal c b p s i)) ∧
      ∀ i, i < c.img.nvar → i32At (updateMasters c b p s).1 (c.addr 7) (b.npair + i) = sat32 (biasGoal c b p s i) := by
  have pairs := putRow_spec (c.addr 7) 0 (pairGoal c b p s) b.npair wf
  have vars := putRow_spec (c.addr 7) b.npair (biasGoal c b p s) c.img.nvar pairs.wf
  have scale := rowPut_one vars.wf (c.addr 7) (b.npair + c.img.nvar) (scaleGoal c b p s)
  rw [← updateMasters_state] at scale
  refine ⟨scale.wf, (pairs.only.trans vars.only).trans scale.only, ?_, fun i hi => ?_, fun i hi => ?_⟩
  · exact ((pairs.kept.mono (by omega) (by omega)).trans (vars.kept.mono (by omega) (by omega))).trans
      (scale.kept.mono (by omega) (by omega))
  · have put := pairs.reads i hi
    rw [Nat.zero_add] at put
    exact (i32At_kept scale.kept (.inl (by omega))).trans ((i32At_kept vars.kept (.inl (by omega))).trans put)
  · exact (i32At_kept scale.kept (.inl (by omega))).trans (vars.reads i hi)

end Masters

/-! ## The problem that a command of learning names (R168) -/

/-- A problem's context names its launch and its number. -/
theorem probCtx_names {s : State} {k j : Nat} {c : ProbCtx} (h : probCtx s k j = some c) : c.key = k ∧ c.no = j := by
  unfold probCtx at h
  split at h
  · cases h
  · obtain ⟨x, -, rfl⟩ := Option.map_eq_some_iff.1 h
    exact ⟨rfl, rfl⟩

/-- What falls after the step at which an undrained problem of a running launch stands applies to it as it stands. -/
theorem standOf_here {s : State} {k j : Nat} {c : ProbCtx} {p : ProbSt} (ctx : probCtx s k j = some c) (prob : probOf s k j = some p)
    (running : c.l.phase = .running) (open_ : p.stop = none) (undrained : ∀ d, drainLimit c = some d → p.steps < d) :
    standOf s ⟨k, j, p.steps⟩ = some (c, p) := by
  have limit : (drainLimit c).all (fun d => decide (p.steps < d)) = true := by
    cases h : drainLimit c with
    | none => rfl
    | some d => exact decide_eq_true (undrained d h)
  have apply : applies c p p.steps = true := by simp [applies, running, open_, limit]
  unfold standOf
  rw [ctx, prob]
  dsimp only
  rw [if_pos apply, reach, if_pos rfl]
  rfl

/-- A problem that has not ended is put in its place, and nothing else is written. -/
theorem refresh_open {c : ProbCtx} {p : ProbSt} (h : p.stop = none) (s : State) : refresh c p s = setProb c.key c.no p s :=
  if_pos (by rw [h]; rfl)

/-! ## The end of an iteration (R214) -/

section Iteration

variable {s : State} {k j : Nat} {c : ProbCtx} {p : ProbSt} {b : SampBlk}

/-- The problem after an iteration. -/
def iterated (c : ProbCtx) (b : SampBlk) (p : ProbSt) (s : State) : ProbSt :=
  { p with lastIter := p.steps, iters := p.iters + 1, sats := p.sats + (updateMasters c b p s).2 }

/-- An iteration's end whose sample point is taken moves the masters and sets the counters to zero. -/
theorem learningIteration_runs (ctx : probCtx s k j = some c) (here : standOf s ⟨k, j, p.steps⟩ = some (c, p)) (blk : c.blk = some b)
    (open_ : p.stop = none) (ends : iterAt b p.steps = true) (once : p.lastIter ≠ p.steps) (sampled : p.lastSamp = p.steps)
    (samples : (counterVals p.counters s).headD 0 ≠ 0) :
    exec (.learningIteration k j p.steps) s =
      .next (setProb k j (iterated c b p s) (setCounters c.l.glove p.counters [] (updateMasters c b p s).1)) := by
  obtain ⟨key, no⟩ := probCtx_names ctx
  change execLearningIteration k j p.steps s = _
  unfold execLearningIteration
  rw [here]
  dsimp only
  rw [blk]
  dsimp only
  rw [if_neg (by simpa [ends, once, sampled] using samples)]
  refine congrArg Host.Outcome.next ((refresh_open (p := iterated c b p s) open_ _).trans ?_)
  rw [key, no]

theorem learningIteration_spec (wf : s.memOk) (ctx : probCtx s k j = some c) (here : standOf s ⟨k, j, p.steps⟩ = some (c, p))
    (blk : c.blk = some b) (open_ : p.stop = none) (ends : iterAt b p.steps = true) (once : p.lastIter ≠ p.steps)
    (sampled : p.lastSamp = p.steps) (samples : (counterVals p.counters s).headD 0 ≠ 0) (quiet : ∀ x ∈ p.counters, Quiet s c.l.glove x)
    (apart : ∀ r ∈ counterRanges p, r.1 + r.2 ≤ c.addr 7 ∨ c.addr 7 + 4 * (b.npair + c.img.nvar + 1) ≤ r.1) :
    ∃ t v, exec (.learningIteration k j p.steps) s = .next t ∧ probOf t k j = some v ∧
      v = { p with lastIter := p.steps, iters := p.iters + 1, sats := v.sats } ∧
      (∀ x ∈ counterVals v.counters t, x = 0) ∧ t.memOk ∧
      MemKeptAll ((c.addr 7, 4 * (b.npair + c.img.nvar + 1)) :: counterRanges p) s t ∧
      (∀ i, i < b.npair → i32At t (c.addr 7) i = sat32 (pairGoal c b p s i)) ∧
      (∀ i, i < c.img.nvar → i32At t (c.addr 7) (b.npair + i) = sat32 (biasGoal c b p s i)) ∧
      (∀ m, m ≠ probKey k j → kget t.probs m = kget s.probs m) ∧
      t = { s with probs := t.probs, mem := t.mem, ecc := t.ecc, leaves := t.leaves } := by
  obtain ⟨wf1, only1, kept1, pairs, vars⟩ := updateMasters_spec c b p s wf
  have run := learningIteration_runs ctx here blk open_ ends once sampled samples
  generalize (updateMasters c b p s).1 = u at wf1 only1 kept1 pairs vars run
  obtain ⟨only2, zero⟩ := setCounters_zero wf1 fun x hx => (quiet x hx).of_bytesOnly only1
  obtain ⟨-, mem⟩ := setCounters_spec k c.l.glove p.counters [] u
  obtain ⟨wf2, kept2⟩ := mem wf1
  generalize setCounters c.l.glove p.counters [] u = w at only2 zero wf2 kept2 run
  have masters {i : Nat} (hi : i < b.npair + c.img.nvar) : i32At w (c.addr 7) i = i32At u (c.addr 7) i :=
    i32At_congr fun m hm => kept2 _ fun r hr => by
      have := apart r hr
      omega
  have only : BytesOnly s w := only1.trans only2
  refine ⟨_, iterated c b p s, run, kget_kput_self _ _ _, rfl, counterVals_zero zero, wf2, fun i hi => ?_, fun i hi => ?_, fun i hi => ?_,
    fun m hm => ?_, ?_⟩
  · have masterRange := hi _ List.mem_cons_self
    exact (kept2 i fun r hr => hi r (List.mem_cons_of_mem _ hr)).trans (kept1 i masterRange)
  · exact (masters (Nat.lt_add_right _ hi)).trans (pairs i hi)
  · exact (masters (Nat.add_lt_add_left hi _)).trans (vars i hi)
  · refine (kget_kput_other _ _ (Ne.symm hm)).trans ?_
    rw [only]
  · unfold setProb
    rw [only]

end Iteration

/-! ## A learning checkpoint (R131, R132, R215) -/

section Relearn

variable (s : State) (c : ProbCtx) (b : SampBlk)

/-- The code that a learned scale's master gives (R131). -/
def learnedCode : Nat :=
  if c.learned then (let m := i32At s (c.addr 7) (b.npair + c.img.nvar); if 2 ^ 15 ≤ m then m.toNat / 2 ^ 15 else 1) else c.code

/-- A coupling with the code that the mapping of its pair's master gives, where a pair names it (R132, R136). -/
def relearned (code : Nat) (x : Nat × Nat × Nat) : Nat × Nat × Nat :=
  match (List.range b.npair).find? fun i => pairAt s (imageRegions c.l.params) b i == (x.1, x.2.1) ||
      pairAt s (imageRegions c.l.params) b i == (x.2.1, x.1) with
  | some i => (x.1, x.2.1, ((bookEntries c.data).getD (mapValue (bookEntries c.data) (code * 2 ^ c.fm) (i32At s (c.addr 7) i)).1 (0, 0)).2)
  | none => x

theorem relearn_code : (relearn s c b).2.1 = learnedCode s c b := by
  change (if c.learned then scaleCode (i32At s (c.addr 7) (b.npair + c.img.nvar)) else (c.code, false)).1 = _
  unfold learnedCode scaleCode
  by_cases learned : c.learned = true
  · by_cases big : 2 ^ 15 ≤ i32At s (c.addr 7) (b.npair + c.img.nvar)
    · simp only [learned, big, if_true]
    · simp only [learned, big, if_true, if_false]
  · simp only [learned, if_false, Bool.false_eq_true]

theorem getD_map_range {α : Type} {i n : Nat} (h : i < n) (f : Nat → α) (d : α) : ((List.range n).map f).getD i d = f i := by
  simp [h]

theorem relearn_couplings : (relearn s c b).1.couplings = c.data.couplings.map (relearned s c b (learnedCode s c b)) := by
  rw [← relearn_code]
  refine List.map_congr_left fun x _ => ?_
  unfold relearned
  rw [List.find?_map]
  cases found : (List.range b.npair).find? fun i => pairAt s (imageRegions c.l.params) b i == (x.1, x.2.1) ||
      pairAt s (imageRegions c.l.params) b i == (x.2.1, x.1) with
  | none =>
    simp only [Function.comp_def, found, Option.map_none]
  | some i =>
    have within : i < b.npair := List.mem_range.1 (List.mem_of_find?_eq_some found)
    simp only [Function.comp_def, found, Option.map_some, getD_map_range within]
    rfl

theorem relearn_kept : (relearn s c b).1.bias = ((List.range c.img.nvar).map fun i => i32At s (c.addr 7) (b.npair + i)) ∧
    (relearn s c b).1.codebook = c.data.codebook ∧ (relearn s c b).1.tag = c.data.tag := ⟨rfl, rfl, rfl⟩

end Relearn

/-! What the statistics rows take leaves problems as they are (R130, R131, R138). -/

theorem probs_clash (g b a : Nat) (s : State) : (clash g b a s).probs = s.probs := by rw [(countersOnly_clash 0 g b a s).frame]

theorem probs_applyOp_add (a mask data : Nat) (s : State) : (applyOp a (.add mask data) s).probs = s.probs :=
  foldl_keeps (R := fun s t : State => t.probs = s.probs) (fun _ => rfl) (fun h1 h2 => h2.trans h1) (fun _ _ => by split <;> rfl) _ s

theorem probs_bankAccess_add (g b w mask data : Nat) (s : State) : (bankAccess 1 g b w (.add mask data) s).2.probs = s.probs := by
  have noted := (bankCheck_spec g 1 true b (wordAddr b w) s).1
  have checked : (bankCheck g 1 true b (wordAddr b w) s).2.probs = s.probs := by rw [noted]
  unfold bankAccess
  dsimp only [BOp.stores]
  generalize bankCheck g 1 true b (wordAddr b w) s = x at checked
  split
  · exact checked
  · rw [if_neg (by decide), portBAct]
    dsimp only
    split
    · exact (probs_clash _ _ _ _).trans checked
    · exact (probs_applyOp_add _ _ _ _).trans checked

theorem probs_rowAdd (l : Launch) (tag : Nat) (lanes : List Nat) (s : State) : (rowAdd l tag lanes s).probs = s.probs := by
  unfold rowAdd
  split
  · rfl
  · split
    · rfl
    · exact probs_bankAccess_add _ _ _ _ _ _

/-- A launch that names no statistics bank collects none. -/
theorem rowAdd_none {l : Launch} (h : pStatBankNo l.params = none) (tag : Nat) (lanes : List Nat) (s : State) : rowAdd l tag lanes s = s := by
  unfold rowAdd
  rw [h]

section LearningCheckpoint

variable {s : State} {k j : Nat} {c : ProbCtx} {p : ProbSt} {b : SampBlk}

/-- The statistics rows after a learning checkpoint: the coupling tensor's, and one for each output tensor whose derivation fails. -/
def relearnRows (s : State) (c : ProbCtx) (b : SampBlk) : State :=
  (relearn s c b).2.2.2.foldl (fun t tag => rowAdd c.l tag [0, 0, 0, 0, 0, 1] t) (rowAdd c.l c.data.tag (relearn s c b).2.2.1 s)

theorem probs_relearnRows (s : State) (c : ProbCtx) (b : SampBlk) : (relearnRows s c b).probs = s.probs :=
  (foldl_keeps (R := fun s t : State => t.probs = s.probs) (fun _ => rfl) (fun h1 h2 => h2.trans h1) (fun _ _ => probs_rowAdd _ _ _ _) _ _).trans
    (probs_rowAdd _ _ _ _)

theorem relearnRows_none (h : pStatBankNo c.l.params = none) : relearnRows s c b = s :=
  (foldl_keeps (R := fun s t : State => t = s) (fun _ => rfl) (fun h1 h2 => h2.trans h1) (fun _ _ => rowAdd_none h _ _ _) _ _).trans
    (rowAdd_none h _ _ _)

/-- The problem after a learning checkpoint. -/
def relearnedProb (s : State) (c : ProbCtx) (b : SampBlk) (p : ProbSt) : ProbSt :=
  { p with data := (relearn s c b).1, code := (relearn s c b).2.1, lchecks := p.lchecks + 1 }

theorem learningCheckpoint_runs (ctx : probCtx s k j = some c) (here : standOf s ⟨k, j, p.steps⟩ = some (c, p)) (blk : c.blk = some b)
    (learns : b.learn = true) (open_ : p.stop = none) (counted : p.iters ≠ 0) (due : p.iters % b.lchk = 0)
    (once : p.lchecks ≠ p.iters / b.lchk) (ended : p.lastIter = p.steps) :
    exec (.learningCheckpoint k j p.steps) s =
      .next (setProb k j (relearnedProb s c b p) (writeLearned c (relearn s c b).1 (relearnRows s c b))) := by
  obtain ⟨key, no⟩ := probCtx_names ctx
  change execLearningCheckpoint k j p.steps s = _
  unfold execLearningCheckpoint
  rw [here]
  dsimp only
  rw [blk]
  dsimp only
  rw [if_neg (by simp [learns, counted, due, once, ended])]
  refine congrArg Host.Outcome.next ((refresh_open (p := relearnedProb s c b p) open_ _).trans ?_)
  rw [key, no]
  rfl

end LearningCheckpoint

/-! ## The obligation -/

/-- Settles O40: an iteration puts the moved masters and zero counters; a checkpoint makes the problem again from its masters. -/
theorem learningMovesTheMasters : Obligations.LearningMovesTheMasters := by
  unfold Obligations.LearningMovesTheMasters
  intro s k j c p b wf ctx prob blk learns running open_ undrained
  have here := standOf_here ctx prob running open_ undrained
  refine ⟨fun ends once sampled samples quiet _ apart => ?_, fun counted due once ended => ?_⟩
  · exact learningIteration_spec wf ctx here blk open_ ends once sampled samples quiet apart
  · refine ⟨_, relearnedProb s c b p, learningCheckpoint_runs ctx here blk learns open_ counted due once ended, kget_kput_self _ _ _, ?_, rfl, ?_,
      rfl, rfl, relearnRows s c b, rfl, probs_relearnRows s c b, relearnRows_none⟩
    · unfold relearnedProb
      rw [relearn_code]
      rfl
    · exact relearn_couplings s c b

end Sys2Proof.Machine
end

section
/-! PROOFS. Fields of numbers that are made of digits and of bytes, and lanes that a VX register takes (R5, R136, R243). -/

namespace Sys2Proof.Machine

/-! ## Numbers of digits -/

/-- Codes of `w` bits, packed one after the other from bit 0 on. -/
def packDigits (w : Nat) (f : Nat → Nat) (n : Nat) : Nat := (List.range n).foldl (fun a l => a + f l * 2 ^ (w * l)) 0

theorem packDigits_succ (w : Nat) (f : Nat → Nat) (n : Nat) : packDigits w f (n + 1) = packDigits w f n + f n * 2 ^ (w * n) := by
  rw [packDigits, List.range_succ, List.foldl_append]
  rfl

theorem packDigits_lt {w : Nat} {f : Nat → Nat} (n : Nat) (h : ∀ l, l < n → f l < 2 ^ w) : packDigits w f n < 2 ^ (w * n) := by
  induction n with
  | zero => simp [packDigits]
  | succ n ih =>
    rw [packDigits_succ]
    calc _ < 2 ^ (w * n) + f n * 2 ^ (w * n) := Nat.add_lt_add_right (ih fun l hl => h l (Nat.lt_succ_of_lt hl)) _
      _ = (f n + 1) * 2 ^ (w * n) := by rw [Nat.succ_mul, Nat.add_comm]
      _ ≤ 2 ^ w * 2 ^ (w * n) := Nat.mul_le_mul_right _ (h n (Nat.lt_succ_self n))
      _ = 2 ^ (w * (n + 1)) := by rw [← pow_add, Nat.mul_succ, Nat.add_comm]

/-- A field that lies below a multiple of a power of two does not see it. -/
theorem fld_add_mul_below (x y lo k n : Nat) (h : lo + k ≤ n) : fld (x + y * 2 ^ n) lo k = fld x lo k := by
  rw [← fld_mod_two_pow (x + y * 2 ^ n) lo k n h, Nat.add_mul_mod_self_right, fld_mod_two_pow x lo k n h]

/-- A field that lies above what is below a power of two is a field of the multiple. -/
theorem fld_add_mul_above {x n : Nat} (h : x < 2 ^ n) (y lo k : Nat) : fld (x + y * 2 ^ n) (n + lo) k = fld y lo k := by
  rw [fld, fld, Nat.shiftRight_add, Nat.shiftRight_eq_div_pow (x + y * 2 ^ n), Nat.add_mul_div_right _ _ (by positivity), Nat.div_eq_of_lt h,
    Nat.zero_add]

/-- A digit reads back. -/
theorem fld_packDigits {w : Nat} {f : Nat → Nat} {n i : Nat} (h : ∀ l, l < n → f l < 2 ^ w) (hi : i < n) :
    fld (packDigits w f n) (w * i) w = f i := by
  induction n with
  | zero => exact absurd hi (Nat.not_lt_zero i)
  | succ n ih =>
    have below : ∀ l, l < n → f l < 2 ^ w := fun l hl => h l (Nat.lt_succ_of_lt hl)
    rw [packDigits_succ]
    rcases Nat.lt_succ_iff_lt_or_eq.1 hi with lt | rfl
    · have apart : w * i + w ≤ w * n := Nat.mul_succ w i ▸ Nat.mul_le_mul_left w lt
      rw [fld_add_mul_below _ _ _ _ _ apart, ih below lt]
    · have top := fld_add_mul_above (packDigits_lt i below) (f i) 0 w
      rw [Nat.add_zero] at top
      rw [top, fld, Nat.shiftRight_zero, Nat.mod_eq_of_lt (h i hi)]

/-- A field of a field. -/
theorem fld_fld {lo k n : Nat} (h : lo + k ≤ n) (x a : Nat) : fld (fld x a n) lo k = fld x (a + lo) k := by
  conv_lhs => rw [fld.eq_1 x, fld_mod_two_pow _ _ _ _ h]
  rw [fld, fld, Nat.shiftRight_add]

/-! ## Numbers of bytes (R5) -/

theorem leNat_append (l m : List Byte) : leNat (l ++ m) = leNat l + leNat m * 2 ^ (8 * l.length) := by
  induction l with
  | nil => simp [leNat]
  | cons b l ih =>
    rw [List.cons_append, leNat, leNat, ih, List.length_cons, Nat.mul_succ, pow_add]
    ring

/-- A field of lanes of 32 bits, as bytes, is that field of its lane. -/
theorem fld_lanes (L : List Nat) (j o k : Nat) (h : o + k ≤ 32) :
    fld (leNat (L.flatMap (leBytes 4))) (32 * j + o) k = fld (L.getD j 0) o k := by
  induction L generalizing j with
  | nil => simp [leNat, fld]
  | cons a L ih =>
    have number : leNat ((a :: L).flatMap (leBytes 4)) = a % 2 ^ 32 + leNat (L.flatMap (leBytes 4)) * 2 ^ 32 := by
      rw [List.flatMap_cons, leNat_append, leNat_leBytes, length_leBytes]
      rfl
    rw [number]
    cases j with
    | zero => rw [Nat.mul_zero, Nat.zero_add, fld_add_mul_below _ _ _ _ _ h, fld_mod_two_pow _ _ _ _ h, List.getD_cons_zero]
    | succ j =>
      have place : 32 * (j + 1) + o = 32 + (32 * j + o) := by omega
      rw [place, fld_add_mul_above (Nat.mod_lt _ (by norm_num)), ih, List.getD_cons_succ]

/-! ## Lanes of a VX register (R243) -/

theorem length_vxGet (t : Tile) (i : Nat) : (vxGet t i).length = 256 := by
  rw [vxGet, List.length_append, List.length_take, List.length_replicate]
  omega

theorem vxGet_vxPut {l : List Nat} (h : l.length = 256) (i : Nat) (t : Tile) : vxGet (vxPut i l t) i = l := by
  have put : kgetD (vxPut i l t).v.vx i [] = l := kgetD_kput_self _ _ _ _
  rw [vxGet, put, h, ← h, List.take_length]
  simp

/-- The first lanes of a list, put one by one. -/
theorem putLanes_range (l : List Nat) (g : Nat → Nat) {n : Nat} (h : n ≤ l.length) :
    let m := putLanes (fun _ x => x) l ((List.range n).map fun i => (i, g i))
    m.length = l.length ∧ ∀ j, j < n → m.getD j 0 = g j := by
  unfold putLanes
  rw [List.foldl_map]
  refine foldl_range_rec (P := fun n (m : List Nat) => m.length = l.length ∧ ∀ j, j < n → m.getD j 0 = g j) n
    ⟨rfl, fun j hj => absurd hj (Nat.not_lt_zero j)⟩ fun i m hi ⟨len, put⟩ => ⟨by rw [List.length_set, len], fun j hj => ?_⟩
  dsimp only
  rcases Nat.lt_succ_iff_lt_or_eq.1 hj with lt | rfl
  · rw [List.getD_eq_getElem?_getD, List.getElem?_set_ne (Nat.ne_of_gt lt), ← List.getD_eq_getElem?_getD]
    exact put j lt
  · have within : j < m.length := by omega
    simp [within]

/-- A register that takes its first lanes holds them. -/
theorem vxGet_landOn_lanes (d : Nat) (g : Nat → Nat) {n j : Nat} (h : n ≤ 256) (hj : j < n) (t : Tile) :
    (vxGet (landOn (.lanes d ((List.range n).map fun i => (i, g i)) none) t) d).getD j 0 = g j := by
  obtain ⟨len, put⟩ := putLanes_range (vxGet t d) g (n := n) (by rw [length_vxGet]; exact h)
  change (vxGet (vxPut d _ t) d).getD j 0 = g j
  rw [vxGet_vxPut (len.trans (length_vxGet t d))]
  exact put j hj

end Sys2Proof.Machine
end

section
/-! PROOFS. CATS, QLD and QMAP: their issue, and the looks of CATS and QLD at what they have read (O20). -/

namespace Sys2Proof.Machine

/-! ## CATS and QLD begin their reads (R133, R203, R244, R248) -/

theorem holdUnits_cats {c : Ctx} (cats : c.f 58 6 = 0x26) (s : State) :
    holdUnits c 0 s = underWay c [(64, .free unitSampler), (1 + (c.f 32 8 + 8) / 8, .free unitPortA)] s := by
  have held : unitsHeld (kindOf c.pos) c.word 0 = [(unitSampler, 64), (unitPortA, 1 + (c.f 32 8 + 8) / 8)] := by
    rw [unitsHeld, show fld c.word 58 6 = 0x26 from cats]
    rfl
  rw [holdUnits_eq, held]
  rfl

theorem holdUnits_qld {c : Ctx} (qld : c.f 58 6 = 0x27) (s : State) : holdUnits c 0 s = underWay c [(8, .free unitPortA)] s := by
  have held : unitsHeld (kindOf c.pos) c.word 0 = [(unitPortA, 8)] := by
    rw [unitsHeld, show fld c.word 58 6 = 0x27 from qld]
    rfl
  rw [holdUnits_eq, held]
  rfl

/-- A transfer from a bank begins with the read of its first word, from the commons a tc later than from a bank of the tile. -/
theorem startRead_eq (c : Ctx) (addr : Nat) (got : List (Nat × Nat)) (arg : Nat) (s : State) :
    let a := addrBank c.pos (c.f 56 2 == 1) addr
    startRead c (c.f 56 2 == 1) addr got arg s = underWay c [(if c.f 56 2 = 1 then 2 else 1, .read a.1 a.2 0 got arg)] s := by
  intro a
  unfold startRead bankLag
  simp only [beq_iff_eq]
  rfl

section Issue

variable {s : State} {pos tc : Nat} {c : Ctx}

theorem cats_issued (h : Issues s pos tc 0x26 (bits 12 0) c) (space : c.f 56 2 < 2) :
    let r := reached s pos tc
    let T := tileOf r pos
    let a := addrBank pos (c.f 56 2 == 1) (c.f 40 16)
    c.f 20 4 < 8 → pmBad T (c.f 20 4) = false → pmBad T (8 + c.f 17 3) = false →
    ∃ t u, exec (.cats pos tc) s = .next t ∧ tileOf u pos = tileAfter c 1 T ∧ TileFrame pos r u ∧
      t = issued c [(if c.f 56 2 = 1 then 2 else 1, .read a.1 a.2 0 [(pmGet T (c.f 20 4), pmGet T (8 + c.f 17 3))] 0), (64, .free unitSampler),
        (1 + (c.f 32 8 + 8) / 8, .free unitPortA)] u := by
  obtain ⟨rfl, -, -⟩ := h.spec
  obtain ⟨cats, -⟩ := fetch_opcode h.2.2.1
  intro r T a table clean clean1
  have cause : issueCause c [(decide (8 ≤ c.f 20 4), excOperand), (pmBad T (c.f 20 4) || pmBad T (8 + c.f 17 3), excPoison)] = none := by
    refine issueCause_none ?_
    simp only [List.mem_cons, List.not_mem_nil, or_false, forall_eq_or_imp, forall_eq]
    exact ⟨decide_eq_false (Nat.not_le.2 table), by rw [clean, clean1]; rfl⟩
  refine ⟨_, stepOn c 1 r, ?_, tileOf_stepOn c 1 _, tileFrame_stepOn c 1 _, rfl⟩
  change execCats c.pos tc s = _
  refine runInstr_issued h ((if_neg (Nat.not_le.2 space)).trans ?_)
  refine (goes_on (fun x => early c x (if x = excPoison then vtFault c 2 r else r)) _ _ cause).trans ?_
  rw [holdUnits_cats cats, startRead_eq]
  rfl

theorem qld_issued (h : Issues s pos tc 0x27 (bits 25 0) c) (space : c.f 56 2 < 2) :
    let r := reached s pos tc
    let T := tileOf r pos
    let a := addrBank pos (c.f 56 2 == 1) (c.f 40 16)
    c.f 26 4 < 8 → pmBad T (c.f 26 4) = false →
    ∃ t u, exec (.qld pos tc) s = .next t ∧ tileOf u pos = tileAfter c 1 T ∧ TileFrame pos r u ∧
      t = issued c [(if c.f 56 2 = 1 then 2 else 1, .read a.1 a.2 0 [(fld (pmGet T (c.f 26 4)) 0 32, 0)] 0), (8, .free unitPortA)] u := by
  obtain ⟨rfl, -, -⟩ := h.spec
  obtain ⟨qld, -⟩ := fetch_opcode h.2.2.1
  intro r T a scale clean
  have cause : issueCause c [(decide (8 ≤ c.f 26 4), excOperand), (pmBad T (c.f 26 4), excPoison)] = none := by
    refine issueCause_none ?_
    simp only [List.mem_cons, List.not_mem_nil, or_false, forall_eq_or_imp, forall_eq]
    exact ⟨decide_eq_false (Nat.not_le.2 scale), clean⟩
  refine ⟨_, stepOn c 1 r, ?_, tileOf_stepOn c 1 _, tileFrame_stepOn c 1 _, rfl⟩
  change execQld c.pos tc s = _
  refine runInstr_issued h ((if_neg (Nat.not_le.2 space)).trans ?_)
  refine (goes_on (early c · r) _ _ cause).trans ?_
  rw [holdUnits_qld qld, startRead_eq]
  rfl

/-! ## QMAP (R135, R136, R138, R140) -/

/-- The width of a table's codes. -/
def codeWidth (m : MapTab) : Nat := if m.w8 then 8 else 4

/-- The code of lane l. -/
def laneCode (m : MapTab) (outs : List (Nat × Nat × Bool)) (l : Nat) : Nat := (m.entries.getD (outs.getD l (0, 0, false)).1 (0, 0)).2

theorem laneCode_lt {m : MapTab} (fits : ∀ e ∈ m.entries, e.2 < if m.w8 then 256 else 16) (outs : List (Nat × Nat × Bool)) (l : Nat) :
    laneCode m outs l < 2 ^ codeWidth m := by
  have width : 2 ^ codeWidth m = if m.w8 then 256 else 16 := by
    unfold codeWidth
    split <;> rfl
  rw [width]
  unfold laneCode
  by_cases listed : (outs.getD l (0, 0, false)).1 < m.entries.length
  · rw [List.getD_eq_getElem _ _ listed]
    exact fits _ (List.getElem_mem listed)
  · rw [List.getD_eq_default _ _ (Nat.not_lt.1 listed)]
    split <;> decide

/-- Every lane's code stands at the lane's place once the codes have landed (R136, R244). -/
theorem codesLand_lane {m : MapTab} (fits : ∀ e ∈ m.entries, e.2 < if m.w8 then 256 else 16) (d : Nat) (outs : List (Nat × Nat × Bool))
    (T : Tile) {i : Nat} (hi : i < 256) :
    fld (leNat ((vxGet (landOn (codesLand m d outs false) T) d).flatMap (leBytes 4))) (codeWidth m * i) (codeWidth m) = laneCode m outs i := by
  have width : codeWidth m = 8 ∨ codeWidth m = 4 := by
    unfold codeWidth
    split
    · exact .inl rfl
    · exact .inr rfl
  obtain ⟨j, o, place, fit, within⟩ : ∃ j o, codeWidth m * i = 32 * j + o ∧ o + codeWidth m ≤ 32 ∧ j < 8 * codeWidth m := by
    refine ⟨codeWidth m * i / 32, codeWidth m * i % 32, (Nat.div_add_mod _ _).symm, ?_⟩
    rcases width with w | w
    · rw [w]
      omega
    · rw [w]
      omega
  let packed := packDigits (codeWidth m) (laneCode m outs) 256
  have landing : codesLand m d outs false = .lanes d ((List.range (8 * codeWidth m)).map fun i => (i, fld packed (32 * i) 32)) none := rfl
  rw [place, fld_lanes _ _ _ _ fit, landing, vxGet_landOn_lanes _ _ (by omega) within, fld_fld fit, ← place]
  exact fld_packDigits (fun l _ => laneCode_lt fits outs l) hi

/-- The record of a QMAP: the squared errors, the enabled lanes, and those that were clipped (R138). -/
theorem mapRecord_fields (mask : Nat) (outs : List (Nat × Nat × Bool)) :
    let on := (List.range 256).filter (laneOn mask)
    let v := ofLanes fun i => (mapRecord mask outs).getD i 0
    fld v 0 64 = (on.map fun i => (outs.getD i (0, 0, false)).2.1).sum % 2 ^ 64 ∧ fld v 64 64 = on.length ∧
      fld v 128 64 = on.countP fun i => (outs.getD i (0, 0, false)).2.2 := by
  intro on v
  have few : on.length ≤ 256 := (List.length_filter_le _ _).trans_eq List.length_range
  have clipped : (on.countP fun i => (outs.getD i (0, 0, false)).2.2) ≤ 256 := List.countP_le_length.trans few
  have read {j : Nat} (hj : j < 8) : fld v (64 * j) 64 = (mapRecord mask outs).getD j 0 % 2 ^ 64 := lane_ofLanes _ hj
  refine ⟨(read (j := 0) (by decide)).trans ?_, (read (j := 1) (by decide)).trans ?_, (read (j := 2) (by decide)).trans ?_⟩
  · have sum : (mapRecord mask outs).getD 0 0 = (on.map fun i => (outs.getD i (0, 0, false)).2.1).sum % 2 ^ 64 := by
      rw [List.sum_eq_foldl, List.foldl_map]
      rfl
    rw [sum, Nat.mod_mod]
  · exact Nat.mod_eq_of_lt (few.trans_lt (by norm_num))
  · exact Nat.mod_eq_of_lt (clipped.trans_lt (by norm_num))

/-- A record whose tag is a row of a statistics bank of the tile's cluster is added there, two tc later (R138, R140). -/
theorem statAt_row {s : State} {c : Ctx} {b tag : Nat} (bank : (statBankOf s c).1 = some b) (tagged : tag ≠ 0xFFFF)
    (cluster : bankCluster b = clusterOf c.pos) (wet : c.dry = 0) (d : Nat) (lanes : List Nat) :
    statAt c (c.tc + d) tag lanes s = sched c (d + 2) (.stat b tag (ofLanes fun i => lanes.getD i 0)) s := by
  unfold statAt
  rw [bank]
  dsimp only
  rw [if_neg tagged, if_pos cluster, if_neg (not_not.2 wet)]
  rfl

/-- A QMAP of a clean register, a good tag and a held table puts its codes under way, and its record as its tag has it. -/
theorem qmap_runs (h : Issues s pos tc 0x28 (bits 25 0) c) {m : MapTab} (clean : vxPoison (tileOf (reached s pos tc) pos) (c.f 54 4) = false)
    (held : (tileOf (reached s pos tc) pos).v.map = some m)
    (tag : c.f 34 16 = 0xFFFF ∨ c.f 34 16 < (statBankOf (reached s pos tc) c).2) {l : List (Nat × Act)} {r : State} (at_ : r = reached s pos tc)
    (ends : let outs := mapLanes m (c.f 26 8) (vxGet (tileOf r pos) (c.f 54 4))
      statAt c (c.tc + 7) (c.f 34 16) (mapRecord (c.f 26 8) outs)
        (sched c 6 (.land (codesLand m (c.f 50 4) outs false)) (stepOn c 1 r)) = underWay c l (stepOn c 1 r)) :
    exec (.qmap pos tc) s = .next (issued c l (stepOn c 1 r)) := by
  subst at_
  obtain ⟨rfl, -, -⟩ := h.spec
  have cause : issueCause c [(vxPoison (tileOf (reached s c.pos tc) c.pos) (c.f 54 4), excPoison),
      (!tagOk (reached s c.pos tc) c (c.f 34 16), excTag), ((tileOf (reached s c.pos tc) c.pos).v.map.isNone, excMapTable)] = none := by
    refine issueCause_none ?_
    simp only [List.mem_cons, List.not_mem_nil, or_false, forall_eq_or_imp, forall_eq]
    exact ⟨clean, by simp [tagOk_of tag], by rw [held]; rfl⟩
  change execQmap c.pos tc s = _
  refine runInstr_issued h ?_
  refine (goes_on (early c · (reached s c.pos tc)) _ _ cause).trans ?_
  rw [held, clean]
  exact ends

/-- The two ends of a QMAP: without a record where its tag is 0xFFFF, with it where its tag is a row of a statistics bank of its cluster. -/
theorem qmap_issued (h : Issues s pos tc 0x28 (bits 25 0) c) {m : MapTab} :
    let r := reached s pos tc
    let T := tileOf r pos
    let outs := mapLanes m (c.f 26 8) (vxGet T (c.f 54 4))
    let y := codesLand m (c.f 50 4) outs false
    let v := ofLanes fun i => (mapRecord (c.f 26 8) outs).getD i 0
    vxPoison T (c.f 54 4) = false → T.v.map = some m →
    (c.f 34 16 = 0xFFFF → exec (.qmap pos tc) s = .next (issued c [(6, .land y)] (stepOn c 1 r))) ∧
    ∀ b, c.f 34 16 ≠ 0xFFFF → (statBankOf r c).1 = some b → c.f 34 16 < (statBankOf r c).2 → bankCluster b = clusterOf pos → c.dry = 0 →
      exec (.qmap pos tc) s = .next (issued c [(6, .land y), (9, .stat b (c.f 34 16) v)] (stepOn c 1 r)) := by
  intro r T outs y v clean held
  obtain ⟨here, -, -⟩ := h.spec
  refine ⟨fun untagged => qmap_runs h clean held (.inl untagged) rfl (statAt_untagged c _ untagged _ _), fun b tagged bank row cluster wet =>
    qmap_runs h clean held (.inr row) rfl ?_⟩
  have slots : (statBankOf (sched c 6 (.land y) (stepOn c 1 r)) c).1 = some b := by
    rw [← bank]
    have tile : tileOf (sched c 6 (.land y) (stepOn c 1 r)) c.pos = tileAfter c 1 (tileOf r c.pos) := tileOf_stepOn c 1 r
    unfold statBankOf lslotOf
    rw [tile]
    rfl
  exact statAt_row slots tagged (here ▸ cluster) wet _ _

end Issue

/-! ## CATS and QLD look at what they have read (R134, R203, R205, R248) -/

section Look

variable {s : State} {x : Item} {l : List Item}

/-- What a CATS or a QLD makes of its words. -/
def lookNow (c : Ctx) (got : List (Nat × Nat)) (late : Nat) (s : State) : State :=
  if c.f 58 6 = 0x26 then catsNow c got late s else qldNow c got late s

/-- A look that is alone in its tc. -/
theorem advance_check {got : List (Nat × Nat)} {late : Nat} (h : Alone s x l) (act : x.act = .check got late)
    (now : (lookNow x.c got late (dueState s x l)).now = x.tc) (later : Later x.tc (lookNow x.c got late (dueState s x l))) :
    advance x.tc s = lookNow x.c got late (dueState s x l) := by
  have run : runTc x.tc s = lookNow x.c got late (dueState s x l) := by
    unfold runTc
    rw [performAll_alone_skip h h.notHeld, due_alone h, show x.isPort = false by simp [Item.isPort, Item.bank, act]]
    simp only [Bool.false_eq_true, if_false, servePorts_nil]
    rw [performAll_alone_skip h (by simp [Item.isRows, act]), performAll_alone h (by simp [Item.isCheck, act])]
    simp only [act]
    change (List.range 7).foldl _ (takeDue x.tc (lookNow x.c got late (dueState s x l))) = _
    rw [takeDue_later later, changes_later later]
  rw [advance_alone h (run ▸ now) (run ▸ later), run]

/-- A look that puts one act under way for a later tc, and beside it leaves what comes later as it is. -/
theorem advance_check_underWay {got : List (Nat × Nat)} {late d : Nat} {a : Act} {u : State} (h : Alone s x l) (act : x.act = .check got late)
    (look : lookNow x.c got late (dueState s x l) = underWay x.c [(d, a)] u) (now : u.now = x.tc) (later : Later x.tc u)
    (soon : x.tc < x.c.tc + d) : advance x.tc s = underWay x.c [(d, a)] u := by
  have plan : x.c.free = false := h.2.2.2.2
  rw [← look]
  refine advance_check h act (look ▸ now) (look ▸ fun y hy => ?_)
  rcases mem_insItem hy with rfl | hy
  · simp only [plan, Bool.false_eq_true, if_false]
    exact soon
  · exact later y hy

/-- Words that are all clean. -/
theorem any_bad_eq_false {ws : List (Nat × Nat)} (h : ∀ w ∈ ws, w.2 = 0) : (ws.any fun w => w.2 != 0) = false :=
  List.any_eq_false.2 fun w hw => by simp [h w hw]

/-- No V-tile stands where the two port tiles with clock and Helmet registers do. -/
theorem ne_of_kind_v {pos : Nat} (v : kindOf pos = .v) : pos ≠ 1140 ∧ pos ≠ 364 := by
  constructor <;> rintro rfl <;> exact absurd v (by decide)

/-- ROM words of which none fails its parity leave no trace (R201). -/
theorem romCheck_sound {c : Ctx} {lg : Bool} {reads : List Nat} {s : State} (h : ∀ k ∈ reads, romFails s c.pos lg k = false) :
    romCheck c lg reads s = s := by
  have sound : reads.find? (romFails s c.pos lg) = none := List.find?_eq_none.2 fun k hk => by simp [h k hk]
  unfold romCheck
  rw [sound]

/-- What a CATS that selects counts (R219): its draw, itself, and the number kept less one. -/
def catsCounted (c : Ctx) (kept : Nat) (s : State) : State :=
  let a := tileBase c.pos + 0xF100C
  winPut (winBump (countDraws c 1 s) a 0 16 1) a 16 8 (kept - 1)

theorem tileFrame_catsCounted {c : Ctx} (v : kindOf c.pos = .v) (kept : Nat) (s : State) : TileFrame c.pos s (catsCounted c kept s) := by
  have there := ne_of_kind_v v
  have home : regHome (tileBase c.pos + 0xF100C) = tileBase c.pos + 0xF100C := regHome_tile _ 0xF100C (by decide) (.inr (.inr there))
  have count := tileFrame_winCount64 c.pos 0xF1004 1 s (by decide) (.inr (.inr there))
  have put (v : Nat) (t : State) : TileFrame c.pos t (winSet t (tileBase c.pos + 0xF100C) v) :=
    tileFrame_winSet _ _ _ _ home (by omega) (by omega)
  exact (count.trans (put _ _)).trans (put _ _)

theorem cats_selects {got : List (Nat × Nat)} {late : Nat} (h : Alone s x l) (act : x.act = .check got late)
    (clean : ∀ w ∈ got.drop 1, w.2 = 0) {cand : Cand} {kept rank : Nat} (cats : x.c.f 58 6 = 0x26) :
    let c := x.c
    let p := (got.headD (0, 0)).1
    let d := drawBits (got.headD (0, 0)).2
    let cands := candsOf (c.f 32 8 + 1) ((got.drop 1).map (·.1))
    catsSelect (tileExp s c.pos) cands (c.f 24 8 + 1) (fld p 0 16) (fld p 32 32)
      ((steppe (counter d.base d.replica d.step d.tag d.stream) (seedOf (tileOf s c.pos) c)).headD 0) = some (cand, kept, rank) →
    (∀ k ∈ catsReads cands (c.f 24 8 + 1) (fld p 0 16), romFails s c.pos false k = false) → x.tc < c.tc + (80 + late) →
    advance x.tc s = underWay c [(80 + late, .land (pairLand (c.f 13 4) (cand.2 + kept * 2 ^ 32 + rank * 2 ^ 48)))]
      (catsCounted c kept (dueState s x l)) := by
  intro c p d cands select sound soon
  refine advance_check_underWay h act ?_ rfl h.2.2.1 soon
  unfold lookNow
  rw [if_pos cats]
  unfold catsNow
  have draw : catsSelect (tileExp (dueState s x l) x.c.pos) cands (x.c.f 24 8 + 1) (fld p 0 16) (fld p 32 32)
      ((d.at (seedOf (tileOf (dueState s x l) x.c.pos) x.c) 0).headD 0) = some (cand, kept, rank) := select
  simp only [any_bad_eq_false clean, Bool.false_eq_true, false_and, if_false]
  rw [draw]
  exact romCheck_sound fun k hk => sound k hk

theorem qld_checks {got : List (Nat × Nat)} {late : Nat} (h : Alone s x l) (act : x.act = .check got late)
    (clean : ∀ w ∈ got.drop 1, w.2 = 0) (qld : x.c.f 58 6 = 0x27) :
    let c := x.c
    let g := (got.headD (0, 0)).1
    let es := mapEntries (c.f 31 9) ((got.drop 1).map (·.1))
    mapOk (bitOf c.word 30) (c.f 31 9) g es = true → x.tc < c.tc + (11 + late) →
    advance x.tc s = underWay c [(11 + late, .land (.map ⟨bitOf c.word 30, g, es⟩))] (dueState s x l) := by
  intro c g es good soon
  refine advance_check_underWay h act ?_ rfl h.2.2.1 soon
  unfold lookNow
  rw [if_neg (by rw [qld]; decide)]
  unfold qldNow
  dsimp only
  rw [if_neg (by rw [any_bad_eq_false clean]; simp), if_neg (by rw [show mapOk (bitOf x.c.word 30) (x.c.f 31 9) _ _ = true from good]; decide)]
  rfl

end Look

/-! ## The obligation -/

/-- Settles O20: CATS, QLD and QMAP by their issue, then a look of CATS and of QLD that is alone in its tc. -/
theorem categoricalDrawAndMappingComplete : Obligations.CategoricalDrawAndMappingComplete := by
  unfold Obligations.CategoricalDrawAndMappingComplete
  refine ⟨fun s pos tc c => ⟨cats_issued, qld_issued, fun m h clean held fits => ?_⟩, fun s x l got late h v act clean =>
    ⟨fun cand kept rank cats select sound soon => ?_, fun qld => qld_checks h act clean qld⟩⟩
  · obtain ⟨untagged, recorded⟩ := qmap_issued h clean held
    obtain ⟨rfl, -, -⟩ := h.spec
    have lands {i : Nat} := codesLand_lane (i := i) fits (c.f 50 4) (mapLanes m (c.f 26 8) (vxGet (tileOf (reached s c.pos tc) c.pos) (c.f 54 4)))
      (tileOf (reached s c.pos tc) c.pos)
    refine ⟨fun tag => ?_, fun b tag bank row cluster wet => ?_⟩
    · exact ⟨_, _, _, untagged tag, rfl, tileOf_stepOn c 1 _, tileFrame_stepOn c 1 _, fun i hi => lands hi⟩
    · exact ⟨_, _, _, _, recorded b tag bank row cluster wet, rfl, tileOf_stepOn c 1 _, tileFrame_stepOn c 1 _, fun i hi => lands hi,
        mapRecord_fields (c.f 26 8) _⟩
  · exact ⟨_, tileFrame_catsCounted v kept _, rfl, cats_selects h act clean cats select sound soon⟩

end Sys2Proof.Machine
end

section
/-! PROOFS. Registers of a V-tile that land in the lanes of a mask, with what FL and the counts of EV gain (R243, R244, R247). -/

namespace Sys2Proof.Machine

/-! ## Lanes of a mask -/

theorem mem_lanesOn {mask l : Nat} : l ∈ lanesOn mask ↔ l < 256 ∧ laneOn mask l = true := by simp [lanesOn]

theorem nodup_lanesOn (mask : Nat) : (lanesOn mask).Nodup := List.nodup_range.filter _

/-- Lanes that are put, each once, hold what is put there; every other lane is as before. -/
theorem putLanes_map (f : Nat → Nat → Nat) (g : Nat → Nat) {ks l : List Nat} (once : ks.Nodup) (within : ∀ k ∈ ks, k < l.length) :
    (putLanes f l (ks.map fun k => (k, g k))).length = l.length ∧
      ∀ j, (putLanes f l (ks.map fun k => (k, g k))).getD j 0 = if j ∈ ks then f (l.getD j 0) (g j) else l.getD j 0 := by
  induction ks generalizing l with
  | nil => exact ⟨rfl, fun j => rfl⟩
  | cons k ks ih =>
    obtain ⟨fresh, once⟩ := List.nodup_cons.1 once
    have here : k < l.length := within k List.mem_cons_self
    obtain ⟨len, put⟩ := ih (l := l.set k (f (l.getD k 0) (g k))) once fun i hi => by
      rw [List.length_set]
      exact within i (List.mem_cons_of_mem _ hi)
    refine ⟨len.trans List.length_set, fun j => (put j).trans ?_⟩
    by_cases same : j = k
    · subst same
      simp [fresh, here]
    · have other : (l.set k (f (l.getD k 0) (g k))).getD j 0 = l.getD j 0 := by
        rw [List.getD_eq_getElem?_getD, List.getElem?_set_ne (Ne.symm same), ← List.getD_eq_getElem?_getD]
      simp only [other, List.mem_cons, same, false_or]

/-! ## A VX register takes lanes (R243) -/

theorem vxGet_vxMark (i k : Nat) (p : Bool) (T : Tile) : vxGet (vxMark i p T) k = vxGet T k := rfl

theorem vxGet_vxTake (f : Nat → Nat → Nat) (g : Nat → Nat) {ks : List Nat} (once : ks.Nodup) (within : ∀ k ∈ ks, k < 256) (i : Nat)
    (mark : Option Bool) (T : Tile) (j : Nat) :
    (vxGet (vxTake i f (ks.map fun k => (k, g k)) mark T) i).getD j 0 = if j ∈ ks then f ((vxGet T i).getD j 0) (g j) else (vxGet T i).getD j 0 := by
  obtain ⟨len, put⟩ := putLanes_map f g once fun k hk => (length_vxGet T i).symm ▸ within k hk
  have taken : vxGet (vxTake i f (ks.map fun k => (k, g k)) mark T) i = putLanes f (vxGet T i) (ks.map fun k => (k, g k)) := by
    unfold vxTake
    cases mark with
    | none => exact vxGet_vxPut (len.trans (length_vxGet T i)) i T
    | some p => exact (vxGet_vxMark i i p _).trans (vxGet_vxPut (len.trans (length_vxGet T i)) i T)
  rw [taken, put]

/-- A register that takes lanes leaves every other register. -/
theorem vxGet_vxTake_other {i k : Nat} (h : i ≠ k) (f : Nat → Nat → Nat) (new : List (Nat × Nat)) (mark : Option Bool) (T : Tile) :
    vxGet (vxTake i f new mark T) k = vxGet T k := by
  have put : kgetD (vxPut i (putLanes f (vxGet T i) new) T).v.vx k [] = kgetD T.v.vx k [] := kgetD_kput_other _ _ _ h
  unfold vxTake
  cases mark with
  | none => rw [vxGet, put, vxGet]
  | some p => rw [vxGet_vxMark, vxGet, put, vxGet]

/-! A register that takes lanes leaves FL and the counts of EV. -/

theorem fl_landOn_lanes (i : Nat) (new : List (Nat × Nat)) (mark : Option Bool) (T : Tile) : (landOn (.lanes i new mark) T).fl = T.fl := by
  cases mark <;> rfl
theorem fl_landOn_halves (i : Nat) (new : List (Nat × Nat)) (mark : Option Bool) (T : Tile) : (landOn (.halves i new mark) T).fl = T.fl := by
  cases mark <;> rfl
theorem ev_landOn_lanes (i : Nat) (new : List (Nat × Nat)) (mark : Option Bool) (T : Tile) :
    (landOn (.lanes i new mark) T).v.ev = T.v.ev := by
  cases mark <;> rfl
theorem ev_landOn_halves (i : Nat) (new : List (Nat × Nat)) (mark : Option Bool) (T : Tile) :
    (landOn (.halves i new mark) T).v.ev = T.v.ev := by
  cases mark <;> rfl

/-! ## FL (R243) -/

theorem testBit_orLanes (ls : List Nat) (x j : Nat) :
    (ls.foldl (fun f l => f ||| 2 ^ l) x).testBit j = (x.testBit j || decide (j ∈ ls)) := by
  induction ls generalizing x with
  | nil => simp
  | cons l ls ih =>
    rw [List.foldl_cons, ih, Nat.testBit_or, Nat.testBit_two_pow, Bool.or_assoc]
    by_cases same : j = l
    · simp [same]
    · simp [same, Ne.symm same]

/-- Bits of FL that lanes set. -/
theorem bitOf_landOn_flLanes (ls : List Nat) (T : Tile) (j : Nat) : bitOf (landOn (flLanes ls) T).fl j = (bitOf T.fl j || decide (j ∈ ls)) := by
  change (T.fl ||| ls.foldl (fun f l => f ||| 2 ^ l) 0).testBit j = _
  rw [Nat.testBit_or, testBit_orLanes, Nat.zero_testBit, Bool.false_or]
  rfl

/-! ## Issue of an instruction that lands registers (R226, R244) -/

theorem landIn_eq (c : Ctx) (d : Nat) (L : List Landing) (s : State) : landIn c d L s = underWay c (L.map fun y => (d, .land y)) s := by
  rw [underWay, List.foldl_map]
  rfl

/-- An instruction of plan time is one of its tile's kind (R232). -/
theorem fetch_legal {s : State} {pos tc opc r : Nat} {c : Ctx} (h : fetch s pos tc opc r = .go c) (plan : c.free = false) :
    opcLegal (kindOf pos) opc = true := by
  obtain ⟨opcode, -⟩ := fetch_opcode h
  have ctx := fetch_ctx h
  unfold fetch at h
  rw [ctx] at h
  dsimp only at h
  rw [plan, opcode] at h
  cases legal : opcLegal (kindOf pos) opc with
  | true => rfl
  | false => simp [legal] at h

/-- SAMP and DYN run on V-tiles (R232). -/
theorem Issues.onV {s : State} {pos tc opc r : Nat} {c : Ctx} (h : Issues s pos tc opc r c) (opcode : opc = 0x24 ∨ opc = 0x25) :
    c.free = false ∧ kindOf pos = .v := by
  have plan : c.free = false := h.inPlan (by rcases opcode with rfl | rfl <;> decide)
  have legal := fetch_legal h.2.2.1 plan
  refine ⟨plan, ?_⟩
  cases k : kindOf pos with
  | v => rfl
  | _ => rw [k] at legal; rcases opcode with rfl | rfl <;> exact absurd legal (by decide)

/-- A V-tile instruction has issued: its draws are counted, and poison that it meets is flagged (R219). -/
def drawsCounted (c : Ctx) (n : Nat) (poison : Bool) (s : State) : State :=
  let t := countDraws c n (stepOn c 1 s)
  if poison then vtFault c 2 t else t

theorem tileOf_drawsCounted (c : Ctx) (n : Nat) (poison : Bool) (s : State) :
    tileOf (drawsCounted c n poison s) c.pos = tileAfter c 1 (tileOf s c.pos) := by
  unfold drawsCounted
  cases poison <;> exact tileOf_stepOn c 1 s

theorem tileFrame_drawsCounted {c : Ctx} (v : kindOf c.pos = .v) (n : Nat) (poison : Bool) (s : State) : TileFrame c.pos s (drawsCounted c n poison s) := by
  have own : c.pos ≠ 1140 ∧ c.pos ≠ 364 := ⟨fun e => absurd (e ▸ v) (by decide), fun e => absurd (e ▸ v) (by decide)⟩
  have counted : TileFrame c.pos s (countDraws c n (stepOn c 1 s)) :=
    (tileFrame_stepOn c 1 s).trans (tileFrame_winCount64 c.pos 0xF1004 n _ (by decide) (.inr (.inr own)))
  unfold drawsCounted
  cases poison
  · exact counted
  · exact counted.trans (tileFrame_winSet c.pos _ _ _ (regHome_tile c.pos 0xF1000 (by decide) (.inr (.inr own))) (by omega) (by omega))

end Sys2Proof.Machine
end

section
/-! PROOFS. SAMP in its Metropolis and heat-bath forms: its issue, and the spins and flips that land (O18). -/

namespace Sys2Proof.Machine

/-! ## What a SAMP puts under way (R246) -/

/-- What comes later depends on the state through what came before alone, in plan time. -/
theorem agenda_underWay_congr {c : Ctx} (plan : c.free = false) (l : List (Nat × Act)) {s u : State} (h : u.agenda = s.agenda) :
    (underWay c l u).agenda = (underWay c l s).agenda := by
  induction l generalizing s u with
  | nil => exact h
  | cons x l ih =>
    refine ih (s := sched c x.1 x.2 s) (u := sched c x.1 x.2 u) ?_
    simp [sched, schedAt, putItem, plan, h]

/-- The parity check of a tile's ROM words leaves the agenda, memory, every other tile, and of its own all but the launch slots (R201, R397). -/
theorem romCheck_spec (c : Ctx) (lg : Bool) (reads : List Nat) (s : State) :
    let t := romCheck c lg reads s
    t.mem = s.mem ∧ t.agenda = s.agenda ∧ TilesKept c.pos s t ∧ tileOf t c.pos = { tileOf s c.pos with slots := (tileOf t c.pos).slots } := by
  intro t
  unfold t romCheck
  split
  · exact ⟨rfl, rfl, fun _ _ => rfl, rfl⟩
  · rename_i k _
    dsimp only
    generalize detail : leBytes 2 k ++ leBytes 1 ((drawFree (setLatch c.pos c.lslot (vtFault c 0 s))).1.toNat % 16) = d
    have noted := noted_report c.pos 0x0501 c.pos (ofBool lg) c.glove d (drawFree (setLatch c.pos c.lslot (vtFault c 0 s))).2
    generalize report c.pos 0x0501 c.pos (ofBool lg) c.glove d (drawFree (setLatch c.pos c.lslot (vtFault c 0 s))).2 = u at noted
    unfold Noted at noted
    have tiles : u.tiles = (setLatch c.pos c.lslot (vtFault c 0 s)).tiles := by rw [noted]; rfl
    refine ⟨by rw [noted]; rfl, by rw [noted]; rfl, fun q hq => ?_, ?_⟩
    · rw [tiles]
      exact kget_kput_other _ _ (Ne.symm hq)
    · have latched : tileOf u c.pos = tileOf (setLatch c.pos c.lslot (vtFault c 0 s)) c.pos := congrArg (kgetD · c.pos Tile.blank) tiles
      rw [latched, setLatch, tileOf_adjTile_self]
      rfl

/-- A SAMP of which no cause is found puts its registers under way, looks its words up, and counts its draws. -/
theorem samp_runs {s : State} {pos tc kind : Nat} {c : Ctx} {need : Ctx → Tile → List (Bool × Nat)} {reads : Ctx → List Nat}
    {looks : Ctx → Tile → List Nat} {land : State → Ctx → Bool → Tile → List Landing} (h : Issues s pos tc 0x24 (bits 31 0) c)
    (form : c.f 55 3 = kind) (five : kind < 5) (table : c.f 40 4 < 8) (good : ∀ p ∈ need c (tileOf (reached s pos tc) pos), p.1 = false) :
    let r := reached s pos tc
    ∃ poison, samp pos tc kind need reads looks land s = .next (romCheck c (kind == 4) (looks c (tileOf r pos))
      (underWay c ((land r c poison (tileOf r pos)).map fun y => (12, .land y)) (drawsCounted c (lanesOn (c.f 32 8)).length poison r))) := by
  intro r
  obtain ⟨rfl, -, -⟩ := h.spec
  obtain ⟨plan, -⟩ := h.onV (.inl rfl)
  have mine : fld (nextWord s c.pos tc) 55 3 = kind := h.nextWord ▸ form
  have cause : issueCause c ((decide (8 ≤ c.f 40 4), excOperand) :: need c (tileOf r c.pos)) = none :=
    issueCause_none (List.forall_mem_cons.2 ⟨decide_eq_false (Nat.not_le.2 table), good⟩)
  unfold samp
  dsimp only
  rw [mine, if_neg (fun other => other.1 rfl), runInstr_inPlan h plan, if_neg (Nat.not_le.2 five)]
  refine ⟨(reads c).any (vxPoison (tileOf r c.pos)) || pmBad (tileOf r c.pos) (8 + c.f 44 3) ||
    (kind != 0 && kind != 2 && pmBad (tileOf r c.pos) (c.f 40 4)), congrArg Host.Outcome.next ((goes_on (early c · r) _ _ cause).trans ?_)⟩
  rw [landIn_eq]
  rfl

/-! ## The spins and the flips (R162, R246) -/

section Accept

variable (step : Nat → Nat → Int → Int → Nat → Int) (c : Ctx) (T : Tile)

/-- What a lane's spin becomes, from its own draw (R162). -/
def acceptedSpin (l : Nat) : Nat :=
  let p := pmGet T (c.f 40 4)
  unsigned 32 (step (fld p 0 16) (fld p 16 6) (sl (vxGet T (c.f 51 4)) l) (laneE c T l) (((drawOf T (c.f 44 3)).at (seedOf T c) l).headD 0))

/-- The register as it lands, lane by lane. -/
def acceptedLane (l : Nat) : Nat := if laneOn (c.f 32 8) l then acceptedSpin step c T l else (vxGet T (c.f 51 4)).getD l 0

theorem acceptedSpin_lt (l : Nat) : acceptedSpin step c T l < 2 ^ 32 := by
  unfold acceptedSpin unsigned
  dsimp only
  omega

/-- What lands: the enabled lanes, then the flips among them. -/
theorem acceptLand_eq (poison : Bool) :
    acceptLand step c poison T =
      [.lanes (c.f 51 4) ((lanesOn (c.f 32 8)).map fun l => (l, w32 (((List.range 256).map (acceptedLane step c T)).getD l 0)))
          (if poison || vxPoison T (c.f 51 4) then some true else if c.f 32 8 = 255 then some false else none),
        flLanes ((lanesOn (c.f 32 8)).filter fun l =>
          ((List.range 256).map (acceptedLane step c T)).getD l 0 != (vxGet T (c.f 51 4)).getD l 0)] := rfl

/-- Each enabled lane takes its spin, and FL the flips; every other lane and bit is as before. -/
theorem acceptLand_lands (poison : Bool) {i : Nat} (hi : i < 256) :
    let v := (acceptLand step c poison T).foldl (fun y z => landOn z y) T
    (vxGet v (c.f 51 4)).getD i 0 = acceptedLane step c T i ∧
      bitOf v.fl i = (bitOf T.fl i || (laneOn (c.f 32 8) i && (vxGet v (c.f 51 4)).getD i 0 != (vxGet T (c.f 51 4)).getD i 0)) := by
  intro v
  have lane : (vxGet v (c.f 51 4)).getD i 0 = acceptedLane step c T i := by
    unfold v
    rw [acceptLand_eq]
    refine (vxGet_vxTake (fun _ x => x) _ (nodup_lanesOn _) (fun k hk => (mem_lanesOn.1 hk).1) _ _ _ i).trans ?_
    simp only [mem_lanesOn, hi, true_and, getD_map_range hi]
    unfold acceptedLane
    by_cases on : laneOn (c.f 32 8) i = true
    · rw [if_pos on, if_pos on, w32, Nat.mod_eq_of_lt (acceptedSpin_lt step c T i)]
    · rw [if_neg on, if_neg on]
  refine ⟨lane, ?_⟩
  rw [lane]
  unfold v
  rw [acceptLand_eq]
  refine (bitOf_landOn_flLanes _ _ i).trans ?_
  rw [fl_landOn_lanes]
  simp only [List.mem_filter, mem_lanesOn, hi, true_and, getD_map_range hi]
  rw [Bool.decide_and, Bool.decide_eq_true, Bool.decide_eq_true]

end Accept

/-! ## The obligation -/

/-- A SAMP that looks words up has issued as its landings say. -/
theorem acceptance_issued {s : State} {pos tc kind : Nat} {c : Ctx} {heat : Bool} {step : State → Nat → Nat → Int → Int → Nat → Int}
    (h : Issues s pos tc 0x24 (bits 31 0) c) (table : c.f 40 4 < 8) (pair : c.f 47 4 ≠ 15) (form : c.f 55 3 = kind) (five : kind < 5) :
    let r := reached s pos tc
    let T := tileOf r pos
    ∃ (t : State) (poison : Bool), samp pos tc kind (fun c _ => [(c.f 47 4 == 15, excOperand)]) (fun c => [c.f 51 4, c.f 47 4, c.f 47 4 + 1])
        (acceptReads heat) (fun t => acceptLand (step t)) s = .next t ∧ t.mem = r.mem ∧ TilesKept pos r t ∧
      t.agenda = (issued c ((acceptLand (step r) c poison T).map fun y => (12, .land y)) r).agenda ∧
      tileOf t pos = { tileAfter c 1 T with slots := (tileOf t pos).slots } := by
  intro r T
  obtain ⟨here, -, -⟩ := h.spec
  obtain ⟨plan, v⟩ := h.onV (.inl rfl)
  obtain ⟨poison, run⟩ := samp_runs (need := fun c _ => [(c.f 47 4 == 15, excOperand)]) (reads := fun c => [c.f 51 4, c.f 47 4, c.f 47 4 + 1])
    (looks := acceptReads heat) (land := fun t => acceptLand (step t)) h form five table
    (by simpa using pair)
  subst here
  have frame := tileFrame_drawsCounted v (lanesOn (c.f 32 8)).length poison r
  have tile := tileOf_drawsCounted c (lanesOn (c.f 32 8)).length poison r
  generalize drawsCounted c (lanesOn (c.f 32 8)).length poison r = u at run frame tile
  obtain ⟨frame, others, -, -⟩ := frame
  have before : u.agenda = r.agenda := by rw [frame]
  obtain ⟨mem, later, kept, own⟩ := romCheck_spec c (kind == 4) (acceptReads heat c T)
    (underWay c ((acceptLand (step r) c poison T).map fun y => (12, .land y)) u)
  refine ⟨_, poison, run, mem.trans ?_, fun q hq => (kept q hq).trans ?_, later.trans ?_, own.trans ?_⟩
  · rw [underWay_eq, frame]
  · rw [underWay_eq]
    exact others q hq
  · rw [agenda_underWay_congr plan _ before, issued, if_neg (by rw [plan]; decide)]
  · rw [tileOf_underWay, tile]

/-- Settles O18: SAMP in either form by its issue, and the lanes and flips that land by the acceptance of each lane. -/
theorem acceptanceUpdatesSpins : Obligations.AcceptanceUpdatesSpins := by
  unfold Obligations.AcceptanceUpdatesSpins
  intro s pos tc c heat h table pair form
  cases heat with
  | true =>
    obtain ⟨t, poison, run, mem, kept, agenda, own⟩ := acceptance_issued (heat := true)
      (step := fun t beta es _ e u => heatBathBy (tileLogistic t pos) beta es e u) h table pair form (by decide)
    exact ⟨t, _, run, mem, kept, agenda, own, fun i hi => (acceptLand_lands _ c _ poison hi).1, fun i hi => (acceptLand_lands _ c _ poison hi).2⟩
  | false =>
    obtain ⟨t, poison, run, mem, kept, agenda, own⟩ := acceptance_issued (heat := false)
      (step := fun t => metropolisBy (tileExp t pos)) h table pair form (by decide)
    exact ⟨t, _, run, mem, kept, agenda, own, fun i hi => (acceptLand_lands _ c _ poison hi).1, fun i hi => (acceptLand_lands _ c _ poison hi).2⟩

end Sys2Proof.Machine
end

section
/-! PROOFS. Groups of lanes and the pairs of a group: no lane moves with two others (R177, R247). -/

namespace Sys2Proof.Machine

/-! ## Pairs of a group (R177) -/

/-- Two pairs share no member. -/
def Apart (p q : Nat × Nat) : Prop := p.1 ≠ q.1 ∧ p.1 ≠ q.2 ∧ p.2 ≠ q.1 ∧ p.2 ≠ q.2

theorem mod_of_lt_twice {x m : Nat} (h : x < 2 * m) : x % m = if x < m then x else x - m := by
  split
  · exact Nat.mod_eq_of_lt ‹_›
  · rw [Nat.mod_eq_sub_mod (by omega), Nat.mod_eq_of_lt (by omega)]

/-- The pairs of a round robin of 2 k + 2 members, the last one among them the phantom of an odd group. -/
def robinPairs (k rho : Nat) : List (Nat × Nat) :=
  (2 * k + 1, rho) :: (span 1 k).map fun i => ((rho + i) % (2 * k + 1), (rho + (2 * k + 1) - i) % (2 * k + 1))

/-- Two members of a round robin, i places after rho and as many before it. -/
theorem robin_place {k rho i : Nat} (hr : rho < 2 * k + 1) (hi : 1 ≤ i ∧ i < 1 + k) :
    (rho + i) % (2 * k + 1) = (if rho + i < 2 * k + 1 then rho + i else rho + i - (2 * k + 1)) ∧
      (rho + (2 * k + 1) - i) % (2 * k + 1) = if rho < i then rho + (2 * k + 1) - i else rho - i := by
  refine ⟨mod_of_lt_twice (by omega), (mod_of_lt_twice (by omega)).trans ?_⟩
  split <;> split <;> omega

theorem mem_span {a n i : Nat} : i ∈ span a n ↔ a ≤ i ∧ i < a + n := by
  simp only [span, List.mem_map, List.mem_range]
  exact ⟨fun ⟨j, hj, e⟩ => by omega, fun h => ⟨i - a, by omega, by omega⟩⟩

/-- Every member meets one other. -/
theorem robinPairs_apart {k rho : Nat} (hr : rho < 2 * k + 1) : (robinPairs k rho).Pairwise Apart := by
  refine List.pairwise_cons.2 ⟨fun q hq => ?_, List.pairwise_map.2 ?_⟩
  · obtain ⟨i, hi, rfl⟩ := List.mem_map.1 hq
    obtain ⟨after, before⟩ := robin_place hr (mem_span.1 hi)
    have range := mem_span.1 hi
    unfold Apart
    rw [after, before]
    split <;> split <;> omega
  · refine List.Pairwise.imp_of_mem (R := fun i j => i < j) (fun {i j} hi hj lt => ?_) (List.pairwise_map.2 ?_)
    · obtain ⟨after, before⟩ := robin_place hr (mem_span.1 hi)
      obtain ⟨after', before'⟩ := robin_place hr (mem_span.1 hj)
      have range := mem_span.1 hi
      have range' := mem_span.1 hj
      unfold Apart
      rw [after, before, after', before']
      split <;> split <;> split <;> split <;> omega
    · exact List.pairwise_lt_range.imp fun h => Nat.add_lt_add_left h 1

/-- The members of a pair are two. -/
theorem robinPairs_members {k rho : Nat} (hr : rho < 2 * k + 1) {p : Nat × Nat} (hp : p ∈ robinPairs k rho) :
    p.1 ≠ p.2 ∧ p.1 < 2 * k + 2 ∧ p.2 < 2 * k + 2 := by
  rcases List.mem_cons.1 hp with rfl | hp
  · dsimp only
    omega
  · obtain ⟨i, hi, rfl⟩ := List.mem_map.1 hp
    obtain ⟨after, before⟩ := robin_place hr (mem_span.1 hi)
    have range := mem_span.1 hi
    rw [after, before]
    split <;> split <;> omega

theorem groupPairs_eq {n : Nat} (two : 2 ≤ n) (step : Nat) :
    ∃ k rho, n + n % 2 = 2 * k + 2 ∧ rho < 2 * k + 1 ∧
      groupPairs n step = ((robinPairs k rho).filter fun p => p.1 != n && p.2 != n).map fun p => (min p.1 p.2, max p.1 p.2) := by
  obtain ⟨k, hk⟩ : ∃ k, n + n % 2 = 2 * k + 2 := ⟨(n + n % 2) / 2 - 1, by omega⟩
  refine ⟨k, step % (2 * k + 1), hk, Nat.mod_lt _ (Nat.succ_pos _), ?_⟩
  have pred : n + n % 2 - 1 = 2 * k + 1 := by omega
  have half : (n + n % 2) / 2 - 1 = k := by omega
  unfold groupPairs
  dsimp only
  rw [pred, half]
  have back (rho i : Nat) : rho + (n + n % 2) - 1 - i = rho + (2 * k + 1) - i := by omega
  simp only [back]
  rfl

/-- No member of a group is in two of its pairs, and each pair has two members of the group. -/
theorem groupPairs_apart {n : Nat} (two : 2 ≤ n) (step : Nat) : (groupPairs n step).Pairwise Apart := by
  obtain ⟨k, rho, -, hr, eq⟩ := groupPairs_eq two step
  rw [eq]
  refine List.pairwise_map.2 (((robinPairs_apart hr).filter _).imp fun {p q} apart => ?_)
  unfold Apart at *
  omega

theorem groupPairs_members {n : Nat} (two : 2 ≤ n) {step : Nat} {p : Nat × Nat} (hp : p ∈ groupPairs n step) :
    p.1 ≠ p.2 ∧ p.1 < n ∧ p.2 < n := by
  obtain ⟨k, rho, even, hr, eq⟩ := groupPairs_eq two step
  rw [eq] at hp
  obtain ⟨q, hq, rfl⟩ := List.mem_map.1 hp
  obtain ⟨hq, real⟩ := List.mem_filter.1 hq
  have members := robinPairs_members hr hq
  simp only [Bool.and_eq_true, bne_iff_ne, ne_eq] at real
  dsimp only
  omega

/-! ## Groups of lanes (R247) -/

/-- The lanes at which groups start. -/
def groupStarts (gm : Nat) : List Nat := (List.range 256).filter (bitOf gm)

theorem groupStarts_rise (gm : Nat) : (groupStarts gm).Pairwise (· < ·) := List.pairwise_lt_range.filter _

theorem laneGroups_eq (gm : Nat) : laneGroups gm = (List.range (groupStarts gm).length).map fun i =>
    ((groupStarts gm).getD i 0, (groupStarts gm).getD (i + 1) 256 - (groupStarts gm).getD i 0) := rfl

/-- A group ends where the next one starts, and the last one at lane 256. -/
theorem groupStarts_step {gm i : Nat} (hi : i < (groupStarts gm).length) :
    (groupStarts gm).getD i 0 < (groupStarts gm).getD (i + 1) 256 ∧ (groupStarts gm).getD (i + 1) 256 ≤ 256 ∧
      ∀ j, i < j → j < (groupStarts gm).length → (groupStarts gm).getD (i + 1) 256 ≤ (groupStarts gm).getD j 0 := by
  have rise {a b : Nat} (hb : b < (groupStarts gm).length) (lt : a < b) : (groupStarts gm)[a] < (groupStarts gm)[b] :=
    List.pairwise_iff_getElem.1 (groupStarts_rise gm) a b (by omega) hb lt
  have below {a : Nat} (ha : a < (groupStarts gm).length) : (groupStarts gm)[a] < 256 :=
    List.mem_range.1 (List.mem_filter.1 (List.getElem_mem ha)).1
  rw [List.getD_eq_getElem _ _ hi]
  by_cases last : i + 1 < (groupStarts gm).length
  · rw [List.getD_eq_getElem _ _ last]
    refine ⟨rise last (Nat.lt_succ_self i), (below last).le, fun j lt hj => ?_⟩
    rw [List.getD_eq_getElem _ _ hj]
    rcases Nat.lt_or_eq_of_le lt with lt | rfl
    · exact (rise hj lt).le
    · exact Nat.le_refl _
  · rw [List.getD_eq_default _ _ (Nat.not_lt.1 last)]
    exact ⟨below hi, Nat.le_refl _, fun j lt hj => by omega⟩

/-- Groups stand one after the other. -/
theorem laneGroups_apart (gm : Nat) : (laneGroups gm).Pairwise fun g h => g.1 + g.2 ≤ h.1 := by
  rw [laneGroups_eq]
  refine List.pairwise_map.2 (List.Pairwise.imp_of_mem (R := fun i j => i < j) (fun {i j} hi hj lt => ?_) List.pairwise_lt_range)
  obtain ⟨grows, -, before⟩ := groupStarts_step (List.mem_range.1 hi)
  have := before j lt (List.mem_range.1 hj)
  dsimp only
  omega

theorem laneGroups_within {gm : Nat} {g : Nat × Nat} (hg : g ∈ laneGroups gm) : g.1 + g.2 ≤ 256 := by
  rw [laneGroups_eq] at hg
  obtain ⟨i, hi, rfl⟩ := List.mem_map.1 hg
  obtain ⟨grows, within, -⟩ := groupStarts_step (List.mem_range.1 hi)
  dsimp only
  omega

theorem two_lanes {T : Tile} (h : shortGroup T = false) {g : Nat × Nat} (hg : g ∈ laneGroups T.v.gm) : 2 ≤ g.2 := by
  have long : 1 < g.2 := by simpa using List.any_eq_false.1 h g hg
  exact long

end Sys2Proof.Machine
end

section
/-! PROOFS. DYN: its issue, the step of each lane, the transfers between pairs, and the rounding of groups (O19). -/

namespace Sys2Proof.Machine

/-! ## Issue (R247) -/

/-- A DYN of which no cause is found puts its registers under way. -/
theorem dyn_runs {s : State} {pos tc mode : Nat} {c : Ctx} {need : Tile → List (Bool × Nat)} {land : Ctx → Bool → Tile → List Landing}
    (h : Issues s pos tc 0x25 (bits 28 0) c) (form : c.f 56 2 = mode) (three : mode < 3) (table : c.f 37 4 < 8)
    (good : ∀ p ∈ need (tileOf (reached s pos tc) pos), p.1 = false) :
    let r := reached s pos tc
    let T := tileOf r pos
    ∃ (t u : State) (poison : Bool), dyn pos tc mode need land s = .next t ∧
      t = issued c ((land c poison T).map fun y => (14, .land y)) u ∧ tileOf u pos = tileAfter c 1 T ∧ TileFrame pos r u := by
  intro r T
  obtain ⟨rfl, -, -⟩ := h.spec
  obtain ⟨plan, v⟩ := h.onV (.inr rfl)
  have mine : fld (nextWord s c.pos tc) 56 2 = mode := h.nextWord ▸ form
  have cause : issueCause c ((decide (8 ≤ c.f 37 4), excOperand) :: need T) = none :=
    issueCause_none (List.forall_mem_cons.2 ⟨decide_eq_false (Nat.not_le.2 table), good⟩)
  let poison := vxPoison T (c.f 52 4) || (mode == 2 && vxPoison T (c.f 44 4)) ||
    (mode != 2 && (vxPoison T (c.f 48 4) || pmBad T (c.f 37 4) || pmBad T (8 + c.f 41 3)))
  let draws := if mode = 0 then (lanesOn (c.f 29 8)).length else 0
  refine ⟨_, drawsCounted c draws poison r, poison, ?_, rfl, tileOf_drawsCounted c draws poison r, tileFrame_drawsCounted v draws poison r⟩
  unfold dyn
  dsimp only
  rw [mine, if_neg (fun other => other.1 rfl)]
  refine runInstr_issued h ((if_neg (Nat.ne_of_lt three)).trans ((goes_on (early c · r) _ _ cause).trans ?_))
  rw [landIn_eq]
  rfl

/-! ## What lands in the lanes -/

theorem ev_landOn_flLanes (ls : List Nat) (T : Tile) : (landOn (flLanes ls) T).v.ev = T.v.ev := rfl

/-- The first two counts of EV gain, where it has them. -/
theorem ev_landOn_two {T : Tile} {E : List Nat} (held : T.v.ev = E) (a b : Nat) :
    let v := landOn (.ev 1 b) (landOn (.ev 0 a) T)
    (0 < E.length → v.v.ev.getD 0 0 = (E.getD 0 0 + a) % 2 ^ 64) ∧ (1 < E.length → v.v.ev.getD 1 0 = (E.getD 1 0 + b) % 2 ^ 64) := by
  subst held
  intro v
  have events : v.v.ev = (T.v.ev.set 0 ((T.v.ev.getD 0 0 + a) % 2 ^ 64)).set 1
      (((T.v.ev.set 0 ((T.v.ev.getD 0 0 + a) % 2 ^ 64)).getD 1 0 + b) % 2 ^ 64) := rfl
  rw [events]
  refine ⟨fun some_ => ?_, fun some_ => ?_⟩
  · rw [List.getD_eq_getElem?_getD, List.getElem?_set_ne (by decide), List.getElem?_set_self some_]
    rfl
  · have other : (T.v.ev.set 0 ((T.v.ev.getD 0 0 + a) % 2 ^ 64)).getD 1 0 = T.v.ev.getD 1 0 := by
      rw [List.getD_eq_getElem?_getD, List.getElem?_set_ne (by decide), ← List.getD_eq_getElem?_getD]
    rw [other, List.getD_eq_getElem?_getD, List.getElem?_set_self (by rw [List.length_set]; exact some_)]
    rfl

/-- The lower half of a lane reads what was put into it. -/
theorem fld_half {x : Nat} (h : x < 2 ^ 16) (old : Nat) : fld (x + old / 2 ^ 16 * 2 ^ 16) 0 16 = x := by
  rw [fld, Nat.shiftRight_zero, Nat.add_mul_mod_self_right, Nat.mod_eq_of_lt h]

theorem unsigned16_lt (x : Int) : unsigned 16 x < 2 ^ 16 := by
  unfold unsigned
  omega

theorem activation_lt (x : Int) : activation x < 2 ^ 16 := Nat.xor_lt_two_pow (unsigned16_lt x) (by norm_num)

/-- The lower halves of lanes that a register takes. -/
theorem fld_vxGet_halves (g : Nat → Nat) (small : ∀ k, g k < 2 ^ 16) {ks : List Nat} (once : ks.Nodup) (within : ∀ k ∈ ks, k < 256) (d : Nat)
    (mark : Option Bool) (T : Tile) {i : Nat} (hi : i ∈ ks) :
    fld ((vxGet (landOn (.halves d (ks.map fun k => (k, g k)) mark) T) d).getD i 0) 0 16 = g i := by
  have taken := vxGet_vxTake (fun old x => x + old / 2 ^ 16 * 2 ^ 16) g once within d mark T i
  rw [if_pos hi] at taken
  exact (congrArg (fld · 0 16) taken).trans (fld_half (small i) _)

/-- Lanes of a mask are counted as lanes that the mask enables. -/
theorem countP_lanesOn (mask : Nat) (f : Nat → Bool) : (lanesOn mask).countP f = (List.range 256).countP fun i => laneOn mask i && f i := by
  rw [lanesOn, List.countP_filter]
  exact List.countP_congr fun i _ => by rw [Bool.and_comm]

/-! ## A step (R154 to R156) -/

section Step

variable (c : Ctx) (T : Tile)

/-- What a step makes of a lane, from its own noise. -/
def laneStep (i : Nat) : StepOut :=
  let p := pmGet T (c.f 37 4)
  let w := (vxGet T (c.f 52 4)).getD i 0
  contStep (fld p 0 16) (fld p 16 16) (fld p 32 16) (fld p 48 16) (fld p 64 16) (recX w) (recY w) (sl (vxGet T (c.f 48 4)) i)
    (noiseOf ((drawOf T (c.f 41 3)).at (seedOf T c) i))

/-- What lands: records, activations, changes of sign, then the walls and the clips. -/
theorem stepLand_eq (poison : Bool) :
    let on := lanesOn (c.f 29 8)
    stepLand c poison T =
      [.lanes (c.f 52 4) (on.map fun i => (i, recOf (laneStep c T i).x (laneStep c T i).y))
          (if poison then some true else if c.f 29 8 = 255 then some false else none),
        .halves (c.f 44 4) (on.map fun i => (i, activation (laneStep c T i).x)) (partMark poison),
        flLanes (on.filter fun i => (laneStep c T i).chg), 
        .ev 0 ((List.range 256).countP fun i => laneOn (c.f 29 8) i && (laneStep c T i).wall),
        .ev 1 ((List.range 256).countP fun i => laneOn (c.f 29 8) i && (laneStep c T i).ysat)] := by
  intro on
  rw [← countP_lanesOn, ← countP_lanesOn]
  unfold stepLand
  dsimp only
  simp only [List.map_map, List.countP_map, List.filter_map]
  simp only [Function.comp_def, List.map_id']
  rfl

theorem stepLand_lands (poison : Bool) (apart : c.f 52 4 ≠ c.f 44 4) :
    let v := (stepLand c poison T).foldl (fun y z => landOn z y) T
    let on := laneOn (c.f 29 8)
    (∀ i, i < 256 → on i = true →
      (vxGet v (c.f 52 4)).getD i 0 = recOf (laneStep c T i).x (laneStep c T i).y ∧
      fld ((vxGet v (c.f 44 4)).getD i 0) 0 16 = activation (laneStep c T i).x ∧
      bitOf v.fl i = (bitOf T.fl i || (laneStep c T i).chg)) ∧
    (0 < T.v.ev.length → v.v.ev.getD 0 0 = (T.v.ev.getD 0 0 + (List.range 256).countP fun i => on i && (laneStep c T i).wall) % 2 ^ 64) ∧
    (1 < T.v.ev.length → v.v.ev.getD 1 0 = (T.v.ev.getD 1 0 + (List.range 256).countP fun i => on i && (laneStep c T i).ysat) % 2 ^ 64) := by
  have once := nodup_lanesOn (c.f 29 8)
  have within : ∀ k ∈ lanesOn (c.f 29 8), k < 256 := fun k hk => (mem_lanesOn.1 hk).1
  rw [stepLand_eq]
  intro v on
  refine ⟨fun i hi oni => ⟨?_, ?_, ?_⟩, ?_⟩
  · have mine : i ∈ lanesOn (c.f 29 8) := mem_lanesOn.2 ⟨hi, oni⟩
    have taken := vxGet_vxTake (fun _ x => x) (fun i => recOf (laneStep c T i).x (laneStep c T i).y) once within (c.f 52 4)
      (if poison then some true else if c.f 29 8 = 255 then some false else none) T i
    rw [if_pos mine] at taken
    exact (congrArg (·.getD i 0) (vxGet_vxTake_other (Ne.symm apart) _ _ _ _)).trans taken
  · exact fld_vxGet_halves (fun i => activation (laneStep c T i).x) (fun i => activation_lt _) once within _ _ _ (mem_lanesOn.2 ⟨hi, oni⟩)
  · refine (bitOf_landOn_flLanes _ _ i).trans ?_
    rw [fl_landOn_halves, fl_landOn_lanes]
    have mine : laneOn (c.f 29 8) i = true := oni
    simp only [List.mem_filter, mem_lanesOn, hi, mine, true_and, Bool.decide_eq_true]
  · exact ev_landOn_two ((ev_landOn_flLanes _ _).trans ((ev_landOn_halves _ _ _ _).trans (ev_landOn_lanes _ _ _ _))) _ _

end Step

/-! ## Transfers (R177, R178) -/

/-- A transfer between two lanes: what the first gains, and how often it was clamped. -/
abbrev Move := Nat × Nat × Int × Nat

/-- What a lane gains by transfers. -/
def laneGain (moves : List Move) (l : Nat) : Int :=
  moves.foldl (fun g m => if m.1 = l then g + m.2.2.1 else if m.2.1 = l then g - m.2.2.1 else g) 0

/-- Transfers that pass a lane by leave what it has gained. -/
theorem foldl_gain_other {moves : List Move} {l : Nat} (h : ∀ m ∈ moves, m.1 ≠ l ∧ m.2.1 ≠ l) (g : Int) :
    moves.foldl (fun g m => if m.1 = l then g + m.2.2.1 else if m.2.1 = l then g - m.2.2.1 else g) g = g := by
  induction moves generalizing g with
  | nil => rfl
  | cons m moves ih =>
    obtain ⟨first, second⟩ := h m List.mem_cons_self
    rw [List.foldl_cons, if_neg first, if_neg second]
    exact ih (fun k hk => h k (List.mem_cons_of_mem _ hk)) g

/-- Where no lane is in two transfers, each of two lanes gains by its own transfer alone. -/
theorem laneGain_apart {moves : List Move} (apart : moves.Pairwise fun m k => Apart (m.1, m.2.1) (k.1, k.2.1)) {m : Move} (hm : m ∈ moves)
    (two : m.1 ≠ m.2.1) : laneGain moves m.1 = m.2.2.1 ∧ laneGain moves m.2.1 = -m.2.2.1 := by
  obtain ⟨before, after, rfl⟩ := List.append_of_mem hm
  obtain ⟨-, rest, earlier⟩ := List.pairwise_append.1 apart
  have later := (List.pairwise_cons.1 rest).1
  have earlier : ∀ k ∈ before, Apart (k.1, k.2.1) (m.1, m.2.1) := fun k hk => earlier k hk m List.mem_cons_self
  unfold Apart at later earlier
  unfold laneGain
  simp only [List.foldl_append, List.foldl_cons]
  rw [foldl_gain_other fun k hk => ⟨(earlier k hk).1, (earlier k hk).2.2.1⟩,
    foldl_gain_other fun k hk => ⟨(earlier k hk).2.1, (earlier k hk).2.2.2⟩,
    foldl_gain_other fun k hk => ⟨(later k hk).1.symm, (later k hk).2.1.symm⟩,
    foldl_gain_other fun k hk => ⟨(later k hk).2.2.1.symm, (later k hk).2.2.2.symm⟩]
  simp [two]

section Transfer

variable (c : Ctx) (T : Tile)

/-- The transfer between two lanes of a group (R178). -/
def laneMove (a b : Nat) : Move :=
  let p := pmGet T (c.f 37 4)
  let x (l : Nat) : Int := recX ((vxGet T (c.f 52 4)).getD l 0)
  (a, b, pairDelta (fld p 0 16) (fld p 32 16) (x a) (x b) (sl (vxGet T (c.f 48 4)) a) (sl (vxGet T (c.f 48 4)) b))

/-- The transfers of all groups. -/
def laneMoves : List Move := (laneGroups T.v.gm).flatMap fun g =>
  (groupPairs g.2 (drawOf T (c.f 41 3)).step).map fun p => laneMove c T (g.1 + p.1) (g.1 + p.2)

theorem transferLand_eq (poison : Bool) : ∃ (mark : Option Bool) (clamps : Nat),
    transferLand c poison T =
      [.halves (c.f 52 4) ((lanesOn (c.f 29 8)).map fun l =>
          (l, unsigned 16 (recX ((vxGet T (c.f 52 4)).getD l 0) + laneGain (laneMoves c T) l))) mark, .ev 2 clamps] := ⟨_, _, rfl⟩

theorem laneMoves_apart (long : shortGroup T = false) : (laneMoves c T).Pairwise fun m k => Apart (m.1, m.2.1) (k.1, k.2.1) := by
  refine List.pairwise_flatMap.2 ⟨fun g hg => List.pairwise_map.2 ((groupPairs_apart (two_lanes long hg) _).imp fun {p q} apart => ?_),
    List.Pairwise.imp_of_mem (fun {g h} hg hh next m hm k hk => ?_) (laneGroups_apart T.v.gm)⟩
  · unfold Apart laneMove at *
    dsimp only
    omega
  · obtain ⟨p, hp, rfl⟩ := List.mem_map.1 hm
    obtain ⟨q, hq, rfl⟩ := List.mem_map.1 hk
    have inG := groupPairs_members (two_lanes long hg) hp
    have inH := groupPairs_members (two_lanes long hh) hq
    unfold Apart laneMove
    dsimp only
    omega

/-- The two enabled lanes of a pair hold their values plus and minus the pair's transfer. -/
theorem transferLand_lands (poison : Bool) (long : shortGroup T = false) {g q : Nat × Nat} (hg : g ∈ laneGroups T.v.gm)
    (hq : q ∈ groupPairs g.2 (drawOf T (c.f 41 3)).step) (on1 : laneOn (c.f 29 8) (g.1 + q.1) = true)
    (on2 : laneOn (c.f 29 8) (g.1 + q.2) = true) :
    let v := (transferLand c poison T).foldl (fun y z => landOn z y) T
    let x (l : Nat) : Int := recX ((vxGet T (c.f 52 4)).getD l 0)
    let m := (laneMove c T (g.1 + q.1) (g.1 + q.2)).2.2.1
    fld ((vxGet v (c.f 52 4)).getD (g.1 + q.1) 0) 0 16 = unsigned 16 (x (g.1 + q.1) + m) ∧
      fld ((vxGet v (c.f 52 4)).getD (g.1 + q.2) 0) 0 16 = unsigned 16 (x (g.1 + q.2) - m) := by
  intro v x m
  obtain ⟨mark, clamps, land⟩ := transferLand_eq c T poison
  obtain ⟨two, first, second⟩ := groupPairs_members (two_lanes long hg) hq
  have within := laneGroups_within hg
  have listed : laneMove c T (g.1 + q.1) (g.1 + q.2) ∈ laneMoves c T := List.mem_flatMap.2 ⟨g, hg, List.mem_map_of_mem hq⟩
  obtain ⟨plus, minus⟩ := laneGain_apart (laneMoves_apart c T long) listed (fun e => two (Nat.add_left_cancel e))
  have half {l : Nat} (hl : l < 256) (on : laneOn (c.f 29 8) l = true) :
      fld ((vxGet v (c.f 52 4)).getD l 0) 0 16 = unsigned 16 (x l + laneGain (laneMoves c T) l) := by
    unfold v
    rw [land]
    exact fld_vxGet_halves _ (fun k => unsigned16_lt _) (nodup_lanesOn _) (fun k hk => (mem_lanesOn.1 hk).1) _ _ _ (mem_lanesOn.2 ⟨hl, on⟩)
  exact ⟨(half (by omega) on1).trans (congrArg (fun d => unsigned 16 (x (g.1 + q.1) + d)) plus),
    (half (by omega) on2).trans (congrArg (fun d => unsigned 16 (x (g.1 + q.2) + d)) minus)⟩

/-! ## Rounding of groups (R181) -/

/-- Whether a lane is in a group. -/
def grouped (l : Nat) : Bool := (laneGroups T.v.gm).any fun g => decide (g.1 ≤ l) && decide (l < g.1 + g.2)

theorem roundLand_eq (poison : Bool) : ∃ (flips : List Nat) (ties : Nat),
    roundLand c poison T =
      [.halves (c.f 44 4) (((lanesOn (c.f 29 8)).filter (grouped T)).map fun l =>
          (l, activation (2 * recX ((vxGet T (c.f 52 4)).getD l 0) - 16384))) (partMark poison), flLanes flips, .ev 3 ties] := ⟨_, _, rfl⟩

/-- Each enabled lane of a group holds the activation of twice its stand-in less one. -/
theorem roundLand_lands (poison : Bool) {g : Nat × Nat} (hg : g ∈ laneGroups T.v.gm) {i : Nat} (hi : i < g.2)
    (on : laneOn (c.f 29 8) (g.1 + i) = true) :
    let v := (roundLand c poison T).foldl (fun y z => landOn z y) T
    fld ((vxGet v (c.f 44 4)).getD (g.1 + i) 0) 0 16 = activation (2 * recX ((vxGet T (c.f 52 4)).getD (g.1 + i) 0) - 16384) := by
  obtain ⟨flips, ties, land⟩ := roundLand_eq c T poison
  have within := laneGroups_within hg
  have member : grouped T (g.1 + i) = true := List.any_eq_true.2 ⟨g, hg, by simp [hi]⟩
  rw [land]
  exact fld_vxGet_halves (fun l => activation (2 * recX ((vxGet T (c.f 52 4)).getD l 0) - 16384)) (fun k => activation_lt _)
    ((nodup_lanesOn _).filter _) (fun k hk => (mem_lanesOn.1 (List.mem_filter.1 hk).1).1) _ _ _
    (List.mem_filter.2 ⟨mem_lanesOn.2 ⟨by omega, on⟩, member⟩)

end Transfer

/-! ## The obligation -/

/-- Settles O19: each mode by its issue, then by what lands in the lanes; no lane is in two pairs of a transfer. -/
theorem dynamicsStepLanes : Obligations.DynamicsStepLanes := by
  unfold Obligations.DynamicsStepLanes
  intro s pos tc c h table
  refine ⟨fun form apart => ?_, fun form long => ?_, fun form long => ?_⟩
  · obtain ⟨t, u, poison, run, way, tile, frame⟩ := dyn_runs (need := fun _ => []) (land := stepLand) h form (by decide) table
      (List.forall_mem_nil _)
    exact ⟨t, u, _, run, way, tile, frame, stepLand_lands c _ poison apart⟩
  · obtain ⟨t, u, poison, run, way, tile, frame⟩ := dyn_runs (need := fun u => [(shortGroup u, excOperand)]) (land := transferLand) h form
      (by decide) table (by simpa using long)
    exact ⟨t, u, _, run, way, tile, frame, fun g hg q hq on1 on2 => transferLand_lands c _ poison long hg hq on1 on2⟩
  · obtain ⟨t, u, poison, run, way, tile, frame⟩ := dyn_runs (need := fun u => [(shortGroup u, excOperand)]) (land := roundLand) h form
      (by decide) table (by simpa using long)
    exact ⟨t, u, _, run, way, tile, frame, fun g hg i hi on => roundLand_lands c _ poison hg hi on⟩

end Sys2Proof.Machine
end

section
/-! PROOFS. SAMPLE_POINT in a state whose marks are out of order (O39). -/

namespace Sys2Proof.Machine

/-- A launch of glove 1 that runs, with one problem and one region, its image: 512 bytes at address 0. -/
def sampledLaunch : Launch :=
  { newLaunch State.reset 7 ⟨1, [], false, .started, false, 0, false, 0, none, 0, false, 0, none⟩
      (leBytes 144 (1 + 2 ^ 16 + 512 * 2 ^ (8 * 72))) ⟨1000, 0, false, none, none, true⟩ [] with
    phase := .running }

/-- The bytes of that image (R151, R208, R520): eight spins in MODE 2, four steps with a checkpoint every two, and a sampling block at 256
that counts every variable after every step. -/
def sampledImage : Memory :=
  [(8, 1), (16, 64), (64, 1), (72, 96), (96, 8), (104, 2), (106, 1), (120, 4), (124, 2), (148, 1), (217, 1), (260, 1), (280, 1)]

/-- Its sampling block (R208). -/
def sampledBlk : SampBlk := ⟨0, 1, 0, 0, 1, 0, 0, (0, 0, 0), (0, 0, 0)⟩

/-- The problem after its first step, every spin up. Its first eight counters stand in word 1 of bank 0, the ninth in word 0. -/
def sampledProb : ProbSt :=
  ⟨⟨[], [], [], 0xFFFF, 0, [], none, none⟩, 1, 1, 0, 0, [0], [0], 0, 0, 0, [⟨0, false, false, none⟩], none, 0, 0, 0, 0, 0, 0, 0, [[0xFF]],
    [List.replicate 8 false], none, [(0, 1), (0, 0)], [], 0, 0, 0, 0, 0, 0, 0⟩

/-- Glove 1 owns bank 0, which is ON. The marks are not in the order of their lanes: that of an uncorrectable lane, lane 0 of word 0, stands
after one of word 1, where a look-up does not come to it. No command makes such a table, but O39 is stated for every state. -/
def hiddenMark : State :=
  { setBankState 0 3 (winSet (setDomain State.reset (bankDomain 0) 2) (bankOwnerAddr 0) 1) with
    mem := sampledImage
    ecc := [(wordAddr 0 1 / 8, .single), (wordAddr 0 0 / 8, .double)]
    launches := [(7, sampledLaunch)]
    probs := [(probKey 7 0, sampledProb)] }

/-- The problem's context. -/
def sampledCtx : ProbCtx := (probCtx hiddenMark 7 0).get (by decide +kernel)

theorem hiddenMark_ctx : probCtx hiddenMark 7 0 = some sampledCtx := (Option.some_get _).symm

/-- The banks of both words serve the launch, and no lane of theirs reads bad. -/
theorem hiddenMark_served : ∀ x ∈ sampledProb.counters,
    Served hiddenMark sampledCtx.l.glove x.1 x.2 ∧ accsNow hiddenMark x.1 = [] ∧ (wordAt hiddenMark x.1 x.2).2 = 0 := by
  unfold Served
  decide +kernel

/-- The ninth counter, which stands in the uncorrectable lane, gains nothing, though its spin is up. -/
theorem hiddenMark_uncounted : (match exec (.samplePoint ⟨7, 0, 1⟩) hiddenMark with
    | .next t => (counterVals sampledProb.counters t).getD 8 0
    | _ => 1) = 0 := by decide +kernel

/-- Refutes O39: its clause for a SAMPLE_POINT asks that no lane reads bad, but not that the marks are in order. In `hiddenMark` the add to
word 1 takes away the mark before the one of word 0, which is uncorrectable from then on, so its counter keeps its value (R45), while the clause
has it gain one. -/
theorem not_checkpointsAndSamples : ¬ Obligations.CheckpointsAndSamples := by
  intro holds
  obtain ⟨-, sample⟩ := holds hiddenMark 7 0 1 sampledCtx sampledProb (by unfold State.memOk; decide +kernel) hiddenMark_ctx rfl
    (by decide +kernel) rfl (by decide +kernel) (by decide) (by decide +kernel) (.inl rfl) (by decide +kernel)
  obtain ⟨t, run, -, -, -, gains, -⟩ := sample sampledBlk (by decide +kernel) (by decide) (by decide) (by decide +kernel) hiddenMark_served
    (by decide +kernel)
  have kept := hiddenMark_uncounted
  rw [run] at kept
  have gained := gains 8 (by decide)
  rw [show (counterVals sampledProb.counters t).getD 8 0 = 0 from kept] at gained
  exact absurd gained (by decide +kernel)

end Sys2Proof.Machine
end

section
/-! PROOFS. Draws that land in the registers of a V-tile: SAMP in its uniform, Bernoulli and Gaussian forms (O17). -/

namespace Sys2Proof.Machine

/-! ## Registers that land under a mask (R244) -/

/-- The enabled lanes of a register that lands under a mask hold what was formed for them; the others hold what they held. -/
theorem vxGet_landOn_vxLand (d mask : Nat) (f : Nat → Nat) (poison : Bool) (T : Tile) {i : Nat} (hi : i < 256) :
    (vxGet (landOn (vxLand d mask ((List.range 256).map f) poison) T) d).getD i 0 =
      if laneOn mask i then w32 (f i) else (vxGet T d).getD i 0 := by
  refine (vxGet_vxTake (fun _ x => x) (fun l => w32 (((List.range 256).map f).getD l 0)) (nodup_lanesOn mask)
    (fun k hk => (mem_lanesOn.1 hk).1) d _ T i).trans ?_
  simp only [mem_lanesOn, hi, true_and, getD_map_range hi]

/-- Registers that land one after the other, each in its own place. -/
theorem vxGet_vxLand_each (d mask : Nat) (w : Nat → Nat → Nat) (poison : Bool) (T : Tile) {n k i : Nat} (hk : k < n) (hi : i < 256) :
    (vxGet (((List.range n).map fun k => vxLand (d + k) mask ((List.range 256).map (w k)) poison).foldl (fun y z => landOn z y) T)
      (d + k)).getD i 0 = if laneOn mask i then w32 (w k i) else (vxGet T (d + k)).getD i 0 := by
  rw [List.foldl_map]
  have landed := foldl_range_rec (P := fun n U => ∀ k, (vxGet U (d + k)).getD i 0 =
      if k < n ∧ laneOn mask i = true then w32 (w k i) else (vxGet T (d + k)).getD i 0)
    (f := fun y k => landOn (vxLand (d + k) mask ((List.range 256).map (w k)) poison) y) (s := T) n (fun k => by simp)
    fun m U _ before k => ?_
  · simpa only [hk, true_and] using landed k
  · by_cases same : k = m
    · subst same
      rw [vxGet_landOn_vxLand _ _ _ _ _ hi, before k]
      simp
    · rw [show vxGet (landOn (vxLand (d + m) mask _ poison) U) (d + k) = vxGet U (d + k) from
        vxGet_vxTake_other (by omega) _ _ _ _, before k]
      have reach : k < m + 1 ↔ k < m := by omega
      simp only [reach]

/-! ## Issue (R246) -/

/-- A SAMP of a form that looks nothing up has issued, and its registers are under way. -/
theorem draws_issued {s : State} {pos tc kind : Nat} {c : Ctx} {need : Ctx → Tile → List (Bool × Nat)}
    {land : Ctx → Bool → Tile → List Landing} (h : Issues s pos tc 0x24 (bits 31 0) c) (form : c.f 55 3 = kind) (five : kind < 5)
    (table : c.f 40 4 < 8) (good : ∀ p ∈ need c (tileOf (reached s pos tc) pos), p.1 = false) :
    let r := reached s pos tc
    let T := tileOf r pos
    ∃ (t u : State) (poison : Bool), samp pos tc kind need (fun _ => []) (fun _ _ => []) (fun _ => land) s = .next t ∧
      t = issued c ((land c poison T).map fun y => (12, .land y)) u ∧ tileOf u pos = tileAfter c 1 T ∧ TileFrame pos r u := by
  intro r T
  obtain ⟨rfl, -, -⟩ := h.spec
  obtain ⟨plan, v⟩ := h.onV (.inl rfl)
  obtain ⟨poison, run⟩ := samp_runs (need := need) (reads := fun _ => []) (looks := fun _ _ => []) (land := fun _ => land) h form five table good
  refine ⟨_, drawsCounted c (lanesOn (c.f 32 8)).length poison r, poison, run, ?_, tileOf_drawsCounted _ _ _ _, tileFrame_drawsCounted v _ _ _⟩
  rw [romCheck_sound (List.forall_mem_nil _), issued, if_neg (by rw [plan]; decide)]

section Lands

variable (c : Ctx) (T : Tile)

/-- The words of an enabled lane's draw. -/
def laneDraw (i : Nat) : List Nat := (drawOf T (c.f 44 3)).at (seedOf T c) i

/-! ## Uniform words and near-Gaussian values (R192, R198) -/

theorem uniformLand_lands (poison : Bool) {k i : Nat} (hk : k < 4) (hi : i < 256) :
    (vxGet ((uniformLand c poison T).foldl (fun y z => landOn z y) T) (c.f 51 4 + k)).getD i 0 =
      if laneOn (c.f 32 8) i then w32 ((laneDraw c T i).getD k 0) else (vxGet T (c.f 51 4 + k)).getD i 0 := by
  unfold uniformLand
  simp only [List.map_map]
  rw [vxGet_vxLand_each _ _ _ _ _ hk hi]
  by_cases on : laneOn (c.f 32 8) i = true
  · simp only [on, if_true, Function.comp_apply]
    rfl
  · rw [if_neg on, if_neg on]

theorem gaussianLand_lands (poison : Bool) {i : Nat} (hi : i < 256) :
    (vxGet ((gaussianLand c poison T).foldl (fun y z => landOn z y) T) (c.f 51 4)).getD i 0 =
      if laneOn (c.f 32 8) i then w32 (unsigned 32 (noiseOf (laneDraw c T i))) else (vxGet T (c.f 51 4)).getD i 0 := by
  refine (vxGet_landOn_vxLand _ _ _ _ _ hi).trans ?_
  by_cases on : laneOn (c.f 32 8) i = true
  · simp only [on, if_true]
    rfl
  · rw [if_neg on, if_neg on]

/-! ## Bernoulli masks (R197) -/

/-- Whether a word of a lane's draw lies below the threshold. -/
def laneBelow (i k : Nat) : Bool :=
  let d := drawOf T (c.f 44 3)
  decide ((steppe (counter (d.base / 4 + i) d.replica d.step d.tag d.stream) (seedOf T c)).getD k 0 < fld (pmGet T (c.f 40 4)) 0 32)

/-- The four mask bits that a lane forms. -/
def maskBits (i : Nat) : Nat :=
  let d := drawOf T (c.f 44 3)
  (List.range 4).foldl (fun a k =>
    if (steppe (counter (d.base / 4 + i) d.replica d.step d.tag d.stream) (seedOf T c)).getD k 0 < fld (pmGet T (c.f 40 4)) 0 32 then a + 2 ^ k
    else a) 0

theorem maskBits_spec (i : Nat) : maskBits c T i < 2 ^ 4 ∧ ∀ k, k < 4 → bitOf (maskBits c T i) k = laneBelow c T i k := by
  have built : maskBits c T i = (List.range 4).foldl (fun a k => if laneBelow c T i k then a + 2 ^ k else a) 0 := by
    simp only [laneBelow, decide_eq_true_eq]
    rfl
  obtain ⟨bound, bits⟩ := testBit_mask (laneBelow c T i) 4
  rw [built]
  exact ⟨bound, fun k hk => (bits k).trans (by rw [decide_eq_true hk, Bool.true_and])⟩

/-- The mask as the register holds it: the first 32 lanes, as one number. -/
def oldMask : Nat := leNat (((vxGet T (c.f 51 4)).take 32).flatMap (leBytes 4))

/-- The four bits of each lane as the mask lands. -/
def maskDigit (i : Nat) : Nat := if laneOn (c.f 32 8) i then maskBits c T i else fld (oldMask c T) (4 * i) 4

theorem bernoulliLand_eq (poison : Bool) :
    bernoulliLand c poison T = [.lanes (c.f 51 4) ((List.range 32).map fun i => (i, fld (packDigits 4 (maskDigit c T) 256) (32 * i) 32))
      (if poison then some true else none)] := rfl

theorem maskDigit_lt (i : Nat) : maskDigit c T i < 2 ^ 4 := by
  unfold maskDigit
  split
  · exact (maskBits_spec c T i).1
  · exact Nat.mod_lt _ (by norm_num)

/-- A bit of the mask that the register holds stands in its lane. -/
theorem bitOf_oldMask {j o : Nat} (hj : j < 32) (ho : o < 32) : bitOf (oldMask c T) (32 * j + o) = bitOf ((vxGet T (c.f 51 4)).getD j 0) o := by
  have lane : ((vxGet T (c.f 51 4)).take 32).getD j 0 = (vxGet T (c.f 51 4)).getD j 0 := by
    simp [hj]
  rw [bitOf_eq_fld, oldMask, fld_lanes _ _ _ _ (by omega), lane, ← bitOf_eq_fld]

/-- Bit e of the mask as it lands stands in its lane: formed by an enabled lane, kept by a disabled one. -/
theorem bernoulliLand_lands (poison : Bool) {i k : Nat} (hi : i < 256) (hk : k < 4) :
    bitOf ((vxGet ((bernoulliLand c poison T).foldl (fun y z => landOn z y) T) (c.f 51 4)).getD ((4 * i + k) / 32) 0) ((4 * i + k) % 32) =
      if laneOn (c.f 32 8) i then laneBelow c T i k else bitOf ((vxGet T (c.f 51 4)).getD ((4 * i + k) / 32) 0) ((4 * i + k) % 32) := by
  obtain ⟨j, o, hj, ho, place⟩ : ∃ j o, j < 32 ∧ o < 32 ∧ 4 * i + k = 32 * j + o :=
    ⟨(4 * i + k) / 32, (4 * i + k) % 32, by omega, by omega, by omega⟩
  have lane : (4 * i + k) / 32 = j := by omega
  have bit : (4 * i + k) % 32 = o := by omega
  have word : (vxGet ((bernoulliLand c poison T).foldl (fun y z => landOn z y) T) (c.f 51 4)).getD j 0 =
      fld (packDigits 4 (maskDigit c T) 256) (32 * j) 32 := by
    rw [bernoulliLand_eq]
    refine (vxGet_vxTake (fun _ x => x) (fun i => fld (packDigits 4 (maskDigit c T) 256) (32 * i) 32) List.nodup_range
      (fun k hk => (List.mem_range.1 hk).trans (by decide)) _ _ T j).trans (if_pos (List.mem_range.2 hj))
  have digit : bitOf (maskDigit c T i) k = bitOf (packDigits 4 (maskDigit c T) 256) (4 * i + k) := by
    rw [← fld_packDigits (fun l _ => maskDigit_lt c T l) hi, bitOf, testBit_fld]
    simp [hk, bitOf]
  have here : bitOf (fld (packDigits 4 (maskDigit c T) 256) (32 * j) 32) o = bitOf (packDigits 4 (maskDigit c T) 256) (4 * i + k) := by
    rw [bitOf, testBit_fld, place]
    simp [ho, bitOf]
  rw [lane, bit, word, here, ← digit, maskDigit]
  by_cases on : laneOn (c.f 32 8) i = true
  · rw [if_pos on, if_pos on, (maskBits_spec c T i).2 k hk]
  · rw [if_neg on, if_neg on, bitOf, testBit_fld, place, ← bitOf, bitOf_oldMask c T hj ho]
    simp [hk]

end Lands

/-! ## The obligation -/

/-- Settles O17: each form by its issue, then by what lands in the lanes, each from the draw of its own counter. -/
theorem drawsAreKeyedByLogicalIdentity : Obligations.DrawsAreKeyedByLogicalIdentity := by
  unfold Obligations.DrawsAreKeyedByLogicalIdentity
  intro s pos tc c h table
  refine ⟨fun form registers => ?_, fun form aligned _ => ?_, fun form => ?_⟩
  · obtain ⟨t, u, poison, run, way, tile, frame⟩ := draws_issued (need := fun c _ => [(decide (12 < c.f 51 4), excOperand)])
      (land := uniformLand) h form (by decide) table (by simpa using registers)
    exact ⟨t, u, _, run, way, tile, frame, fun k i hk hi => uniformLand_lands c _ poison hk hi⟩
  · obtain ⟨t, u, poison, run, way, tile, frame⟩ := draws_issued (need := fun c u => [((drawOf u (c.f 44 3)).base % 4 != 0, excOperand)])
      (land := bernoulliLand) h form (by decide) table (by simpa using aligned)
    exact ⟨t, u, _, run, way, tile, frame, fun i k hi hk => bernoulliLand_lands c _ poison hi hk⟩
  · obtain ⟨t, u, poison, run, way, tile, frame⟩ := draws_issued (need := fun _ _ => []) (land := gaussianLand) h form (by decide) table
      (List.forall_mem_nil _)
    exact ⟨t, u, _, run, way, tile, frame, fun i hi => gaussianLand_lands c _ poison hi⟩

end Sys2Proof.Machine
end

section
/-! PROOFS. VLD, VST, VOP, VLUT and DINC: their issue, the words of a VLD, and lanes that come due (O16). -/

namespace Sys2Proof.Machine

/-! ## Lanes that a VX register takes (R243) -/

/-- A set of numbers with one put in or taken out. -/
theorem contains_marked (i k : Nat) (p : Bool) (l : List Nat) :
    (if p then i :: l.filter (· != i) else l.filter (· != i)).contains k = if k = i then p else l.contains k := by
  by_cases same : k = i
  · subst same
    cases p <;> simp
  · cases p <;> simp [same]

theorem vxPoison_vxTake (i k : Nat) (f : Nat → Nat → Nat) (new : List (Nat × Nat)) (mark : Option Bool) (T : Tile) :
    vxPoison (vxTake i f new mark T) k = if k = i then mark.getD (vxPoison T i) else vxPoison T k := by
  cases mark with
  | some p => exact contains_marked i k p T.v.poison
  | none =>
    change vxPoison T k = _
    split
    · rename_i same
      rw [same]
      rfl
    · rfl

/-- A register that takes lanes leaves the words of every other register. -/
theorem vx_vxTake_other {i k : Nat} (h : k ≠ i) (f : Nat → Nat → Nat) (new : List (Nat × Nat)) (mark : Option Bool) (T : Tile) :
    kget (vxTake i f new mark T).v.vx k = kget T.v.vx k := by
  cases mark <;> exact kget_kput_other _ _ (Ne.symm h)

/-- Lanes that are named once each have one word each. -/
theorem word_of_lane {new : List (Nat × Nat)} (once : (new.map (·.1)).Nodup) : ∃ g : Nat → Nat, ∀ y ∈ new, g y.1 = y.2 := by
  induction new with
  | nil => exact ⟨fun _ => 0, by simp⟩
  | cons p new ih =>
    obtain ⟨fresh, once⟩ := List.nodup_cons.1 once
    obtain ⟨g, words⟩ := ih once
    refine ⟨Function.update g p.1 p.2, List.forall_mem_cons.2 ⟨Function.update_self _ _ _, fun y hy => ?_⟩⟩
    rw [Function.update_of_ne (fun same => fresh (List.mem_map.2 ⟨y, hy, same⟩)), words y hy]

/-- A register that takes lanes, each named once, holds their words; its other lanes are as before. -/
theorem vxGet_vxTake_pairs {new : List (Nat × Nat)} (within : ∀ y ∈ new, y.1 < 256) (once : (new.map (·.1)).Nodup) (i : Nat)
    (mark : Option Bool) (T : Tile) :
    let v := vxTake i (fun _ x => x) new mark T
    (∀ y ∈ new, (vxGet v i).getD y.1 0 = y.2) ∧ ∀ k, (∀ y ∈ new, y.1 ≠ k) → (vxGet v i).getD k 0 = (vxGet T i).getD k 0 := by
  obtain ⟨g, words⟩ := word_of_lane once
  have pairs : (new.map (·.1)).map (fun k => (k, g k)) = new := by
    conv_rhs => rw [← List.map_id new]
    rw [List.map_map]
    exact List.map_congr_left fun y hy => Prod.ext rfl (words y hy)
  have taken := vxGet_vxTake (fun _ x => x) g once (List.forall_mem_map.2 within) i mark T
  rw [pairs] at taken
  refine ⟨fun y hy => ?_, fun k other => ?_⟩
  · rw [taken, if_pos (List.mem_map_of_mem hy), words y hy]
  · rw [taken, if_neg]
    rintro listed
    obtain ⟨y, hy, same⟩ := List.mem_map.1 listed
    exact other y hy same

/-- What lands alone in its tc stands in its tile from then on, and its register is ready (R226). -/
theorem landing_lands {s : State} {x : Item} {l : List Item} {y : Landing} (h : Alone s x l) (act : x.act = .land y) :
    advance x.tc s = setTile x.c.pos { landOn y (tileOf s x.c.pos) with
      ready := kput (landOn y (tileOf s x.c.pos)).ready y.key x.tc } (dueState s x l) := by
  rw [advance_land h act]
  unfold landNow readyNow
  rw [adjTile, tileOf_adjTile_self, adjTile, setTile_setTile]
  rfl

theorem lanes_land {s : State} {x : Item} {l : List Item} {i : Nat} {new : List (Nat × Nat)} {mark : Option Bool} (h : Alone s x l)
    (act : x.act = .land (.lanes i new mark)) (within : ∀ y ∈ new, y.1 < 256) (once : (new.map (·.1)).Nodup) :
    let T := tileOf s x.c.pos
    let t := advance x.tc s
    t = { dueState s x l with tiles := t.tiles } ∧ TilesKept x.c.pos s t ∧
    (∀ y ∈ new, (vxGet (tileOf t x.c.pos) i).getD y.1 0 = y.2) ∧
    (∀ k, k < 256 → (∀ y ∈ new, y.1 ≠ k) → (vxGet (tileOf t x.c.pos) i).getD k 0 = (vxGet T i).getD k 0) ∧
    (vxPoison (tileOf t x.c.pos) i = mark.getD (vxPoison T i)) ∧
    ∀ k, k ≠ i → kget (tileOf t x.c.pos).v.vx k = kget T.v.vx k ∧ vxPoison (tileOf t x.c.pos) k = vxPoison T k := by
  intro T t
  have landed : t = setTile x.c.pos _ (dueState s x l) := landing_lands h act
  have tile : (tileOf t x.c.pos).v = (vxTake i (fun _ x => x) new mark T).v := by
    rw [landed, tileOf_setTile_self]
    rfl
  have get (k : Nat) : vxGet (tileOf t x.c.pos) k = vxGet (vxTake i (fun _ x => x) new mark T) k := by
    unfold vxGet
    rw [tile]
  have poison (k : Nat) : vxPoison (tileOf t x.c.pos) k = vxPoison (vxTake i (fun _ x => x) new mark T) k := by
    unfold vxPoison
    rw [tile]
  obtain ⟨put, kept⟩ := vxGet_vxTake_pairs within once i mark T
  refine ⟨by rw [landed]; rfl, fun q hq => ?_, fun y hy => ?_, fun k _ other => ?_, ?_, fun k hk => ⟨?_, ?_⟩⟩
  · rw [landed]
    exact kget_kput_other _ _ (Ne.symm hq)
  · rw [get, put y hy]
  · rw [get, kept k other]
  · rw [poison, vxPoison_vxTake, if_pos rfl]
  · rw [tile, vx_vxTake_other hk]
  · rw [poison, vxPoison_vxTake, if_neg hk]

/-! ## A word of a VLD is read (R105, R244) -/

theorem vld_read {s : State} {x : Item} {l : List Item} {b w j arg : Nat} {got : List (Nat × Nat)} (h : Alone s x l)
    (vld : x.c.f 58 6 = 0x20) (act : x.act = .read b w j got arg) (served : Served s x.c.glove b w) :
    let c := x.c
    let d := wordAt s b w
    advance x.tc s = dueIn c ((if c.f 56 2 = 1 then 5 else 2, .land (.lanes (c.f 36 4)
        ((List.range 16).map fun k => (16 * j + k, fld d.1 (32 * k) 32))
        (if d.2 != 0 then some true else if j = 15 ∧ got.all (fun k => k.2 == 0) = true then some false else none))) ::
      if j < c.f 32 4 then [(1, .read b (w + 1) (j + 1) (got ++ [(0, d.2)]) arg)] else []) (readState s x l b w) := by
  intro c d
  have cmn : readsCmn c = (c.f 56 2 == 1) := by simp [readsCmn, c, vld]
  have kept : keepWord c got d = got ++ [(0, d.2)] := by simp [keepWord, c, vld]
  have more : (if j < c.f 32 4 then [(1, Act.read b (w + 1) (j + 1) (got ++ [(0, d.2)]) arg)] else []) =
      nextRead c b w j arg (keepWord c got d) := by
    rw [kept]
    unfold nextRead
    have count : readCount c (got ++ [(0, d.2)]) = c.f 32 4 + 1 := by simp [readCount, c, vld]
    rw [count]
    simp only [Nat.add_lt_add_iff_right]
  rw [more, ← List.singleton_append]
  refine advance_read_dueIn h act served (by simp [vld]) (readOn_dueIn (by simp [vld]) (by simp [vld]) (fun late => ?_) fun late => ?_)
    (positive_append ?_ (nextRead_positive _ _ _ _ _ _)) (readState_now s x l b w) (later_readState h b w)
  · unfold useWord
    rw [vld, show readsCmn x.c = (c.f 56 2 == 1) from cmn]
    simp only [beq_iff_eq]
    rfl
  · unfold lastWord
    rw [vld]
    rfl
  · simp only [List.mem_singleton, forall_eq]
    split <;> decide

/-- VLUT runs on V-tiles (R232). -/
theorem Issues.vlutOnV {s : State} {pos tc r : Nat} {c : Ctx} (h : Issues s pos tc 0x23 r c) : kindOf pos = .v := by
  have legal := fetch_legal h.2.2.1 (h.inPlan rfl)
  cases k : kindOf pos with
  | v => rfl
  | _ => rw [k] at legal; exact absurd legal (by decide)

section Issue

variable {s : State} {pos tc : Nat} {c : Ctx}

/-! ## Loads and stores (R244) -/

/-- A VLD or a VST holds port A for its words. -/
theorem holdUnits_vector {c : Ctx} (vector : c.f 58 6 = 0x20 ∨ c.f 58 6 = 0x21) (s : State) :
    holdUnits c 0 s = underWay c [(c.f 32 4 + 1, .free unitPortA)] s := by
  have held : unitsHeld (kindOf c.pos) c.word 0 = [(unitPortA, c.f 32 4 + 1)] := by
    rcases vector with vld | vst
    · rw [unitsHeld, show fld c.word 58 6 = 0x20 from vld]
      rfl
    · rw [unitsHeld, show fld c.word 58 6 = 0x21 from vst]
      rfl
  rw [holdUnits_eq, held]
  rfl

theorem vld_issued (h : Issues s pos tc 0x20 (bits 31 0) c) (space : c.f 56 2 < 2) :
    let r := reached s pos tc
    let T := tileOf r pos
    let a := addrBank pos (c.f 56 2 == 1) (c.f 40 16)
    ∃ t u, exec (.vld pos tc) s = .next t ∧ tileOf u pos = tileAfter c 1 T ∧ TileFrame pos r u ∧
      t = issued c [(if c.f 56 2 = 1 then 2 else 1, .read a.1 a.2 0 [] 0), (c.f 32 4 + 1, .free unitPortA)] u := by
  obtain ⟨rfl, -, -⟩ := h.spec
  obtain ⟨vld, -⟩ := fetch_opcode h.2.2.1
  intro r T a
  refine ⟨_, stepOn c 1 r, ?_, tileOf_stepOn c 1 _, tileFrame_stepOn c 1 _, rfl⟩
  change execVld c.pos tc s = _
  refine runInstr_issued h ((if_neg (Nat.not_le.2 space)).trans ?_)
  rw [holdUnits_vector (.inl vld), startRead_eq]
  rfl

theorem vst_issued (h : Issues s pos tc 0x21 (bits 31 0) c) (space : c.f 56 2 < 2)
    (clean : c.dry ≠ 0 ∨ vxPoison (tileOf (reached s pos tc) pos) (c.f 36 4) = false) :
    let r := reached s pos tc
    let T := tileOf r pos
    let a := addrBank pos (c.f 56 2 == 1) (c.f 40 16)
    ∃ t u, exec (.vst pos tc) s = .next t ∧ tileOf u pos = tileAfter c 1 T ∧ TileFrame pos r u ∧
      t = issued c (((List.range (c.f 32 4 + 1)).map fun j =>
        (2 + j, .store a.1 (a.2 + j) (.write 0 (leBytes 64 (vxRead T (c.f 36 4) j))))) ++ [(c.f 32 4 + 1, .free unitPortA)]) u := by
  obtain ⟨rfl, -, -⟩ := h.spec
  obtain ⟨vst, -⟩ := fetch_opcode h.2.2.1
  intro r T a
  refine ⟨_, stepOn c 1 r, ?_, tileOf_stepOn c 1 _, tileFrame_stepOn c 1 _, rfl⟩
  change execVst c.pos tc s = _
  refine runInstr_issued h ((if_neg (Nat.not_le.2 space)).trans ((goes_on (early c · r) _ _ (issueCause_poison clean)).trans ?_))
  dsimp only
  rw [holdUnits_vector (.inr vst), underWay, underWay, List.foldl_append, List.foldl_map]

/-! ## VOP (R245) -/

theorem vop_issued (h : Issues s pos tc 0x22 0 c) (known : c.f 52 6 < 22) :
    let r := reached s pos tc
    let T := tileOf r pos
    ∃ t u, exec (.vop pos tc) s = .next t ∧ t = issued c ((vopLand c T).map fun y => (3, .land y)) u ∧
      tileOf u pos = tileAfter c 1 T ∧ TileFrame pos r u := by
  obtain ⟨rfl, -, -⟩ := h.spec
  intro r T
  refine ⟨_, stepOn c 1 r, ?_, rfl, tileOf_stepOn c 1 _, tileFrame_stepOn c 1 _⟩
  change execVop c.pos tc s = _
  exact runInstr_issued h ((if_neg (by omega)).trans (landIn_eq _ _ _ _))

end Issue

section Vop

variable (T : Tile) {c : Ctx}

/-! What a VOP lands, function by function. -/

theorem vopLand_lanes (fn : c.f 52 6 < 17 ∨ c.f 52 6 = 18) : ∃ poison, vopLand c T =
    [vxLand (c.f 48 4) (c.f 0 8) ((List.range 256).map fun l =>
      vopLane (c.f 52 6) (c.f 8 32) (vxGet T (c.f 44 4)) ((vxGet T (c.f 44 4)).getD l 0) ((vxGet T (c.f 40 4)).getD l 0)) poison] := by
  unfold vopLand
  dsimp only
  split
  case h_5 => exact ⟨_, rfl⟩
  all_goals omega

theorem vopLand_flags (fn : c.f 52 6 = 17) :
    vopLand c T = [flLanes ((lanesOn (c.f 0 8)).filter fun l => (vxGet T (c.f 44 4)).getD l 0 != 0)] := by
  unfold vopLand
  rw [fn]
  rfl

/-- Lanes as a mask of bits. -/
def laneMask (ls : List Nat) : Nat := ls.foldl (fun g l => g + 2 ^ l) 0

theorem vopLand_marks (fn : c.f 52 6 = 19) :
    vopLand c T = [.gm (laneMask (lanesOn (c.f 0 8))) (laneMask ((lanesOn (c.f 0 8)).filter fun l => (vxGet T (c.f 44 4)).getD l 0 != 0))] := by
  unfold vopLand
  rw [fn]
  rfl

theorem vopLand_event (fn : c.f 52 6 = 20) :
    vopLand c T = if laneOn (c.f 0 8) 0 then [pairLand (c.f 48 4) (T.v.ev.getD (c.f 8 32 % 4) 0)] else [] := by
  unfold vopLand
  rw [fn]
  rfl

theorem vopLand_clear (fn : c.f 52 6 = 21) : vopLand c T = [.evClear (c.f 8 32 % 4)] := by
  unfold vopLand
  rw [fn]
  rfl

/-- The bits of a mask of lanes are its lanes. -/
theorem bitOf_laneMask (p : Nat → Bool) (j : Nat) : bitOf (laneMask ((List.range 256).filter p)) j = (decide (j < 256) && p j) := by
  rw [laneMask, List.foldl_filter]
  exact (testBit_mask p 256).2 j

/-- GM after it takes the bits that a mask names. -/
def gmTake (mask v old : Nat) : Nat :=
  (List.range 256).foldl (fun g l => g + ofBool (bitOf (if bitOf mask l then v else old) l) * 2 ^ l) 0

theorem landOn_gm (mask v : Nat) : landOn (.gm mask v) T = { T with v := { T.v with gm := gmTake mask v T.v.gm } } := rfl

/-- GM takes the bits of a mask and keeps the others (R245). -/
theorem bitOf_gmTake (mask v old : Nat) {i : Nat} (hi : i < 256) :
    bitOf (gmTake mask v old) i = if bitOf mask i then bitOf v i else bitOf old i := by
  have step (g l : Nat) (b : Bool) : g + ofBool b * 2 ^ l = if b then g + 2 ^ l else g := by cases b <;> simp [ofBool]
  unfold gmTake
  simp only [step]
  rw [bitOf, (testBit_mask _ 256).2 i, decide_eq_true hi, Bool.true_and]
  split <;> rfl

/-- A u64 that lands in two lanes stands in them. -/
theorem vxGet_landOn_pairLand (d v : Nat) :
    (vxGet (landOn (pairLand d v) T) d).getD 0 0 = fld v 0 32 ∧ (vxGet (landOn (pairLand d v) T) d).getD 1 0 = fld v 32 32 := by
  obtain ⟨put, -⟩ := vxGet_vxTake_pairs (new := [(0, fld v 0 32), (1, fld v 32 32)]) (by simp) (by simp) d none T
  exact ⟨put (0, fld v 0 32) (by simp), put (1, fld v 32 32) (by simp)⟩

theorem vop_marks (fn : c.f 52 6 = 19) {i : Nat} (hi : i < 256) :
    bitOf ((vopLand c T).foldl (fun y z => landOn z y) T).v.gm i =
      if laneOn (c.f 0 8) i then (vxGet T (c.f 44 4)).getD i 0 != 0 else bitOf T.v.gm i := by
  rw [vopLand_marks T fn, List.foldl_cons, List.foldl_nil, landOn_gm]
  dsimp only
  refine (bitOf_gmTake _ _ _ hi).trans ?_
  rw [lanesOn, List.filter_filter, bitOf_laneMask, bitOf_laneMask, decide_eq_true hi, Bool.true_and, Bool.true_and]
  by_cases on : laneOn (c.f 0 8) i = true
  · simp only [on, if_true, Bool.and_true]
  · rw [if_neg on, if_neg on]

theorem vop_flags (fn : c.f 52 6 = 17) {i : Nat} (hi : i < 256) :
    bitOf ((vopLand c T).foldl (fun y z => landOn z y) T).fl i =
      (bitOf T.fl i || (laneOn (c.f 0 8) i && (vxGet T (c.f 44 4)).getD i 0 != 0)) := by
  rw [vopLand_flags T fn]
  refine (bitOf_landOn_flLanes _ _ i).trans ?_
  simp only [List.mem_filter, mem_lanesOn, hi, true_and]
  rw [Bool.decide_and, Bool.decide_eq_true, Bool.decide_eq_true]

theorem vx_landOn_flLanes (ls : List Nat) : (landOn (flLanes ls) T).v.vx = T.v.vx := rfl
theorem vx_landOn_gm (mask v : Nat) : (landOn (.gm mask v) T).v.vx = T.v.vx := by
  obtain ⟨g, land⟩ : ∃ g, landOn (.gm mask v) T = { T with v := { T.v with gm := g } } := ⟨_, landOn_gm T mask v⟩
  rw [land]
theorem vx_landOn_lanes_other {d k : Nat} (h : k ≠ d) (new : List (Nat × Nat)) (mark : Option Bool) :
    kget (landOn (.lanes d new mark) T).v.vx k = kget T.v.vx k := vx_vxTake_other h _ _ _ T

/-- A VOP writes no VX register but its destination, and that only by the functions that have one. -/
theorem vop_kept (known : c.f 52 6 < 22) {k : Nat} (h : k ≠ c.f 48 4 ∨ c.f 52 6 = 17 ∨ c.f 52 6 = 19 ∨ c.f 52 6 = 21) :
    kget ((vopLand c T).foldl (fun y z => landOn z y) T).v.vx k = kget T.v.vx k := by
  obtain fn | fn | fn | fn | fn :
      c.f 52 6 = 17 ∨ c.f 52 6 = 19 ∨ c.f 52 6 = 21 ∨ c.f 52 6 = 20 ∨ (c.f 52 6 < 17 ∨ c.f 52 6 = 18) := by omega
  · rw [vopLand_flags T fn, List.foldl_cons, List.foldl_nil, vx_landOn_flLanes]
  · rw [vopLand_marks T fn, List.foldl_cons, List.foldl_nil, vx_landOn_gm]
  · rw [vopLand_clear T fn]
    rfl
  · have other : k ≠ c.f 48 4 := by omega
    rw [vopLand_event T fn]
    split
    · rw [List.foldl_cons, List.foldl_nil, pairLand, vx_landOn_lanes_other T other]
    · rfl
  · have other : k ≠ c.f 48 4 := by omega
    obtain ⟨poison, land⟩ := vopLand_lanes T fn
    rw [land, List.foldl_cons, List.foldl_nil, vxLand, vx_landOn_lanes_other T other]

end Vop

/-! ## VLUT (R199 to R201, R244) -/

theorem vlutLand_lands (c : Ctx) (s : State) {i : Nat} (hi : i < 256) :
    let T := tileOf s c.pos
    let z := sl (vxGet T (c.f 44 4)) i
    (vxGet ((vlutLand c s).foldl (fun y z => landOn z y) T) (c.f 48 4)).getD i 0 =
      if laneOn (c.f 0 8) i then w32 (if bitOf c.word 57 then tileLogistic s c.pos z else tileExp s c.pos z)
      else (vxGet T (c.f 48 4)).getD i 0 := by
  intro T z
  refine (vxGet_landOn_vxLand _ _ _ _ _ hi).trans ?_
  by_cases on : laneOn (c.f 0 8) i = true
  · simp only [on, if_true]
    rfl
  · rw [if_neg on, if_neg on]

/-- A word whose parity fails sets VT_SFAULT.LUT_PARITY (R201, R219). -/
theorem romCheck_failing {c : Ctx} (v : kindOf c.pos = .v) {lg : Bool} {reads : List Nat} {s : State}
    (fails : ∃ k ∈ reads, romFails s c.pos lg k = true) : bitOf (winGet (romCheck c lg reads s) (tileBase c.pos + 0xF1000)) 0 = true := by
  have home : regHome (tileBase c.pos + 0xF1000) = tileBase c.pos + 0xF1000 := regHome_tile _ 0xF1000 (by decide) (.inr (.inr (ne_of_kind_v v)))
  have flagged : bitOf (winGet (vtFault c 0 s) (tileBase c.pos + 0xF1000)) 0 = true := by
    rw [vtFault, winPut, winGet_winSet_self, bitOf_eq_fld, fld_mod_two_pow _ _ _ _ (by decide), fld_putFld_self]
    rfl
  obtain ⟨k, found⟩ : ∃ k, reads.find? (romFails s c.pos lg) = some k := Option.isSome_iff_exists.1 (List.find?_isSome.2 fails)
  unfold romCheck
  rw [found]
  dsimp only
  rw [winGet_report _ _ _ _ _ _ _ (by rw [home]; omega)]
  exact flagged

section Vlut

variable {s : State} {pos tc : Nat} {c : Ctx}

/-- A VLUT has issued, its register is under way, and the words that it reads have been checked. -/
theorem vlut_runs (h : Issues s pos tc 0x23 (bits 56 52 ||| bits 43 8) c) :
    let r := reached s pos tc
    exec (.vlut pos tc) s = .next (romCheck c (bitOf c.word 57) (vlutReads c (tileOf r pos))
      (underWay c ((vlutLand c r).map fun y => (4, .land y)) (stepOn c 1 r))) := by
  intro r
  obtain ⟨rfl, -, -⟩ := h.spec
  change execVlut c.pos tc s = _
  rw [← landIn_eq]
  exact runInstr_inPlan h (h.inPlan rfl) _

theorem vlut_issued (h : Issues s pos tc 0x23 (bits 56 52 ||| bits 43 8) c) :
    let r := reached s pos tc
    let T := tileOf r pos
    ∃ t, exec (.vlut pos tc) s = .next t ∧ t.mem = r.mem ∧ TilesKept pos r t ∧
      tileOf t pos = { tileAfter c 1 T with slots := (tileOf t pos).slots } ∧
      t.agenda = (issued c ((vlutLand c r).map fun y => (4, .land y)) r).agenda ∧
      ((∀ k ∈ vlutReads c T, romFails r pos (bitOf c.word 57) k = false) →
        ∃ u, t = issued c ((vlutLand c r).map fun y => (4, .land y)) u ∧ tileOf u pos = tileAfter c 1 T ∧ TileFrame pos r u) ∧
      ((∃ k ∈ vlutReads c T, romFails r pos (bitOf c.word 57) k = true) → bitOf (winGet t (tileBase pos + 0xF1000)) 0 = true) := by
  intro r T
  have plan : c.free = false := h.inPlan rfl
  have v : kindOf pos = .v := h.vlutOnV
  have run := vlut_runs h
  obtain ⟨rfl, -, -⟩ := h.spec
  let u := stepOn c 1 r
  let acts : List (Nat × Act) := (vlutLand c r).map fun y => (4, .land y)
  have whole : TileFrame c.pos r u := tileFrame_stepOn c 1 r
  have tile : tileOf u c.pos = tileAfter c 1 T := tileOf_stepOn c 1 r
  have ⟨only, others, _, _⟩ := whole
  have before : u.agenda = r.agenda := by rw [only]
  have way (t : State) : issued c acts t = underWay c acts t := by rw [issued, if_neg (by rw [plan]; decide)]
  have roms : romFails (underWay c acts u) c.pos (bitOf c.word 57) = romFails r c.pos (bitOf c.word 57) := by
    have same : (underWay c acts u).rom = r.rom := by rw [underWay_eq, only]
    funext k
    unfold romFails
    rw [same]
  obtain ⟨mem, later, kept, own⟩ := romCheck_spec c (bitOf c.word 57) (vlutReads c T) (underWay c acts u)
  refine ⟨_, run, mem.trans ?_, fun q hq => (kept q hq).trans ?_, own.trans ?_, later.trans ?_,
    fun sound => ⟨u, ?_, tile, whole⟩, fun fails => ?_⟩
  · rw [underWay_eq, only]
  · rw [underWay_eq]
    exact others q hq
  · rw [tileOf_underWay, tile]
  · rw [way, agenda_underWay_congr plan acts before]
  · rw [way]
    exact romCheck_sound (by rwa [roms])
  · exact romCheck_failing v (by rwa [roms])

end Vlut

/-! ## DINC (R244) -/

/-- A field of a descriptor that lands has moved by the increment, and no other register has changed. -/
theorem pmGet_landOn_dd (i lo w : Nat) (by_ : Int) (v : Tile) :
    pmGet (landOn (.dd i lo w by_) v) i = putFld (pmGet v i) lo w (unsigned w ((fld (pmGet v i) lo w : Int) + by_)) % 2 ^ 128 ∧
      pmBad (landOn (.dd i lo w by_) v) i = pmBad v i ∧ ∀ k, k ≠ i → pmGet (landOn (.dd i lo w by_) v) k = pmGet v k :=
  ⟨kgetD_kput_self _ _ _ _, (contains_marked i i (pmBad v i) v.pmPoison).trans (if_pos rfl), fun _ hk => kgetD_kput_other _ _ _ (Ne.symm hk)⟩

theorem dinc_issued {s : State} {pos tc : Nat} {c : Ctx} (h : Issues s pos tc 0x29 (bits 19 0) c) (field : c.f 52 3 < 5)
    (clean : c.dry ≠ 0 ∨ pmBad (tileOf (reached s pos tc) pos) (8 + c.f 55 3) = false) :
    let r := reached s pos tc
    let q := ddField (c.f 52 3)
    ∃ t u, exec (.dinc pos tc) s = .next t ∧ t = issued c [(1, .land (.dd (8 + c.f 55 3) q.1 q.2 (signed 32 (c.f 20 32))))] u ∧
      tileOf u pos = tileAfter c 1 (tileOf r pos) ∧ TileFrame pos r u := by
  obtain ⟨rfl, -, -⟩ := h.spec
  intro r q
  refine ⟨_, stepOn c 1 r, ?_, rfl, tileOf_stepOn c 1 _, tileFrame_stepOn c 1 _⟩
  change execDinc c.pos tc s = _
  exact runInstr_issued h ((if_neg (Nat.not_le.2 field)).trans (goes_on (early c · r) _ _ (issueCause_poison clean)))

/-! ## The obligation -/

/-- Settles O16: each instruction by its issue and what it lands, then a word of a VLD and lanes that are alone in their tc. -/
theorem vectorLoadStoreAndOperateComplete : Obligations.VectorLoadStoreAndOperateComplete := by
  unfold Obligations.VectorLoadStoreAndOperateComplete
  refine ⟨fun s pos tc c => ⟨vld_issued, vst_issued, fun h known => ?_, fun h => ?_, fun h field clean => ?_⟩,
    fun s x l b w j arg got h vld act served => ⟨_, afterRead_readState s x l b w, vld_read h vld act served⟩,
    fun s x l i new mark h act within once => lanes_land h act within once⟩
  · obtain ⟨t, u, run, way, tile, frame⟩ := vop_issued h known
    refine ⟨t, u, _, run, way, tile, frame, fun fn i hi => ?_, fun fn i hi => vop_flags _ fn hi, fun fn i hi => vop_marks _ fn hi,
      fun fn on => ?_, fun fn => ?_, fun k other => vop_kept _ known other⟩
    · obtain ⟨poison, land⟩ := vopLand_lanes (tileOf (reached s pos tc) pos) fn
      rw [land]
      exact vxGet_landOn_vxLand _ _ _ _ _ hi
    · rw [vopLand_event _ fn, if_pos on]
      exact vxGet_landOn_pairLand _ _ _
    · rw [vopLand_clear _ fn]
      rfl
  · obtain ⟨here, -, -⟩ := h.spec
    obtain ⟨t, run, mem, kept, own, later, sound, fails⟩ := vlut_issued h
    subst here
    exact ⟨t, _, run, mem, kept, own, later, sound, fails, fun i hi => vlutLand_lands c _ hi⟩
  · obtain ⟨t, u, run, way, tile, frame⟩ := dinc_issued h field clean
    exact ⟨t, u, _, run, way, tile, frame, fun v => pmGet_landOn_dd _ _ _ _ v⟩

end Sys2Proof.Machine
end
